-- ==== Sys2Proof/Word.lean ====
section
/-! DEFINITION. Words, bit fields, fixed tables, sparse memories and the plain arithmetic every other file uses. -/

namespace Sys2Proof

/-- One byte of memory (R5: multi-byte fields are little-endian). -/
abbrev Byte := BitVec 8
/-- A 32-bit register or word. -/
abbrev W32 := BitVec 32
/-- A 64-bit register or word. -/
abbrev W64 := BitVec 64

/-- Partition number. -/
abbrev Part := Fin 16
/-- Quad number; Cornice engine e belongs to quad e (R99). -/
abbrev Quad := Fin 16
/-- Chrodom port. -/
abbrev Port := Fin 8
/-- DRAM stack. -/
abbrev Stack := Fin 8
/-- DRAM channel 16 s + d (R245). -/
abbrev Chan := Fin 128
/-- Fire group s × 64 + d × 4 + g (R106). -/
abbrev Group := Fin 512
/-- Session number. -/
abbrev Sess := Fin 4096
/-- Ring queue of a partition. -/
abbrev Queue := Fin 8
/-- Wavelength position of a direction. -/
abbrev Pos := Fin 18
/-- Logical lane of a direction. -/
abbrev Lane := Fin 16

/-- Field NAME[hi:lo] of a word held as a number. -/
def fld (w hi lo : Nat) : Nat := w / 2 ^ lo % 2 ^ (hi + 1 - lo)

/-- Single-bit field NAME[i]. -/
def bitAt (w i : Nat) : Bool := w / 2 ^ i % 2 == 1

/-- 1 for true, 0 for false: a status bit as a number. -/
def bnat (b : Bool) : Nat := if b then 1 else 0

/-- A word packed from its fields (hi, lo, value); a value is cut to its field. -/
def pack : List (Nat × Nat × Nat) → Nat
  | [] => 0
  | (hi, lo, v) :: r => v % 2 ^ (hi + 1 - lo) * 2 ^ lo + pack r

/-- A word with field [hi:lo] replaced. -/
def setFld (w hi lo v : Nat) : Nat :=
  w - fld w hi lo * 2 ^ lo + v % 2 ^ (hi + 1 - lo) * 2 ^ lo

/-- Saturating counters of the registers: never above `m`. -/
def satAdd (a b m : Nat) : Nat := if a + b > m then m else a + b

/-- Two's-complement reading of the low `bits` bits of `w`. -/
def sgn (bits w : Nat) : Int :=
  let v := w % 2 ^ bits
  if v < 2 ^ (bits - 1) then (v : Int) else (v : Int) - (2 ^ bits : Nat)

/-- Two's-complement word of an integer. -/
def unsgn (bits : Nat) (v : Int) : Nat := (v % ((2 ^ bits : Nat) : Int)).toNat

/-- Upward division. -/
def cdiv (a b : Nat) : Nat := (a + b - 1) / b

/-- The number of set bits below `n`. -/
def popN : Nat → Nat → Nat
  | 0, _ => 0
  | n + 1, w => bnat (bitAt w n) + popN n w

/-- The set bits of `w` below `n`, ascending. -/
def bitsOf (n w : Nat) : List Nat := (List.range n).filter (fun i => bitAt w i)

/-- A mask with bit i set for each i of the list, each counted once. -/
def maskOf (n : Nat) (p : Nat → Bool) : Nat :=
  ((List.range n).map (fun i => if p i then 2 ^ i else 0)).sum

/-! ## Little-endian bytes -/

/-- The `n` little-endian bytes of a number (R5). -/
def leBytes : Nat → Nat → List Byte
  | 0, _ => []
  | n + 1, v => BitVec.ofNat 8 v :: leBytes n (v / 256)

/-- The number a little-endian byte string stands for (R5). -/
def leNat : List Byte → Nat
  | [] => 0
  | b :: r => b.toNat + 256 * leNat r

/-- The number a big-endian byte string stands for. -/
def beNat (bs : List Byte) : Nat := leNat bs.reverse

/-- Big-endian bytes. -/
def beBytes (n v : Nat) : List Byte := (leBytes n v).reverse

/-- `n` bytes at offset `off` of a byte string; bytes past its end read 0. -/
def sliceB (bs : List Byte) (off n : Nat) : List Byte :=
  let r := (bs.drop off).take n
  r ++ List.replicate (n - r.length) 0

/-- Little-endian field of `n` bytes at offset `off`. -/
def leAt (bs : List Byte) (off n : Nat) : Nat := leNat ((bs.drop off).take n)

/-- Whether every byte of the range is zero (the RSV bytes of a record). -/
def zeroB (bs : List Byte) (off n : Nat) : Bool := ((bs.drop off).take n).all (· == 0)

/-! ## Fixed tables -/

/-- Entry i of a fixed table. -/
def tget {α : Type} {n : Nat} (v : Vector α n) (i : Fin n) : α := v.get i

/-- A fixed table with entry i replaced. -/
def upd {α : Type} {n : Nat} (v : Vector α n) (i : Fin n) (x : α) : Vector α n :=
  v.set i.val x i.isLt

/-- A fixed table with entry i passed through `f`. -/
def updWith {α : Type} {n : Nat} (v : Vector α n) (i : Fin n) (f : α → α) : Vector α n :=
  upd v i (f (v.get i))

/-- The table whose entry i is `f i`. -/
def tab {α : Type} (n : Nat) (f : Fin n → α) : Vector α n :=
  ⟨⟨(List.finRange n).map f⟩, by simp⟩

/-- Every entry passed through `f`. -/
def vmap {α β : Type} {n : Nat} (f : α → β) (v : Vector α n) : Vector β n :=
  ⟨⟨v.toList.map f⟩, by simp⟩

/-- Every entry passed through `f` with its index. -/
def vmapIdx {α β : Type} {n : Nat} (f : Fin n → α → β) (v : Vector α n) : Vector β n :=
  tab n (fun i => f i (v.get i))

/-- A table of one value. -/
def rep {α : Type} (n : Nat) (x : α) : Vector α n := Vector.replicate n x

/-- Fold over a fixed table in index order. -/
def vfold {α β : Type} {n : Nat} (f : β → Fin n → α → β) (b : β) (v : Vector α n) : β :=
  (List.finRange n).foldl (fun acc i => f acc i (v.get i)) b

/-- The sum of a number read from every entry. -/
def vsum {α : Type} {n : Nat} (f : α → Nat) (v : Vector α n) : Nat := (v.toList.map f).sum

/-- Bit i of a mask per entry. -/
def vmask {α : Type} {n : Nat} (p : α → Bool) (v : Vector α n) : Nat :=
  ((List.finRange n).map (fun i => if p (v.get i) then 2 ^ i.val else 0)).sum

/-! ## Sparse memories -/

/-- Sparse data by key: keys strictly rising, no entry equal to what an unlisted key reads as. -/
abbrev Sparse (α : Type) := List (Nat × α)

/-- What a key holds; `d` when it is not listed. -/
def spGet {α : Type} (d : α) : Sparse α → Nat → α
  | [], _ => d
  | (k, v) :: r, a => if a = k then v else if a < k then d else spGet d r a

/-- The list with key `a` set to `x`, in canonical form. -/
def spSet {α : Type} [DecidableEq α] (d : α) : Sparse α → Nat → α → Sparse α
  | [], a, x => if x = d then [] else [(a, x)]
  | (k, v) :: r, a, x =>
    if a < k then (if x = d then (k, v) :: r else (a, x) :: (k, v) :: r)
    else if a = k then (if x = d then r else (a, x) :: r)
    else (k, v) :: spSet d r a x

/-- Every key of [lo, lo + n) returned to the unlisted value. -/
def spClear {α : Type} (m : Sparse α) (lo n : Nat) : Sparse α :=
  m.filter (fun e => ¬ (lo ≤ e.1 ∧ e.1 < lo + n))

/-- The canonical form: keys strictly rising and no default entries. -/
def spWf {α : Type} [DecidableEq α] (d : α) : Sparse α → Bool
  | [] => true
  | [(_, v)] => decide (v ≠ d)
  | (k, v) :: (k', v') :: r => decide (v ≠ d) && decide (k < k') && spWf d ((k', v') :: r)

/-- Bytes written at consecutive addresses from `a`. -/
def spWrite (m : Sparse Byte) : Nat → List Byte → Sparse Byte
  | _, [] => m
  | a, b :: r => spSet 0 (spWrite m (a + 1) r) a b

/-- `n` bytes read from `a` upward; an unlisted byte reads 0. -/
def spRead (m : Sparse Byte) (a : Nat) : Nat → List Byte
  | 0 => []
  | n + 1 => spGet 0 m a :: spRead m (a + 1) n

/-! ## Units of time (crystal cycles of 40 ns) -/

/-- Crystal cycles in a microsecond. -/
def usCyc (n : Nat) : Nat := n * 25
/-- Crystal cycles in a millisecond. -/
def msCyc (n : Nat) : Nat := n * 25000
/-- Crystal cycles in a second. -/
def sCyc (n : Nat) : Nat := n * 25000000

end Sys2Proof
end

