-- ==== Sys2Proof/Syntax.lean ====
section
/-! DEFINITION. The commands of the block: one constructor per row of spec/opcode_table.json, with the row's
operands. A value that the device measures (a converter code, a temperature, whether a PLL locked) comes with the
command that the measurement belongs to. -/

namespace Sys2Proof

/-- R455: whose BAR 0 a register access uses: physical function 0, or the virtual function of a partition. -/
inductive Space
  | pf | vf (p : Part)
  deriving DecidableEq, Repr

/-- R35: the four monitored rails. -/
inductive Rail
  | core | spur | vddq | opt
  deriving DecidableEq, Repr

/-- R370, R371: what the device reads of a seated cartridge. -/
structure SeatInput where
  /-- the EEPROM's 8,192 bytes when they differ from those last read (another cartridge) -/
  eeprom : Option (List Byte)
  /-- the authentication element acknowledges on the bus -/
  ack : Bool
  /-- the element's answer to the challenge verifies under the certificate's key -/
  challengeOk : Bool
  /-- the signatures of usage pages A and B verify -/
  sigA : Bool
  sigB : Bool
  /-- cartridge temperature, 1/16 °C -/
  temp : Int
  deriving DecidableEq, Repr

/-- R64: which timed step of the start completes, with what the device measured in it. -/
inductive StartStep
  /-- step 2: the boot ROM has read and checked the firmware slots -/
  | firmware
  /-- step 3: the Cairn integrity sweep -/
  | cairnSweep
  /-- step 4a, or self-refresh exit: `fails` bit s: stack s failed; `temps`: each stack's sensor in 1/16 °C, none
  for FAULT; `testFails`: bank self-test failures (group, bank mask) -/
  | dram (fails : Nat) (temps : Vector (Option Int) 8) (testFails : List (Group × Nat))
  /-- step 4b begins: the cartridge read and its authentication, and the two photonic-die temperatures -/
  | optics (seat : SeatInput) (die0 die1 : Option Int)
  /-- step 5: the default structure fetched and verified, or the retention copy restored -/
  | structureFetch
  deriving DecidableEq, Repr

/-- R57: the sources of a wake. -/
inductive WakeSrc
  | demand | firmware
  deriving DecidableEq, Repr

/-- R85: what firmware reads of a settings package. The manual does not give the package's layout, so the command
carries its contents (log 20). -/
structure SettingsPkg where
  /-- the anchor slot under whose key the signature verifies, none for none -/
  anchor : Option (Fin 8)
  serial : Nat
  seq : Nat
  /-- the records of R82, word by word -/
  records : List Nat
  deriving DecidableEq, Repr

/-- R86, R88: how the programming of a Cairn generation ended. -/
inductive ProgEnd
  /-- every word was done within 8 pulses; `readback`: step 5 passed -/
  | done (readback : Bool)
  /-- the word of this index was not done after 8 pulses -/
  | notDone (word : Fin 1024)
  deriving DecidableEq, Repr

/-- R166: the resets of the physical function. -/
inductive PfResetKind
  | hot | linkDown | flr
  deriving DecidableEq, Repr

/-- R406: a converted reading of one sensor: its selector, 1/16 °C, and FAULT. -/
structure Reading where
  sel : Fin 113
  temp : Int
  fault : Bool
  deriving DecidableEq, Repr

/-- R345: a HELLO as received. -/
structure HelloMsg where
  devIndex : Nat
  port : Port
  devCount : Nat
  topo : Nat
  torusW : Nat
  serial : Nat
  deriving DecidableEq, Repr

/-- R374: the faults of a laser driver. -/
inductive DriverFaultKind
  | overcurrent | open_ | short
  deriving DecidableEq, Repr

/-- R430: the causes of a device-fatal error. -/
inductive FatalCause
  | sysPll | trvPll | mgmtUe | mgmtWatchdog
  deriving DecidableEq, Repr

/-- The commands, in the order of spec/opcode_table.json. -/
inductive Instr
  /-- REGISTER_WRITE. R8, R4, R7: a write of `val` to the register at offset `off` of space `sp`, one 64-bit access when `wide`, else one 32-bit access of the low 32 bits -/
  | registerWrite (sp : Space) (off : Nat) (wide : Bool) (val : W64)
  /-- LOW_HALF_WRITE. R7: a 32-bit write at the offset of the low half of a 64-bit register -/
  | lowHalfWrite (sp : Space) (off : Nat) (val : W32)
  /-- HIGH_HALF_WRITE. R7: a 32-bit write at `off`, the offset of a 64-bit register, of its high half (bytes off + 4) -/
  | highHalfWrite (sp : Space) (off : Nat) (val : W32)
  /-- RC_READ. R8, R7: a read of the register at `off`, 64-bit when `wide`; a 32-bit read at offset + 4 reads a high half -/
  | rcRead (sp : Space) (off : Nat) (wide : Bool)
  /-- COL_POWER_ON_RESET_EXIT. R460, R26: Col leaves power-on reset with these levels on its lands -/
  | colPowerOnResetExit (pwrGood resetN tripN envSel smb1 smb0 : Bool)
  /-- VDD_COL_LOSS. R43: VDD_COL leaves its window -/
  | vddColLoss
  /-- PWR_GOOD_RISE. R31, R25, R39: PWR_GOOD rises; `envSel` is the strap level and `xtalOk` whether the crystal measures within 2 % -/
  | pwrGoodRise (envSel xtalOk : Bool)
  /-- PWR_GOOD_FALL. R34 -/
  | pwrGoodFall
  /-- RESET_N_FALL. R36 -/
  | resetNFall
  /-- RESET_N_RISE. R31, R39 -/
  | resetNRise (xtalOk : Bool)
  /-- INTERNAL_RESET_RELEASE. R31 -/
  | internalResetRelease
  /-- UNDERVOLTAGE_TRIP. R35 -/
  | undervoltageTrip (rail : Rail)
  /-- CRYSTAL_FAULT. R39 -/
  | crystalFault
  /-- TRIP_N_ASSERT. R376 -/
  | tripNAssert
  /-- ORDERLY_STOP_DONE. R415 -/
  | orderlyStopDone
  /-- START_BEGIN. R61 -/
  | startBegin
  /-- START_STEP_DONE. R64: one timed step of the start completes, with what the device measured -/
  | startStepDone (st : StartStep)
  /-- START_READY. R72 -/
  | startReady
  /-- START_WATCHDOG_EXPIRY. R75 -/
  | startWatchdogExpiry
  /-- START_RETRY. R74 -/
  | startRetry
  /-- OPTICS_DEADLINE. R66 -/
  | opticsDeadline
  /-- OPTICS_RESUME. R66 -/
  | opticsResume (ctg : SeatInput)
  /-- RESTART_WARM. R63: a write of MBX_RESTART -/
  | restartWarm (val : W32)
  /-- RESTART_COLD. R63: a write of MBX_RESTART -/
  | restartCold (val : W32)
  /-- CLEAR_AND_RESTART. R63: a write of MBX_RESTART -/
  | clearAndRestart (val : W32)
  /-- QUAD_PLL_LOCK_LOST. R49 -/
  | quadPllLockLost (q : Quad)
  /-- QUAD_PLL_RELOCK_DONE. R49 -/
  | quadPllRelockDone (q : Quad) (ok : Bool)
  /-- QUAD_DEMOTE. R53 -/
  | quadDemote (q : Quad)
  /-- QUAD_ENTRY_DONE. R52 -/
  | quadEntryDone (q : Quad)
  /-- QUAD_WAKE_REQUEST. R57 -/
  | quadWakeRequest (q : Quad) (src : WakeSrc)
  /-- QUAD_PREWAKE. R56 -/
  | quadPrewake (q : Quad)
  /-- QUAD_WAKE_DONE. R50 -/
  | quadWakeDone (q : Quad)
  /-- QUAD_RELOAD_DONE. R51 -/
  | quadReloadDone (q : Quad)
  /-- CLK_QPOL_WRITE. R58 -/
  | clkQpolWrite (q : Quad) (val : W64)
  /-- CLK_QFORCE_WRITE. R59 -/
  | clkQforceWrite (val : W32)
  /-- CAIRN_READ. R92: a write of CAI_RD_CTRL -/
  | cairnRead (val : W32)
  /-- CAIRN_PROGRAM. R86: VPP_OTP as measured in mV, the hottest junction reading in 1/16 °C, whether reading the package failed, and the package -/
  | cairnProgram (vppMv : Nat) (hot : Int) (bad : Bool) (pkg : SettingsPkg)
  /-- CAIRN_PROGRAM_DONE. R87 -/
  | cairnProgramDone (res : ProgEnd)
  /-- STRUCT_LOAD. R113: `bad`: the host memory or flash read of the header failed -/
  | structLoad (bad : Bool)
  /-- STRUCT_LOAD_STAGE_DONE. R110: `bad`: the copy's source read failed -/
  | structLoadStageDone (bad : Bool)
  /-- STRUCT_COMMIT. R113 -/
  | structCommit
  /-- STRUCT_ABORT. R113 -/
  | structAbort
  /-- STAGED_HOLD_EXPIRY. R113 -/
  | stagedHoldExpiry
  /-- STRUCT_LOAD_TIMEOUT. R115 -/
  | structLoadTimeout
  /-- QUIESCE_HOLD_END. R134 -/
  | quiesceHoldEnd (p : Part)
  /-- DRAIN_LIMIT_EXPIRY. R130 -/
  | drainLimitExpiry (p : Part)
  /-- ZEROIZATION_DONE. R134 -/
  | zeroizationDone (p : Part)
  /-- STRUCT_SWITCH. R113 -/
  | structSwitch
  /-- HOLD_TIMEOUT. R131 -/
  | holdTimeout (p : Part)
  /-- HANDOFF_SLOT_TIMEOUT. R120 -/
  | handoffSlotTimeout (p : Part)
  /-- TIME_SLICE_EXPIRY. R124: shared resource r: channel 0 to 127, or 128 the reload engine -/
  | timeSliceExpiry (r : Fin 129)
  /-- SQ_DOORBELL. R145 -/
  | sqDoorbell (p : Part) (q : Queue) (val : W32)
  /-- CQ_DOORBELL. R145 -/
  | cqDoorbell (p : Part) (q : Queue) (val : W32)
  /-- QUEUE_ENABLE. R144 -/
  | queueEnable (p : Part) (q : Queue) (val : W32)
  /-- QUEUE_DISABLE. R169 -/
  | queueDisable (p : Part) (q : Queue) (val : W32)
  /-- DESCRIPTOR_FETCH. R146 -/
  | descriptorFetch (p : Part) (bad : Bool)
  /-- NOP. R151 -/
  | nop (id : Nat)
  /-- COPY. R152: `bad`: a host read of the source failed -/
  | copy (id : Nat) (bad : Bool)
  /-- COPY_DONE. R151 -/
  | copyDone (id : Nat)
  /-- RUN. R153 -/
  | run (id : Nat)
  /-- RUN_LIMIT_EXPIRY. R153 -/
  | runLimitExpiry (id : Nat)
  /-- FENCE. R154 -/
  | fence (id : Nat)
  /-- FENCE_SATISFIED. R154 -/
  | fenceSatisfied (id : Nat)
  /-- FENCE_TIMEOUT. R154 -/
  | fenceTimeout (id : Nat)
  /-- MSG_SEND. R155 -/
  | msgSend (id : Nat)
  /-- SESSION_OPEN. R172 -/
  | sessionOpen (id : Nat)
  /-- SET_HOLD. R184 -/
  | setHold (id : Nat)
  /-- CLEAR_HOLD. R184 -/
  | clearHold (id : Nat)
  /-- SET_GONE. R184 -/
  | setGone (id : Nat)
  /-- SET_ALIGNMENT. R183 -/
  | setAlignment (id : Nat)
  /-- SESSION_CLOSE. R184 -/
  | sessionClose (id : Nat)
  /-- AUDIO_IN. R174 -/
  | audioIn (id : Nat) (bad : Bool)
  /-- AUDIO_OUT. R180 -/
  | audioOut (id : Nat) (bad : Bool)
  /-- COMPLETION_WRITE. R147 -/
  | completionWrite (id : Nat)
  /-- COALESCE_TIMEOUT. R149 -/
  | coalesceTimeout (p : Part) (q : Queue)
  /-- VF_FLR. R165 -/
  | vfFlr (p : Part)
  /-- VF_BUS_MASTER_OFF. R165 -/
  | vfBusMasterOff (p : Part) (d3 : Bool)
  /-- PF_RESET. R166 -/
  | pfReset (kind : PfResetKind)
  /-- BAR2_ACCESS. R143: a read of `len` bytes, or a write of `data`, at byte `off` of BAR 2 -/
  | bar2Access (write : Bool) (off : Fin 268435456) (data : List Byte) (len : Nat) (poison : Bool)
  /-- MBX_DOORBELL. R162: a write of MBX_REQ_TAIL; `bad`: the fetch of the request at the head fails -/
  | mbxDoorbell (val : W32) (bad : Bool)
  /-- ERRLOG_READ. R441 -/
  | errlogRead
  /-- COL_READ. R164 -/
  | colRead
  /-- CAIRN_ID_READ. R164 -/
  | cairnIdRead
  /-- FLASH_READ. R164 -/
  | flashRead
  /-- FLASH_ERASE. R164: `ok`: the flash finished within its maximum time -/
  | flashErase (ok : Bool)
  /-- FLASH_PROGRAM. R164: `ok`: the flash finished in time and every page verified; `bad`: the host read failed -/
  | flashProgram (ok bad : Bool)
  /-- LINK_SWAP. R350 -/
  | linkSwap
  /-- CTG_INFO. R380 -/
  | ctgInfo
  /-- CTG_HOURS. R380 -/
  | ctgHours
  /-- LASER_POLICY. R380 -/
  | laserPolicy
  /-- CAL_FULL. R390 -/
  | calFull
  /-- CAL_SNAPSHOT. R397 -/
  | calSnapshot
  /-- CAL_EXPORT. R402 -/
  | calExport
  /-- CAL_IMPORT. R402 -/
  | calImport (bad : Bool)
  /-- THM_READ_ALL. R419: what the sensors measured -/
  | thmReadAll (readings : List Reading)
  /-- TRAVERSE_EPOCH_START. R170 -/
  | traverseEpochStart
  /-- TRAVERSE_TICK. R171 -/
  | traverseTick (phase : Fin 16)
  /-- CONTINUITY_WAIT_EXPIRY. R178 -/
  | continuityWaitExpiry (id : Nat)
  /-- STEP_COMPLETE. R424 -/
  | stepComplete (id : Nat)
  /-- VAD_SUBFRAME. R186 -/
  | vadSubframe (n : Sess)
  /-- GATE_SWEEP_VISIT. R187 -/
  | gateSweepVisit (n : Sess)
  /-- LATE_CHECK. R188 -/
  | lateCheck (n : Sess)
  /-- PLAYOUT_BLOCK_COMMIT. R181 -/
  | playoutBlockCommit (n : Sess)
  /-- PLAYOUT_QUARTER_WRITE. R182 -/
  | playoutQuarterWrite (n : Sess)
  /-- OUTBOUND_APPEND. R356: the k-th append waiting at the Traverse endpoint -/
  | outboundAppend (k : Nat)
  /-- SESSION_STATE_LOST. R192 -/
  | sessionStateLost (n : Sess)
  /-- ENTRY_START. R208 -/
  | entryStart (q : Quad)
  /-- ENTRY_FINISH. R208 -/
  | entryFinish (id : Nat)
  /-- ENTRY_STOP. R214 -/
  | entryStop (id : Nat)
  /-- STEP_LIMIT_EXPIRY. R214 -/
  | stepLimitExpiry (id : Nat)
  /-- SLEW_GRANT. R205 -/
  | slewGrant
  /-- CREST_NOP. R210 -/
  | crestNop (q : Quad) (t : Fin 4)
  /-- MATMUL. R200 -/
  | matmul (q : Quad) (t : Fin 4)
  /-- ELTWISE. R210 -/
  | eltwise (q : Quad) (t : Fin 4)
  /-- CONVERT. R201 -/
  | convert (q : Quad) (t : Fin 4)
  /-- MOVE. R211 -/
  | move (q : Quad) (t : Fin 4)
  /-- CREST_WAIT. R210 -/
  | crestWait (q : Quad) (t : Fin 4)
  /-- CREST_SIGNAL. R210 -/
  | crestSignal (q : Quad) (t : Fin 4)
  /-- RESULT. R210 -/
  | result (q : Quad) (t : Fin 4)
  /-- CREST_END. R210 -/
  | crestEnd (q : Quad) (t : Fin 4)
  /-- CORNICE_NOP. R227 -/
  | corniceNop (e : Quad)
  /-- CONV. R219 -/
  | conv (e : Quad)
  /-- RECODE. R227 -/
  | recode (e : Quad)
  /-- CROP. R224 -/
  | crop (e : Quad)
  /-- CORNICE_WAIT. R227 -/
  | corniceWait (e : Quad)
  /-- CORNICE_SIGNAL. R227 -/
  | corniceSignal (e : Quad)
  /-- CORNICE_END. R227 -/
  | corniceEnd (e : Quad)
  /-- HALO_PUBLISH. R232 -/
  | haloPublish (e : Quad) (down : Bool)
  /-- SPUR_JOB_LAND. R251 -/
  | spurJobLand (p : Part) (slot : Nat)
  /-- MATVEC. R253 -/
  | matvec (job : Nat)
  /-- GATHER. R257 -/
  | gather (job : Nat)
  /-- SCAN. R258 -/
  | scan (job : Nat)
  /-- SPUR_CLEAR. R250 -/
  | spurClear (c : Chan)
  /-- SPUR_LOAD. R250 -/
  | spurLoad (c : Chan)
  /-- SPUR_FIRE. R260 -/
  | spurFire (g : Group)
  /-- SPUR_FIRE_END. R262, R266: bit b of badBanks: bank b of the group failed its residue check -/
  | spurFireEnd (g : Group) (badBanks : Nat)
  /-- SPUR_DRAIN. R250 -/
  | spurDrain (c : Chan)
  /-- SPUR_JOB_DONE. R253 -/
  | spurJobDone (p : Part)
  /-- SPUR_SELFTEST. R265: bit b: bank b of the group failed -/
  | spurSelftest (g : Group) (fails : Nat)
  /-- SPUR_GROUP_GATE. R263 -/
  | spurGroupGate (g : Group)
  /-- REFRESH_DUE. R281 -/
  | refreshDue (g : Group)
  /-- GROUP_REFRESH. R282 -/
  | groupRefresh (g : Group)
  /-- WRITE_DRAIN_TIMEOUT. R279 -/
  | writeDrainTimeout (c : Chan)
  /-- BAND_SWITCH. R285 -/
  | bandSwitch (k : Stack) (band : Fin 5)
  /-- BAND_SWITCH_WINDOW. R285 -/
  | bandSwitchWindow (k : Stack)
  /-- SCRUB_STEP. R289 -/
  | scrubStep (c : Chan)
  /-- SELF_REFRESH_EXIT. R291: the sensor reading, none for FAULT -/
  | selfRefreshExit (k : Stack) (temp : Option Int)
  /-- DRAM_PLL_LOCK_LOST. R292 -/
  | dramPllLockLost (k : Stack)
  /-- DRAM_PLL_RELOCK_DONE. R292 -/
  | dramPllRelockDone (k : Stack) (ok : Bool) (temp : Option Int)
  /-- RING_FRAME. R312: the monitor codes sampled in the frame -/
  | ringFrame (p : Port) (codes : List Nat)
  /-- ADC_REQUEST. R321: a write of OPH_ADC_REQ -/
  | adcRequest (p : Port) (val : W32)
  /-- LANE_MOVE_SWITCH. R325 -/
  | laneMoveSwitch (p : Port) (rx : Bool)
  /-- FRAME_ALIGNED. R323: the training headers received at position g, oldest first -/
  | frameAligned (p : Port) (g : Pos) (hdrs : List (List Byte))
  /-- TRACKER_DOUBLE_STEP. R328 -/
  | trackerDoubleStep (p : Port) (g : Pos)
  /-- POSITION_RETRAIN_TIMEOUT. R329 -/
  | positionRetrainTimeout (p : Port) (g : Pos)
  /-- DIRECTION_RETRAIN. R330 -/
  | directionRetrain (p : Port) (rx : Bool)
  /-- LINK_PLL_LOCK_LOST. R331 -/
  | linkPllLockLost (p : Port)
  /-- LINK_PLL_RELOCK_DONE. R331 -/
  | linkPllRelockDone (p : Port) (ok : Bool)
  /-- FLIT_RECEIVE. R338: the 256 bytes taken; `ok` false: an uncorrectable FEC codeword; `ce`: symbols corrected since the last flit, per lane (R336) -/
  | flitReceive (p : Port) (flit : List Byte) (ok : Bool) (ce : List Nat)
  /-- LANE_LOCK_LOST. R336 -/
  | laneLockLost (p : Port) (l : Lane)
  /-- NAK_RECEIVE. R339 -/
  | nakReceive (p : Port) (ack : Nat)
  /-- REPLAY_TIMEOUT. R339 -/
  | replayTimeout (p : Port)
  /-- CSYNC. R343 -/
  | csync (p : Port) (ack : Nat) (freed : List Nat)
  /-- HELLO. R345 -/
  | hello (p : Port) (h : HelloMsg)
  /-- MOVE_ACK. R349 -/
  | moveAck (p : Port) (lane : Lane) (n : Nat)
  /-- MOVE_ACK_DEADLINE. R349 -/
  | moveAckDeadline (p : Port)
  /-- MOVE_CANCEL. R349 -/
  | moveCancel (p : Port) (lane : Lane) (n : Nat)
  /-- MOVE_REQ. R349 -/
  | moveReq (p : Port) (frm : Pos) (cause : Nat)
  /-- CAL_ANNOUNCE. R349 -/
  | calAnnounce (p : Port) (dir : Bool) (pos : Pos) (frame : Nat)
  /-- SWAP_REQ. R350 -/
  | swapReq (p : Port)
  /-- SWAP_GRANT. R350 -/
  | swapGrant (p : Port) (fs serial : Nat)
  /-- ROLE_SWAP_FRAME. R350 -/
  | roleSwapFrame (p : Port)
  /-- LINK_HOLD_EXPIRY. R357 -/
  | linkHoldExpiry (p : Port)
  /-- SEND_RECORD. R353 -/
  | sendRecord (p : Part)
  /-- HANDOFF_ARRIVAL. R354 -/
  | handoffArrival (p : Part)
  /-- HANDOFF_REPLY. R355 -/
  | handoffReply (p : Part)
  /-- REPLY_TIMEOUT. R355 -/
  | replyTimeout (p : Part) (tag : Nat)
  /-- INTLK_FALL. R376 -/
  | intlkFall
  /-- LATCH_OPEN. R376 -/
  | latchOpen
  /-- CARTRIDGE_SEATED. R370 -/
  | cartridgeSeated (ctg : SeatInput)
  /-- DRIVER_FAULT. R374 -/
  | driverFault (n : Fin 20) (kind : DriverFaultKind)
  /-- TRIP_CLEAR_ARM. R378: a write of LSR_TRIP_CLR -/
  | tripClearArm (val : W32)
  /-- TRIP_CLEAR. R378: a write of LSR_TRIP_CLR -/
  | tripClear (val : W32)
  /-- TRIP_CLEAR_SEQ_EXPIRY. R378 -/
  | tripClearSeqExpiry
  /-- LASER_WARMUP_SETTLED. R375 -/
  | laserWarmupSettled (ok : Bool)
  /-- LASER_OUT. R379 -/
  | laserOut (n : Fin 20)
  /-- SPARE_TUNED. R379 -/
  | spareTuned (n : Fin 20)
  /-- USAGE_RECORD_WRITE. R372 -/
  | usageRecordWrite
  /-- CTG_VDD_TRIP. R367 -/
  | ctgVddTrip
  /-- CTG_VDD_RECLOSE. R367 -/
  | ctgVddReclose
  /-- CAL_STEP_LIMIT. R389 -/
  | calStepLimit (p : Port)
  /-- CAL_FULL_TIMEOUT. R402 -/
  | calFullTimeout
  /-- ACQUISITION_RETRY. R391 -/
  | acquisitionRetry (p : Port) (g : Pos)
  /-- CAL_SLOT_START. R392 -/
  | calSlotStart (p : Port)
  /-- CAL_RX_START. R393 -/
  | calRxStart (p : Port)
  /-- CAL_RX_DONE. R393 -/
  | calRxDone (p : Port) (result : Nat)
  /-- CAL_ABORT. R394 -/
  | calAbort (p : Port) (cause : Nat)
  /-- SLOT_LIMIT_EXPIRY. R394 -/
  | slotLimitExpiry (p : Port)
  /-- ROLLBACK_TIMEOUT. R394 -/
  | rollbackTimeout (p : Port)
  /-- SNAPSHOT_CAPTURE. R397 -/
  | snapshotCapture
  /-- SNAPSHOT_FLASH_WRITE. R399 -/
  | snapshotFlashWrite (ok : Bool)
  /-- THM_REQUEST. R407: a write of THM_REQ -/
  | thmRequest (val : W32)
  /-- SENSOR_READING. R412 -/
  | sensorReading (r : Reading)
  /-- THERMAL_LAPSE. R409 -/
  | thermalLapse (n : Nat)
  /-- LIMIT_STEP_DOWN. R411 -/
  | limitStepDown
  /-- LIMIT_STEP_UP. R412 -/
  | limitStepUp
  /-- DEVICE_FATAL. R430 -/
  | deviceFatal (c : FatalCause)
  /-- MGMT_WATCHDOG_EXPIRY. R429 -/
  | mgmtWatchdogExpiry
  /-- LOW_HALF_READ. R7: a 32-bit read of the low half of the 64-bit register at `off` -/
  | lowHalfRead (sp : Space) (off : Nat)
  /-- TRIP_N_RELEASE. R378 -/
  | tripNRelease
  /-- INTLK_N_RISE. R376 -/
  | intlkNRise
  /-- LATCH_CLOSED. R376 -/
  | latchClosed
  /-- OVERCURRENT_RETRY. R379 -/
  | overcurrentRetry (n : Fin 20)
  /-- VPP_OTP_FALL. R88 -/
  | vppOtpFall
  /-- VF_BUS_MASTER_ON. R165 -/
  | vfBusMasterOn (p : Part)
  /-- LANE_LOCKED. R336 -/
  | laneLocked (p : Port) (l : Lane)
  /-- LINK_PLL_LOCKED. R331 -/
  | linkPllLocked (p : Port)
  /-- LANE_MOVE_MESSAGE. R349 -/
  | laneMoveMessage (p : Port) (lane : Lane) (frm dst : Pos) (cause n : Nat)
  deriving DecidableEq, Repr

end Sys2Proof
end

