-- ==== Sys2Proof/Decode.lean ====
section
/-! DEFINITION. The block has no encoded commands: no row of the opcode table gives bits, so no word spells one. -/

namespace Sys2Proof

/-- The command that a word of the table's bits spells: none, because no row of the table gives bits. -/
def decodeTableWord (_nbits _w : Nat) : Option Instr := none

end Sys2Proof
end

