-- ==== Sys2Proof/Machine/Crypto.lean ====
section
/-! DEFINITION. The checks of R5, R47 and R98: CRC-32C, SHA-256, SHA-384 (FIPS 180-4) and ECDSA over P-384
(FIPS 186-5). -/

namespace Sys2Proof.Machine

/-! ## CRC-32C (R5) -/

/-- One bit of the reflected CRC with polynomial 0x1EDC6F41 (reflected 0x82F63B78). -/
def crcBit (c : Nat) : Nat := if c % 2 = 1 then (c / 2) ^^^ 0x82F63B78 else c / 2

/-- Eight bits. -/
def crcByte (c : Nat) (b : Byte) : Nat :=
  crcBit (crcBit (crcBit (crcBit (crcBit (crcBit (crcBit (crcBit (c ^^^ b.toNat))))))))

/-- R5: the CRC-32C of a byte string. -/
def crc32c (bs : List Byte) : Nat := (bs.foldl crcByte 0xFFFFFFFF) ^^^ 0xFFFFFFFF

/-! ## SHA-2 (FIPS 180-4) -/

/-- Round constants of SHA-384: the first 64 bits of the fractional parts of cube roots of primes. -/
def sha512K : List Nat :=
  [0x428a2f98d728ae22, 0x7137449123ef65cd, 0xb5c0fbcfec4d3b2f, 0xe9b5dba58189dbbc,
   0x3956c25bf348b538, 0x59f111f1b605d019, 0x923f82a4af194f9b, 0xab1c5ed5da6d8118,
   0xd807aa98a3030242, 0x12835b0145706fbe, 0x243185be4ee4b28c, 0x550c7dc3d5ffb4e2,
   0x72be5d74f27b896f, 0x80deb1fe3b1696b1, 0x9bdc06a725c71235, 0xc19bf174cf692694] ++
  [0xe49b69c19ef14ad2, 0xefbe4786384f25e3, 0x0fc19dc68b8cd5b5, 0x240ca1cc77ac9c65,
   0x2de92c6f592b0275, 0x4a7484aa6ea6e483, 0x5cb0a9dcbd41fbd4, 0x76f988da831153b5,
   0x983e5152ee66dfab, 0xa831c66d2db43210, 0xb00327c898fb213f, 0xbf597fc7beef0ee4,
   0xc6e00bf33da88fc2, 0xd5a79147930aa725, 0x06ca6351e003826f, 0x142929670a0e6e70] ++
  [0x27b70a8546d22ffc, 0x2e1b21385c26c926, 0x4d2c6dfc5ac42aed, 0x53380d139d95b3df,
   0x650a73548baf63de, 0x766a0abb3c77b2a8, 0x81c2c92e47edaee6, 0x92722c851482353b,
   0xa2bfe8a14cf10364, 0xa81a664bbc423001, 0xc24b8b70d0f89791, 0xc76c51a30654be30,
   0xd192e819d6ef5218, 0xd69906245565a910, 0xf40e35855771202a, 0x106aa07032bbd1b8] ++
  [0x19a4c116b8d2d0c8, 0x1e376c085141ab53, 0x2748774cdf8eeb99, 0x34b0bcb5e19b48a8,
   0x391c0cb3c5c95a63, 0x4ed8aa4ae3418acb, 0x5b9cca4f7763e373, 0x682e6ff3d6b2b8a3,
   0x748f82ee5defb2fc, 0x78a5636f43172f60, 0x84c87814a1f0ab72, 0x8cc702081a6439ec,
   0x90befffa23631e28, 0xa4506cebde82bde9, 0xbef9a3f7b2c67915, 0xc67178f2e372532b] ++
  [0xca273eceea26619c, 0xd186b8c721c0c207, 0xeada7dd6cde0eb1e, 0xf57d4f7fee6ed178,
   0x06f067aa72176fba, 0x0a637dc5a2c898a6, 0x113f9804bef90dae, 0x1b710b35131c471b,
   0x28db77f523047d84, 0x32caab7b40c72493, 0x3c9ebe0a15c9bebc, 0x431d67c49c100d4c,
   0x4cc5d4becb3e42b6, 0x597f299cfc657e2a, 0x5fcb6fab3ad6faec, 0x6c44198c4a475817]

/-- Round constants of SHA-256. -/
def sha256K : List Nat :=
  [0x428a2f98, 0x71374491, 0xb5c0fbcf, 0xe9b5dba5, 0x3956c25b, 0x59f111f1, 0x923f82a4, 0xab1c5ed5,
   0xd807aa98, 0x12835b01, 0x243185be, 0x550c7dc3, 0x72be5d74, 0x80deb1fe, 0x9bdc06a7, 0xc19bf174,
   0xe49b69c1, 0xefbe4786, 0x0fc19dc6, 0x240ca1cc, 0x2de92c6f, 0x4a7484aa, 0x5cb0a9dc, 0x76f988da,
   0x983e5152, 0xa831c66d, 0xb00327c8, 0xbf597fc7, 0xc6e00bf3, 0xd5a79147, 0x06ca6351, 0x14292967] ++
  [0x27b70a85, 0x2e1b2138, 0x4d2c6dfc, 0x53380d13, 0x650a7354, 0x766a0abb, 0x81c2c92e, 0x92722c85,
   0xa2bfe8a1, 0xa81a664b, 0xc24b8b70, 0xc76c51a3, 0xd192e819, 0xd6990624, 0xf40e3585, 0x106aa070,
   0x19a4c116, 0x1e376c08, 0x2748774c, 0x34b0bcb5, 0x391c0cb3, 0x4ed8aa4a, 0x5b9cca4f, 0x682e6ff3,
   0x748f82ee, 0x78a5636f, 0x84c87814, 0x8cc70208, 0x90befffa, 0xa4506ceb, 0xbef9a3f7, 0xc67178f2]

/-- Initial hash value of SHA-384. -/
def sha384H : List Nat :=
  [0xcbbb9d5dc1059ed8, 0x629a292a367cd507, 0x9159015a3070dd17, 0x152fecd8f70e5939,
   0x67332667ffc00b31, 0x8eb44a8768581511, 0xdb0c2e0d64f98fa7, 0x47b5481dbefa4fa4]

/-- Initial hash value of SHA-256. -/
def sha256H : List Nat :=
  [0x6a09e667, 0xbb67ae85, 0x3c6ef372, 0xa54ff53a,
   0x510e527f, 0x9b05688c, 0x1f83d9ab, 0x5be0cd19]

/-- Rotation of a `w`-bit word to the right. -/
def rotr (w n x : Nat) : Nat := (x >>> n) ||| (x <<< (w - n)) % 2 ^ w

/-- The rotation and shift amounts of one SHA-2 variant: word width, Σ0, Σ1, σ0, σ1 (the last of each σ is a shift). -/
structure ShaParm where
  w : Nat
  s0 : Nat × Nat × Nat
  s1 : Nat × Nat × Nat
  l0 : Nat × Nat × Nat
  l1 : Nat × Nat × Nat

/-- SHA-384's. -/
def parm512 : ShaParm :=
  { w := 64, s0 := (28, 34, 39), s1 := (14, 18, 41), l0 := (1, 8, 7), l1 := (19, 61, 6) }
/-- SHA-256's. -/
def parm256 : ShaParm :=
  { w := 32, s0 := (2, 13, 22), s1 := (6, 11, 25), l0 := (7, 18, 3), l1 := (17, 19, 10) }

def shaSum (p : ShaParm) (r : Nat × Nat × Nat) (x : Nat) : Nat :=
  rotr p.w r.1 x ^^^ rotr p.w r.2.1 x ^^^ rotr p.w r.2.2 x
def shaSig (p : ShaParm) (r : Nat × Nat × Nat) (x : Nat) : Nat :=
  rotr p.w r.1 x ^^^ rotr p.w r.2.1 x ^^^ (x >>> r.2.2)

/-- The message schedule, latest word first: `n` more words after the sixteen of the block. -/
def shaSched (p : ShaParm) : Nat → List Nat → List Nat
  | 0, ws => ws
  | n + 1, ws =>
    let g := fun i => ws.getD i 0
    shaSched p n (((shaSig p p.l1 (g 1) + g 6 + shaSig p p.l0 (g 14) + g 15) % 2 ^ p.w) :: ws)

/-- The eight working variables. -/
structure ShaVars where
  a : Nat
  b : Nat
  c : Nat
  d : Nat
  e : Nat
  f : Nat
  g : Nat
  h : Nat

def ShaVars.ofList (l : List Nat) : ShaVars :=
  { a := l.getD 0 0, b := l.getD 1 0, c := l.getD 2 0, d := l.getD 3 0, e := l.getD 4 0, f := l.getD 5 0,
    g := l.getD 6 0, h := l.getD 7 0 }

def ShaVars.toList (v : ShaVars) : List Nat := [v.a, v.b, v.c, v.d, v.e, v.f, v.g, v.h]

/-- One round with constant `k` and schedule word `x`. -/
def shaRound (p : ShaParm) (v : ShaVars) (kx : Nat × Nat) : ShaVars :=
  let m := 2 ^ p.w
  let ch := (v.e &&& v.f) ^^^ ((m - 1 - v.e) &&& v.g)
  let maj := (v.a &&& v.b) ^^^ (v.a &&& v.c) ^^^ (v.b &&& v.c)
  let t1 := v.h + shaSum p p.s1 v.e + ch + kx.1 + kx.2
  let t2 := shaSum p p.s0 v.a + maj
  { a := (t1 + t2) % m, b := v.a, c := v.b, d := v.c, e := (v.d + t1) % m, f := v.e, g := v.f, h := v.g }

/-- One block of sixteen words. -/
def shaBlock (p : ShaParm) (ks : List Nat) (h : List Nat) (ws : List Nat) : List Nat :=
  let sched := (shaSched p (ks.length - 16) ws.reverse).reverse
  let v := (ks.zip sched).foldl (shaRound p) (ShaVars.ofList h)
  (h.zip v.toList).map (fun x => (x.1 + x.2) % 2 ^ p.w)

/-- A byte string cut into pieces of `n` bytes; `fuel` bounds the number of pieces. -/
def chunksOf (n : Nat) : Nat → List Byte → List (List Byte)
  | 0, _ => []
  | fuel + 1, bs => if bs.isEmpty then [] else bs.take n :: chunksOf n fuel (bs.drop n)

/-- The padded message: a 1 bit, zeros, and the bit length in the last `2 × w` bits of a block. -/
def shaPad (p : ShaParm) (bs : List Byte) : List Byte :=
  let blk := p.w * 2
  let len := p.w / 4
  let used := (bs.length + 1 + len) % blk
  bs ++ [0x80] ++ List.replicate ((blk - used) % blk) 0 ++ beBytes len (bs.length * 8)

/-- The hash value as a list of words. -/
def sha2 (p : ShaParm) (ks h0 : List Nat) (bs : List Byte) : List Nat :=
  let m := shaPad p bs
  let blk := p.w * 2
  (chunksOf blk (m.length / blk + 1) m).foldl
    (fun h c => shaBlock p ks h ((chunksOf (p.w / 8) 17 c).map beNat)) h0

/-- SHA-384: 48 bytes. -/
def sha384 (bs : List Byte) : List Byte :=
  ((sha2 parm512 sha512K sha384H bs).take 6).flatMap (beBytes 8)

/-- SHA-256: 32 bytes. -/
def sha256 (bs : List Byte) : List Byte :=
  (sha2 parm256 sha256K sha256H bs).flatMap (beBytes 4)

/-! ## ECDSA over P-384 (FIPS 186-5, SP 800-186) -/

/-- The field prime 2^384 − 2^128 − 2^96 + 2^32 − 1. -/
def p384p : Nat := 2 ^ 384 - 2 ^ 128 - 2 ^ 96 + 2 ^ 32 - 1
/-- The order of the base point. -/
def p384n : Nat :=
  0xffffffffffffffffffffffffffffffffffffffffffffffffc7634d81f4372ddf581a0db248b0a77aecec196accc52973
/-- The coefficient b. -/
def p384b : Nat :=
  0xb3312fa7e23ee7e4988e056be3f82d19181d9c6efe8141120314088f5013875ac656398d8a2ed19d2a85c8edd3ec2aef
/-- The base point. -/
def p384gx : Nat :=
  0xaa87ca22be8b05378eb1c71ef320ad746e1d3b628ba79b9859f741e082542a385502f25dbf55296c3a545e3872760ab7
def p384gy : Nat :=
  0x3617de4a96262c6f5d9e98bf9292dc29f8f41dbd289a147ce9da3113b5f0b8c00a60b1ce1d7e819d7a431d7c90ea0e5f

/-- `b ^ e mod m`; `fuel` bounds the bits of `e`. -/
def powMod (m : Nat) : Nat → Nat → Nat → Nat
  | 0, _, _ => 1 % m
  | fuel + 1, b, e =>
    if e = 0 then 1 % m
    else
      let h := powMod m fuel (b * b % m) (e / 2)
      if e % 2 = 1 then b * h % m else h

/-- The inverse modulo a prime (Fermat). -/
def invMod (m a : Nat) : Nat := powMod m 400 a (m - 2)

/-- A point in Jacobian coordinates; Z = 0 is the point at infinity. -/
structure JPoint where
  x : Nat
  y : Nat
  z : Nat

/-- Subtraction in the field. -/
def fsub (a b : Nat) : Nat := (a + p384p - b % p384p) % p384p

/-- Doubling on y² = x³ − 3x + b. -/
def JPoint.double (q : JPoint) : JPoint :=
  if q.z = 0 || q.y = 0 then { x := 1, y := 1, z := 0 }
  else
    let p := p384p
    let d := q.z * q.z % p
    let g := q.y * q.y % p
    let b := q.x * g % p
    let a := 3 * (fsub q.x d) * ((q.x + d) % p) % p
    let x3 := fsub (a * a) (8 * b)
    let z3 := 2 * q.y * q.z % p
    let y3 := fsub (a * fsub (4 * b) x3) (8 * g * g)
    { x := x3, y := y3, z := z3 }

/-- Addition of two points. -/
def JPoint.add (q r : JPoint) : JPoint :=
  if q.z = 0 then r
  else if r.z = 0 then q
  else
    let p := p384p
    let z1 := q.z * q.z % p
    let z2 := r.z * r.z % p
    let u1 := q.x * z2 % p
    let u2 := r.x * z1 % p
    let s1 := q.y * z2 * r.z % p
    let s2 := r.y * z1 * q.z % p
    if u1 = u2 then (if s1 = s2 then q.double else { x := 1, y := 1, z := 0 })
    else
      let h := fsub u2 u1
      let i := 4 * h * h % p
      let j := h * i % p
      let t := 2 * fsub s2 s1 % p
      let v := u1 * i % p
      let x3 := fsub (fsub (t * t) j) (2 * v)
      { x := x3, y := fsub (t * fsub v x3) (2 * s1 * j), z := 2 * q.z * r.z * h % p }

/-- `k` times a point; `fuel` bounds the bits of `k`. -/
def JPoint.mul (q : JPoint) : Nat → Nat → JPoint
  | 0, _ => { x := 1, y := 1, z := 0 }
  | fuel + 1, k =>
    if k = 0 then { x := 1, y := 1, z := 0 }
    else
      let h := (JPoint.mul q fuel (k / 2)).double
      if k % 2 = 1 then h.add q else h

/-- The affine x coordinate of a point that is not at infinity. -/
def JPoint.affineX (q : JPoint) : Nat :=
  let zi := invMod p384p q.z
  q.x * (zi * zi % p384p) % p384p

/-- The public key is a point of the curve. -/
def p384OnCurve (x y : Nat) : Bool :=
  decide (x < p384p) && decide (y < p384p) &&
    (y * y % p384p == (x * x % p384p * x + (p384p - 3) * x + p384b) % p384p)

/-- R98: ECDSA verification with the integer e taken from the 48 digest bytes. -/
def ecdsaVerify (qx qy r sg : Nat) (digest : List Byte) : Bool :=
  if r = 0 || sg = 0 || decide (p384n ≤ r) || decide (p384n ≤ sg) || ! p384OnCurve qx qy then false
  else
    let w := invMod p384n sg
    let u1 := beNat digest * w % p384n
    let u2 := r * w % p384n
    let g : JPoint := { x := p384gx, y := p384gy, z := 1 }
    let x := (g.mul 384 u1).add (JPoint.mul { x := qx, y := qy, z := 1 } 384 u2)
    decide (x.z ≠ 0) && x.affineX % p384n == r

end Sys2Proof.Machine
end

