-- ==== Sys2Proof/Config.lean ====
section
/-! DEFINITION. The free values: what the manual leaves open. They have no body, so nothing can prove a value of them. -/

namespace Sys2Proof

/-- A fresh open value: the n-th draw of the machine (State.free counts the draws). -/
opaque Config.freeBits : Nat → Nat

/-- R210: the relative error of an ELTWISE function of codes 0x05 to 0x08, in counts of 2^−44; the manual bounds it and
gives no value. Arguments: function code, format code, operand bit patterns. -/
opaque Config.eltwise : Nat → Nat → List Nat → Nat

/-- The value of an arithmetic corner for which the manual states no result: operation code and operands. -/
opaque Config.corner : Nat → List Nat → Nat

end Sys2Proof
end

