-- ==== Sys2Proof/Machine/StateCol.lean ====
section
/-! DEFINITION. State of the package pins, the Col island, the start sequence, the clocks and quads, Cairn, the flash,
and the structure loader (files 02 to 06 of the spec). Each field's comment ends with
[width; file, rule; value at reset]. -/

namespace Sys2Proof.Machine

/-- Levels on the slow pins, and what follows from their edges. -/
structure Pins where
  /-- PWR_GOOD level in force [1 bit; 02 R23, R460; 0] -/
  pwrGood : Bool
  /-- RESET_N level in force, true is high [1 bit; 02 R23, R460; 0] -/
  resetN : Bool
  /-- TRIP_N level, true is high (released) [1 bit; 02 R23, R460; DESIGN CHOICE 1 (log 10)] -/
  tripN : Bool
  /-- crystal cycle at which the last rising edge of PWR_GOOD counts, for the 1 ms of R31 [count; 02 R31, R460; none] -/
  pgRise : Option Nat
  /-- crystal cycle at which TRIP_N was released, for the 1 ms of R378 [count; 17 R378; none] -/
  tripRel : Option Nat
  deriving DecidableEq, Repr

/-- What Col records of one stack at self-refresh entry (R290). -/
structure SrRec where
  /-- Col timestamp of entry [64 bits; 13 R290; none] -/
  time : Nat
  /-- band in use at entry [3 bits; 13 R290; none] -/
  band : Nat
  deriving DecidableEq, Repr

/-- The Col island: identity, time base, records (R43). -/
structure Col where
  /-- Col is held in power-on reset [1 bit; 02 R31; 1] -/
  por : Bool
  /-- crystal cycles since Col left power-on reset; the Col timestamp is this count divided by 32
  [64 bits of timestamp; 03 R45; 0] -/
  cyc : Nat
  /-- COL_LIFE: life tag [64 bits; 03 R47; DESIGN CHOICE 1 until drawn (log 10)] -/
  life : Nat
  /-- COL_SERIAL: device serial, copied from Cairn at Col power-on reset [64 bits; 03; Cairn words 0 and 1] -/
  serial : Nat
  /-- COL_ID.GRADE is 2 [1 bit; 03, 00 R2; DESIGN CHOICE grade -1 (log 10)] -/
  grade2 : Bool
  /-- COL_STATUS.ENV_EXT: ENV_SEL as sampled [1 bit; 02 R25; 0] -/
  envExt : Bool
  /-- COL_STATUS.SMB_ADDR: SMBus address straps [2 bits; 02 R26; 0] -/
  smbAddr : Fin 4
  /-- COL_STATUS.UV_CORE, UV_SPUR, UV_VDDQ, UV_OPT [4 bits; 02 R35; 0] -/
  uv : Vector Bool 4
  /-- COL_STATUS.PWR_LOST, the host's copy [1 bit; 03, 04 R62; 1] -/
  pwrLost : Bool
  /-- the internal power-loss record [1 bit; 02 R37, 04 R62; DESIGN CHOICE 1 (log 10)] -/
  pwrLossRec : Bool
  /-- COL_STATUS.XTAL_FAULT [1 bit; 02 R39; 0] -/
  xtalFault : Bool
  /-- COL_STATUS.TIME_UNTRACED [1 bit; 03 R46; 0] -/
  timeUntraced : Bool
  /-- a crystal fault is in force, and holds internal reset [1 bit; 02 R39; 0] -/
  xtalBad : Bool
  /-- a crystal fault has been recorded since the last ready state [1 bit; 04 R62; 0] -/
  xtalSinceReady : Bool
  /-- COL_START.ATTEMPTS [2 bits; 04 R73; 0] -/
  attempts : Fin 4
  /-- COL_START.SAFE [1 bit; 04 R76; 0] -/
  safe : Bool
  /-- COL_START.LAST_WARM [1 bit; 04; 0] -/
  lastWarm : Bool
  /-- self-refresh record of each stack [8 records; 13 R290; none] -/
  srRec : Vector (Option SrRec) 8
  /-- "Cairn programmed since sweep" [1 bit; 05 R86; 0] -/
  cairnProgSince : Bool
  /-- every laser has been held at idle bias since the last ready state [1 bit; 04 R69; 0] -/
  idleHeld : Bool
  /-- cartridge serial at the last ready state [64 bits; 04 R69; 0] -/
  readySerial : Nat
  deriving DecidableEq, Repr

/-- MBX_START_PHASE.PHASE (R65's phases of a start). -/
inductive Phase
  | rom | firmware | cairn | bringUp | commit | ready | readyEmpty | stopping | safe | failed
  deriving DecidableEq, Repr

/-- Why an orderly stop runs, which decides what follows it. -/
inductive StopCause
  | pwrGood | resetN | restart (kind : Fin 4) | failedStart | crystal | thermal | fatal
  deriving DecidableEq, Repr

/-- The start registers and the progress of a stop or a start (files 02, 04). -/
structure StartSt where
  /-- MBX_START_PHASE.PHASE [4 bits; 04; 1 ROM] -/
  phase : Phase
  /-- MBX_START_PHASE.KIND: 0 not chosen, 1 cold, 2 warm, 3 safe [2 bits; 04 R62; 0] -/
  kind : Fin 4
  /-- MBX_START_PHASE.CAUSE [8 bits; 04 R74; 0] -/
  cause : Nat
  /-- MBX_START_PHASE.RESTART_REFUSED [1 bit; 04 R63; 0] -/
  refused : Bool
  /-- MBX_START_PROG.STRUCT_NONE [1 bit; 04; 0] -/
  structNone : Bool
  /-- MBX_START_PROG.FW_FALLBACK [1 bit; 04 R68; 0] -/
  fwFallback : Bool
  /-- MBX_START_PROG.OPT_DOWN [1 bit; 04 R66; 0] -/
  optDown : Bool
  /-- MBX_START_PROG.NOT_TAKEN, SKIPPED and DONE, bit i for step i [5 bits each; 04 R70; 0] -/
  notTaken : Vector Bool 5
  skipped : Vector Bool 5
  done : Vector Bool 5
  /-- MBX_START_TIME [64 bits; 04; 0] -/
  time : Nat
  /-- MBX_START_REASON: CAIRN, DRAM, LASER, CAL, STRUCT codes [5 × 4 bits; 04 R70; 0] -/
  reason : Vector Nat 5
  /-- crystal cycle at which the start began (R61, R66, R75) [count; 04 R61; 0] -/
  begun : Nat
  /-- a start is due: internal reset was released, or a restart's stop ended [1 bit; 04 R61; 0] -/
  due : Bool
  /-- the KIND of the restart request that the start follows [2 bits; 04 R62; 0] -/
  reqKind : Fin 4
  /-- the orderly stop in progress [cause; 19 R415; none] -/
  stop : Option StopCause
  /-- internal reset is held [1 bit; 02 R31; 1] -/
  resetHeld : Bool
  /-- an undervoltage cut holds reset until PWR_GOOD next rises [1 bit; 02 R35; 0] -/
  uvHold : Bool
  /-- a thermal shutdown holds the device until RESET_N or PWR_GOOD [1 bit; 19 R414; 0] -/
  thermHold : Bool
  /-- RESET_N fell: the reset of R36 follows the stop in progress [1 bit; 02 R36; 0] -/
  resetPend : Bool
  /-- the host interface is enabled [1 bit; 04 R65; 0] -/
  hostIf : Bool
  /-- crystal cycle at which a failed start or device-fatal stop ended, for the 100 ms of R74 [count; 04 R74; none] -/
  failedAt : Option Nat
  /-- the optics step of the start has ended [1 bit; 04 R66; 0] -/
  opticsDone : Bool
  /-- the system PLL and the Traverse PLL are locked (CLK_SYS_STAT) [2 bits; 03; 0] -/
  sysLock : Bool
  trvLock : Bool
  deriving DecidableEq, Repr

/-- Quad power states (03). -/
inductive QState
  | run | idle | nap | retain | off
  deriving DecidableEq, Repr

/-- One tile quad's clock and power (03). -/
structure QuadClk where
  /-- CLK_QSTATE.STATE [3 bits; 03 R60; 4 Off] -/
  st : QState
  /-- CLK_QSTATE.TARGET: state being entered or woken to [3 bits; 03; 4 Off] -/
  target : QState
  /-- CLK_QSTATE.FAILED [1 bit; 03 R49; 0] -/
  failed : Bool
  /-- an entry to the target is in progress since this crystal cycle [count; 03 R52; none] -/
  entering : Option Nat
  /-- a wake is in progress since this crystal cycle, from this state [count; 03 R50; none] -/
  waking : Option (Nat × QState)
  /-- a wake request waits for an irreversible entry to Off [1 bit; 03 R52; 0] -/
  wakeAfter : Bool
  /-- the wake is complete but the reload of R51 is not [1 bit; 03 R51; 0] -/
  reload : Bool
  /-- CLK_PLL_STAT.QPLL_LOCK [1 bit; 03; 0] -/
  pll : Bool
  /-- relock attempts that failed since the loss of lock [2 bits; 03 R49; none] -/
  relocks : Option Nat
  /-- crystal cycle at which the idle time started [count; 03 R53; 0] -/
  idleAt : Nat
  /-- a pre-wake holds the quad in Run until the tick at this crystal cycle [count; 03 R56; none] -/
  prewake : Option Nat
  /-- firmware holds the quad awake [1 bit; 03; 0] -/
  fwHold : Bool
  /-- crystal cycle since which work has waited for a wake [count; 03; none] -/
  waitFrom : Option Nat
  /-- CLK_QPOL [64 bits; 03 R53; 0x643C_9897_004F_020C] -/
  pol : W64
  /-- CLK_QWAIT.WAITS [16 bits, RC; 03; 0] -/
  waits : Nat
  /-- CLK_QWAIT.MAX_WAIT [16 bits, RC; 03; 0] -/
  maxWait : Nat
  /-- CLK_QFORCE.RUN_PIN bit [1 bit; 03 R59; 0] -/
  pin : Bool
  deriving DecidableEq, Repr

/-- Class of a Cairn word (R80). -/
inductive CairnClass
  | blank | final | weak
  deriving DecidableEq, Repr

/-- A field generation being programmed (R86). -/
structure CairnProg where
  /-- slot 1 to 3 [4 bits; 05 R86; none] -/
  slot : Nat
  /-- intended words 0 to 1,023 of the slot [1,024 × 32 bits; 05 R81; none] -/
  words : List Nat
  /-- words done so far [11 bits; 05; none] -/
  done : Nat
  deriving DecidableEq, Repr

/-- The one-time-programmable store and its registers (05). -/
structure CairnSt where
  /-- the 8,192 words, normal read [8,192 × 32 bits; 05 R78, R79; DESIGN CHOICE blank (log 11)] -/
  words : Sparse Nat
  /-- words that read weak [8,192 bits; 05 R80; none weak] -/
  weak : Sparse Bool
  /-- CAI_STATUS.WEAK_CNT [8 bits; 05 R91; 0] -/
  weakCnt : Nat
  /-- CAI_STATUS.SPARE_LEFT [2 bits; 05 R91; 0] -/
  spareLeft : Nat
  /-- CAI_STATUS.GEN_CONSUMED [4 bits; 05 R89; 0] -/
  genConsumed : Nat
  /-- CAI_STATUS.GEN_IN_FORCE, the generations whose settings are in force [4 bits; 05 R83; 0] -/
  genInForce : Nat
  /-- CAI_STATUS.VPP_PRESENT [1 bit; 05; 0] -/
  vppPresent : Bool
  /-- CAI_STATUS.FACTORY_OK [1 bit; 05 R91; 0] -/
  factoryOk : Bool
  /-- CAI_STATUS.SWEEP_DONE [1 bit; 05 R91; 0] -/
  sweepDone : Bool
  /-- CAI_SWEEP_TIME [64 bits; 05 R91; 0] -/
  sweepTime : Nat
  /-- CAI_RD_CTRL.WORD [13 bits; 05 R92; 0] -/
  rdWord : Nat
  /-- CAI_RD_DATA [32 bits; 05 R92; 0] -/
  rdData : Nat
  /-- CAI_RD_STAT.CLASS [2 bits; 05 R92; 0] -/
  rdClass : CairnClass
  /-- CAI_RD_STAT.VALID [1 bit; 05 R92; 0] -/
  rdValid : Bool
  /-- CAI_RD_STAT.REFUSED [1 bit; 05 R92; 0] -/
  rdRefused : Bool
  /-- CAI_PROG_STAT.RESULT [4 bits; 05 R85, R87; 0] -/
  progResult : Nat
  /-- CAI_PROG_STAT.WORDS_DONE [11 bits; 05; 0] -/
  progWords : Nat
  /-- CAI_PROG_STAT.SLOT [4 bits; 05; 0] -/
  progSlot : Nat
  /-- CAI_PROG_STAT.STATE [4 bits; 05; 0] -/
  progState : Nat
  /-- CAI_PROG_TIME [64 bits; 05; 0] -/
  progTime : Nat
  /-- the program in progress [record; 05 R86; none] -/
  prog : Option CairnProg
  deriving DecidableEq, Repr

/-! ## The committed structure (06) -/

/-- DEVICE payload (R100). -/
structure DeviceCfg where
  devIndex : Nat
  devCount : Nat
  topo : Nat
  torusW : Nat
  portEn : Nat
  trvEn : Bool
  deriving DecidableEq, Repr

/-- PARTITION payload (R101). -/
structure PartCfg where
  quads : Nat
  queues : Nat
  qdepth : Nat
  winBase : Nat
  winSize : Nat
  imageMib : Nat
  grain : Nat
  channels : Nat
  tokens : Vector Nat 8
  linkShare : Nat
  slice : Nat
  sessFirst : Nat
  sessCount : Nat
  deriving DecidableEq, Repr

/-- QUAD payload (R102). -/
structure QuadCfg where
  offPermit : Bool
  tickServed : Bool
  clkgrp : Nat
  tileWKib : Nat
  qbufInKib : Nat
  deriving DecidableEq, Repr

/-- One ROUTE entry and the PART of its frame, 255 for device-wide (R103). -/
structure Route where
  part : Nat
  src : Nat
  dst : Nat
  bw : Nat
  deriving DecidableEq, Repr

/-- CORNICE payload (R104). -/
structure CorniceCfg where
  kh : Nat
  kw : Nat
  ch : Nat
  sv : Nat
  sh : Nat
  dv : Nat
  dh : Nat
  padT : Nat
  padB : Nat
  padL : Nat
  padR : Nat
  stripeRows : Nat
  overlap : Bool
  neighbour : Nat
  deriving DecidableEq, Repr

/-- LINK payload (R346). -/
structure LinkCfg where
  expDev : Nat
  expPort : Nat
  fibreM : Nat
  deriving DecidableEq, Repr

/-- One pass table of a TRAVERSE payload (R105). -/
structure PassTable where
  passes : Nat
  p1Adv : Nat
  p2Min : Nat
  p2Max : Nat
  deriving DecidableEq, Repr

/-- TRAVERSE payload (R105): pass tables, and PHASE and TABLE of each session of the range. -/
structure TrvCfg where
  tables : List PassTable
  sess : List (Nat × Nat)
  deriving DecidableEq, Repr

/-- Where an image payload lies in device memory (the active directory of R108). -/
structure ImageLoc where
  off : Nat
  len : Nat
  deriving DecidableEq, Repr

/-- The resident settings of a structure, what the retention copy holds, and its identity (R93, R109). -/
structure Structure where
  /-- STRUCT_ID of the last full commit, a 128-bit number [128 bits; 06 R109; 0] -/
  id : Nat
  /-- PARTIAL_GEN [32 bits; 06 R109; 0] -/
  gen : Nat
  /-- STR_ACTIVE_SEQ [32 bits; 06; 0] -/
  seq : Nat
  /-- STR_ACTIVE_KEY.KEY_ID [16 bits; 06; 0] -/
  keyId : Nat
  /-- STR_ACTIVE_KEY.ANCHOR [3 bits; 06; 0] -/
  anchor : Nat
  /-- STR_PART_SEQ [16 × 32 bits; 06; 0] -/
  partSeq : Vector Nat 16
  /-- DEVICE [06 R100; none] -/
  dev : DeviceCfg
  /-- PARTITION frames [06 R101; none] -/
  parts : Vector (Option PartCfg) 16
  /-- QUAD frames [06 R102; none] -/
  quads : Vector (Option QuadCfg) 16
  /-- ROUTE entries in file order [06 R103; none] -/
  routes : List Route
  /-- CORNICE frames [06 R104; none] -/
  cornice : Vector (Option CorniceCfg) 16
  /-- LINK frames [06 R346; none] -/
  links : Vector (Option LinkCfg) 8
  /-- TRAVERSE frames [06 R105; none] -/
  trv : Vector (Option TrvCfg) 16
  /-- BANKSET bitmaps [16 × 512 bits; 06 R106; 0] -/
  banks : Vector Nat 16
  /-- active directory: KERNEL payload of each quad, by window offset in its owner's image area [06 R107; none] -/
  kernels : Vector (Option ImageLoc) 16
  /-- active directory: TILE_INIT payload of each tile [06 R107; none] -/
  tileInit : Vector (Option ImageLoc) 64
  /-- LBASE of each partition's window, in MiB [16 × 11 bits; 13 R273; 0] -/
  lbase : Vector Nat 16
  deriving DecidableEq, Repr

/-- STR_LOAD_STAT.STATE. -/
inductive LoadState
  | idle | stageA | copy | stageB | stageC | staged | prepare | switch | committed | failed | released
  deriving DecidableEq, Repr

/-- The structure loader (06). -/
structure LoaderSt where
  /-- STR_LOAD_STAT.STATE [4 bits; 06; 0] -/
  state : LoadState
  /-- STR_LOAD_STAT.ERR [8 bits; 06 R110; 0] -/
  err : Nat
  /-- STR_LOAD_STAT.SOURCE, 1 flash [1 bit; 06; 0] -/
  flash : Bool
  /-- STR_LOAD_STAT.TARGET [4 bits; 06; 0] -/
  target : Part
  /-- STR_LOAD_STAT.KIND [2 bits; 06; 0] -/
  kind : Nat
  /-- STR_FRAME_ERR.OFFSET, CLASS, INDEX [8, 8, 16 bits; 06; 0] -/
  feOff : Nat
  feClass : Nat
  feIndex : Nat
  /-- STR_BYTES [32 bits; 06; 0] -/
  bytes : Nat
  /-- STR_LOAD_TIME [64 bits; 06; 0] -/
  time : Nat
  /-- the load was requested through the mailbox, so a reply is owed (not step 5 of a start) [1 bit; 06 R113; 0] -/
  byHost : Bool
  /-- the load's ADDR and LEN [64, 32 bits; 06 R113; 0] -/
  addr : Nat
  len : Nat
  /-- STAGE_ONLY [1 bit; 06 R113; 0] -/
  stageOnly : Bool
  /-- the staging slot's bytes [512 MiB of the structure region; 06 R108; empty] -/
  staging : List Byte
  /-- the staged settings, once stage C has passed, with the images to place [06 R110; none] -/
  staged : Option (Structure × List (Bool × Nat × List Byte))
  /-- crystal cycle of the request, and of the staging [count; 06 R113, R115; 0] -/
  reqAt : Nat
  stagedAt : Nat
  /-- full commits: zeroization and image placement are complete [1 bit; 06 R113; 0] -/
  prepared : Bool
  deriving DecidableEq, Repr

/-- The structure retention region of Col (R44): its content and whether its seal matches. -/
structure RetStruct where
  /-- COL_STATUS.RET_STRUCT_SEAL [1 bit; 03 R44; 0] -/
  sealed : Bool
  /-- header, resident frames and active identity [48 KiB; 06 R113; none] -/
  copy : Option Structure
  deriving DecidableEq, Repr

end Sys2Proof.Machine
end

