-- ==== Sys2Proof/Machine/StateHost.lean ====
section
/-! DEFINITION. State of the host interface (08), the partitions (07), the DRAM and its controller (13), and the
error log (20). Each field's comment ends with [width; file, rule; value at reset]. -/

namespace Sys2Proof.Machine

/-- Top-level status codes (R12). -/
inductive Code
  | ok | concealed | degraded | poisoned | abandoned | timeout | refused | restructured
  | sessionGone | sessionHeld | stopping
  deriving DecidableEq, Repr

/-- A status value: CODE and SUB (R12). -/
structure Status where
  code : Code
  sub : Nat
  deriving DecidableEq, Repr

/-! ## Messages (R352) -/

/-- The 32-byte message header of R352. -/
structure MsgHdr where
  mtype : Nat
  session : Bool
  tick : Bool
  degraded : Bool
  replyTrv : Bool
  dstDev : Nat
  srcDev : Nat
  srcPart : Part
  dstPart : Part
  hops : Nat
  entry : Nat
  sess : Nat
  status : Nat
  seq : Nat
  prev : Nat
  mid : Nat
  len : Nat
  aux : Nat
  deriving DecidableEq, Repr

/-- A whole message: header, payload bytes and the poison origin they carry. -/
structure Msg where
  hdr : MsgHdr
  payload : List Byte
  poison : Option Nat
  deriving DecidableEq, Repr

/-- A message at its destination: where it came from (none: this device) and when its first flit arrived. -/
structure Arrived where
  msg : Msg
  port : Option Port
  at_ : Nat
  deriving DecidableEq, Repr

/-! ## Items: what holds a descriptor slot (R161) -/

/-- A request of a session that the partition took on: who sent it, its SESS, SEQ and PREV, and its answer once it has one
(R178, the rule for a partition that serves a hand-off). -/
structure ServedReq where
  dev : Nat
  sess : Nat
  seq : Nat
  prev : Nat
  status : Option Status
  deriving DecidableEq, Repr

/-- Descriptor bodies (R151 to R158). -/
inductive Body
  | nop
  | copy (dir src dst len : Nat)
  | run (entry quads argLen arg out outMax limit : Nat)
  | fence (kind qmask limit value : Nat)
  | msgSend (dev part entry len src res resMax replyTag replyAddr rflags : Nat)
  | sessionOpen (codec cq lead : Nat) (inAlign outAlign : Int) (outAddr outSlots firstSeq resBase resLen : Nat)
  | sessionCtrl (op : Nat) (inAlign outAlign : Int)
  | audioIn (frames seq addr : Nat)
  | audioOut (frames seams addr : Nat)
  | malformed
  | fetchFailed
  deriving DecidableEq, Repr

/-- The step record of a fired step (R177). -/
structure StepRec where
  sess : Sess
  pass : Nat
  resetState : Bool
  inGap : Bool
  barge : Bool
  seq : Nat
  prev : Nat
  frameFirst : Nat
  frameCount : Nat
  vad : Nat
  codec : Nat
  slot : Nat
  deriving DecidableEq, Repr

/-- The three holders of a descriptor slot. -/
inductive ItemKind
  | desc (q : Queue) (idx : Nat) (barrier intr : Bool) (tag : Nat) (sess : Nat) (body : Body)
  | step (r : StepRec)
  | handoff (a : Arrived) (cell : Option Nat)
  deriving DecidableEq, Repr

/-- An item: a fetched descriptor, a fired step or a served hand-off (R161). -/
structure Item where
  /-- the model's name of the item, never reused [count; 08 R161; none] -/
  id : Nat
  /-- partition [4 bits; 08; none] -/
  part : Part
  /-- what the item is [08 R161; none] -/
  kind : ItemKind
  /-- crystal cycle of fetch, fire or arrival [count; 07 R124; none] -/
  at_ : Nat
  /-- the item holds one of the partition's 64 slots [1 bit; 07 R119; none] -/
  slot : Bool
  /-- the item has begun (R426) [1 bit; 20 R426; none] -/
  begun : Bool
  /-- crystal cycle of its first operation [count; 08 R153, 10 R214; none] -/
  firstOp : Option Nat
  /-- time limit of its entry, in crystal cycles from its first operation [count; 10 R214; 0] -/
  limit : Nat
  /-- quads it still waits to start on, and quads it runs on [16 bits each; 10 R208; none] -/
  waitQ : Nat
  runQ : Nat
  /-- a step that waits for the state named by PREV (R178) or for slot reuse (R179) [1 bit; 09 R178; none] -/
  contWait : Bool
  /-- first poison mark consumed [4 bits; 20 R432; none] -/
  poison : Option Nat
  /-- statuses the entry reports beside its own: replies, jobs, degradation [list; 16 R353, 12 R254; none] -/
  marks : List Status
  /-- sends whose reply the entry awaits [count; 16 R353; 0] -/
  sends : Nat
  /-- Spur jobs of the entry not finished [count; 12 R254; 0] -/
  jobs : Nat
  /-- output length written [bytes; 10 R196; 0] -/
  outLen : Nat
  /-- result bytes of a served hand-off, by offset [up to 1 MiB; 10 R196; none] -/
  outBuf : Sparse Byte
  /-- NEXT_ADV set by RESULT and the quad that set it [8 bits; 10 R210; none] -/
  nextAdv : Option (Quad × Nat)
  /-- a stop is requested with this status, since this crystal cycle [10 R214; none] -/
  stop : Option (Status × Nat)
  /-- finished with this status; its record is not yet written [16 bits; 08 R161; none] -/
  fin : Option Status
  /-- RESULT of the completion [32 bits; 08 R151; 0] -/
  result : Nat
  /-- HINT of the completion [16 bits; 08 R159; 0] -/
  hint : Nat
  /-- a step's results have been written (R185) [1 bit; 09 R185; 0] -/
  wrote : Bool
  /-- its records are discarded after a Function Level Reset (R165) [1 bit; 08 R165; 0] -/
  discard : Bool
  deriving DecidableEq, Repr

/-- A request awaiting its reply, or waiting to be handed on (R155, R353). -/
structure SendRec where
  /-- MID [32 bits; 16 R352; none] -/
  mid : Nat
  part : Part
  /-- REPLY_TAG of a MSG_SEND [32 bits; 08 R155; none for a kernel send] -/
  tag : Option Nat
  /-- the item whose entry or descriptor sent it [08, 16 R353; none for a tenant COPY] -/
  item : Option Nat
  /-- window offset of the result data and its limit [16 R353; none] -/
  res : Nat
  resMax : Nat
  /-- reply record: host address (MSG_SEND) or window offset (kernel), none for none [16 R353; none] -/
  hostRec : Option Nat
  winRec : Option Nat
  /-- signal the event vector (R155) [1 bit; 08 R155; 0] -/
  evt : Bool
  detach : Bool
  /-- SIGNAL: quad and semaphore [16 R353; none] -/
  signal : Option (Quad × Fin 16)
  replyTrv : Bool
  sess : Nat
  seq : Nat
  /-- port it left on; none on this device [16 R361; none] -/
  port : Option Port
  dstDev : Nat
  dstPart : Part
  /-- crystal cycle of its last flit [16 R355; none while unsent] -/
  sentAt : Option Nat
  deriving DecidableEq, Repr

/-! ## Partitions and virtual functions -/

/-- PRT_STATE.STATE. -/
inductive PState
  | undefined | running | draining | rebuilding
  deriving DecidableEq, Repr

/-- One queue pair (R144 to R149). -/
structure QueueSt where
  /-- VFP_SQ_BASE, VFP_CQ_BASE: 4 KiB-aligned bus addresses [64 bits each; 08 R144; 0] -/
  sqBase : Nat
  cqBase : Nat
  /-- VFP_Q_CTRL.COAL_TIME [8 bits; 08 R149; 5] -/
  coalTime : Nat
  /-- VFP_Q_CTRL.COAL_CNT [8 bits; 08 R149; 0] -/
  coalCnt : Nat
  /-- VFP_Q_CTRL.VEC [4 bits; 08 R149; q] -/
  vec : Fin 16
  /-- VFP_Q_CTRL.EN [1 bit; 08 R144; 0] -/
  en : Bool
  /-- VFP_Q_STAT.FETCH_ERR, DB_ERR [1 bit each; 08 R168, R145; 0] -/
  fetchErr : Bool
  dbErr : Bool
  /-- submission head and tail, completion head and tail [12 bits each; 08 R144; 0] -/
  sqHead : Nat
  sqTail : Nat
  cqHead : Nat
  cqTail : Nat
  /-- completion phase [1 bit; 08 R144; DESIGN CHOICE 0 until enabled (log 12)] -/
  phase : Bool
  /-- entries written since the last signal, and the crystal cycle of the oldest [count; 08 R149; 0] -/
  unsig : Nat
  oldest : Nat
  /-- VFP_FAILCTL.ABANDON and IN_RUN bits of the queue [1 bit each; 20 R426; 0] -/
  abandon : Bool
  inRun : Bool
  deriving DecidableEq, Repr

/-- One MSI-X table entry (PCIe): message address, data and mask, and its pending bit. -/
structure MsixEnt where
  /-- message address [64 bits; 08 R142; PRESUMED 0 (log 13)] -/
  addr : Nat
  /-- message data [32 bits; 08 R142; PRESUMED 0 (log 13)] -/
  data : Nat
  /-- vector mask [1 bit; 08 R149; PRESUMED 1 (log 13)] -/
  masked : Bool
  /-- pending bit [1 bit; 08 R149; 0] -/
  pend : Bool
  deriving DecidableEq, Repr

/-- An MSI-X message the device has signalled: function (0 physical, n + 1 virtual), vector, address and data. -/
structure Irq where
  func : Nat
  vec : Nat
  addr : Nat
  data : Nat
  deriving DecidableEq, Repr

/-- A write to host memory that waits for Bus Master Enable (R165). -/
inductive HostWait
  | bytes (addr : Nat) (bs : List Byte)
  | msix (vec : Nat)
  deriving DecidableEq, Repr

/-- One virtual function (08). -/
structure Vf where
  /-- VFP_SLOTCTL.STEP_RESERVE [6 bits; 08 R146; 16] -/
  stepReserve : Nat
  /-- VFP_EVT_CTRL.EN, VEC [1, 4 bits; 08 R149; 1, 8] -/
  evtEn : Bool
  evtVec : Fin 16
  /-- VFP_EVT_STAT.STATE, QERR, REPLY [1 bit each; 08; 0] -/
  evtState : Bool
  evtQerr : Bool
  evtReply : Bool
  /-- the eight queue pairs [08 R144] -/
  q : Vector QueueSt 8
  /-- ring served last (R146) [3 bits; 08 R146; DESIGN CHOICE 7 (log 12)] -/
  rr : Queue
  /-- bus master enabled and in D0 [1 bit; 08 R165; PRESUMED 1 (log 13)] -/
  bme : Bool
  /-- host writes waiting for the function [list; 08 R165; none] -/
  waiting : List HostWait
  /-- MSI-X table and pending bits [16 entries; 08 R142] -/
  msix : Vector MsixEnt 16
  deriving DecidableEq, Repr

/-- One partition at run time (07). -/
structure PartRt where
  /-- PRT_STATE.STATE [4 bits; 07; 0 UNDEFINED] -/
  state : PState
  /-- PRT_QCTL.HOLD_MS, DRAIN_MS [10 bits each; 07 R136; 10, 20] -/
  holdMs : Nat
  drainMs : Nat
  /-- PRT_QTIME [64 bits; 07 R129; 0] -/
  qtime : Nat
  /-- PRT_QCOUNT.DISCARDED, REFUSED, RESTRUCT [10 bits each, RC; 07; 0] -/
  discarded : Nat
  refused : Nat
  restruct : Nat
  /-- PRT_SLICE_WAIT.MAX_WAIT [16 bits, RC; 07; 0] -/
  sliceWait : Nat
  /-- the hold list [at most 64 requests; 07 R131; empty] -/
  held : List Arrived
  /-- hand-offs that hold an inbox cell and wait for a slot [list; 07 R120; empty] -/
  slotWait : List (Arrived × Nat)
  /-- inbox cells in use [128 bits; 16 R354; none] -/
  cells : List Nat
  /-- crystal cycle of the quiesce boundary [count; 07 R130; 0] -/
  boundary : Nat
  /-- DRAIN_MS in force for the boundary [10 bits; 07 R136; 0] -/
  drainNow : Nat
  /-- HOLD_MS in force for the boundary [10 bits; 07 R136; 0] -/
  holdNow : Nat
  /-- the quiesce hold has ended, and the zeroization has completed [1 bit each; 07 R134; 0] -/
  holdEnded : Bool
  zeroed : Bool
  /-- requests that have arrived and wait to be taken by HANDOFF_ARRIVAL [list; 16 R354; empty] -/
  arrivals : List Arrived
  /-- replies that have arrived and wait to be taken by HANDOFF_REPLY [list; 16 R355; empty] -/
  replies : List Msg
  /-- send records that have landed and wait to be taken by SEND_RECORD: slot, record, item [list; 16 R353; empty] -/
  sendRecs : List (Nat × List Byte × Option (Nat × Quad))
  /-- what became of the session requests the partition served [list; 09 R178; empty] -/
  served : List ServedReq
  deriving DecidableEq, Repr

/-- A turn on a shared resource (R124). -/
structure Turn where
  holder : Option Part
  start : Nat
  last : Part
  deriving DecidableEq, Repr

/-- The mailbox rings and window (R162). -/
structure MbxSt where
  /-- MBX_REQ_BASE, MBX_RSP_BASE [64 bits each; 08; 0] -/
  reqBase : Nat
  rspBase : Nat
  /-- MBX_RING_CTRL.VEC [5 bits; 08; 0] -/
  vec : Fin 32
  /-- MBX_RING_CTRL.LOG2 [4 bits; 08 R162; 6] -/
  log2 : Nat
  /-- MBX_RING_CTRL.EN [1 bit; 08; 0] -/
  en : Bool
  /-- MBX_RING_STAT.FETCH_ERR, DB_ERR [1 bit each; 08; 0] -/
  fetchErr : Bool
  dbErr : Bool
  /-- MBX_RING_STAT.REQ_HEAD, request tail, reply head, RSP_TAIL [8 bits each; 08; 0] -/
  reqHead : Nat
  reqTail : Nat
  rspHead : Nat
  rspTail : Nat
  /-- reply phase [1 bit; 08 R163; DESIGN CHOICE 0 until enabled (log 12)] -/
  phase : Bool
  /-- the request in execution and the crystal cycle it began [64 bytes; 08 R162; none] -/
  busy : Option (List Byte × Nat)
  /-- MBX_WIN_BASE.BASE [10 bits; 08 R143; 0] -/
  winBase : Nat
  deriving DecidableEq, Repr

/-! ## DRAM (13) -/

/-- A physical flaw of a 64-bit word of DRAM or SRAM: one or more wrong bits. -/
inductive Flaw
  | none | ce | ue
  /-- uncorrectable, and a read has already detected it (R432) -/
  | seen
  deriving DecidableEq, Repr

/-- One channel of the DRAM controller. -/
structure ChanSt where
  /-- DMC_CHQ.DRAIN [1 bit; 13 R279; 0] -/
  drain : Bool
  /-- DMC_CHQ.RD_OUT: outstanding reads [7 bits; 13 R276; 0] -/
  rdOut : Nat
  /-- waiting writes, and the crystal cycle of the oldest [7 bits; 13 R277, R279; 0] -/
  wrWait : Nat
  wrOldest : Nat
  /-- writes issuing [7 bits; 13 R277; 0] -/
  wrIssue : Nat
  /-- DMC_ECNT.CE, UE, POISON_RD, SCRUB_FIX [24, 8, 16, 16 bits, RC; 13; 0] -/
  ce : Nat
  ue : Nat
  poisonRd : Nat
  scrubFix : Nat
  /-- delay entry in force, and the shadow entry [96 bits each; 13 R283, R285; DESIGN CHOICE 0 (log 12)] -/
  delay : Nat
  shadow : Nat
  /-- next 1 KiB unit the patrol scrub reads, and whether its current pass is complete [21 bits; 13 R289; 0] -/
  scrubPos : Nat
  scrubDone : Bool
  deriving DecidableEq, Repr

/-- One stack of the DRAM controller. -/
structure StackSt where
  /-- DMC_STACK.SR [1 bit; 13 R290; 0] -/
  sr : Bool
  /-- DMC_STACK.SWITCHING: band requested, and the next channel of the stack to switch [13 R285; none] -/
  switching : Option (Fin 5 × Fin 17)
  /-- DMC_STACK.BAND [3 bits; 13 R284; 0] -/
  band : Fin 5
  /-- DMC_STACK.TEMP [8 bits signed; 13; 0] -/
  temp : Int
  /-- DMC_STACK.RELOCKS [8 bits, RC; 13 R292; 0] -/
  relocks : Nat
  /-- DMC_STACK.MAX_OWED [4 bits, RC; 13 R282; 0] -/
  maxOwed : Nat
  /-- CLK_PLL_STAT.DPLL_LOCK [1 bit; 03; 0] -/
  pll : Bool
  /-- the PLL lost lock and this many relock attempts have failed [2 bits; 13 R292; none] -/
  lost : Option Nat
  /-- the sentinel of R290 on the stack's channels: serial and timestamp [13 R290; none] -/
  sentinel : Option (Nat × Nat)
  /-- the sentinel reads wrong or uncorrectable on some channel [1 bit; 13 R291; 0] -/
  sentinelBad : Bool
  deriving DecidableEq, Repr

/-- The DRAM controller and the DRAM itself. Locations are channel × 2^31 + L (R271). -/
structure DramSt where
  /-- DMC_CFG.SCRUB_EN [1 bit; 13 R289; 1] -/
  scrubEn : Bool
  /-- DMC_CFG.SCRUB_HOURS [8 bits; 13 R289; 24] -/
  scrubHours : Nat
  /-- DMC_CFG.LOW_WM, HIGH_WM [6 bits each; 13 R279; 16, 48] -/
  lowWm : Nat
  highWm : Nat
  /-- DMC_SCRUB_TIME [64 bits; 13 R289; 0] -/
  scrubTime : Nat
  /-- DMC_UE_LAST: channel and device physical address [13; none] -/
  ueLast : Option (Nat × Nat)
  stk : Vector StackSt 8
  chans : Vector ChanSt 128
  /-- refreshes owed per group, −4 to 5 [512 counts; 13 R282; 0] -/
  owed : Vector Int 512
  /-- the bytes, by location [256 GiB; 13 R271; 0 (ECC fill), DESIGN CHOICE before it (log 12)] -/
  mem : Sparse Byte
  /-- poisoned columns, location ÷ 32, with their origin SUB; 0 is clean [13 R287; none] -/
  poison : Sparse Nat
  /-- physical flaws of 64-bit words, location ÷ 8 [13 R286; none] -/
  flaws : Sparse Flaw
  deriving DecidableEq, Repr

/-! ## The error log (20) -/

/-- A log entry (R439). -/
structure LogEnt where
  lseq : Nat
  cls : Fin 4
  /-- SESS and SEQ name a step, when present: session, partition known, sequence (R439) -/
  sess : Option Nat
  part : Option Part
  addr : Bool
  block : Nat
  event : Nat
  time : Nat
  detail : Nat
  status : Nat
  seq : Nat
  deriving DecidableEq, Repr

/-- The error log and the RAS_ registers. -/
structure RasSt where
  /-- RAS_CTRL.VEC, MIN_CLASS, EN [5, 2, 1 bits; 20 R442; 0, 2, 1] -/
  vec : Fin 32
  minClass : Nat
  en : Bool
  /-- unread entries in the ring, oldest first [at most 4,096; 20 R441; none] -/
  unread : List LogEnt
  /-- entries that wait for DRAM [at most 64; 20 R438; none] -/
  waiting : List LogEnt
  /-- boot ROM entries of a safe start not yet read, and how many were kept [at most 64; 20 R441; none] -/
  rom : List LogEnt
  romKept : Nat
  /-- RAS_LOG.NEXT_LSEQ [32 bits; 20 R438; 0] -/
  next : Nat
  /-- RAS_LOG.OVERWRITTEN [16 bits, RC; 20 R438; 0] -/
  overwritten : Nat
  /-- RAS_CNT.CLASS [4 × 16 bits, RC; 20; 0] -/
  cnt : Vector Nat 4
  /-- RAS_FATAL [256 bits; 20 R442; 0] -/
  fatal : Option LogEnt
  /-- RAS_STATUS.FATAL_VALID [1 bit; 20; 0] -/
  fatalValid : Bool
  /-- RAS_PFAIL: REFUSED, ABANDONED, TIMEOUT, POISONED per partition [16 × 4 × 16 bits, RC; 20; 0] -/
  pfail : Vector (Vector Nat 4) 16
  deriving DecidableEq, Repr

end Sys2Proof.Machine
end

