-- ==== Sys2Proof/Machine/StateCompute.lean ====
section
/-! DEFINITION. State of Traverse (09), Crest (10), Cornice (11) and Spur (12). Each field's comment ends with
[width; file, rule; value at reset]. -/

namespace Sys2Proof.Machine

/-! ## Traverse -/

/-- TRV_SESS_STAT.MODE. -/
inductive PlayMode
  | play | ramp | fill | crossfade | silent | stopped
  deriving DecidableEq, Repr

/-- What the playout path is told to do from outside its late checks (R184, R187, R188). -/
inductive PlayStop
  | hold | gone | barge | align | leave
  deriving DecidableEq, Repr

/-- What a rendered sample is taken from. -/
inductive FillKind
  | comfort | silence
  deriving DecidableEq, Repr

/-- The outbound side of a session (R180 to R189). -/
structure OutSt where
  /-- next frame to be played; next frame to be appended [32 bits each; 09 R180; 0] -/
  cursor : Nat
  write : Nat
  /-- seam marks, by frame number [list; 09 R180; none] -/
  seams : List Nat
  /-- SEQ of the last append applied [32 bits; 20 R425; none] -/
  appendSeq : Option Nat
  /-- TRV_SESS_STAT.MODE [3 bits; 09; 2 fill at the open] -/
  mode : PlayMode
  /-- outbound tick being rendered, none before n0 [32 bits; 09 R181; none] -/
  tick : Option Nat
  /-- samples of the slot committed so far (of 160 or 80), oldest first [09 R181; none] -/
  samples : List Int
  /-- slot header QUARTERS and QFLAGS of the current slot [8 bits each; 09 R182; 0] -/
  quarters : Nat
  qflags : Nat
  /-- samples of a finished slot whose quarters are still to be written, with its tick, flags and quarters written [09 R182; none] -/
  pendSlot : Option (Nat × Nat × Nat × List Int)
  /-- frame whose samples play in the current tick [32 bits; 09 R188; none] -/
  frame : Option Nat
  /-- the samples of the frame that plays, as staged [two-frame staging buffer; 09 R191; none] -/
  stage : List Int
  /-- a late reply was found: the frame the cursor backs up to at the coming tick [32 bits; 09 R188; none] -/
  late : Option Nat
  /-- position within the ramp or crossfade in progress, in samples [09 R189; none] -/
  fade : Option Nat
  /-- level the ramp starts from is a mixed one: the reply weight numerator over N [09, at the edges; none] -/
  fadeFrom : Nat
  /-- what is heard outside reply audio [09 R189; comfort] -/
  fillK : FillKind
  /-- the 23-bit comfort-fill LFSR [23 bits; 09 R189; the session number] -/
  lfsr : Nat
  /-- the late check of the next tick has been made, and what it decided [09 R188; none] -/
  plan : Option PlayMode
  /-- a ramp is to start at this sample of the current slot [09 R188; none] -/
  rampAt : Option Nat
  /-- a stop requested of the playout path [09 R184; none] -/
  stop : Option PlayStop
  /-- OUT_ALIGN in force, and the new one waiting for the next tick [16 bits signed; 09 R183] -/
  align : Int
  newAlign : Option Int
  /-- after GONE, no further slot is written [1 bit; 09 R184; 0] -/
  ended : Bool
  /-- a stop by HOLD or GONE holds the stream silent [1 bit; 09 R184; 0] -/
  held : Bool
  deriving DecidableEq, Repr

/-- A fired step as the session remembers it (R178, R424). -/
structure StepHist where
  seq : Nat
  pass : Nat
  prev : Nat
  /-- its final status once the entry is written or the outcome known -/
  status : Option Status
  /-- its completion entry has been written -/
  written : Bool
  deriving DecidableEq, Repr

/-- An open session (1 KiB of session state, R172 to R192). -/
structure SessSt where
  part : Part
  codec : Nat
  cq : Queue
  lead : Nat
  phase : Nat
  table : Nat
  inAlign : Int
  newInAlign : Option Int
  outAddr : Nat
  outSlots : Nat
  resBase : Nat
  resLen : Nat
  firstSeq : Nat
  /-- crystal cycle of the open (R172) -/
  openAt : Nat
  /-- session tick number of the next tick, none before session tick 0 (R172) -/
  ticks : Option Nat
  /-- crystal cycle of session tick 0 (R172) -/
  tick0 : Nat
  /-- gates (R184) -/
  hold : Bool
  gone : Bool
  barge : Bool
  /-- gate changes that wait for the sweep visit (R184): HOLD set or cleared, GONE, and the SUB of SESSION_GONE -/
  holdReq : Option Bool
  goneReq : Bool
  goneSub : Nat
  bargeSeen : Bool
  /-- SESSION_CTRL OP 5 in progress: its item; or closing without one (FLR) -/
  closing : Option (Option Nat)
  /-- next step sequence (R172) -/
  seqNext : Nat
  /-- inbound frames held, ascending (R174) -/
  inHeld : List Nat
  delivered : Nat
  consumed : Nat
  /-- next inbound frame due -/
  inNext : Nat
  /-- frames consumed since the last pass-2 step, gap among them, and the pass-2 advance A in ms (R176) -/
  accum : Nat
  accumGap : Bool
  adv : Nat
  /-- voiced marks of the last subframes of recent frames: (frame, 4 bits) (R177) -/
  vads : List (Nat × Nat)
  /-- detector: E_in history in 0.25 dB steps, latest first (R186) -/
  ein : List Int
  /-- E_out history: (timeline position, energy, reply audio), latest first (R187) -/
  eout : List (Int × Int × Bool)
  voiced : Nat
  unvoiced : Nat
  /-- next subframe to classify, counted from frame 0 (R186) -/
  subNext : Nat
  /-- steps fired (R178) -/
  steps : List StepHist
  lastSeq : Nat
  out : OutSt
  /-- IN_GAPS, IN_DISCARD, OUT_DISCARD, LATE_RAMPS, BARGES, CONT_BREAKS (R179) -/
  cnt : Vector Nat 6
  /-- the session is closed and only its ramp to silence is still played (R184) -/
  shut : Bool
  deriving DecidableEq, Repr

/-- The Traverse endpoint sequence of one entry (R356). -/
structure EndPt where
  item : Nat
  part : Part
  bytes : Sparse Byte
  top : Nat
  off : Nat
  ended : Bool
  deriving DecidableEq, Repr

/-- An outbound append waiting to be applied (R425): session, partition, sequence, seams and frames, poison. -/
structure Append where
  sess : Nat
  part : Part
  seq : Nat
  frames : Nat
  seams : Nat
  data : List Byte
  poison : Bool
  deriving DecidableEq, Repr

/-- Traverse (09). -/
structure TrvSt where
  /-- TRV_STATUS.RUN [1 bit; 09 R170; 0] -/
  run : Bool
  /-- crystal cycle of the switch that period 0 awaits [count; 09 R170; none] -/
  startAt : Option Nat
  /-- crystal cycle of the epoch; TRV_EPOCH is it divided by 32 [64 bits; 09 R170; 0] -/
  epoch : Nat
  /-- number of phase ticks since the epoch; TRV_PERIOD is the number of the last one divided by 16 [32 bits; 09 R170; 0] -/
  ticks : Nat
  /-- TRV_SESS_SEL.SESSION [12 bits; 09; 0] -/
  sel : Sess
  /-- TRV_PCFG [16 × 64 bits; 09; 0x0000_4650_020C_0914] -/
  pcfg : Vector W64 16
  /-- TRV_PCNT: IN_GAPS, IN_DISCARD, OUT_DISCARD, LATE_RAMPS, BARGES, CONT_BREAKS [16 × 6 × 10 bits, RC; 09; 0] -/
  pcnt : Vector (Vector Nat 6) 16
  /-- open sessions by number, ascending [4,096 × 1 KiB of session state SRAM; 09 R191; none] -/
  sess : List (Nat × SessSt)
  /-- endpoint sequences of running entries [list; 16 R356; none] -/
  endpts : List EndPt
  /-- appends waiting to be applied, in order of arrival [list; 20 R425; none] -/
  appends : List Append
  deriving DecidableEq, Repr

/-! ## Crest -/

/-- A tile's run of its operation list. -/
structure TileRun where
  /-- byte offset in the kernel image of the next operation, none when the list has reached END or is idle -/
  pc : Option Nat
  /-- index of that operation in its list -/
  op : Nat
  deriving DecidableEq, Repr

/-- The entry a quad runs (R208). -/
structure EntryRun where
  item : Nat
  part : Part
  entry : Nat
  tiles : Vector TileRun 4
  /-- the Cornice engine's list (R228) -/
  cnc : TileRun
  /-- output poison consumed is kept in the item -/
  started : Nat
  deriving DecidableEq, Repr

/-- One quad of the Crest array. -/
structure QuadSt where
  /-- the entry it runs [10 R208; none] -/
  run : Option EntryRun
  /-- CST_QSTAT.ENTRY: entry last started [8 bits; 10; 0] -/
  last : Nat
  /-- CST_QSTAT.RATE: k [5 bits; 10 R205; 0] -/
  k : Nat
  /-- CST_CAP.CAP [5 bits; 10 R206; 16] -/
  cap : Nat
  /-- semaphores [16 × 16 bits; 10 R212; 0] -/
  sems : Vector Nat 16
  /-- CST_QCNT: SAT, ECC_CE, ECC_UE, FAULTS, ENTRIES [16, 16, 8, 8, 16 bits, RC; 10; 0] -/
  sat : Nat
  eccCe : Nat
  eccUe : Nat
  faults : Nat
  entries : Nat
  /-- CST_FAULT: CAUSE, TILE, OP [4, 2, 16 bits; 10; 0] -/
  fCause : Nat
  fTile : Nat
  fOp : Nat
  /-- the KERNEL image the quad holds since its last reload [up to 1 MiB; 06 R107; none] -/
  kernel : List Byte
  deriving DecidableEq, Repr

/-- Crest and the slew arbiter (10). SRAM addresses are tile × 2^21 + a and quad × 2^21 + a. -/
structure CrestSt where
  quads : Vector QuadSt 16
  /-- CST_PCFG.STEP_LIMIT [16 × 10 bits; 10; 100] -/
  stepLimit : Vector Nat 16
  /-- tile SRAM [64 × 2 MiB; 10 R195; DESIGN CHOICE 0 until cleared (log 12)] -/
  sram : Sparse Byte
  /-- quad buffers [16 × 2 MiB; 10 R195; DESIGN CHOICE 0 until cleared (log 12)] -/
  qbuf : Sparse Byte
  /-- poison bits of tile SRAM and quad buffers per 32 B unit, with origin [10 R197; none] -/
  sramPoison : Sparse Nat
  qbufPoison : Sparse Nat
  /-- physical flaws of 64-bit words [10 R197; none] -/
  sramFlaws : Sparse Flaw
  qbufFlaws : Sparse Flaw
  /-- slew arbiter: grants and ramping switches of the last intervals of 62.5 ns, latest first:
  (increase granted, decrease granted, closing, opening) [15 intervals; 10 R205; none] -/
  slew : List (Bool × Bool × Nat × Nat)
  /-- rotation of increases and of decreases: the quad served last [4 bits each; 10 R205; DESIGN CHOICE 15 (log 12)] -/
  incLast : Quad
  decLast : Quad
  deriving DecidableEq, Repr

/-! ## Cornice -/

/-- A halo row: direction down, row number n, its bytes and poison (R231). -/
structure HaloRow where
  down : Bool
  n : Nat
  bytes : List Byte
  poison : Option Nat
  deriving DecidableEq, Repr

/-- CNC_ESTAT.STATE. -/
inductive CncState
  | idle | conv | crop | recode | semWait | ledgerWait | publishStall
  deriving DecidableEq, Repr

/-- One Cornice engine (11). -/
structure EngineSt where
  /-- CNC_ESTAT.STATE [4 bits; 11; 0] -/
  st : CncState
  /-- CNC_ESTAT.OP [12 bits; 11; 0] -/
  op : Nat
  /-- CNC_ESTAT.ENTRY [8 bits; 11; 0] -/
  entry : Nat
  /-- CNC_LEDGER of the boundary below: UP_ACK, UP_PUB, DN_ACK, DN_PUB [4 × 16 bits; 11 R231; 0] -/
  upAck : Nat
  upPub : Nat
  dnAck : Nat
  dnPub : Nat
  /-- CNC_LB.RESIZING [1 bit; 11 R234; 0] -/
  resizing : Bool
  /-- CNC_LB.UP_SLOTS, DN_SLOTS [4 bits each; 11; 0] -/
  upSlots : Nat
  dnSlots : Nat
  /-- bytes of the line buffer in use; FREE_KIB is (262,144 − used) ÷ 1,024 rounded down
  [18 bits; 11 R234; DESIGN CHOICE 262,144, so that FREE_KIB reads its reset value 0 (log 12)] -/
  used : Nat
  /-- the operation at the list position has started (resized, staged its halo rows) [1 bit; 11 R232; 0] -/
  started : Bool
  /-- STRIPED operations started in this entry [count; 11 R229; 0] -/
  striped : Nat
  /-- publications pending [list; 11 R232; none] -/
  pubs : List HaloRow
  /-- halo rows received in slots [list; 11 R232; none] -/
  slots : List HaloRow
  /-- crystal cycle since which the engine waits in the ledger or on a publication [count; 11; none] -/
  waitFrom : Option Nat
  /-- CNC_ECNT: HALO_STALL, ECC_CE, ECC_UE, FAULTS, EMPTY_BOX [32, 8, 8, 8, 8 bits, RC; 11; 0] -/
  stall : Nat
  eccCe : Nat
  eccUe : Nat
  faults : Nat
  emptyBox : Nat
  /-- CNC_FAULT: CAUSE, OP [4, 12 bits; 11; 0] -/
  fCause : Nat
  fOp : Nat
  /-- the line buffer has a correctable or uncorrectable flaw at this byte offset [262,144 B; 11 R241; none] -/
  flaw : Option (Flaw × Nat)
  deriving DecidableEq, Repr

/-! ## Spur -/

/-- A vector as broadcast to a register of a group (R249): KB, SPAN and the bytes. -/
structure VecLoad where
  kb : Nat
  span : Nat
  bytes : List Byte
  deriving DecidableEq, Repr

/-- A fire in progress on a group (R260). -/
structure FireSt where
  job : Nat
  /-- partition whose token it holds, none for a self-test on an ungranted token -/
  part : Option Part
  /-- crystal cycle of its start -/
  start : Nat
  deriving DecidableEq, Repr

/-- A command of a channel's Spur queue (R250); groups are numbered within the die, GMASK is 4 bits. -/
inductive SpurCmd
  | clear (gmask job : Nat)
  | load (gmask reg job : Nat) (v : VecLoad)
  | fire (g job : Nat)
  | drain (g entries job : Nat)
  deriving DecidableEq, Repr

/-- One fire group (12). -/
structure GroupSt where
  /-- the four registers, broadcast form; none holds zeros [4 × 512 B per bank; 12 R249; 0] -/
  regs : Vector (Option VecLoad) 4
  /-- result buffer, entry ↦ four INT32 sums [2,048 × 16 B; 12 R249; 0] -/
  res : Sparse (Int × Int × Int × Int)
  /-- a fire in progress [12 R260; none] -/
  fire : Option FireSt
  /-- power gated [1 bit; 12 R263; DESIGN CHOICE 0 (log 12)] -/
  gated : Bool
  /-- crystal cycle of the last fire, load or test, of the last fire and of the last test [count; 12 R263, R265; 0] -/
  lastUse : Nat
  lastFire : Nat
  lastTest : Nat
  deriving DecidableEq, Repr

/-- A started Spur job (R252, R253). -/
structure JobSt where
  id : Nat
  /-- crystal cycle of its landing -/
  at_ : Nat
  part : Part
  slot : Nat
  /-- the item of the entry that started it, and its quad; none for a tenant COPY -/
  owner : Option (Nat × Quad)
  jop : Nat
  fmt : Nat
  vec : Nat
  span : Nat
  row0 : Nat
  col0 : Nat
  kcol : Nat
  nout : Nat
  xred : Nat
  dstQ : Bool
  signal : Bool
  quad : Nat
  sem : Nat
  vsrc : Nat
  dst : Nat
  done : Nat
  jtag : Nat
  groups : List Nat
  /-- the vectors read from VSRC once the job has been queued -/
  queued : Bool
  /-- commands still to enter the channel queues: (channel, command) in order -/
  todo : List (Nat × SpurCmd)
  /-- drained entries per group -/
  drained : List (Nat × List (Int × Int × Int × Int))
  degraded : Bool
  poison : Option Nat
  /-- results landed: the status its done word reports -/
  fin : Option Status
  deriving DecidableEq, Repr

/-- A stack's fire-token ledger (R262). -/
structure LedgerSt where
  /-- SPU_POOL.FREE [8 bits; 12 R262; 32] -/
  free : Nat
  /-- SPU_POOL.HELD [8 bits; 12 R262; 0] -/
  held : Nat
  /-- retired tokens [8 bits; 12 R262; 0] -/
  retired : Nat
  /-- SPU_POOL.TARGET [8 bits; 12 R262; 32] -/
  target : Nat
  /-- SPU_MASKCNT.RESIDUE, TEST [8 bits each; 12; 0] -/
  residue : Nat
  test : Nat
  deriving DecidableEq, Repr

/-- SPU registers of a partition. -/
structure SpurPart where
  /-- SPU_PCNT: SAT, FAULTS, DEGRADED, JOBS [16, 8, 16, 24 bits, RC; 12; 0] -/
  sat : Nat
  faults : Nat
  degraded : Nat
  jobs : Nat
  /-- SPU_FAULT: CAUSE, HOST, QUAD, SLOT [4, 1, 4, 5 bits; 12; 0] -/
  fCause : Nat
  fHost : Bool
  fQuad : Nat
  fSlot : Nat
  /-- effective allowances E(p, s), PRT_TOKENS [8 × 8 bits; 07 R122; 0] -/
  allow : Vector Nat 8
  /-- job-area landings waiting for SPUR_JOB_LAND: slot, record, owner [list; 12 R251; none] -/
  landed : List (Nat × List Byte × Option (Nat × Quad))
  deriving DecidableEq, Repr

/-- Spur (12). -/
structure SpurSt where
  /-- SPU_CFG.SELFTEST_PERIOD, SELFTEST_IDLE, SELFTEST_EN [12, 8, 1 bits; 12 R265; 60, 20, 1] -/
  testPeriod : Nat
  testIdle : Nat
  testEn : Bool
  /-- SPU_POOL.WIDTH: W of R259 [2 bits; 12 R259; 1] -/
  width : Nat
  ledgers : Vector LedgerSt 8
  groups : Vector GroupSt 512
  /-- masked banks per group, 32 bits each (SPU_MASK) [512 × 32 bits; 12 R264; 0] -/
  masks : Vector Nat 512
  /-- groups retired (SPU_GRET) [512 bits; 12 R268; 0] -/
  retired : Vector Bool 512
  parts : Vector SpurPart 16
  /-- jobs started and unfinished, in landing order [at most 64 per partition; 12 R254; none] -/
  jobs : List JobSt
  nextJob : Nat
  /-- Spur command queue per channel [128 × 32 entries; 12 R250; empty] -/
  queues : Vector (List SpurCmd) 128
  /-- group of the die started last [128 × 2 bits; 12 R260; DESIGN CHOICE 3 (log 12)] -/
  rot : Vector (Fin 4) 128
  /-- crystal cycles of fire starts and ends within the last µs [list; 12 R261; none] -/
  starts : List Nat
  ends : List Nat
  deriving DecidableEq, Repr

end Sys2Proof.Machine
end

