-- ==== Sys2Proof/Machine/StateOptics.lean ====
section
/-! DEFINITION. State of the Chrodom ports and links (15, 16), the laser cartridge (17), calibration (18) and the
thermal block (19). Each field's comment ends with [width; file, rule; value at reset]. -/

namespace Sys2Proof.Machine

/-! ## Chrodom physical layer -/

/-- Ring mode (R309). -/
inductive RingMode
  | off | hold | track
  deriving DecidableEq, Repr

/-- Grid position state (R324). -/
inductive GState
  | off | active | warm | cal | fault | retrain | train
  deriving DecidableEq, Repr

/-- One ring of a port (R309 to R316). -/
structure RingSt where
  /-- OPH_RING_TRIM.BIAS [14 bits; 15 R309; 0] -/
  bias : Nat
  /-- OPH_RING_CTL.TARGET: ratio target, or P_ref [16 bits; 15 R313, R314; 0] -/
  target : Nat
  /-- OPH_RING_CTL.MODE [2 bits; 15 R309; 0] -/
  mode : RingMode
  /-- OPH_RING_STAT.U: intention, Q14.8 [22 bits; 15 R310; 0] -/
  u : Nat
  /-- OPH_RING_STAT.LOCK, UNLOCK, CLAMP, NO_LIGHT [1 bit each; 15 R313 to R316; 0] -/
  lock : Bool
  unlock : Bool
  clamp : Bool
  noLight : Bool
  /-- OPH_RING_STAT.HEATER [14 bits; 15 R308; 0] -/
  heater : Nat
  /-- consecutive updates within and beyond the lock limits [counts; 15 R313; 0] -/
  good : Nat
  bad : Nat
  /-- receive loop: the code of the last even frame [16 bits; 15 R314; none] -/
  mEven : Option Nat
  /-- CAL_RTIME [64 bits; 18 R395; 0] -/
  rtime : Nat
  deriving DecidableEq, Repr

/-- A receive phase tracker (R328). -/
structure TrackSt where
  /-- OPH_TRK.PHASE [6 bits; 15 R328; 0] -/
  phase : Nat
  /-- record of double steps: Col timestamps, at most two; DS_WIN is its length [2 × 64 bits; 15 R328; none] -/
  dsRec : List Nat
  /-- OPH_TRK.DOUBLE, RETRAINS [16 bits each, RC; 15; 0] -/
  double : Nat
  retrains : Nat
  /-- crystal cycle at which the retrain began [count; 15 R329; none] -/
  since : Option Nat
  /-- a move away from the position is under way and it retrains after N + 3 [1 bit; 15 R329; 0] -/
  pend : Bool
  deriving DecidableEq, Repr

/-- A lane move in progress (R325, R349). -/
structure LaneMove where
  lane : Lane
  frm : Pos
  dst : Pos
  cause : Nat
  n : Nat
  acked : Bool
  deriving DecidableEq, Repr

/-- An acquisition sweep of one ring (R391): index, samples so far (code, value), widened. -/
structure AcqSt where
  rx : Bool
  pos : Pos
  centre : Nat
  idx : Nat
  samples : List (Nat × Nat)
  wide : Bool
  slot : Bool
  deriving DecidableEq, Repr

/-- Full calibration of a port in progress (R386). -/
structure CalRun where
  /-- step F1 to F7 [3 bits; 18 R386] -/
  step : Nat
  /-- crystal cycle at which the step began -/
  since : Nat
  /-- ring set in work and frame index within it (R387) -/
  set : Nat
  idx : Nat
  /-- samples of the sweep per transmit ring: (code, value) -/
  samples : List (Nat × Nat × Nat)
  /-- dip of each transmit ring found by F3 -/
  dips : Vector (Option Nat) 18
  /-- F4 result valid -/
  okF4 : Vector Bool 18
  /-- u of the 18 transmit rings before the set's step of F5, and the changes measured: (k, j, u_k after − before) -/
  before : List Nat
  coup : List (Nat × Nat × Int)
  /-- the die temperatures last compared in F2; `idx` is then the crystal cycle -/
  lastT : Option (Int × Int)
  /-- the phase within F5 and the crystal cycle it began (in F2, of the last comparison) -/
  ph : Nat
  phAt : Nat
  deriving DecidableEq, Repr

/-- One Chrodom port, physical layer (15). Direction index 0 transmits, 1 receives. -/
structure PortSt where
  /-- OPH_PORT.STATE: 0 OFF, 1 PLL, 2 RINGS, 3 TRAIN, 4 UP, 5 RETRAIN, 7 FAILED [3 bits; 15; 0] -/
  state : Nat
  /-- OPH_PORT.PLL_LOCK [1 bit; 15 R331; 0] -/
  pll : Bool
  /-- OPH_PORT.PLL_TRIES [2 bits; 15 R331; 0] -/
  tries : Nat
  /-- the PLL has lost lock and relocks [1 bit; 15 R331; 0] -/
  lost : Bool
  /-- OPH_PORT.TX_LIGHT, RX_LIGHT [1 bit each; 15 R315; 0] -/
  txLight : Bool
  rxLight : Bool
  /-- OPH_PEER: DEV, PORT when VALID [9 bits; 15 R323; none] -/
  peer : Option (Nat × Nat)
  /-- OPH_LOOP_CFG: KI_TX, KI_RX, DITHER, STEP_MAX, XT_LOAD [16, 16, 6, 8, 1 bits; 15 R312; 2048, 1024, 8, 64, 0] -/
  kiTx : Nat
  kiRx : Nat
  dither : Nat
  stepMax : Nat
  xtLoad : Bool
  /-- OPH_ADC_CFG: GAIN_TX, GAIN_RX, GAIN_TAP, FILT [2, 2, 2, 1 bits; 15 R317; 1, 2, 0, 0] -/
  gainTx : Nat
  gainRx : Nat
  gainTap : Nat
  filt : Bool
  /-- OPH_ADC_REQ: INPUT, GAIN, IMMEDIATE [6, 2, 1 bits; 15 R321; 0] -/
  reqIn : Nat
  reqGain : Nat
  reqImm : Bool
  /-- a host request is pending [1 bit; 15 R321; 0] -/
  reqPend : Bool
  /-- OPH_ADC_RES [32 bits; 15 R321; 0] -/
  res : Nat
  /-- OPH_ADC_LAST [40 × 32 bits; 15 R321; 0] -/
  last : Vector Nat 40
  /-- settle count S and the selection in force: input, gain, filter [15 R318; DESIGN CHOICE 0, input 0 (log 12)] -/
  settle : Nat
  selIn : Nat
  selGain : Nat
  selFilt : Bool
  /-- the last fresh sample of tap A: code and gain [16, 2 bits; 15 R313; 0] -/
  tapA : Nat × Nat
  /-- OPH_CNT: RETRAINS, MOVES, UNLOCKS, LOOP_SKIP [4 × 16 bits, RC; 15; 0] -/
  cRetrains : Nat
  cMoves : Nat
  cUnlocks : Nat
  cSkip : Nat
  /-- OPH_GRID [2 × 18 × 3 bits; 15 R324; 0 OFF] -/
  grid : Vector (Vector GState 18) 2
  /-- OPH_LMAP [2 × 16 × 5 bits; 15 R324; 0] -/
  lmap : Vector (Vector Pos 16) 2
  rings : Vector RingSt 36
  /-- OPH_XT shadow and the matrix in use, Q1.14, entry d + 4 of row k [18 × 9 × 16 bits each; 15 R311; identity] -/
  xt : Vector (Vector Int 9) 18
  mat : Vector (Vector Int 9) 18
  trk : Vector TrackSt 18
  /-- index of the loop frame (R312) [count; 15 R312; 0] -/
  frame : Nat
  /-- crystal cycle at which the transmit frame counter stood at 0, and the receive copy's offset [15 R322; 0] -/
  txBase : Nat
  rxBase : Nat
  /-- moves of the two directions [list; 15 R325; none] -/
  txMoves : List LaneMove
  rxMoves : List LaneMove
  /-- consecutive fresh tap A samples below 2 % (R376) [2 bits; 17 R376; 0] -/
  seatLow : Nat
  /-- acquisitions in progress [list; 18 R391; none] -/
  acq : List AcqSt
  /-- attempts made on each FAULT position of each direction and the crystal cycle of the last [18 R391; 0] -/
  tried : Vector (Vector (Nat × Nat) 18) 2
  /-- full calibration of the port [18 R386; none] -/
  cal : Option CalRun
  /-- converter zeros per gain [4 × signed; 18 R382; 0] -/
  zero : Vector Int 4
  /-- temperature points in 1/16 °C and the crystal cycle measured [2 × 16 bits; 18 R383; none] -/
  tp : Vector (Option (Int × Nat)) 2
  deriving DecidableEq, Repr

/-! ## Chrodom link -/

/-- CHL_LINK.STATE. -/
inductive LinkState
  | down | sync | up | retrain | miswired | failed
  deriving DecidableEq, Repr

/-- A DATA flit (R337). -/
structure Flit where
  seq : Nat
  vc : Fin 4
  first : Bool
  last : Bool
  dl : Bool
  poison : Bool
  porg : Nat
  srcd : Nat
  spart : Nat
  payload : List Byte
  /-- this device's request that ends with the flit, by MID (not on the wire) -/
  req : Option Nat
  deriving DecidableEq, Repr

/-- A role swap at one end (R350). -/
inductive SwapSt
  | none
  /-- SWAP_REQ sent and pending; the peer's request has crossed it -/
  | asked (byHost crossed : Bool)
  /-- granted: F_S, the crystal cycle at which F_S is reached, and whether this end leads from it -/
  | granted (byHost : Bool) (frame at_ : Nat) (lead : Bool)
  deriving DecidableEq, Repr

/-- A calibration slot on a link (R392 to R394). -/
structure SlotSt where
  /-- the lead transmits the direction -/
  leadTx : Bool
  pos : Pos
  frame : Nat
  /-- this device announced it (is lead) -/
  own : Bool
  /-- crystal cycle of frame F -/
  at_ : Nat
  /-- 0 announced, 1 transmit sweep, 2 receive sweep, 3 waiting for the peer, 4 rolling back -/
  stage : Nat
  /-- saved u, BIAS, TARGET and mode of this end's ring -/
  saved : Nat × Nat × Nat × RingMode
  committed : Bool
  /-- crystal cycle at which the rollback began -/
  backAt : Nat
  deriving DecidableEq, Repr

/-- One link (16). VC and DL classes are indexed 2 × VC + DL. -/
structure LinkSt where
  /-- CHL_LINK.STATE [3 bits; 16 R344; 0 DOWN] -/
  st : LinkState
  /-- CHL_LINK.ROLE, lead [1 bit; 16 R345; 0] -/
  lead : Bool
  /-- CHL_LINK.MIS [4 bits; 16 R345; 0] -/
  mis : Nat
  /-- CHL_LINK.PEER_DEV, PEER_PORT [5, 3 bits; 16 R345; 0] -/
  peerDev : Nat
  peerPort : Nat
  /-- CHL_PEER_SERIAL [64 bits; 16 R345; 0] -/
  peerSerial : Nat
  /-- HELLO accepted and CSYNC received in this SYNC; bring-up, not retrain [1 bit each; 16 R343, R344; 0] -/
  helloOk : Bool
  csyncOk : Bool
  bringUp : Bool
  /-- lanes locked [16 bits; 16 R336; 0] -/
  locked : Vector Bool 16
  /-- CHL_CNT: FEC_UE, CRC_ERR, REPLAYS, RETRAINS [4 × 16 bits, RC; 16; 0] -/
  fecUe : Nat
  crcErr : Nat
  replays : Nat
  retrains : Nat
  /-- CHL_FEC_CE [64 bits, RC; 16; 0] -/
  fecCe : Nat
  /-- symbols corrected per lane in the current 1 ms window: its first crystal cycle, and the count [16 × count; 16 R336; 0] -/
  fecWin : Vector (Nat × Nat) 16
  /-- next transmit sequence; replay buffer, oldest first [512 flits; 16 R339; 0, empty] -/
  txSeq : Nat
  replay : List Flit
  /-- flits waiting for a credit or a slot [list; 16; empty] -/
  txq : List Flit
  /-- times the oldest flit was sent, and the crystal cycle of its last sending [16 R340; 0] -/
  resent : Nat
  sentAt : Nat
  /-- next sequence expected; a NAK is outstanding since this crystal cycle [16 R339; 0, none] -/
  rxSeq : Nat
  nakAt : Option Nat
  /-- credits held, FREED count of this receiver, last FREED seen, slots occupied [8 each; 16 R342; 0] -/
  cred : Vector Nat 8
  freed : Vector Nat 8
  seen : Vector Nat 8
  occ : Vector Nat 8
  /-- messages being received, by VC × DL × source [list; 16 R351; none] -/
  rxPart : List (Nat × Nat × List Byte × Option Nat)
  /-- crystal cycle since which the link has been out of service (R357) [count; 16 R357; none] -/
  outAt : Option Nat
  held : Bool
  /-- role swap [16 R350; none] -/
  swap : SwapSt
  /-- calibration slot of the link, and the crystal cycle the last one ended [18 R392; none, 0] -/
  slot : Option SlotSt
  slotEnd : Nat
  /-- control and calibration messages this end has sent: (CTYPE, body bytes), latest first [list; 16 R348; none] -/
  sent : List (Nat × List Nat)
  deriving DecidableEq, Repr

/-! ## Laser cartridge -/

/-- LSR_LASER.STATE. -/
inductive LaserState
  | off | idle | ramp | run | tuning | cold | out
  deriving DecidableEq, Repr

/-- One laser and its driver. -/
structure LaserSt where
  /-- LSR_LASER.STATE [4 bits; 17 R375; 0 OFF, 5 COLD for spares] -/
  st : LaserState
  /-- LSR_LASER.OC, OPEN, SHORT [1 bit each; 17 R374; 0] -/
  oc : Bool
  open_ : Bool
  short : Bool
  /-- LSR_LASER.COVER [5 bits; 17; 31] -/
  cover : Nat
  /-- LSR_LASER.BIAS [12 bits; 17 R374; 0] -/
  bias : Nat
  /-- crystal cycles of the last overcurrent flag and of the one before [17 R379; none] -/
  ocAt : Option Nat
  ocPrev : Option Nat
  /-- crystal cycle since which it is lit, and lit minutes in all [17 R371; none, 0] -/
  litAt : Option Nat
  litCyc : Nat
  deriving DecidableEq, Repr

/-- The laser cartridge, the gate and the LSR_ registers (17). -/
structure LaserBlk where
  /-- LSR_TRIP.TRIP, INTLK latches [1 bit each; 17 R376; 0] -/
  trip : Bool
  intlk : Bool
  /-- LSR_TRIP.SEQ_ERR, CLEAR_REFUSED [1 bit each, W1C; 17 R378; 0] -/
  seqErr : Bool
  clrRefused : Bool
  /-- LSR_TRIP_TIME [64 bits; 17; 0] -/
  tripTime : Nat
  /-- the clear sequence is armed since this crystal cycle [count; 17 R378; none] -/
  armed : Option Nat
  /-- INTLK_N level low; crystal cycle since which it has been high [1 bit; 17 R376; 1 low (R41)] -/
  intlkLow : Bool
  intlkRel : Nat
  /-- CTG_LATCH high, or low for less than 100 ms [1 bit; 17 R376; 0 as LSR_GATE resets] -/
  latchOpen : Bool
  /-- crystal cycle at which INTLK_N high and CTG_LATCH low began to hold together [count; 17 R370; none] -/
  seatedAt : Option Nat
  /-- LSR_GATE.SEAT0, SEAT1 [1 bit each; 17 R376; 0] -/
  seat0 : Bool
  seat1 : Bool
  /-- LSR_GATE.POLICY_OFF [1 bit; 17 R376; 1] -/
  policyOff : Bool
  /-- LASER_POLICY mode [2 bits; 17 R380; 2] -/
  policy : Nat
  /-- LSR_CTG.AUTH [4 bits; 17 R370; 0] -/
  auth : Nat
  /-- LSR_CTG.VDD_ON; crystal cycle at which the switch opened [1 bit; 17 R367; 0] -/
  vddOn : Bool
  vddOffAt : Option Nat
  /-- LSR_CTG.STATE: 0 absent, 1 authenticating, 2 accepted, 3 refused [2 bits; 17; 0] -/
  ctgState : Nat
  /-- LSR_CTG.TEMP, 1/16 °C [16 bits signed; 17; 0] -/
  temp : Int
  /-- LSR_CTG_SERIAL [64 bits; 17; 0] -/
  serial : Nat
  lasers : Vector LaserSt 20
  /-- the seated cartridge's EEPROM, 8 KiB; an unlisted byte reads 0xFF [8,192 × 8 bits; 17 R367; 0xFF] -/
  eeprom : Sparse Byte
  /-- the signatures of usage pages A and B verify under the element key [17 R371; 0] -/
  sigOk : Vector Bool 2
  /-- the element's last signed SEQ, MIN and OUT (R372) [17 R372; 0] -/
  elemSeq : Nat
  elemMin : Vector Nat 20
  elemOut : Nat
  /-- the usage record in force: SEQ and SPARE_POS [17 R371; 0, 0xFF] -/
  recSeq : Nat
  sparePos : Vector Nat 2
  /-- a usage record is to be written [1 bit; 17 R372; 0] -/
  recDue : Bool
  /-- warm-up in progress since this crystal cycle; lasers settled in RUN [17 R375; none, 0] -/
  warmAt : Option Nat
  settled : Bool
  /-- warm-ups started after a seat fault in this start [2 bits; 17 R376; 0] -/
  seatTries : Nat
  deriving DecidableEq, Repr

/-! ## Calibration registers and snapshots -/

/-- Calibration as a whole (18). -/
structure CalSt where
  /-- CAL_CFG: SLOT_GAP_MS, SLOT_LIMIT_MS, BG_EN, FLASH_MIN [16, 9, 1, 11 bits; 18; 2000, 100, 1, 60] -/
  gapMs : Nat
  limitMs : Nat
  bgEn : Bool
  flashMin : Nat
  /-- CAL_STAT.RESTORED, PORTS_OK, PORTS_FAIL [2, 8, 8 bits; 18; 0] -/
  restored : Nat
  portsOk : Nat
  portsFail : Nat
  /-- CAL_STAT.FLASH_BUSY: a flash write is due or in progress [1 bit; 18 R399; 0] -/
  flashBusy : Bool
  /-- CAL_SNAP.TIME [64 bits; 18; 0] -/
  snapTime : Nat
  /-- CAL_CNT: SLOTS, ROLLBACKS, EXPIRED, FAILS per port [8 × 4 × 16 bits, RC; 18; 0] -/
  cnt : Vector (Vector Nat 4) 8
  /-- the snapshot region of the retention SRAM: seal and the 4,176 bytes [16 KiB; 03 R44, 18 R398; unsealed] -/
  sealed : Bool
  snap : List Byte
  /-- full calibration in progress: ports named, request owed a reply, crystal cycle of its start [18 R386; none] -/
  full : Option (Nat × Bool × Nat)
  /-- a full calibration completed in this start [1 bit; 18 R404; 0] -/
  fullDone : Bool
  /-- crystal cycles of the last capture and the last flash write [18 R397, R399; 0] -/
  capAt : Nat
  flashAt : Nat
  deriving DecidableEq, Repr

/-! ## Thermal -/

/-- The latest reading of a sensor and the one before: (1/16 °C, crystal cycle). -/
structure SensSt where
  last : Option (Int × Nat)
  fault : Bool
  prev : Option (Int × Nat)
  deriving DecidableEq, Repr

/-- The thermal block (19). -/
structure ThmSt where
  /-- THM_CFG: THROTTLE_C, HYST_C, STACK_C, ALERT_C, HOST_LIMIT, TRIP_STEP, LAPSE_MS, ENV_EXT_USE
  [8, 4, 8, 8, 5, 5, 8, 1 bits; 19; 100, 5, 95, 105, 16, 2, 5, ENV_EXT] -/
  throttleC : Nat
  hystC : Nat
  stackC : Nat
  alertC : Nat
  hostLimit : Nat
  tripStep : Nat
  lapseMs : Nat
  envUse : Bool
  /-- L in force and L_T [5 bits each; 19 R410, R412; 16] -/
  lim : Nat
  limT : Nat
  /-- the last fall of L_T was on a stack reading [1 bit; 19; 0] -/
  stackFall : Bool
  /-- crystal cycles of the last fall of L_T, of the last step of L down and up [19 R411; none] -/
  fallAt : Option Nat
  downAt : Option Nat
  upAt : Option Nat
  /-- restore timer running since this crystal cycle [19 R412; none] -/
  restore : Option Nat
  /-- THM_STATUS.LAPSE, ALERT [1 bit each; 19 R409, R417; 0] -/
  lapse : Bool
  alert : Bool
  /-- THM_REQ.SENSOR, BUSY [7, 1 bits; 19 R407; 0] -/
  reqSel : Nat
  busy : Bool
  /-- THM_RES: VALID, FAULT, SENSOR, TEMP; THM_RES_TIME [19; 0] -/
  resValid : Bool
  resFault : Bool
  resSel : Nat
  resTemp : Int
  resTime : Nat
  /-- THM_SHUT: KIND, SENSOR, RATE, TEMP; THM_SHUT_TIME, in Col [64 bits each; 19 R414; 0] -/
  shKind : Nat
  shSel : Nat
  shRate : Int
  shTemp : Int
  shTime : Nat
  /-- THM_CNT: ALERTS, LAPSES, UP, DOWN [4 × 16 bits, RC; 19; 0] -/
  cAlerts : Nat
  cLapses : Nat
  cUp : Nat
  cDown : Nat
  /-- THM_DIODE.ETA [4 × 16 bits; 19; 0x4083] -/
  eta : Vector Nat 4
  /-- THM_THERM: RES25, B [5 × 2 × 16 bits; 19; 10,000 and 3,435] -/
  res25 : Vector Nat 5
  beta : Vector Nat 5
  /-- last two readings per sensor [113 × 2; 19 R408; none] -/
  sens : Vector SensSt 113
  deriving DecidableEq, Repr

end Sys2Proof.Machine
end

