-- ==== Sys2Proof/Machine/State.lean ====
section
/-! DEFINITION. The whole state of the block, the reasons a command can stop, and the state after reset. Each field's
comment ends with [width; file, rule; value at reset]. -/

namespace Sys2Proof.Machine

/-- Reasons a command ends in a fault. No meaning of this model raises one: the manual gives every command an
effect. -/
inductive Fault
  /-- raised by no command; it keeps the type inhabited. Safe: nothing is proved from it. -/
  | unused
  deriving DecidableEq, Repr

/-- Reasons a command is refused. An ill-formed command (WellFormed) is not refused: every meaning is total. -/
inductive Refusal
  /-- the command has no meaning in the model; raised by Dispatch alone. Safe: the machine stops. -/
  | notModelled (mnemonic : String)
  deriving DecidableEq, Repr

/-- What a host access of a register leaves behind (R7). Keys are space × 2^21 + offset, the physical function being
space 0 and virtual function n + 1 being space n + 1. -/
structure BusSt where
  /-- the value the last register read returned [64 bits; 00 R7, R8; DESIGN CHOICE 0 (log 12)] -/
  rdata : Nat
  /-- low halves held for their high half [32 bits each; 00 R7; none] -/
  held : Sparse (Option Nat)
  /-- high halves latched by a low-half read [32 bits each; 00 R7; none] -/
  latch : Sparse (Option Nat)
  /-- the bytes and poison the last BAR 2 read returned [up to 512 B; 08 R143; DESIGN CHOICE none (log 12)] -/
  bar2 : List Byte
  bar2Poison : Bool
  deriving DecidableEq, Repr

/-- The chrodom message layer's counters of one partition (CHL_PMSG). -/
structure PmsgSt where
  /-- CHL_PMSG.LATE [16 bits, RC; 16 R355; 0] -/
  late : Nat
  /-- CHL_PMSG.TIMEOUTS [16 bits, RC; 16 R355; 0] -/
  timeouts : Nat
  deriving DecidableEq, Repr

/-- Everything the manual gives the ABD-6400, and the queue of waiting commands. -/
structure State where
  pins : Pins
  col : Col
  start : StartSt
  quads : Vector QuadClk 16
  cairn : CairnSt
  /-- CLK_SYS_STAT.LOCK_LOSS_CNT [8 bits, RC; 03; 0] -/
  lockLoss : Nat
  loader : LoaderSt
  /-- a structure is committed [1 bit; 06 R109; 0] -/
  committed : Bool
  /-- the committed structure; meaningful while `committed` [06 R93; none] -/
  str : Structure
  ret : RetStruct
  parts : Vector PartRt 16
  /-- functions that exist beside physical function 0 [5 bits; 08 R141; DESIGN CHOICE 16 (log 13)] -/
  numVfs : Nat
  vfs : Vector Vf 16
  /-- turns on the shared resources: channels 0 to 127, and 128 the reload engine [07 R124; none] -/
  turns : Vector Turn 129
  mbx : MbxSt
  /-- MSI-X table of physical function 0 [32 entries; 08 R142] -/
  pfMsix : Vector MsixEnt 32
  /-- MSI-X messages signalled to the host, latest first [list; 08 R149; none] -/
  irqs : List Irq
  /-- the items that hold descriptor slots or whose records are owed, in fetch order [08 R161; none] -/
  items : List Item
  /-- the next item's name [count; 08 R161; DESIGN CHOICE 0 (log 12)] -/
  nextItem : Nat
  /-- requests awaiting a reply, or waiting for a buffer [at most 64 per partition; 16 R355; none] -/
  sends : List SendRec
  /-- the next MID [32 bits; 16 R352; DESIGN CHOICE 0 (log 12)] -/
  nextMid : Nat
  dram : DramSt
  ras : RasSt
  trv : TrvSt
  crest : CrestSt
  cornice : Vector EngineSt 16
  spur : SpurSt
  ports : Vector PortSt 8
  links : Vector LinkSt 8
  /-- CHL_CFG.LINK_HOLD_MS [16 bits; 16; 50] -/
  linkHoldMs : Nat
  /-- CHL_CFG.REPLY_MS [16 bits; 16; 200] -/
  replyMs : Nat
  pmsg : Vector PmsgSt 16
  laser : LaserBlk
  cal : CalSt
  thm : ThmSt
  /-- the SPI flash; an unlisted byte reads 0xFF [64 MiB; 04 R67; DESIGN CHOICE erased (log 11)] -/
  flash : Sparse Byte
  /-- host memory as the device reads and writes it [64-bit bus addresses; 08 R152; DESIGN CHOICE 0 (log 14)] -/
  hostMem : Sparse Byte
  bus : BusSt
  /-- the commands that wait, first in, first out [list; the model's own queue; empty] -/
  pending : List Instr
  /-- how many free values have been drawn [count; the MODEL's own field, not the manual's; DESIGN CHOICE 0 (log 1)] -/
  free : Nat
  deriving DecidableEq, Repr

/-! ## The state after reset -/

def Pins.reset : Pins :=
  { pwrGood := false, resetN := false, tripN := true, pgRise := none, tripRel := none }

def Col.reset : Col :=
  { por := true, cyc := 0, life := 1, serial := 0, grade2 := false, envExt := false, smbAddr := 0,
    uv := rep 4 false, pwrLost := true, pwrLossRec := true, xtalFault := false, timeUntraced := false,
    xtalBad := false, xtalSinceReady := false, attempts := 0, safe := false, lastWarm := false,
    srRec := rep 8 none, cairnProgSince := false, idleHeld := false, readySerial := 0 }

def StartSt.reset : StartSt :=
  { phase := .rom, kind := 0, cause := 0, refused := false, structNone := false, fwFallback := false,
    optDown := false, notTaken := rep 5 false, skipped := rep 5 false, done := rep 5 false, time := 0,
    reason := rep 5 0, begun := 0, due := false, reqKind := 0, stop := none, resetHeld := true,
    uvHold := false, thermHold := false, resetPend := false, hostIf := false, failedAt := none,
    opticsDone := false, sysLock := false, trvLock := false }

def QuadClk.reset : QuadClk :=
  { st := .off, target := .off, failed := false, entering := none, waking := none, wakeAfter := false,
    reload := false, pll := false, relocks := none, idleAt := 0, prewake := none, fwHold := false,
    waitFrom := none, pol := 0x643C9897004F020C, waits := 0, maxWait := 0, pin := false }

def CairnSt.reset : CairnSt :=
  { words := [], weak := [], weakCnt := 0, spareLeft := 0, genConsumed := 0, genInForce := 0,
    vppPresent := false, factoryOk := false, sweepDone := false, sweepTime := 0, rdWord := 0, rdData := 0,
    rdClass := .blank, rdValid := false, rdRefused := false, progResult := 0, progWords := 0, progSlot := 0,
    progState := 0, progTime := 0, prog := none }

def DeviceCfg.blank : DeviceCfg :=
  { devIndex := 0, devCount := 1, topo := 0, torusW := 0, portEn := 0, trvEn := false }

/-- No structure: what `State.str` holds while nothing is committed. -/
def Structure.blank : Structure :=
  { id := 0, gen := 0, seq := 0, keyId := 0, anchor := 0, partSeq := rep 16 0, dev := DeviceCfg.blank,
    parts := rep 16 .none, quads := rep 16 .none, routes := [], cornice := rep 16 .none, links := rep 8 .none,
    trv := rep 16 .none, banks := rep 16 0, kernels := rep 16 .none, tileInit := rep 64 .none, lbase := rep 16 0 }

def LoaderSt.reset : LoaderSt :=
  { state := .idle, err := 0, flash := false, target := 0, kind := 0, feOff := 0, feClass := 0, feIndex := 0,
    bytes := 0, time := 0, byHost := false, addr := 0, len := 0, stageOnly := false, staging := [],
    staged := none, reqAt := 0, stagedAt := 0, prepared := false }

def RetStruct.reset : RetStruct := { sealed := false, copy := none }

def PartRt.reset : PartRt :=
  { state := .undefined, holdMs := 10, drainMs := 20, qtime := 0, discarded := 0, refused := 0, restruct := 0,
    sliceWait := 0, held := [], slotWait := [], cells := [], boundary := 0, drainNow := 0, holdNow := 0, holdEnded := false,
    zeroed := false, arrivals := [], replies := [], sendRecs := [], served := [] }

/-- A queue pair at its reset state (R144): queue q signals vector q. -/
def QueueSt.reset (q : Queue) : QueueSt :=
  { sqBase := 0, cqBase := 0, coalTime := 5, coalCnt := 0, vec := ⟨q.val, by omega⟩, en := false,
    fetchErr := false, dbErr := false, sqHead := 0, sqTail := 0, cqHead := 0, cqTail := 0, phase := false,
    unsig := 0, oldest := 0, abandon := false, inRun := false }

def MsixEnt.reset : MsixEnt := { addr := 0, data := 0, masked := true, pend := false }

def Vf.reset : Vf :=
  { stepReserve := 16, evtEn := true, evtVec := 8, evtState := false, evtQerr := false, evtReply := false,
    q := tab 8 QueueSt.reset, rr := 7, bme := true, waiting := [], msix := rep 16 MsixEnt.reset }

def MbxSt.reset : MbxSt :=
  { reqBase := 0, rspBase := 0, vec := 0, log2 := 6, en := false, fetchErr := false, dbErr := false,
    reqHead := 0, reqTail := 0, rspHead := 0, rspTail := 0, phase := false, busy := none, winBase := 0 }

def ChanSt.reset : ChanSt :=
  { drain := false, rdOut := 0, wrWait := 0, wrOldest := 0, wrIssue := 0, ce := 0, ue := 0, poisonRd := 0,
    scrubFix := 0, delay := 0, shadow := 0, scrubPos := 0, scrubDone := false }

def StackSt.reset : StackSt :=
  { sr := false, switching := none, band := 0, temp := 0, relocks := 0, maxOwed := 0, pll := false,
    lost := none, sentinel := none, sentinelBad := false }

def DramSt.reset : DramSt :=
  { scrubEn := true, scrubHours := 24, lowWm := 16, highWm := 48, scrubTime := 0, ueLast := none,
    stk := rep 8 StackSt.reset, chans := rep 128 ChanSt.reset, owed := rep 512 0, mem := [], poison := [],
    flaws := [] }

def RasSt.reset : RasSt :=
  { vec := 0, minClass := 2, en := true, unread := [], waiting := [], rom := [], romKept := 0, next := 0,
    overwritten := 0, cnt := rep 4 0, fatal := none, fatalValid := false, pfail := rep 16 (rep 4 0) }

def TrvSt.reset : TrvSt :=
  { run := false, startAt := none, epoch := 0, ticks := 0, sel := 0, pcfg := rep 16 0x00004650020C0914,
    pcnt := rep 16 (rep 6 0), sess := [], endpts := [], appends := [] }

def QuadSt.reset : QuadSt :=
  { run := none, last := 0, k := 0, cap := 16, sems := rep 16 0, sat := 0, eccCe := 0, eccUe := 0, faults := 0,
    entries := 0, fCause := 0, fTile := 0, fOp := 0, kernel := [] }

def CrestSt.reset : CrestSt :=
  { quads := rep 16 QuadSt.reset, stepLimit := rep 16 100, sram := [], qbuf := [], sramPoison := [],
    qbufPoison := [], sramFlaws := [], qbufFlaws := [], slew := [], incLast := 15, decLast := 15 }

def EngineSt.reset : EngineSt :=
  { st := .idle, op := 0, entry := 0, upAck := 0, upPub := 0, dnAck := 0, dnPub := 0, resizing := false,
    upSlots := 0, dnSlots := 0, used := 262144, started := false, striped := 0, pubs := [],
    slots := [], waitFrom := none, stall := 0, eccCe := 0, eccUe := 0, faults := 0,
    emptyBox := 0, fCause := 0, fOp := 0, flaw := none }

def GroupSt.reset : GroupSt :=
  { regs := rep 4 none, res := [], fire := none, gated := false, lastUse := 0, lastFire := 0, lastTest := 0 }

def LedgerSt.reset : LedgerSt :=
  { free := 32, held := 0, retired := 0, target := 32, residue := 0, test := 0 }

def SpurPart.reset : SpurPart :=
  { sat := 0, faults := 0, degraded := 0, jobs := 0, fCause := 0, fHost := false, fQuad := 0, fSlot := 0,
    allow := rep 8 0, landed := [] }

def SpurSt.reset : SpurSt :=
  { testPeriod := 60, testIdle := 20, testEn := true, width := 1, ledgers := rep 8 LedgerSt.reset,
    groups := rep 512 GroupSt.reset, masks := rep 512 0, retired := rep 512 false,
    parts := rep 16 SpurPart.reset, jobs := [], nextJob := 0, queues := rep 128 [], rot := rep 128 3,
    starts := [], ends := [] }

def RingSt.reset : RingSt :=
  { bias := 0, target := 0, mode := .off, u := 0, lock := false, unlock := false, clamp := false,
    noLight := false, heater := 0, good := 0, bad := 0, mEven := none, rtime := 0 }

def TrackSt.reset : TrackSt :=
  { phase := 0, dsRec := [], double := 0, retrains := 0, since := none, pend := false }

/-- A row of the identity crosstalk matrix in Q1.14: entry d + 4 is 0x4000 for d = 0 (R311). -/
def xtIdentity : Vector Int 9 := upd (rep 9 0) 4 16384

def PortSt.reset : PortSt :=
  { state := 0, pll := false, tries := 0, lost := false, txLight := false, rxLight := false, peer := none, kiTx := 2048,
    kiRx := 1024, dither := 8, stepMax := 64, xtLoad := false, gainTx := 1, gainRx := 2, gainTap := 0,
    filt := false, reqIn := 0, reqGain := 0, reqImm := false, reqPend := false, res := 0, last := rep 40 0,
    settle := 0, selIn := 0, selGain := 0, selFilt := false, tapA := (0, 0), cRetrains := 0, cMoves := 0, cUnlocks := 0,
    cSkip := 0, grid := rep 2 (rep 18 .off), lmap := rep 2 (rep 16 0), rings := rep 36 RingSt.reset,
    xt := rep 18 xtIdentity, mat := rep 18 xtIdentity, trk := rep 18 TrackSt.reset, frame := 0, txBase := 0,
    rxBase := 0, txMoves := [], rxMoves := [], seatLow := 0, acq := [], tried := rep 2 (rep 18 (0, 0)),
    cal := none, zero := rep 4 0, tp := rep 2 none }

def LinkSt.reset : LinkSt :=
  { st := .down, lead := false, mis := 0, peerDev := 0, peerPort := 0, peerSerial := 0, helloOk := false,
    csyncOk := false, bringUp := false, locked := rep 16 false, fecUe := 0, crcErr := 0, replays := 0,
    retrains := 0, fecCe := 0, fecWin := rep 16 (0, 0), txSeq := 0, replay := [], txq := [], resent := 0, sentAt := 0, rxSeq := 0,
    nakAt := none, cred := rep 8 0, freed := rep 8 0, seen := rep 8 0, occ := rep 8 0, rxPart := [],
    outAt := none, held := false, swap := .none, slot := none, slotEnd := 0, sent := [] }

/-- LSR_LASER[n] at reset: OFF, the spares 18 and 19 COLD, COVER 31. -/
def LaserSt.reset (n : Fin 20) : LaserSt :=
  { st := if n.val < 18 then .off else .cold, oc := false, open_ := false, short := false, cover := 31, bias := 0,
    ocAt := none, ocPrev := none, litAt := none, litCyc := 0 }

def LaserBlk.reset : LaserBlk :=
  { trip := false, intlk := false, seqErr := false, clrRefused := false, tripTime := 0, armed := none,
    intlkLow := true, intlkRel := 0, latchOpen := false, seatedAt := none, seat0 := false, seat1 := false,
    policyOff := true, policy := 2, auth := 0, vddOn := false, vddOffAt := none, ctgState := 0, temp := 0,
    serial := 0, lasers := tab 20 LaserSt.reset, eeprom := [], sigOk := rep 2 false, elemSeq := 0,
    elemMin := rep 20 0, elemOut := 0, recSeq := 0, sparePos := rep 2 0xFF, recDue := false,
    warmAt := none, settled := false, seatTries := 0 }

def CalSt.reset : CalSt :=
  { gapMs := 2000, limitMs := 100, bgEn := true, flashMin := 60, restored := 0, portsOk := 0, portsFail := 0,
    flashBusy := false, snapTime := 0, cnt := rep 8 (rep 4 0), sealed := false, snap := [], full := none,
    fullDone := false, capAt := 0, flashAt := 0 }

def SensSt.reset : SensSt := { last := none, fault := false, prev := none }

def ThmSt.reset : ThmSt :=
  { throttleC := 100, hystC := 5, stackC := 95, alertC := 105, hostLimit := 16, tripStep := 2, lapseMs := 5,
    envUse := false, lim := 16, limT := 16, stackFall := false, fallAt := none, downAt := none, upAt := none,
    restore := none, lapse := false, alert := false, reqSel := 0, busy := false, resValid := false,
    resFault := false, resSel := 0, resTemp := 0, resTime := 0, shKind := 0, shSel := 0, shRate := 0,
    shTemp := 0, shTime := 0, cAlerts := 0, cLapses := 0, cUp := 0, cDown := 0, eta := rep 4 0x4083,
    res25 := rep 5 10000, beta := rep 5 3435, sens := rep 113 SensSt.reset }

def BusSt.reset : BusSt :=
  { rdata := 0, held := [], latch := [], bar2 := [], bar2Poison := false }

def Turn.reset : Turn := { holder := none, start := 0, last := 15 }

/-- The machine at Col power-on reset, before any command: every register at its reset value (R456). -/
def State.reset : State :=
  { pins := Pins.reset, col := Col.reset, start := StartSt.reset, quads := rep 16 QuadClk.reset,
    cairn := CairnSt.reset, lockLoss := 0, loader := LoaderSt.reset, committed := false, str := Structure.blank,
    ret := RetStruct.reset, parts := rep 16 PartRt.reset, numVfs := 16, vfs := rep 16 Vf.reset,
    turns := rep 129 Turn.reset, mbx := MbxSt.reset, pfMsix := rep 32 MsixEnt.reset, irqs := [], items := [],
    nextItem := 0, sends := [], nextMid := 0, dram := DramSt.reset, ras := RasSt.reset, trv := TrvSt.reset,
    crest := CrestSt.reset, cornice := rep 16 EngineSt.reset, spur := SpurSt.reset, ports := rep 8 PortSt.reset,
    links := rep 8 LinkSt.reset, linkHoldMs := 50, replyMs := 200, pmsg := rep 16 { late := 0, timeouts := 0 },
    laser := LaserBlk.reset, cal := CalSt.reset, thm := ThmSt.reset, flash := [], hostMem := [],
    bus := BusSt.reset, pending := [], free := 0 }

end Sys2Proof.Machine
end

