-- ==== Sys2Proof/Machine/Flags.lean ====
section
/-! DEFINITION. Status values: the codes of R12 to R14, the pairs of R437, and how one is chosen among several. -/

namespace Sys2Proof.Machine

/-- R12: the 8-bit CODE. -/
def Code.num : Code → Nat
  | .ok => 0x00
  | .concealed => 0x01
  | .degraded => 0x02
  | .poisoned => 0x10
  | .abandoned => 0x11
  | .timeout => 0x12
  | .refused => 0x13
  | .restructured => 0x14
  | .sessionGone => 0x20
  | .sessionHeld => 0x21
  | .stopping => 0x30

/-- R14: the place of a code in the order of report; 0 is reported first. -/
def Code.rank : Code → Nat
  | .stopping => 0
  | .restructured => 1
  | .sessionGone => 2
  | .sessionHeld => 3
  | .refused => 4
  | .abandoned => 5
  | .timeout => 6
  | .poisoned => 7
  | .concealed => 8
  | .degraded => 9
  | .ok => 10

/-- The 16-bit status value: CODE in bits [11:4] and SUB in bits [3:0]. -/
def Status.num (t : Status) : Nat := t.code.num * 16 + t.sub % 16

/-- The code that a status value carries; a value of no code of R12 reads as REFUSED (R15: no usable results). -/
def Code.ofNum (n : Nat) : Code :=
  if n = 0x00 then .ok else if n = 0x01 then .concealed else if n = 0x02 then .degraded
  else if n = 0x10 then .poisoned else if n = 0x11 then .abandoned else if n = 0x12 then .timeout
  else if n = 0x13 then .refused else if n = 0x14 then .restructured else if n = 0x20 then .sessionGone
  else if n = 0x21 then .sessionHeld else if n = 0x30 then .stopping else .refused

/-- The status a 16-bit value stands for. -/
def Status.ofNum (n : Nat) : Status := { code := Code.ofNum (fld n 11 4), sub := fld n 3 0 }

/-- R14: of two statuses, the one that is reported; of equal codes, the first. -/
def Status.first (a b : Status) : Status := if b.code.rank < a.code.rank then b else a

/-- R14 over a list. -/
def Status.worst (a : Status) (l : List Status) : Status := l.foldl Status.first a

/-- R426: an item fails when it completes with any code other than 0x00 to 0x02. -/
def Status.failed (t : Status) : Bool := decide (2 < t.code.num)

/-- OK. -/
def stOk : Status := { code := .ok, sub := 0 }
/-- POISONED with a SUB of R437. -/
def stPoisoned (n : Nat) : Status := { code := .poisoned, sub := n }
/-- TIMEOUT with a SUB of R437. -/
def stTimeout (n : Nat) : Status := { code := .timeout, sub := n }
/-- REFUSED with a SUB of R437. -/
def stRefused (n : Nat) : Status := { code := .refused, sub := n }
/-- RESTRUCTURED with a SUB of R437. -/
def stRestructured (n : Nat) : Status := { code := .restructured, sub := n }
/-- DEVICE_STOPPING with a SUB of R437. -/
def stStopping (n : Nat) : Status := { code := .stopping, sub := n }
/-- SESSION_GONE with a SUB of R437. -/
def stGone (n : Nat) : Status := { code := .sessionGone, sub := n }
/-- SESSION_HELD. -/
def stHeld : Status := { code := .sessionHeld, sub := 0 }
/-- ABANDONED, SUB 1. -/
def stAbandoned : Status := { code := .abandoned, sub := 1 }
/-- OK_CONCEALED, SUB 1. -/
def stConcealed : Status := { code := .concealed, sub := 1 }

/-- R159: a retry hint in units of 10 µs, rounded up, from crystal cycles; 0xFFFF is 655.35 ms or more. -/
def hintOf (cyc : Nat) : Nat := min (cdiv cyc 250) 0xFFFF

end Sys2Proof.Machine
end

