-- ==== Sys2Proof/Machine/Ops.lean ====
section
/-! DEFINITION. The named operations over State that every family uses: time, free values, updates of one table entry,
interrupts, host memory, flash, and the error log. A block takes no exception; an error is a status, a log entry or an
interrupt. -/

namespace Sys2Proof.Machine

/-! ## Time -/

/-- Crystal cycles since Col left power-on reset. -/
def State.now (s : State) : Nat := s.col.cyc

/-- R6, R45: the Col timestamp. -/
def State.time (s : State) : Nat := s.col.cyc / 32 % 2 ^ 64

/-- At least `d` crystal cycles have passed since cycle `t`. -/
def State.past (s : State) (t d : Nat) : Bool := decide (t + d ≤ s.col.cyc)

/-- A free value (log 1), and the state with the next one ahead. -/
def State.draw (s : State) : Nat × State := (Config.freeBits s.free, { s with free := s.free + 1 })

/-! ## One entry of a table -/

def State.setQ (s : State) (q : Quad) (f : QuadClk → QuadClk) : State := { s with quads := updWith s.quads q f }
def State.setPart (s : State) (p : Part) (f : PartRt → PartRt) : State := { s with parts := updWith s.parts p f }
def State.setVf (s : State) (p : Part) (f : Vf → Vf) : State := { s with vfs := updWith s.vfs p f }
def State.setQueue (s : State) (p : Part) (q : Queue) (f : QueueSt → QueueSt) : State :=
  s.setVf p (fun v => { v with q := updWith v.q q f })
def State.setCq (s : State) (q : Quad) (f : QuadSt → QuadSt) : State :=
  { s with crest := { s.crest with quads := updWith s.crest.quads q f } }
def State.setEng (s : State) (e : Quad) (f : EngineSt → EngineSt) : State :=
  { s with cornice := updWith s.cornice e f }
def State.setChan (s : State) (c : Chan) (f : ChanSt → ChanSt) : State :=
  { s with dram := { s.dram with chans := updWith s.dram.chans c f } }
def State.setStack (s : State) (k : Stack) (f : StackSt → StackSt) : State :=
  { s with dram := { s.dram with stk := updWith s.dram.stk k f } }
def State.setGroup (s : State) (g : Group) (f : GroupSt → GroupSt) : State :=
  { s with spur := { s.spur with groups := updWith s.spur.groups g f } }
def State.setLedger (s : State) (k : Stack) (f : LedgerSt → LedgerSt) : State :=
  { s with spur := { s.spur with ledgers := updWith s.spur.ledgers k f } }
def State.setSpurPart (s : State) (p : Part) (f : SpurPart → SpurPart) : State :=
  { s with spur := { s.spur with parts := updWith s.spur.parts p f } }
def State.setPort (s : State) (p : Port) (f : PortSt → PortSt) : State := { s with ports := updWith s.ports p f }
def State.setLink (s : State) (p : Port) (f : LinkSt → LinkSt) : State := { s with links := updWith s.links p f }
def State.setLaser (s : State) (n : Fin 20) (f : LaserSt → LaserSt) : State :=
  { s with laser := { s.laser with lasers := updWith s.laser.lasers n f } }

def State.quad (s : State) (q : Quad) : QuadClk := tget s.quads q
def State.part (s : State) (p : Part) : PartRt := tget s.parts p
def State.vf (s : State) (p : Part) : Vf := tget s.vfs p
def State.queue (s : State) (p : Part) (q : Queue) : QueueSt := tget (s.vf p).q q
def State.cq (s : State) (q : Quad) : QuadSt := tget s.crest.quads q
def State.eng (s : State) (e : Quad) : EngineSt := tget s.cornice e
def State.chan (s : State) (c : Chan) : ChanSt := tget s.dram.chans c
def State.stack (s : State) (k : Stack) : StackSt := tget s.dram.stk k
def State.port (s : State) (p : Port) : PortSt := tget s.ports p
def State.link (s : State) (p : Port) : LinkSt := tget s.links p

/-- A state change for each member of a list, in order. -/
def State.each {α : Type} (s : State) (l : List α) (f : State → α → State) : State := l.foldl f s

/-- `f` on the state when the condition holds, else no effect. -/
def State.when (s : State) (c : Bool) (f : State → State) : State := if c then f s else s

/-- Every partition, quad, port, stack and channel, ascending. -/
def allParts : List Part := List.finRange 16
def allQuads : List Quad := List.finRange 16
def allPorts : List Port := List.finRange 8
def allStacks : List Stack := List.finRange 8
def allChans : List Chan := List.finRange 128

/-! ## Phase -/

/-- MBX_START_PHASE.PHASE changes, and MBX_START_TIME records when. -/
def State.setPhase (s : State) (ph : Phase) : State :=
  { s with start := { s.start with phase := ph, time := s.time } }

/-- The phase is READY or READY_EMPTY. -/
def State.isReady (s : State) : Bool := s.start.phase == .ready || s.start.phase == .readyEmpty

/-- R65: management registers outside the COL_ block and the start registers are served. -/
def State.served (s : State) : Bool := ! s.col.por && s.start.hostIf && (s.isReady || s.start.phase == .safe)

/-- A start other than a safe start is in progress. -/
def State.starting (s : State) : Bool :=
  match s.start.phase with
  | .rom => s.start.due
  | .firmware | .cairn | .bringUp | .commit => true
  | _ => false

/-! ## The committed structure -/

/-- PARTITION frame of a partition that the committed structure defines. -/
def State.cfg (s : State) (p : Part) : Option PartCfg := if s.committed then tget s.str.parts p else none

/-- The partition that owns a quad. -/
def State.owner (s : State) (q : Quad) : Option Part :=
  allParts.find? (fun p => match s.cfg p with | some c => bitAt c.quads q.val | none => false)

/-- QUAD frame of an owned quad. -/
def State.quadCfg (s : State) (q : Quad) : Option QuadCfg := if s.committed then tget s.str.quads q else none

/-- The quads of a partition, ascending. -/
def State.quadsOf (s : State) (p : Part) : List Quad :=
  match s.cfg p with
  | some c => allQuads.filter (fun q => bitAt c.quads q.val)
  | none => []

/-- Ring entries of a queue pair (R144). -/
def State.ringSize (s : State) (p : Part) : Nat := match s.cfg p with | some c => 2 ^ c.qdepth | none => 1

/-- QUEUES of a partition, 0 when it is not defined. -/
def State.queuesOf (s : State) (p : Part) : Nat := match s.cfg p with | some c => c.queues | none => 0

/-- The partition whose range holds a session. -/
def State.sessPart (s : State) (n : Nat) : Option Part :=
  allParts.find? (fun p => match s.cfg p with
    | some c => decide (c.sessFirst ≤ n) && decide (n < c.sessFirst + c.sessCount)
    | none => false)

/-! ## Interrupts (R149, R442) -/

/-- Signals a vector of physical function 0; a masked vector sets its pending bit. -/
def State.signalPf (s : State) (v : Fin 32) : State :=
  let e := tget s.pfMsix v
  if e.masked then { s with pfMsix := upd s.pfMsix v { e with pend := true } }
  else { s with irqs := { func := 0, vec := v.val, addr := e.addr, data := e.data } :: s.irqs }

/-- Signals a vector of a partition's virtual function, once the function may write host memory (R165). -/
def State.signalVf (s : State) (p : Part) (v : Fin 16) : State :=
  let e := tget (s.vf p).msix v
  if (s.vf p).bme then
    if e.masked then s.setVf p (fun f => { f with msix := upd f.msix v { e with pend := true } })
    else { s with irqs := { func := p.val + 1, vec := v.val, addr := e.addr, data := e.data } :: s.irqs }
  else s.setVf p (fun f => { f with waiting := f.waiting ++ [.msix v.val] })

/-- R149: an event of a virtual function signals VFP_EVT_CTRL.VEC when EN is 1. -/
def State.event (s : State) (p : Part) : State :=
  if (s.vf p).evtEn then s.signalVf p (s.vf p).evtVec else s

/-- A queue error: VFP_EVT_STAT.QERR and the event vector. -/
def State.queueError (s : State) (p : Part) : State :=
  (s.setVf p (fun f => { f with evtQerr := true })).event p

/-! ## Host memory -/

/-- `n` bytes of host memory at a 64-bit bus address. -/
def State.hostRead (s : State) (a n : Nat) : List Byte := spRead s.hostMem a n

/-- A write to host memory for physical function 0. -/
def State.hostWritePf (s : State) (a : Nat) (bs : List Byte) : State := { s with hostMem := spWrite s.hostMem a bs }

/-- A write to host memory for a partition's virtual function; it waits while the function may not write (R165). -/
def State.hostWrite (s : State) (p : Part) (a : Nat) (bs : List Byte) : State :=
  if (s.vf p).bme then s.hostWritePf a bs
  else s.setVf p (fun f => { f with waiting := f.waiting ++ [.bytes a bs] })

/-! ## Flash (R67): an erased byte reads 0xFF -/

/-- Bytes written at consecutive addresses of a memory whose unlisted bytes read `d`. -/
def spWriteD (d : Byte) (m : Sparse Byte) : Nat → List Byte → Sparse Byte
  | _, [] => m
  | a, b :: r => spSet d (spWriteD d m (a + 1) r) a b

/-- `n` bytes of a memory whose unlisted bytes read `d`. -/
def spReadD (d : Byte) (m : Sparse Byte) (a : Nat) : Nat → List Byte
  | 0 => []
  | n + 1 => spGet d m a :: spReadD d m (a + 1) n

/-- `n` bytes of the flash. -/
def State.flashRead (s : State) (a n : Nat) : List Byte := spReadD 0xFF s.flash a n

/-- Programming clears bits only: each byte becomes the AND of the old and the new. -/
def flashAnd : List Byte → List Byte → List Byte
  | a :: r, b :: t => (a &&& b) :: flashAnd r t
  | _, _ => []

/-- A flash program of bytes at an address. -/
def State.flashProgram (s : State) (a : Nat) (bs : List Byte) : State :=
  { s with flash := spWriteD 0xFF s.flash a (flashAnd (s.flashRead a bs.length) bs) }

/-- A flash erase of a range. -/
def State.flashErase (s : State) (a n : Nat) : State := { s with flash := spClear s.flash a n }

/-- Base of each region of R67. -/
def fwSlotA : Nat := 0x10000
def fwSlotB : Nat := 0x410000
def defStructBase : Nat := 0x810000
def snapSlotA : Nat := 0x2810000
def snapSlotB : Nat := 0x2820000

/-! ## The error log (R438 to R442) -/

/-- R439: the 32 bytes of an entry. -/
def LogEnt.bytes (e : LogEnt) : List Byte :=
  leBytes 4 e.lseq
    ++ leBytes 1 (e.cls.val + bnat e.sess.isSome * 8 + bnat e.part.isSome * 16 + bnat e.addr * 32)
    ++ leBytes 1 e.block ++ leBytes 2 e.event ++ leBytes 8 e.time ++ leBytes 8 e.detail ++ leBytes 2 e.status
    ++ leBytes 2 ((match e.sess with | some n => n % 4096 | none => 0)
        + (match e.part with | some p => p.val * 4096 | none => 0))
    ++ leBytes 4 e.seq

/-- The stacks can take a log entry: none is in self-refresh, relocking or not yet initialised. -/
def State.dramUp (s : State) : Bool := s.dram.stk.toList.all (fun k => k.pll && ! k.sr)

/-- R441, R442: an entry is written to the ring; the oldest unread one is lost when 4,096 are unread. -/
def State.logWrite (s : State) (e : LogEnt) : State :=
  let r := s.ras
  let full := decide (4096 ≤ r.unread.length)
  let r := { r with
    unread := (if full then r.unread.drop 1 else r.unread) ++ [e]
    overwritten := satAdd r.overwritten (bnat full) 0xFFFF
    cnt := updWith r.cnt e.cls (fun n => satAdd n 1 0xFFFF) }
  let s := { s with ras := r }
  if r.en && decide (r.minClass ≤ e.cls.val) then s.signalPf r.vec else s

/-- R438, R441, R442: a detection takes its LSEQ; its entry is written, waits for DRAM, is kept by the boot ROM, or is
dropped and counted; a class 3 event becomes the fatal record at once. -/
def State.log (s : State) (cls : Fin 4) (block event detail : Nat) (part : Option Part := none) (status : Nat := 0)
    (addr : Bool := false) (step : Option (Nat × Nat) := none) : State :=
  let e : LogEnt :=
    { lseq := s.ras.next, cls := cls, sess := step.map (·.1), part := part, addr := addr, block := block,
      event := event, time := s.time, detail := detail, status := status,
      seq := match step with | some (_, q) => q | none => 0 }
  let s := { s with ras := { s.ras with
    next := (s.ras.next + 1) % 2 ^ 32
    fatal := if cls = 3 then some e else s.ras.fatal
    fatalValid := s.ras.fatalValid || decide (cls = 3) } }
  if s.start.phase == .safe then
    if s.ras.romKept < 64 then
      { s with ras := { s.ras with rom := s.ras.rom ++ [e], romKept := s.ras.romKept + 1
                                   cnt := updWith s.ras.cnt cls (fun n => satAdd n 1 0xFFFF) } }
    else { s with ras := { s.ras with overwritten := satAdd s.ras.overwritten 1 0xFFFF } }
  else if s.dramUp then s.logWrite e
  else if s.ras.waiting.length < 64 then { s with ras := { s.ras with waiting := s.ras.waiting ++ [e] } }
  else { s with ras := { s.ras with overwritten := satAdd s.ras.overwritten 1 0xFFFF } }

/-- DETAIL of R440: unit in bits [7:0] and data in bits [63:8]. -/
def detailOf (unit data : Nat) : Nat := unit % 256 + data % 2 ^ 56 * 256

/-- R438: when DRAM returns, the waiting entries are written in LSEQ order. -/
def State.logFlush (s : State) : State :=
  if s.dramUp then
    let w := s.ras.waiting
    ({ s with ras := { s.ras with waiting := [] } } : State).each w State.logWrite
  else s

end Sys2Proof.Machine
end

