-- ==== Sys2Proof/Machine/DramOps.lean ====
section
/-! DEFINITION. Where each byte of DRAM lives (R271 to R275), and the reads, writes and zeroization of it with error
correction and poison (R276, R279, R286 to R288). -/

namespace Sys2Proof.Machine

/-! ## Addresses and locations -/

/-- R108: the first device physical address of the structure region. -/
def structBase : Nat := 0x3FC0000000
/-- R271: the channel-local space below the structure region, in MiB. -/
def shareTop : Nat := 2040

/-- R101: the grain in bytes. -/
def grainBytes (g : Nat) : Nat := 256 * 4 ^ g

/-- R272: the channels of a set, ascending. -/
def chanList (c : PartCfg) : List Nat := bitsOf 128 c.channels

/-- R272: SHARE in MiB. -/
def shareOf (c : PartCfg) : Nat := c.winSize / (chanList c).length

/-- R272: the location (channel × 2^31 + L) of window offset `o`. -/
def winLoc (c : PartCfg) (lbase o : Nat) : Nat :=
  let cs := chanList c
  let g := grainBytes c.grain
  let u := o / g
  cs.getD (u % cs.length) 0 * 2 ^ 31 + lbase * 2 ^ 20 + u / cs.length * g + o % g

/-- R272, the inverse: the window offset of the byte at L on the k-th channel of the set. -/
def winOff (c : PartCfg) (lbase k L : Nat) : Nat :=
  let g := grainBytes c.grain
  let r := L - lbase * 2 ^ 20
  (r / g * (chanList c).length + k) * g + r % g

/-- R274: the location of offset `o` of the structure region. -/
def structLoc (o : Nat) : Nat :=
  let u := o / 4096
  u % 128 * 2 ^ 31 + shareTop * 2 ^ 20 + u / 128 * 4096 + o % 4096

/-- The window that holds a device physical address. -/
def State.winAt (s : State) (a : Nat) : Option (Part × PartCfg) :=
  allParts.findSome? (fun p => match s.cfg p with
    | some c => if c.winBase * 2 ^ 20 ≤ a ∧ a < (c.winBase + c.winSize) * 2 ^ 20 then some (p, c) else none
    | none => none)

/-- The location of a device physical address; none for unowned memory, which reads zero (R275). -/
def State.locOf (s : State) (a : Nat) : Option Nat :=
  if structBase ≤ a then some (structLoc (a - structBase))
  else match s.winAt a with
    | some (p, c) => some (winLoc c (tget s.str.lbase p) (a - c.winBase * 2 ^ 20))
    | none => none

/-- The device physical address of window offset `o` of a partition. -/
def winAddr (c : PartCfg) (o : Nat) : Nat := c.winBase * 2 ^ 20 + o

/-- The windows of the committed structure: partition, frame, LBASE. -/
def State.windows (s : State) : List (Part × PartCfg × Nat) :=
  allParts.filterMap (fun p => (s.cfg p).map (fun c => (p, c, tget s.str.lbase p)))

/-- Insertion of a window in ascending order of base address. -/
def insWin (w : PartCfg) : List PartCfg → List PartCfg
  | [] => [w]
  | v :: r => if w.winBase ≤ v.winBase then w :: v :: r else v :: insWin w r

/-- R275: the `m`-th unowned MiB of addresses, stepping over the windows in ascending order. -/
def unownedMib (ws : List PartCfg) (m : Nat) : Nat :=
  (ws.foldr insWin []).foldl (fun m w => if w.winBase ≤ m then m + w.winSize else m) m

/-- R275: the rank of a 1 MiB location (block `b` of channel `c`) among those that no window holds. -/
def unownedRank (ws : List (Part × PartCfg × Nat)) (b c : Nat) : Nat :=
  128 * b + c - (ws.map (fun w =>
    let sh := shareOf w.2.1
    let cs := chanList w.2.1
    cs.length * min (b - w.2.2) sh
      + (if w.2.2 ≤ b ∧ b < w.2.2 + sh then (cs.filter (· < c)).length else 0))).sum

/-- R289: the device physical address under which a location is logged. -/
def State.addrOfLoc (s : State) (loc : Nat) : Nat :=
  let c := loc / 2 ^ 31
  let L := loc % 2 ^ 31
  if shareTop * 2 ^ 20 ≤ L then
    structBase + ((L - shareTop * 2 ^ 20) / 4096 * 128 + c) * 4096 + L % 4096
  else
    let b := L / 2 ^ 20
    match s.windows.find? (fun w =>
        bitAt w.2.1.channels c && decide (w.2.2 ≤ b) && decide (b < w.2.2 + shareOf w.2.1)) with
    | some w => winAddr w.2.1 (winOff w.2.1 w.2.2 ((chanList w.2.1).filter (· < c)).length L)
    | none => unownedMib (s.windows.map (·.2.1)) (unownedRank s.windows b c) * 2 ^ 20 + L % 2 ^ 20

/-! ## Error counts -/

/-- The channel of a location. -/
def chanOf (loc : Nat) : Chan := ⟨loc / 2 ^ 31 % 128, Nat.mod_lt _ (by decide)⟩

/-- R108, R429: the address lies in the active directory (log 23). -/
def inDirectory (a : Nat) : Bool := decide (0x3FE0000000 ≤ a) && decide (a < 0x3FE8000000)

/-- R432, R438: a fresh uncorrectable column is counted, logged and shown in DMC_UE_LAST; in the active directory it is of
class 3 (R429). -/
def State.ueFound (s : State) (loc ev : Nat) (part : Option Part) (step : Option (Nat × Nat)) : State :=
  let a := s.addrOfLoc loc
  let s := s.setChan (chanOf loc) (fun c => { c with ue := satAdd c.ue 1 255 })
  let s := { s with dram := { s.dram with ueLast := some ((chanOf loc).val, a / 32 * 32) } }
  s.log (if inDirectory a then 3 else 1) 0x09 ev a part (if part.isSome then (stPoisoned 0xB).num else 0) true step

/-- The flaws of the four words of the column at a column-aligned location. -/
def State.colFlaws (s : State) (loc : Nat) : List Flaw :=
  (List.range 4).map (fun i => spGet Flaw.none s.dram.flaws (loc / 8 + i))

/-- The poison origin stored with a column, 0 for none. -/
def State.colPoison (s : State) (loc : Nat) : Nat := spGet 0 s.dram.poison (loc / 32)

def State.setColPoison (s : State) (loc v : Nat) : State :=
  { s with dram := { s.dram with poison := spSet 0 s.dram.poison (loc / 32) v } }

/-- R286, R432: the column has an uncorrectable word, detected or not. -/
def flawed (fl : List Flaw) : Bool := fl.any (fun f => f == .ue || f == .seen)

/-- R432: the uncorrectable words of a column have been detected; a read writes nothing back. -/
def State.markSeen (s : State) (loc : Nat) : State :=
  s.each (List.range 4) (fun s i =>
    if spGet Flaw.none s.dram.flaws (loc / 8 + i) = .ue then
      { s with dram := { s.dram with flaws := spSet Flaw.none s.dram.flaws (loc / 8 + i) .seen } }
    else s)

def State.clearFlaws (s : State) (loc : Nat) : State :=
  { s with dram := { s.dram with flaws := spClear s.dram.flaws (loc / 8) 4 } }

/-! ## Columns -/

/-- R279: a read finds the channel in drain mode; it leaves it when few enough writes wait and the oldest is young. -/
def State.readSeen (s : State) (c : Chan) : State :=
  s.setChan c (fun ch =>
    if ch.drain && decide (ch.wrWait ≤ s.dram.lowWm) && ! (decide (0 < ch.wrWait) && s.past ch.wrOldest (usCyc 20))
    then { ch with drain := false } else ch)

/-- R276, R279: a column write lands in its channel's write queue; a full queue first issues its oldest. -/
def State.writeLand (s : State) (c : Chan) : State :=
  s.setChan c (fun ch =>
    let w := min (ch.wrWait + 1) 64
    { ch with wrWait := w, wrIssue := if w + ch.wrIssue ≤ 64 then ch.wrIssue else 64 - w
              wrOldest := if ch.wrWait = 0 then s.now else ch.wrOldest
              drain := ch.drain || decide (s.dram.highWm ≤ w) })

/-- R286, R287: one column read at a column-aligned location: its 32 bytes, its poison origin (0 none), and the counts. -/
def State.colRead (s : State) (loc : Nat) (part : Option Part) (step : Option (Nat × Nat)) :
    List Byte × Nat × State :=
  let bs := spRead s.dram.mem loc 32
  let s := s.readSeen (chanOf loc)
  let pz := s.colPoison loc
  let fl := s.colFlaws loc
  if pz ≠ 0 then (bs, pz, s.setChan (chanOf loc) (fun c => { c with poisonRd := satAdd c.poisonRd 1 0xFFFF }))
  else if fl.any (· == .ue) then (bs, 0xB, (s.ueFound loc 1 part step).markSeen loc)
  else if flawed fl then (bs, 0xB, s.setChan (chanOf loc) (fun c => { c with poisonRd := satAdd c.poisonRd 1 0xFFFF }))
  else
    (bs, 0, s.setChan (chanOf loc) (fun c =>
      { c with ce := satAdd c.ce (fl.filter (· == .ce)).length 0xFFFFFF }))

/-- R287, R288: bytes written at offset `o` of the column at a column-aligned location, with the poison they carry. -/
def State.colWrite (s : State) (loc o : Nat) (bs : List Byte) (pz : Nat) (part : Option Part)
    (step : Option (Nat × Nat)) : State :=
  let c := chanOf loc
  let s := s.writeLand c
  let store := fun (s : State) => { s with dram := { s.dram with mem := spWrite s.dram.mem (loc + o) bs } }
  if bs.length = 32 then (store ((s.clearFlaws loc).setColPoison loc pz))
  else
    let old := s.colPoison loc
    let fl := s.colFlaws loc
    let bad := decide (old = 0) && flawed fl
    let s := if bad then s.ueFound loc 2 part step
      else s.setChan c (fun ch =>
        { ch with ce := satAdd ch.ce (if old = 0 then (fl.filter (· == .ce)).length else 0) 0xFFFFFF })
    let mark := if pz ≠ 0 then pz else if old ≠ 0 then old else if bad then 0xB else 0
    store ((s.clearFlaws loc).setColPoison loc mark)

/-! ## Ranges of device physical addresses -/

/-- The columns that a range touches: for each, its address, the offset of the range's first byte in it, and its
count of bytes. -/
def columns (a n : Nat) : List (Nat × Nat × Nat) :=
  if n = 0 then []
  else (List.range ((a + n - 1) / 32 - a / 32 + 1)).map (fun i =>
    let A := (a / 32 + i) * 32
    let lo := max a A
    (A, lo - A, min (a + n) (A + 32) - lo))

/-- The bytes of a list of columns, the first poison mark among them (0 none), and the counts. -/
def State.colsRead (s : State) (part : Option Part) (step : Option (Nat × Nat)) :
    List (Nat × Nat × Nat) → List Byte × Nat × State
  | [] => ([], 0, s)
  | (A, o, n) :: r =>
    match s.locOf A with
    | none =>
      let (bs, pz, t) := State.colsRead s part step r
      (zeros n ++ bs, pz, t)
    | some loc =>
      let (cb, cp, t) := s.colRead loc part step
      let (bs, pz, t) := State.colsRead t part step r
      ((cb.drop o).take n ++ bs, if cp ≠ 0 then cp else pz, t)
where
  /-- unowned memory reads zero (R275) -/
  zeros (n : Nat) : List Byte := List.replicate n 0

/-- `n` bytes read at device physical address `a`, with the first poison mark met. -/
def State.memRead (s : State) (a n : Nat) (part : Option Part := none) (step : Option (Nat × Nat) := none) :
    List Byte × Nat × State :=
  s.colsRead part step (columns a n)

/-- Bytes written to a list of columns; a column of unowned memory is not written. -/
def State.colsWrite (s : State) (pz : Nat) (part : Option Part) (step : Option (Nat × Nat)) :
    List (Nat × Nat × Nat) → List Byte → State
  | [], _ => s
  | (A, o, n) :: r, bs =>
    let s := match s.locOf A with
      | none => s
      | some loc => s.colWrite loc o (bs.take n) pz part step
    State.colsWrite s pz part step r (bs.drop n)

/-- Bytes written at device physical address `a`, carrying poison origin `pz` (0 for none). -/
def State.memWrite (s : State) (a : Nat) (bs : List Byte) (pz : Nat := 0) (part : Option Part := none)
    (step : Option (Nat × Nat) := none) : State :=
  s.colsWrite pz part step (columns a bs.length) bs

/-! ## Windows of partitions -/

/-- R150: bytes below the image area of a window. -/
def tenantTop (c : PartCfg) : Nat := (c.winSize - c.imageMib) * 2 ^ 20

/-- R126, R150: a window range a tenant may name. -/
def tenantRange (c : PartCfg) (o n : Nat) : Bool := decide (o + n ≤ tenantTop c)

/-- `n` bytes at window offset `o` of a partition. -/
def State.winRead (s : State) (p : Part) (o n : Nat) (step : Option (Nat × Nat) := none) :
    List Byte × Nat × State :=
  match s.cfg p with
  | some c => s.memRead (winAddr c o) n (some p) step
  | none => (List.replicate n 0, 0, s)

/-- Bytes written at window offset `o` of a partition. -/
def State.winWrite (s : State) (p : Part) (o : Nat) (bs : List Byte) (pz : Nat := 0)
    (step : Option (Nat × Nat) := none) : State :=
  match s.cfg p with
  | some c => s.memWrite (winAddr c o) bs pz (some p) step
  | none => s

/-! ## Zeroization -/

/-- A range of one channel's locations cleared: bytes, poison and flaws (R127, R287). -/
def State.clearLocs (s : State) (lo n : Nat) : State :=
  { s with dram := { s.dram with
    mem := spClear s.dram.mem lo n
    poison := spClear s.dram.poison (lo / 32) (n / 32)
    flaws := spClear s.dram.flaws (lo / 8) (n / 8) } }

/-- R134: a window cleared on every channel of its set. -/
def State.clearWindow (s : State) (c : PartCfg) (lbase : Nat) : State :=
  s.each (chanList c) (fun s ch => s.clearLocs (ch * 2 ^ 31 + lbase * 2 ^ 20) (shareOf c * 2 ^ 20))

/-- R113: all DRAM outside the structure region cleared. -/
def State.clearWindows (s : State) : State :=
  s.each (List.range 128) (fun s ch => s.clearLocs (ch * 2 ^ 31) (shareTop * 2 ^ 20))

/-- The ECC fill of step 4a: every column holds zeros with valid check bits. -/
def State.eccFill (s : State) : State :=
  { s with dram := { s.dram with mem := [], poison := [], flaws := [] } }

end Sys2Proof.Machine
end

