-- ==== Sys2Proof/Machine/Operands.lean ====
section
/-! DEFINITION. The operand forms of the host interface: descriptors (R150 to R158) and mailbox requests (R163). -/

namespace Sys2Proof.Machine

/-- A descriptor's header (R150): TYPE, BARRIER, INTR, TAG, SESSION, and whether its reserved bits are 0. -/
structure DescHdr where
  ty : Nat
  barrier : Bool
  intr : Bool
  tag : Nat
  sess : Nat
  ok : Bool

def descHdr (bs : List Byte) : DescHdr :=
  let fl := leAt bs 1 1
  { ty := leAt bs 0 1, barrier := bitAt fl 0, intr := bitAt fl 1, tag := leAt bs 2 2, sess := leAt bs 4 2 % 4096,
    ok := decide (fl < 4) && decide (leAt bs 4 2 < 4096) && zeroB bs 6 2 }

/-- R156, R157: an alignment offset, −1,600 to 1,600 in 62.5 µs. -/
def alignOk (v : Int) : Bool := decide (-1600 ≤ v) && decide (v ≤ 1600)

/-- R152. -/
def copyBody (bs : List Byte) : Body :=
  let n := leAt bs 0x20 4
  if decide (leAt bs 8 1 ≤ 2) && zeroB bs 9 7 && decide (1 ≤ n) && decide (n ≤ 0x40000000) && zeroB bs 0x24 28
  then .copy (leAt bs 8 1) (leAt bs 0x10 8) (leAt bs 0x18 8) n else .malformed

/-- R153. -/
def runBody (bs : List Byte) : Body :=
  let al := leAt bs 0xC 4
  if decide (al ≤ 65536) && decide (al % 16 = 0) && decide (leAt bs 0x20 4 ≤ 0x40000000)
    && decide (leAt bs 0x24 4 ≤ 1000000) && zeroB bs 0x28 24
  then .run (leAt bs 8 2) (leAt bs 0xA 2) al (leAt bs 0x10 8) (leAt bs 0x18 8) (leAt bs 0x20 4)
    (if leAt bs 0x24 4 = 0 then 1000000 else leAt bs 0x24 4)
  else .malformed

/-- R154. -/
def fenceBody (bs : List Byte) : Body :=
  let k := leAt bs 8 1
  if decide (k ≤ 2) && (decide (k = 0) || decide (leAt bs 9 1 = 0)) && (decide (k ≠ 0) || decide (leAt bs 0xC 4 = 0))
    && zeroB bs 0x10 48
  then .fence k (leAt bs 9 1) (if leAt bs 0xA 2 = 0 then 1000 else leAt bs 0xA 2) (leAt bs 0xC 4)
  else .malformed

/-- R155. -/
def msgSendBody (bs : List Byte) : Body :=
  let dev := leAt bs 8 1
  let n := leAt bs 0xC 4
  if (decide (dev ≤ 31) || decide (dev = 0xFF)) && decide (leAt bs 9 1 ≤ 15) && decide (16 ≤ n)
    && decide (n ≤ 1048576) && decide (n % 16 = 0) && decide (leAt bs 0x20 4 ≤ 1048576)
    && decide (leAt bs 0x28 8 % 16 = 0) && decide (leAt bs 0x30 1 ≤ 1) && zeroB bs 0x31 15
  then .msgSend dev (leAt bs 9 1) (leAt bs 0xA 2) n (leAt bs 0x10 8) (leAt bs 0x18 8) (leAt bs 0x20 4)
    (leAt bs 0x24 4) (leAt bs 0x28 8) (leAt bs 0x30 1)
  else .malformed

/-- R179: RESULT_LEN is 64 + 8 S, S a multiple of 16 from 32 to 65,536. -/
def resLenOk (n : Nat) : Bool := decide (320 ≤ n) && decide (n ≤ 524352) && decide ((n - 64) % 128 = 0)

/-- R156, R179; `queues` is the partition's QUEUES. -/
def sessionOpenBody (queues : Nat) (bs : List Byte) : Body :=
  let lead := leAt bs 0xA 2
  let ia := sgn 16 (leAt bs 0xC 2)
  let oa := sgn 16 (leAt bs 0xE 2)
  let slots := leAt bs 0x18 2
  if decide (leAt bs 8 1 ≤ 3) && decide (leAt bs 9 1 < queues)
    && (decide (lead = 0) || (decide (10 ≤ lead) && decide (lead ≤ 200))) && alignOk ia && alignOk oa
    && decide (leAt bs 0x10 8 % 4096 = 0) && decide (8 ≤ slots) && decide (slots ≤ 1024) && zeroB bs 0x1A 2
    && resLenOk (leAt bs 0x28 4) && zeroB bs 0x2C 20
  then .sessionOpen (leAt bs 8 1) (leAt bs 9 1) (if lead = 0 then 40 else lead) ia oa (leAt bs 0x10 8) slots
    (leAt bs 0x1C 4) (leAt bs 0x20 8) (leAt bs 0x28 4)
  else .malformed

/-- R157. -/
def sessionCtrlBody (bs : List Byte) : Body :=
  let op := leAt bs 8 1
  let ia := sgn 16 (leAt bs 0xC 2)
  let oa := sgn 16 (leAt bs 0xE 2)
  if decide (1 ≤ op) && decide (op ≤ 5) && zeroB bs 9 3 && zeroB bs 0x10 48
    && (if op = 4 then alignOk ia && alignOk oa else zeroB bs 0xC 4)
  then .sessionCtrl op ia oa else .malformed

/-- R158. -/
def audioInBody (bs : List Byte) : Body :=
  let n := leAt bs 8 1
  if decide (1 ≤ n) && decide (n ≤ 8) && zeroB bs 9 3 && zeroB bs 0x10 8 && zeroB bs 0x20 32
  then .audioIn n (leAt bs 0xC 4) (leAt bs 0x18 8) else .malformed

/-- R158. -/
def audioOutBody (bs : List Byte) : Body :=
  let n := leAt bs 8 1
  if decide (1 ≤ n) && decide (n ≤ 64) && zeroB bs 9 3 && zeroB bs 0xC 4 && zeroB bs 0x20 32
  then .audioOut n (leAt bs 0x10 8) (leAt bs 0x18 8) else .malformed

/-- R150: SESSION is 0 except in session types and in a FENCE of KIND 2. -/
def usesSession (ty : Nat) (bs : List Byte) : Bool :=
  decide (5 ≤ ty) || (decide (ty = 3) && decide (leAt bs 8 1 = 2))

/-- R150 to R158: the body of a descriptor, malformed when any check that needs only the descriptor fails. -/
def descBody (queues : Nat) (bs : List Byte) : Body :=
  let h := descHdr bs
  if ! h.ok || (! usesSession h.ty bs && decide (h.sess ≠ 0)) then .malformed
  else if h.ty = 0 then .nop
  else if h.ty = 1 then copyBody bs
  else if h.ty = 2 then runBody bs
  else if h.ty = 3 then fenceBody bs
  else if h.ty = 4 then msgSendBody bs
  else if h.ty = 5 then sessionOpenBody queues bs
  else if h.ty = 6 then sessionCtrlBody bs
  else if h.ty = 7 then audioInBody bs
  else if h.ty = 8 then audioOutBody bs
  else .malformed

/-- R159: the 16 bytes of a completion entry. -/
def entryBytes (st : Status) (tag result sess hint sqHead src : Nat) (phase : Bool) : List Byte :=
  leBytes 2 st.num ++ leBytes 2 tag ++ leBytes 4 result ++ leBytes 2 sess
    ++ leBytes 2 (if st.code = .refused then hint else 0) ++ leBytes 2 (sqHead % 4096) ++ leBytes 1 src
    ++ leBytes 1 (bnat phase)

/-- R160: the 16 bytes of a reply record. -/
def replyRecBytes (status tag len hint srcPart : Nat) : List Byte :=
  leBytes 2 status ++ leBytes 2 0 ++ leBytes 4 tag ++ leBytes 4 len ++ leBytes 2 hint ++ leBytes 1 (srcPart % 16)
    ++ leBytes 1 1

end Sys2Proof.Machine
end

