-- ==== Sys2Proof/Machine/HostOps.lean ====
section
/-! DEFINITION. Items and the descriptor slots they hold (R119, R161), completion rings (R147 to R149, R159), abandon
runs (R426), and the mailbox's replies (R162, R163). -/

namespace Sys2Proof.Machine

/-! ## Items -/

/-- The item of a name. -/
def State.item (s : State) (id : Nat) : Option Item := s.items.find? (fun i => i.id == id)

/-- One item changed. -/
def State.setItem (s : State) (id : Nat) (f : Item → Item) : State :=
  { s with items := s.items.map (fun i => if i.id = id then f i else i) }

/-- `f` on the item of a name; no effect when there is none. -/
def State.withItem (s : State) (id : Nat) (f : Item → State) : State :=
  match s.item id with
  | some i => f i
  | none => s

/-- R119: descriptor slots a partition occupies. -/
def State.slotsUsed (s : State) (p : Part) : Nat := (s.items.filter (fun i => i.part == p && i.slot)).length

/-- An item of a ring. -/
def Item.onRing (i : Item) (p : Part) (q : Queue) : Bool :=
  i.part == p && (match i.kind with | .desc r _ _ _ _ _ _ => r == q | _ => false)

/-- A tenant descriptor of a partition. -/
def Item.isDescOf (i : Item) (p : Part) : Bool :=
  i.part == p && (match i.kind with | .desc _ _ _ _ _ _ _ => true | _ => false)

/-- A descriptor's body. -/
def Item.body (i : Item) : Body := match i.kind with | .desc _ _ _ _ _ _ b => b | _ => .malformed

/-- The session and sequence of a step (R16), for log entries and messages. -/
def Item.stepKey (i : Item) : Option (Nat × Nat) := match i.kind with | .step r => some (r.sess.val, r.seq) | _ => none

/-- A new item at the end of the fetch order. -/
def State.addItem (s : State) (p : Part) (k : ItemKind) (slot : Bool) : State :=
  let i : Item :=
    { id := s.nextItem, part := p, kind := k, at_ := s.now, slot := slot, begun := false, firstOp := none, limit := 0, waitQ := 0,
      runQ := 0, contWait := false, poison := none, marks := [], sends := 0, jobs := 0, outLen := 0, outBuf := [], nextAdv := none,
      stop := none, fin := none, result := 0, hint := 0, wrote := false, discard := false }
  { s with items := s.items ++ [i], nextItem := s.nextItem + 1 }

/-- The item finishes with a status, unless it has finished already. -/
def State.finish (s : State) (id : Nat) (st : Status) (result : Nat := 0) (hint : Nat := 0) : State :=
  s.setItem id (fun i => if i.fin.isSome then i
    else { i with fin := some st, result := result, hint := hint, waitQ := 0, begun := true })

/-- R148: a descriptor with BARRIER starts only after every earlier descriptor of its ring has been written. -/
def State.mayStart (s : State) (i : Item) : Bool :=
  match i.kind with
  | .desc q _ barrier _ _ _ _ =>
    ! barrier || ! s.items.any (fun j => j.onRing i.part q && decide (j.id < i.id))
  | _ => true

/-- A descriptor that waits to start: fetched, not begun, not finished, its barrier open, its function enabled. -/
def State.ready (s : State) (i : Item) : Bool := ! i.begun && i.fin.isNone && s.mayStart i

/-! ## Completion rings -/

/-- R147: a completion ring has room for an entry. -/
def State.cqRoom (s : State) (p : Part) (q : Queue) : Bool :=
  let r := s.queue p q
  let n := s.ringSize p
  decide ((r.cqTail + n - r.cqHead) % n + 1 < n)

/-- RAS_PFAIL: the class of an entry that failed. -/
def pfailIdx (c : Code) : Option (Fin 4) :=
  match c with
  | .refused => some 0
  | .abandoned => some 1
  | .timeout => some 2
  | .poisoned => some 3
  | _ => none

/-- RAS_PFAIL counts an entry of a partition by its code. -/
def State.countFail (s : State) (p : Part) (c : Code) : State :=
  match pfailIdx c with
  | some k => { s with ras := { s.ras with
      pfail := updWith s.ras.pfail p (fun v => updWith v k (fun n => satAdd n 1 0xFFFF)) } }
  | none => s

/-- PRT_QCOUNT.RESTRUCT counts an item returned RESTRUCTURED. -/
def State.countRestruct (s : State) (p : Part) (c : Code) : State :=
  if c = .restructured then s.setPart p (fun r => { r with restruct := satAdd r.restruct 1 1023 }) else s

/-- PRT_QCOUNT.DISCARDED. -/
def State.discarded (s : State) (p : Part) (n : Nat) : State :=
  s.setPart p (fun r => { r with discarded := satAdd r.discarded n 1023 })

/-- R147 to R149, R159: an entry is written at the completion tail, the phase inverts when the tail wraps, and the
vector is signalled when more than COAL_CNT entries are unsignalled or the descriptor asks for it. -/
def State.putEntry (s : State) (p : Part) (q : Queue) (st : Status) (tag result sess hint sqHead src : Nat)
    (intr : Bool) : State :=
  let r := s.queue p q
  let s := s.hostWrite p (r.cqBase + 16 * r.cqTail) (entryBytes st tag result sess hint sqHead src r.phase)
  let t := (r.cqTail + 1) % s.ringSize p
  let uns := r.unsig + 1
  let sig := intr || decide (r.coalCnt < uns)
  let s := s.setQueue p q (fun r =>
    { r with cqTail := t, phase := if t = 0 then ! r.phase else r.phase, unsig := if sig then 0 else uns,
             oldest := if r.unsig = 0 then s.now else r.oldest })
  let s := (s.countFail p st.code).countRestruct p st.code
  if sig then s.signalVf p r.vec else s

/-- R426: a failed descriptor's entry starts an abandon run: later descriptors of the ring that have not begun are
ABANDONED, up to the first with BARRIER, which ends the run. -/
def abandonFrom (p : Part) (q : Queue) : List Item → List Item × Bool
  | [] => ([], true)
  | i :: r =>
    if i.onRing p q then
      match i.kind with
      | .desc _ _ true _ _ _ _ => (i :: r, false)
      | _ =>
        let (t, run) := abandonFrom p q r
        ((if i.begun || i.fin.isSome then i else { i with fin := some stAbandoned }) :: t, run)
    else
      let (t, run) := abandonFrom p q r
      (i :: t, run)

def State.abandonRun (s : State) (p : Part) (q : Queue) : State :=
  let (l, run) := abandonFrom p q s.items
  ({ s with items := l } : State).setQueue p q (fun r => { r with inRun := run })

/-- The entry of a descriptor item, its slot released, and the abandon run it may start. -/
def State.descEntry (s : State) (i : Item) (st : Status) : State :=
  match i.kind with
  | .desc q idx _ intr tag sess body =>
    let failed := body == .fetchFailed
    let sq := if failed then idx else (idx + 1) % s.ringSize i.part
    let s := { s with items := s.items.filter (fun j => j.id ≠ i.id) }
    let s := s.putEntry i.part q st (if failed then 0 else tag) i.result
      (if failed then 0 else sess % 4096 + i.part.val * 4096) i.hint sq q.val intr
    if st.failed && (s.queue i.part q).abandon && st.code ≠ .abandoned then s.abandonRun i.part q else s
  | _ => s

/-- The entry of a step item on its session's completion ring, and its slot released. -/
def State.stepEntry (s : State) (i : Item) (r : StepRec) (cq : Queue) (st : Status) : State :=
  let s := { s with items := s.items.filter (fun j => j.id ≠ i.id) }
  s.putEntry i.part cq st 0 r.seq (r.sess.val + i.part.val * 4096) i.hint (s.queue i.part cq).sqHead
    (cq.val + 8 + r.pass * 16) false

/-- R144: VFP_Q_STAT.IDLE: no fetched descriptor awaits its entry. -/
def State.queueIdle (s : State) (p : Part) (q : Queue) : Bool := ! s.items.any (fun i => i.onRing p q)

/-! ## The mailbox -/

/-- Entries of the mailbox rings. -/
def State.mbxSize (s : State) : Nat := 2 ^ s.mbx.log2

/-- R162: the reply ring has room (log 26). -/
def State.mbxRoom (s : State) : Bool :=
  decide ((s.mbx.rspTail + s.mbxSize - s.mbx.rspHead) % s.mbxSize + 1 < s.mbxSize)

/-- The request at the head of the request ring, when one waits and the mailbox takes requests: the rings are enabled, the
phase is READY, READY_EMPTY or SAFE, no request is in execution, and its reply will have room (R162). -/
def State.mbxHead (s : State) : Option (List Byte) :=
  if s.mbx.en && s.mbx.busy.isNone && decide (s.mbx.reqHead ≠ s.mbx.reqTail) && s.served && s.start.stop.isNone && s.mbxRoom
  then some (s.hostRead (s.mbx.reqBase + 64 * s.mbx.reqHead) 64) else none

/-- R162, R163: the reply to a request; `res` is the list of result fields (offset, bytes). -/
def State.mbxReply (s : State) (req : List Byte) (st : Status) (res : List (Nat × List Byte) := [])
    (hint : Nat := 0) : State :=
  let a := s.mbx.rspBase + 64 * s.mbx.rspTail
  let base := leBytes 2 st.num ++ sliceB req 2 2 ++ sliceB req 0 2 ++ leBytes 2 (if st.code = .refused then hint else 0)
  let body := res.foldl (fun b f => b.take f.1 ++ f.2 ++ b.drop (f.1 + f.2.length)) (base ++ List.replicate 55 0)
  let s := s.hostWritePf a (body.take 63 ++ leBytes 1 (bnat s.mbx.phase))
  let t := (s.mbx.rspTail + 1) % s.mbxSize
  let s := { s with mbx := { s.mbx with rspTail := t, phase := if t = 0 then ! s.mbx.phase else s.mbx.phase } }
  s.signalPf s.mbx.vec

/-- The request at the head is taken: the head moves on. -/
def State.mbxTake (s : State) : State :=
  { s with mbx := { s.mbx with reqHead := (s.mbx.reqHead + 1) % s.mbxSize } }

/-- R163: the opcodes that name a request. -/
def mbxOpcodes : List Nat :=
  [0x0001, 0x0002, 0x0003, 0x0010, 0x0011, 0x0012, 0x0020, 0x0021, 0x0022, 0x0030, 0x0040, 0x0100, 0x0200, 0x0201, 0x0202,
   0x0203, 0x0300, 0x0301, 0x0302]

/-- R163: requests of an unknown OPCODE at the head are answered REFUSED, SUB 4, up to the first that names a request. -/
def State.mbxUnknown (s : State) : Nat → State
  | 0 => s
  | fuel + 1 =>
    match s.mbxHead with
    | some req => if mbxOpcodes.contains (leAt req 0 2) then s else (s.mbxTake.mbxReply req (stRefused 4)).mbxUnknown fuel
    | none => s

/-- A request that is answered at once. -/
def State.mbxAnswer (s : State) (req : List Byte) (st : Status) (res : List (Nat × List Byte) := [])
    (hint : Nat := 0) : State :=
  (s.mbxTake.mbxReply req st res hint).mbxUnknown 256

/-- A request that runs on until its reply. -/
def State.mbxStart (s : State) (req : List Byte) : State :=
  let s := s.mbxTake
  { s with mbx := { s.mbx with busy := some (req, s.now) } }

/-- The reply to the request in execution, if one is. -/
def State.mbxDone (s : State) (st : Status) (res : List (Nat × List Byte) := []) (hint : Nat := 0) : State :=
  match s.mbx.busy with
  | some (req, _) => (({ s with mbx := { s.mbx with busy := none } } : State).mbxReply req st res hint).mbxUnknown 256
  | none => s

/-- `f` on the request at the head when its OPCODE is `op` and the mailbox is served in this phase. -/
def State.onRequest (s : State) (op : Nat) (f : List Byte → State) : State :=
  match s.mbxHead with
  | some req => if leAt req 0 2 = op then f req else s
  | none => s

end Sys2Proof.Machine
end

