-- ==== Sys2Proof/Machine/CairnOps.lean ====
section
/-! DEFINITION. Cairn: reading the store, generations, the settings in force, signatures, and the integrity sweep
(R78 to R84, R89, R91, R98). -/

namespace Sys2Proof.Machine

/-- The normal read of a word. -/
def State.cw (s : State) (w : Nat) : Nat := spGet 0 s.cairn.words w

/-- R80: the class of a word. -/
def State.cwClass (s : State) (w : Nat) : CairnClass :=
  if spGet false s.cairn.weak w then .weak else if s.cw w = 0 then .blank else .final

/-- R79: `n` bytes of the store from byte `off`, both multiples of 4. -/
def State.cairnBytes (s : State) (off n : Nat) : List Byte :=
  (List.range (n / 4)).flatMap (fun i => leBytes 4 (s.cw (off / 4 + i)))

/-- R78: a region of `n` bytes at `off` whose CRC-32C stands at byte `c`. -/
def State.cairnCrcOk (s : State) (off n c : Nat) : Bool := crc32c (s.cairnBytes off n) == s.cw (c / 4)

/-- R91: every factory region matches its CRC. -/
def State.factoryOk (s : State) : Bool :=
  s.cairnCrcOk 0 252 252 && s.cairnCrcOk 0x100 0x3FC 0x4FC && s.cairnCrcOk 0x500 0xAFC 0xFFC
    && s.cairnCrcOk 0x1000 0x1FFC 0x2FFC && s.cairnCrcOk 0x3000 0x800 0x3800

/-! ## Generations (R81 to R83) -/

/-- A settings record: TYPE, KEY and payload words. -/
structure CairnRec where
  ty : Nat
  key : Nat
  data : List Nat

/-- R82: the LEN and the end of KEY that a TYPE requires. -/
def recShape (ty : Nat) : Option (Nat × Nat) :=
  if ty = 1 then some (1, 703) else if ty = 2 then some (3, 640) else if ty = 3 then some (1, 512)
  else if ty = 4 then some (0, 8) else if ty = 5 then some (1, 1) else none

/-- R81, R82: the records of a list of words; none when one breaks R82. A header of 0 ends them. -/
def parseRecs : Nat → List Nat → Option (List CairnRec)
  | 0, _ => some []
  | _, [] => some []
  | fuel + 1, h :: r =>
    if h = 0 then some []
    else
      let len := fld h 7 0
      match recShape (fld h 31 24) with
      | some (n, top) =>
        if len = n ∧ fld h 23 8 < top ∧ n ≤ r.length then
          (parseRecs fuel (r.drop n)).map (fun t => { ty := fld h 31 24, key := fld h 23 8, data := r.take n } :: t)
        else none
      | none => none

/-- The first word of generation slot g (R78). -/
def genBase (g : Nat) : Nat := 0x1000 + 0x400 * g

/-- The records of a generation slot. -/
def State.genRecs (s : State) (g : Nat) : Option (List CairnRec) :=
  parseRecs 1019 ((List.range 1018).map (fun i => s.cw (genBase g + 4 + i)))

/-- R83: the generation of slot g is in force. -/
def State.genOk (s : State) (g : Nat) : Bool :=
  let b := genBase g
  s.cw (b + 1023) == 0xC0A17E5D && s.cwClass (b + 1023) == .final
    && s.cairnCrcOk (b * 4) 4088 (b * 4 + 4088) && s.cw b == 0x43414731 && fld (s.cw (b + 1)) 3 0 == g
    && (match s.genRecs g with | some l => l.length == fld (s.cw (b + 1)) 15 8 | none => false)

/-- R89: a slot is blank when all 1,024 of its words are. -/
def State.slotBlank (s : State) (g : Nat) : Bool :=
  (List.range 1024).all (fun i => s.cwClass (genBase g + i) == .blank)

/-- The records in force, in the order of R83, for the generations of a mask. -/
def State.recsOf (s : State) (gens : Nat) : List CairnRec :=
  (bitsOf 4 gens).flatMap (fun g => (s.genRecs g).getD [])

/-- The mask of generations that pass R83 as the store reads now. -/
def State.gensNow (s : State) : Nat := maskOf 4 s.genOk

/-- The last record of a TYPE and KEY among those in force. -/
def lastRec (l : List CairnRec) (ty key : Nat) : Option (List Nat) :=
  (l.reverse.find? (fun r => r.ty == ty && r.key == key)).map (·.data)

/-- R83: trim word n in force. -/
def State.trim (s : State) (n : Nat) : Nat :=
  match lastRec (s.recsOf s.cairn.genInForce) 1 n with
  | some d => d.getD 0 0
  | none => s.cw (0x140 + n)

/-- R83, R283: the 96-bit delay entry of a band and channel in force. -/
def State.delayEntry (s : State) (band chan : Nat) : Nat :=
  let ws := match lastRec (s.recsOf s.cairn.genInForce) 2 (band * 128 + chan) with
    | some d => d
    | none => (List.range 3).map (fun i => s.cw (0x400 + band * 0x180 + chan * 3 + i))
  ws.getD 0 0 + ws.getD 1 0 * 2 ^ 32 + ws.getD 2 0 * 2 ^ 64

/-- R83: the 32 mask bits of banks 32 k to 32 k + 31: the factory map and every record, never removed. -/
def State.defectWord (s : State) (recs : List CairnRec) (k : Nat) : Nat :=
  (recs.filter (fun r => r.ty == 3 && r.key == k)).foldl (fun m r => m ||| r.data.getD 0 0) (s.cw (0xC00 + k))

/-- R284: the band boundaries B1 to B4 in °C. -/
def State.bandBound (s : State) (i : Nat) : Nat := fld (s.cw 0xB80) (8 * i + 7) (8 * i)

/-- R83, R84: anchor slot k is revoked by the generations of a mask. -/
def State.revoked (s : State) (gens k : Nat) : Bool := (s.recsOf gens).any (fun r => r.ty == 4 && r.key == k)

/-- R83: the minimum firmware sequence of the generations of a mask: the largest value. -/
def State.minFwSeq (s : State) (gens : Nat) : Nat :=
  ((s.recsOf gens).filter (fun r => r.ty == 5)).foldl (fun m r => max m (r.data.getD 0 0)) 0

/-! ## Signatures (R97, R98) -/

/-- The outcome of a signature check: accepted under an anchor slot, or which check failed. -/
inductive SigRes
  | accepted (anchor : Nat)
  | badBlock | noAnchor | badSig
  deriving DecidableEq, Repr

/-- R98: the anchor slot that accepts a key: its digest, USAGE and KEY_ID match and it is not revoked. -/
def State.anchorFor (s : State) (gens usage keyId : Nat) (qx qy : Nat) : Option Nat :=
  let d := sha384 (0x04 :: (beBytes 48 qx ++ beBytes 48 qy))
  (List.range 8).find? (fun k =>
    let w := s.cw (0x40 + 32 * k + 12)
    s.cairnBytes (0x100 + 128 * k) 48 == d && fld w 3 0 == usage && fld w 31 16 == keyId && ! s.revoked gens k)

/-- R97, R98: a 256-byte signature block over the bytes before it. -/
def State.checkSig (s : State) (gens usage magic keyId : Nat) (blk msg : List Byte) : SigRes :=
  if leAt blk 0 4 ≠ magic ∨ leAt blk 4 2 ≠ keyId ∨ ! zeroB blk 6 2 ∨ ! zeroB blk 0xC8 56 then .badBlock
  else
    let qx := leAt blk 8 48
    let qy := leAt blk 0x38 48
    match s.anchorFor gens usage keyId qx qy with
    | none => .noAnchor
    | some k =>
      if ecdsaVerify qx qy (leAt blk 0x68 48) (leAt blk 0x98 48) (sha384 msg) then .accepted k else .badSig

/-! ## The integrity sweep (R91) -/

/-- R91: the sweep; `true` when it passes. -/
def State.sweep (s : State) : State × Bool :=
  let weak := (s.cairn.weak.filter (·.2)).map (·.1)
  let inForce := s.gensNow
  let consumed := maskOf 4 (fun g => ! s.slotBlank g)
  let ok := s.factoryOk && bitAt inForce 0
  let s := s.each weak (fun s w => s.log 0 0x02 1 (detailOf 0 w))
  let s := s.each ((bitsOf 4 consumed).filter (fun g => ! bitAt inForce g)) (fun s g => s.log 1 0x02 2 (detailOf 0 g))
  let c := { s.cairn with
    weakCnt := min weak.length 255
    spareLeft := ((List.range 3).filter (fun i => ! bitAt consumed (i + 1))).length
    genConsumed := consumed, genInForce := inForce, factoryOk := ok }
  let c := if ok then { c with sweepDone := true, sweepTime := s.time } else c
  ({ s with cairn := c, col := { s.col with cairnProgSince := s.col.cairnProgSince && ! ok } }, ok)

/-- A read of word 0 and 1 at Col power-on reset: the device serial. -/
def State.cairnSerial (s : State) : Nat := s.cw 0 + s.cw 1 * 2 ^ 32

/-! ## Programming (R86 to R88) -/

/-- R88: the words of a slot after programming stopped: those before `n` done, word `n` a mixture drawn from the free
values (a subset of its intended bits, weak or not), the rest as they were. -/
def State.burn (s : State) (pr : CairnProg) (n : Nat) : State :=
  let b := genBase pr.slot
  let put := fun (m : Sparse Nat) (i v : Nat) => spSet 0 m (b + i) (spGet 0 m (b + i) ||| v)
  let done := (List.range (min n 1024)).foldl (fun m i => put m i (pr.words.getD i 0)) s.cairn.words
  if n < 1024 then
    let (f, s) := s.draw
    let part := pr.words.getD n 0 &&& f
    { s with cairn := { s.cairn with
      words := put done n part
      weak := spSet false s.cairn.weak (b + n) (decide (pr.words.getD n 0 ≠ 0) && bitAt f 32) } }
  else { s with cairn := { s.cairn with words := done } }

/-- The program in progress ends with a RESULT of R85 or R87 and `n` words done. -/
def State.progEnd (s : State) (n result : Nat) : State :=
  match s.cairn.prog with
  | some pr =>
    let s := s.burn pr n
    { s with cairn := { s.cairn with
      prog := none, progResult := result, progWords := min n 1024, progState := if result = 1 then 5 else 6
      progTime := s.time } }
  | none => s

/-- R87, R88: something cuts the program short; how many words were done is a free value. -/
def State.progAbort (s : State) (result : Nat) : State :=
  if s.cairn.prog.isSome then
    let (f, s) := s.draw
    s.progEnd (f % 1024) result
  else s

end Sys2Proof.Machine
end

