-- ==== Sys2Proof/Machine/Cairn.lean ====
section
/-! DEFINITION. The commands of the Cairn store (05). -/

namespace Sys2Proof.Machine

/-- R92: a write of CAI_RD_CTRL reads a word; a word of the slot being programmed reads 0 with REFUSED. -/
def State.cairnReadOp (s : State) (val : Nat) : State :=
  let w := fld val 12 0
  let busy := match s.cairn.prog with
    | some pr => decide (genBase pr.slot ≤ w) && decide (w < genBase pr.slot + 1024)
    | none => false
  { s with cairn := { s.cairn with
    rdWord := w, rdData := if busy then 0 else s.cw w, rdClass := if busy then .blank else s.cwClass w
    rdValid := true, rdRefused := busy } }

/-- CAIRN_READ (R92), served as R65 and R459 state. -/
def execCairnRead (val : W32) (s : State) : Host.Outcome State Fault Refusal :=
  .next (s.when s.served (fun s => s.cairnReadOp val.toNat))

/-- R85: the RESULT of the checks of a CAIRN_PROGRAM request, in their order; 0 when all pass. -/
def State.progCheck (s : State) (vppMv : Nat) (hot : Int) (pkg : SettingsPkg) : Nat :=
  let anchorOk := match pkg.anchor with
    | some k => fld (s.cw (0x40 + 32 * k.val + 12)) 3 0 == 3 && ! s.revoked s.cairn.genInForce k.val
    | none => false
  let recs := parseRecs 1019 pkg.records
  if vppMv < 2400 ∨ 2600 < vppMv then 2
  else if ! (s.slotBlank 1 || s.slotBlank 2 || s.slotBlank 3) then 3
  else if ! anchorOk then 4
  else if pkg.serial ≠ s.col.serial then 5
  else if s.cairn.prog.isSome then 6
  else if hot < 0 ∨ 85 * 16 < hot then 7
  else if ! s.isReady then 0xA
  else if 1018 < pkg.records.length ∨ recs.isNone then 0xB
  else 0

/-- R81: the intended words of a generation. -/
def genWords (slot time : Nat) (pkg : SettingsPkg) : List Nat :=
  let n := match parseRecs 1019 pkg.records with | some l => l.length | none => 0
  let head := [0x43414731, slot + n % 256 * 256 + pkg.seq % 65536 * 65536, time % 2 ^ 32, time / 2 ^ 32]
    ++ pkg.records.map (· % 2 ^ 32)
  let body := head ++ List.replicate (1022 - head.length) 0
  body ++ [crc32c (body.flatMap (leBytes 4)), 0xC0A17E5D]

/-- CAIRN_PROGRAM (R85, R86): the request is checked; when it passes, the record of step 2 is set and programming
begins in the lowest blank field slot. -/
def execCairnProgram (vppMv : Nat) (hot : Int) (bad : Bool) (pkg : SettingsPkg) (s : State) :
    Host.Outcome State Fault Refusal :=
  .next (s.onRequest 0x0030 (fun req =>
    if s.start.phase == .safe then s.mbxAnswer req (stRefused 0xC)
    else if bad then s.mbxAnswer req (stPoisoned 1)
    else
      let s := { s with cairn := { s.cairn with vppPresent := decide (2400 ≤ vppMv) && decide (vppMv ≤ 2600) } }
      let r := s.progCheck vppMv hot pkg
      let slot := if s.slotBlank 1 then 1 else if s.slotBlank 2 then 2 else 3
      if r ≠ 0 then
        let s := if r = 6 then s else
          { s with cairn := { s.cairn with
            progResult := r, progState := 6, progWords := 0, progSlot := 0, progTime := s.time } }
        s.mbxAnswer req (stRefused 8) [(8, [BitVec.ofNat 8 r])]
      else
        let s := { s with
          col := { s.col with cairnProgSince := true }
          cairn := { s.cairn with
            prog := some { slot := slot, words := genWords slot s.time pkg, done := 0 }
            progSlot := slot, progState := 3, progResult := 0, progWords := 0 } }
        s.mbxStart req))

/-- The reply to a CAIRN_PROGRAM request with the slot that was programmed (R87). -/
def State.progReply (s : State) (slot result : Nat) (st : Status) : State :=
  s.mbxDone st [(8, [BitVec.ofNat 8 result]), (9, [BitVec.ofNat 8 slot])]

/-- CAIRN_PROGRAM_DONE (R86, R87): the program commits, or a word or the read-back failed. -/
def execCairnProgramDone (res : ProgEnd) (s : State) : Host.Outcome State Fault Refusal :=
  .next (match s.cairn.prog with
  | none => s
  | some pr =>
    match res with
    | .done true => (s.progEnd 1024 1).progReply pr.slot 1 stOk
    | .done false => (s.progEnd 1024 8).progReply pr.slot 8 (stTimeout 8)
    | .notDone w => (s.progEnd w.val 8).progReply pr.slot 8 (stTimeout 8))

/-- VPP_OTP_FALL (05, "At the edges"): the pulse ends, the word is not done, RESULT 0x8, the slot is consumed. -/
def execVppOtpFall (s : State) : Host.Outcome State Fault Refusal :=
  .next (match s.cairn.prog with
  | none => s
  | some pr => (s.progAbort 8).progReply pr.slot 8 (stTimeout 8))

end Sys2Proof.Machine
end

