-- ==== Sys2Proof/Machine/KernelOps.lean ====
section
/-! DEFINITION. Kernel images: operation fields and the static checks of R207, R209 to R211 and R213. -/

namespace Sys2Proof.Machine

/-- One 32-byte operation of a tile's list (R209). -/
structure KOp where
  opc : Nat
  fin : Nat
  fout : Nat
  flags : Nat
  m : Nat
  k : Nat
  n : Nat
  sem : Nat
  src : Nat
  wgt : Nat
  dst : Nat
  scale : Nat
  aux : Nat
  deriving DecidableEq, Repr

/-- R209: the operation at a byte offset of a kernel image. -/
def kopAt (img : List Byte) (off : Nat) : KOp :=
  let b := (img.drop off).take 32
  { opc := leAt b 0 1, fin := fld (leAt b 1 1) 7 4, fout := fld (leAt b 1 1) 3 0, flags := leAt b 2 2, m := leAt b 4 2,
    k := leAt b 6 2, n := leAt b 8 2, sem := leAt b 0xA 2, src := leAt b 0xC 4, wgt := leAt b 0x10 4,
    dst := leAt b 0x14 4, scale := leAt b 0x18 4, aux := leAt b 0x1C 4 }

/-- R207: ENTRIES of an image. -/
def kEntries (img : List Byte) : Nat := leAt img 4 2

/-- R207: LIST[i] of entry e. -/
def kList (img : List Byte) (e i : Nat) : Nat :=
  if e < kEntries img then leAt img (0x10 + 16 * e + 4 * i) 4 else 0

/-! ## Element sizes and matrix extents (R199, R203) -/

/-- Bits of an element of a format code. -/
def fmtBits (f : Nat) : Nat :=
  if f ≤ 1 then 4 else if f ≤ 4 then 8 else if f = 5 then 16 else 32

/-- Rounded up to a multiple of 32. -/
def pad32 (n : Nat) : Nat := cdiv n 32 * 32

/-- R199: the bytes of an activation row of `c` elements. -/
def rowBytes (f c : Nat) : Nat := pad32 (cdiv (c * fmtBits f) 8)

/-- R199: the bytes of the scale row of an FP4 matrix of `c` columns. -/
def scaleRow (c : Nat) : Nat := pad32 (cdiv c 32)

/-- R199: the bytes of an activation or output matrix of `r` rows and `c` columns. -/
def matBytes (f r c : Nat) : Nat := r * rowBytes f c + (if f = 1 then r * scaleRow c else 0)

/-- R199: the rows of K in a weight block of a weight format. -/
def blockK (f : Nat) : Nat := if f ≤ 1 then 256 else 128

/-- R199: the bytes of one weight block. -/
def wBlockBytes (f : Nat) : Nat := blockK f * 128 * fmtBits f / 8 + (if f = 1 then blockK f / 32 * 128 else 0)

/-- R199: the bytes of the weights of a K × N matrix. -/
def wBytes (f k n : Nat) : Nat := cdiv k (blockK f) * cdiv n 128 * wBlockBytes f

/-- R200: the weight format of a MATMUL. -/
def KOp.wfmt (o : KOp) : Nat := if bitAt o.flags 1 then (if o.fin = 2 then 0 else 1) else o.fin

/-- Integer formats. -/
def isIntFmt (f : Nat) : Bool := f = 0 || f = 2 || f = 6

/-- R200: the accumulator format of an operand format. -/
def accFmt (f : Nat) : Nat := if isIntFmt f then 6 else 7

/-- The row functions of ELTWISE, whose result is M × 1. -/
def rowFn (fn : Nat) : Bool := fn = 0x10 || fn = 0x11

/-- The ELTWISE functions with a second operand at WGT: M × N for 0x01 to 0x03, one row of M for 0x12 (log 54). -/
def fnOperand2 (o : KOp) : Nat :=
  let fn := o.aux % 256
  if fn = 1 ∨ fn = 2 ∨ fn = 3 then matBytes o.fin o.m o.n
  else if fn = 0x12 then matBytes o.fin 1 o.m else 0

/-! ## Address regions (R195) -/

/-- Where a Crest address range lies. -/
inductive Region
  | weight | act | qbuf | remote (q : Quad) | ctx | frames | endpoint | out | bad
  deriving DecidableEq, Repr

/-- R195: the region that holds a whole range of `n` bytes; `w` is the weight area and `qin` the input region in bytes. -/
def regionOf (w : Nat) (qin : Quad → Nat) (a n : Nat) : Region :=
  let within := fun lo sz => decide (lo ≤ a) && decide (a + n ≤ lo + sz)
  if a % 32 ≠ 0 ∨ n % 32 ≠ 0 then .bad
  else if within 0 w then .weight
  else if within w (0x200000 - w) then .act
  else if within 0x01000000 0x200000 then .qbuf
  else if 0x02000000 ≤ a ∧ a < 0x04000000 then
    let q : Quad := ⟨(a - 0x02000000) / 0x200000 % 16, Nat.mod_lt _ (by decide)⟩
    if within (0x02000000 + q.val * 0x200000) (qin q) then .remote q else .bad
  else if within 0x08000000 0x100000 then .ctx
  else if within 0x0A000000 3840 then .frames
  else if within 0x0A100000 0x100000 then .endpoint
  else if within 0x10000000 0x40000000 then .out
  else .bad

/-- A region an operation may read. -/
def Region.readable : Region → Bool
  | .weight | .act | .qbuf | .ctx | .frames => true
  | _ => false

/-- A region an operation may write. -/
def Region.writable : Region → Bool
  | .act | .qbuf | .remote _ | .endpoint | .out => true
  | _ => false

/-! ## Static checks (R213) -/

/-- The first failing check of a list of (holds, offset). -/
def firstBad : List (Bool × Nat) → Option Nat
  | [] => none
  | (ok, o) :: r => if ok then firstBad r else some o

/-- The ranges (address, bytes) an operation reads. -/
def KOp.reads (o : KOp) : List (Nat × Nat) :=
  let acc := if bitAt o.flags 0 then [(o.dst, matBytes o.fout o.m o.n)] else []
  let bias := if bitAt o.flags 3 then [(o.aux, pad32 (o.n * 4))] else []
  if o.opc = 1 then [(o.src, matBytes o.fin o.m o.k), (o.wgt, wBytes o.wfmt o.k o.n)] ++ acc ++ bias
  else if o.opc = 2 then
    [(o.src, matBytes o.fin o.m o.n)] ++ (if fnOperand2 o = 0 then [] else [(o.wgt, fnOperand2 o)])
  else if o.opc = 3 then [(o.src, matBytes o.fin o.m o.n)]
  else if o.opc = 4 then (if bitAt o.flags 0 then [] else [(o.src, o.aux)])
  else []

/-- The range (address, bytes) an operation writes. -/
def KOp.writes (o : KOp) : List (Nat × Nat) :=
  if o.opc = 1 ∨ o.opc = 3 then [(o.dst, matBytes o.fout o.m o.n)]
  else if o.opc = 2 then [(o.dst, matBytes o.fout o.m (if rowFn (o.aux % 256) then 1 else o.n))]
  else if o.opc = 4 then (if bitAt o.flags 1 then [] else [(o.dst, o.aux)])
  else []

/-- The fields that hold the addresses of `reads`, in its order. -/
def KOp.readFields (o : KOp) : List Nat :=
  if o.opc = 1 then [0x0C, 0x10] ++ (if bitAt o.flags 0 then [0x14] else []) ++ (if bitAt o.flags 3 then [0x1C] else [])
  else [0x0C, 0x10]

/-- R209 to R211: the fields, formats and FLAGS bits that an operation's OPC allows, each with the offset of its field. -/
def KOp.fieldChecks (o : KOp) : List (Bool × Nat) :=
  let dim := fun (n at_ : Nat) => (decide (1 ≤ n) && decide (n ≤ 4096), at_)
  let fmts := fun (top : Nat) => (decide (o.fin ≤ top) && decide (o.fout ≤ 7), 1)
  let noFlag := (decide (o.flags = 0), 2)
  let sem := (decide (o.sem < 16), 0xA)
  if o.opc = 0x00 ∨ o.opc = 0x7F then [noFlag, sem]
  else if o.opc = 1 then
    [fmts 5, (bitAt o.flags 2 || decide (o.fout = accFmt o.fin), 1), (decide (o.flags < 16), 2),
      (! bitAt o.flags 1 || decide (o.fin = 2) || decide (o.fin = 3), 2), dim o.m 4, dim o.k 6, dim o.n 8, sem]
  else if o.opc = 2 then
    let fn := o.aux % 256
    [fmts 7, noFlag, dim o.m 4, dim o.n 8, sem,
      ((decide (1 ≤ fn) && decide (fn ≤ 8)) || fn = 0x10 || fn = 0x11 || fn = 0x12, 0x1C)]
  else if o.opc = 3 then [fmts 7, noFlag, dim o.m 4, dim o.n 8, sem]
  else if o.opc = 4 then
    [(decide (o.flags < 3), 2), sem, (decide (32 ≤ o.aux) && decide (o.aux ≤ 0x40000000) && decide (o.aux % 32 = 0), 0x1C)]
  else if o.opc = 5 ∨ o.opc = 6 ∨ o.opc = 7 then [noFlag, sem]
  else [(false, 0)]

/-- R195, R213: every static address lies in a region that its use allows, each with the offset of its field. -/
def KOp.addrChecks (w : Nat) (qin : Quad → Nat) (o : KOp) : List (Bool × Nat) :=
  (o.reads.zip o.readFields).map (fun r =>
      ((regionOf w qin r.1.1 r.1.2).readable || decide (r.1.2 = 0)
        || (decide (r.1.1 = o.dst) && (regionOf w qin r.1.1 r.1.2 == .act || regionOf w qin r.1.1 r.1.2 == .qbuf)), r.2))
    ++ o.writes.map (fun r => ((regionOf w qin r.1 r.2).writable, 0x14))

/-- R213: the offset of the first field of an operation that fails. -/
def KOp.bad (w : Nat) (qin : Quad → Nat) (o : KOp) : Option Nat := firstBad (o.fieldChecks ++ o.addrChecks w qin)

/-- The operations of a list from a byte offset to its END, with their offsets; none when it runs off the image. -/
def kListOps (img : List Byte) : Nat → Nat → Option (List (Nat × KOp))
  | 0, _ => none
  | fuel + 1, off =>
    if img.length < off + 32 then none
    else
      let o := kopAt img off
      if o.opc = 0x7F then some [(off, o)] else (kListOps img fuel (off + 32)).map ((off, o) :: ·)

/-- R207: the header of an image: KMAGIC, ENTRIES, RSV, the Cornice range and the entry table's offsets, each with the
offset of its field. -/
def kHeaderChecks (img : List Byte) : List (Bool × Nat) :=
  let e := kEntries img
  let coff := leAt img 8 4
  let clen := leAt img 0xC 4
  let offOk := fun o => decide (o % 32 = 0) && decide (o < img.length)
  [(decide (leAt img 0 4 = 0x4E52454B), 0), (decide (1 ≤ e) && decide (e ≤ 64) && decide (0x10 + 16 * e ≤ img.length), 4),
    (zeroB img 6 2, 6), (coff = 0 || offOk coff, 8), (if coff = 0 then decide (clen = 0) else decide (coff + clen ≤ img.length), 0xC)]
    ++ (List.range (4 * e)).map (fun i => let l := leAt img (0x10 + 4 * i) 4; (decide (l = 0) || offOk l, 0x10 + 4 * i))

/-- Every operation list of an image: (entry, tile, operations); none where a list has no END. -/
def kLists (img : List Byte) : Option (List (Nat × Nat × List (Nat × KOp))) :=
  (List.range (4 * kEntries img)).foldr (fun i acc =>
    let l := leAt img (0x10 + 4 * i) 4
    if l = 0 then acc
    else match acc, kListOps img (img.length / 32 + 1) l with
      | some t, some ops => some ((i / 4, i % 4, ops) :: t)
      | _, _ => none) (some [])

/-- R213: the byte offset of the first field at which an image fails ERR 0x0E, none when every check passes. -/
def kernelBad (w : Nat) (qin : Quad → Nat) (img : List Byte) : Option Nat :=
  match firstBad (kHeaderChecks img) with
  | some o => some o
  | none =>
    match kLists img with
    | none => some 0x10
    | some ls =>
      ls.findSome? (fun l => l.2.2.findSome? (fun o => (o.2.bad w qin).map (o.1 + ·)))

/-- R196, R213: the quads that an image writes over a route, and whether it uses the Traverse endpoint. -/
def kernelRoutes (w : Nat) (qin : Quad → Nat) (own : Quad) (img : List Byte) : List Nat :=
  match kLists img with
  | none => []
  | some ls => ls.flatMap (fun l => l.2.2.flatMap (fun o => o.2.writes.filterMap (fun r =>
      match regionOf w qin r.1 r.2 with
      | .remote q => if q = own then none else some q.val
      | .endpoint => some 0x80
      | _ => none)))

end Sys2Proof.Machine
end

