-- ==== Sys2Proof/Machine/CncOps.lean ====
section
/-! DEFINITION. Cornice programs: operation fields and the static checks of R217, R218, R227 to R230. -/

namespace Sys2Proof.Machine

/-- R225: the byte offset, within a kernel image, of the Cornice list of entry e; 0 when the engine is idle for e. -/
def cncList (img : List Byte) (e : Nat) : Nat :=
  let off := leAt img 8 4
  if off = 0 ∨ leAt img (off + 4) 2 ≤ e then 0
  else
    let l := leAt img (off + 8 + 4 * e) 4
    if l = 0 then 0 else off + l

/-- `n` bytes of a partition's window as DRAM holds them, without counts or marks. -/
def State.winRaw (s : State) (p : Part) (o n : Nat) : List Byte :=
  match s.cfg p with
  | some c => (columns (winAddr c o) n).flatMap (fun a => match s.locOf a.1 with
      | some l => spRead s.dram.mem (l + a.2.1) a.2.2
      | none => List.replicate a.2.2 0)
  | none => List.replicate n 0

/-- The KERNEL image of a quad: what it holds since its reload, else the header and entry table as placed in the image
area. -/
def State.kernelImg (s : State) (p : Part) (q : Quad) : List Byte :=
  if ! (s.cq q).kernel.isEmpty then (s.cq q).kernel
  else match (if s.committed then tget s.str.kernels q else none) with
    | some l => s.winRaw p l.off l.len
    | none => []

/-- R208: whether an image takes part in entry e: a tile list or a Cornice list. -/
def takesPart (img : List Byte) (e : Nat) : Bool :=
  decide (e < kEntries img) && ((List.range 4).any (fun i => decide (kList img e i ≠ 0)) || decide (cncList img e ≠ 0))

/-- R208: the quads among `quads` that take part in entry e of a partition. -/
def State.entryMask (s : State) (p : Part) (e quads : Nat) : Nat :=
  maskOf 16 (fun i => bitAt quads i &&
    (if h : i < 16 then takesPart (s.kernelImg p ⟨i, h⟩) e else false))

/-- R436: a quad of a mask is retired. -/
def State.quadRetired (s : State) (quads : Nat) : Bool := allQuads.any (fun q => bitAt quads q.val && (s.quad q).failed)

/-! ## Operations (R226) -/

/-- One 64-byte Cornice operation. Window addresses carry their high bits. -/
structure COp where
  opc : Nat
  fin : Nat
  fout : Nat
  flags : Nat
  h : Nat
  w : Nat
  oh : Nat
  ow : Nat
  c : Nat
  kh : Nat
  kw : Nat
  sv : Nat
  sh : Nat
  dv : Nat
  dh : Nat
  orgY : Int
  orgX : Int
  oc : Nat
  src : Nat
  dst : Nat
  wgt : Nat
  aux : Nat
  scale : Nat
  sem : Nat
  rsv29 : Nat
  count : Nat
  inSlot : Nat
  outSlot : Nat
  tail : Nat
  deriving DecidableEq, Repr

/-- R226: the operation at a byte offset of a kernel image. -/
def copAt (img : List Byte) (off : Nat) : COp :=
  let b := (img.drop off).take 64
  let fl := leAt b 2 2
  let win := fun (bit lo hi : Nat) => leAt b lo 4 + (if bitAt fl bit then leAt b hi 2 * 2 ^ 32 else 0)
  { opc := leAt b 0 1, fin := leAt b 1 1 / 16, fout := leAt b 1 1 % 16, flags := fl, h := leAt b 4 2, w := leAt b 6 2
    oh := leAt b 8 2, ow := leAt b 0xA 2, c := leAt b 0xC 1, kh := leAt b 0xD 1 / 16, kw := leAt b 0xD 1 % 16
    sv := leAt b 0xE 1 / 16, sh := leAt b 0xE 1 % 16, dv := leAt b 0xF 1 / 16, dh := leAt b 0xF 1 % 16
    orgY := sgn 8 (leAt b 0x10 1), orgX := sgn 8 (leAt b 0x11 1), oc := leAt b 0x12 2, src := win 10 0x14 0x2C
    dst := win 11 0x18 0x2E, wgt := win 12 0x1C 0x30, aux := win 13 0x20 0x32, scale := leAt b 0x24 4
    sem := leAt b 0x28 1, rsv29 := leAt b 0x29 1, count := leAt b 0x2A 2, inSlot := leAt b 0x34 2
    outSlot := leAt b 0x36 2, tail := leAt b 0x38 8 }

/-- A FLAGS bit of an operation (R226). -/
def COp.inScree (o : COp) : Bool := bitAt o.flags 0
def COp.outScree (o : COp) : Bool := bitAt o.flags 1
def COp.acc (o : COp) : Bool := bitAt o.flags 2
def COp.bias (o : COp) : Bool := bitAt o.flags 3
def COp.relu (o : COp) : Bool := bitAt o.flags 4
def COp.psum (o : COp) : Bool := bitAt o.flags 5
def COp.striped (o : COp) : Bool := bitAt o.flags 6
def COp.follows (o : COp) : Bool := bitAt o.flags 7
def COp.rowShift (o : COp) : Nat := fld o.flags 9 8
def COp.srcWin (o : COp) : Bool := bitAt o.flags 10
def COp.dstWin (o : COp) : Bool := bitAt o.flags 11
def COp.wgtWin (o : COp) : Bool := bitAt o.flags 12
def COp.auxWin (o : COp) : Bool := bitAt o.flags 13

/-- R217: the vertical extent of the window, and the horizontal one. -/
def COp.extV (o : COp) : Nat := o.dv * (o.kh - 1) + 1
def COp.extH (o : COp) : Nat := o.dh * (o.kw - 1) + 1

/-- R230: the halo rows above and below a stripe. -/
def COp.up (o : COp) : Nat := (-o.orgY).toNat
def COp.down (o : COp) : Nat := (o.orgY + o.extV - o.sv).toNat

/-- Bytes of an element of a format. -/
def esOf (f : Nat) : Nat := fmtBits f / 8

/-- R216: the bytes of one position of a dense plane of c channels. -/
def posBytes (f c : Nat) : Nat := pad32 (c * esOf f)

/-- R220: the bytes of the weights, and of the weights with their biases. -/
def COp.wgtOnly (o : COp) : Nat := o.oc * o.kh * o.kw * 16 * esOf o.fin
def COp.coefBytes (o : COp) : Nat := pad32 (o.wgtOnly + (if o.bias then 4 * o.oc else 0))

/-- R234: RB. -/
def COp.rb (o : COp) : Nat := o.w * 16 * esOf o.fin

/-- R235, R236: the largest size of a Scree plane of r rows. -/
def screeMax (f r w c : Nat) : Nat :=
  pad32 (32 + 4 * r) + r * cdiv w (if f = 5 then 4 else 8) * cdiv c 16 * 144

/-! ## Stripes (R229, R230) -/

/-- R229: the chain that an engine belongs to, head first. -/
def chainUp (cor : Vector (Option CorniceCfg) 16) : Nat → Quad → Quad
  | 0, e => e
  | fuel + 1, e =>
    match allQuads.find? (fun q => match tget cor q with | some c => c.neighbour == e.val | none => false) with
    | some q => chainUp cor fuel q
    | none => e

def chainDown (cor : Vector (Option CorniceCfg) 16) : Nat → Quad → List Quad
  | 0, _ => []
  | fuel + 1, e =>
    match tget cor e with
    | some c => e :: (if h : c.neighbour < 16 then chainDown cor fuel ⟨c.neighbour, h⟩ else [])
    | none => [e]

def chainOf (cor : Vector (Option CorniceCfg) 16) (e : Quad) : List Quad := chainDown cor 16 (chainUp cor 16 e)

/-- R229: the stripes of a chain: engine, first output row, end of output rows. -/
def stripesFrom (cor : Vector (Option CorniceCfg) 16) (o : COp) : Nat → List Quad → List (Quad × Nat × Nat)
  | _, [] => []
  | a, [e] => [(e, a, o.oh)]
  | a, e :: r =>
    let n := match tget cor e with | some c => cdiv c.stripeRows (2 ^ o.rowShift) | none => 0
    let b := min (a + n) o.oh
    (e, a, b) :: stripesFrom cor o b r

def stripesOf (cor : Vector (Option CorniceCfg) 16) (o : COp) (e : Quad) : List (Quad × Nat × Nat) :=
  stripesFrom cor o 0 (chainOf cor e)

/-- The place of an engine in its chain of stripes: its output rows, its owned input rows, and its non-empty neighbours
above and below. -/
structure Stripe where
  o0 : Nat
  o1 : Nat
  i0 : Nat
  i1 : Nat
  above : Option Quad
  below : Option Quad
  idx : Nat

def stripeAt (cor : Vector (Option CorniceCfg) 16) (o : COp) (e : Quad) : Stripe :=
  if ! o.striped then { o0 := 0, o1 := o.oh, i0 := 0, i1 := o.h, above := none, below := none, idx := 0 }
  else
    let l := stripesOf cor o e
    let k := (l.findIdx? (fun x => x.1 == e)).getD 0
    let me := l.getD k (e, 0, o.oh)
    let full := fun (x : Quad × Nat × Nat) => decide (x.2.1 < x.2.2)
    let last := k + 1 = l.length
    { o0 := me.2.1, o1 := me.2.2, i0 := if k = 0 then 0 else me.2.1 * o.sv, i1 := if last then o.h else me.2.2 * o.sv
      above := if k = 0 then none else (match l[k - 1]? with | some x => if full x && full me then some x.1 else none | none => none)
      below := match l[k + 1]? with | some x => if full x && full me then some x.1 else none | none => none
      idx := k }

/-- R234: bytes of the line buffer that an operation of an engine uses. -/
def COp.books (o : COp) (overlap : Bool) (st : Stripe) : Nat :=
  if o.opc = 1 then
    let halo := if overlap || ! o.striped then 0
      else (if st.above.isSome then o.up + o.down else 0) + (if st.below.isSome then o.up + o.down else 0)
    (o.extV + o.sv + halo) * o.rb + o.coefBytes
  else if o.opc = 2 then o.rb
  else if o.opc = 3 then 2 * o.rb
  else 0

/-! ## Checks of the frame walk (R213, R217, R218, R221, R225 to R230, R233, R234, R237) -/

/-- Formats that Cornice accepts for elements (R216). -/
def cncFmt (f : Nat) : Bool := decide (2 ≤ f) && decide (f ≤ 5)

/-- A static read of an operation: through the window, or in the own slice, the context or the frames. -/
def cncReadOk (w : Nat) (qin : Quad → Nat) (win : Bool) (a n : Nat) : Bool :=
  win || (match regionOf w qin a (pad32 n) with | .qbuf | .ctx | .frames => true | _ => false)

/-- A static write: through the window, or in the own slice, an input region, or the entry output. -/
def cncWriteOk (w : Nat) (qin : Quad → Nat) (win : Bool) (a n : Nat) : Bool :=
  win || (match regionOf w qin a (pad32 n) with | .qbuf | .remote _ | .out => true | _ => false)

/-- Bytes of a source plane as an operation names it. -/
def COp.srcBytes (o : COp) : Nat := if o.inScree then 32 else o.h * o.w * posBytes o.fin o.c

/-- Bytes of a destination plane as an operation names it. -/
def COp.dstBytes (o : COp) : Nat :=
  if o.outScree then 32
  else if o.opc = 1 then o.oh * o.ow * posBytes o.fout o.oc
  else if o.opc = 2 then o.h * o.w * posBytes o.fout o.c
  else o.oh * o.ow * posBytes o.fout o.c

/-- One operation against its fields, its envelope, and the regions: each check with the offset of its field. -/
def cncChecks (w : Nat) (qin : Quad → Nat) (cfg : CorniceCfg) (o : COp) : List (Bool × Nat) :=
  let dim := fun (n at_ : Nat) => (decide (1 ≤ n) && decide (n ≤ 4096), at_)
  let small := fun (n m : Nat) => decide (1 ≤ n) && decide (n ≤ m)
  let noFlag := (o.flags == 0, 2)
  let base := [(decide (o.flags < 2 ^ 14), 2), (decide (o.sem < 16), 0x28), (o.rsv29 == 0, 0x29), (o.tail == 0, 0x38)]
  let planes := [(cncFmt o.fin, 1), dim o.h 4, dim o.w 6, (small o.c 16, 0xC)]
  let src := (cncReadOk w qin o.srcWin o.src o.srcBytes, 0x14)
  let dst := (cncWriteOk w qin o.dstWin o.dst o.dstBytes, 0x18)
  if o.opc = 0 ∨ o.opc = 0x7F ∨ o.opc = 5 ∨ o.opc = 6 then noFlag :: base
  else if o.opc = 1 then
    let accF := if o.fin = 2 then 6 else 7
    base ++ planes ++ [dim o.oh 8, dim o.ow 0xA, (decide (o.c ≤ cfg.ch), 0xC),
      (small o.kh 9 && small o.kw 9 && decide (o.kh ≤ cfg.kh) && decide (o.kw ≤ cfg.kw), 0xD),
      (small o.sv 4 && small o.sh 4 && decide (o.sv ≤ cfg.sv) && decide (o.sh ≤ cfg.sh), 0xE),
      (small o.dv 4 && small o.dh 4 && decide (o.dv ≤ cfg.dv) && decide (o.dh ≤ cfg.dh), 0xF),
      (decide (-8 ≤ o.orgY) && decide (o.orgY ≤ 120) && decide (-(cfg.padT : Int) ≤ o.orgY)
        && decide (((o.oh - 1 : Nat) : Int) * o.sv + o.orgY + o.extV - 1 ≤ (o.h : Int) - 1 + cfg.padB), 0x10),
      (decide (-8 ≤ o.orgX) && decide (o.orgX ≤ 120) && decide (-(cfg.padL : Int) ≤ o.orgX)
        && decide (((o.ow - 1 : Nat) : Int) * o.sh + o.orgX + o.extH - 1 ≤ (o.w : Int) - 1 + cfg.padR), 0x11),
      (small o.oc 256, 0x12),
      (if o.psum then o.fout == accF else decide (o.fout ≤ 7) && (! o.outScree || cncFmt o.fout), 1),
      ((! o.psum || ! o.outScree) && (! o.follows || o.striped) && (! (o.striped && cfg.overlap) || o.srcWin)
        && (o.striped || o.rowShift == 0), 2),
      src, dst, (cncReadOk w qin o.wgtWin o.wgt o.coefBytes, 0x1C),
      (! o.acc || cncReadOk w qin o.auxWin o.aux (o.oh * o.ow * posBytes accF o.oc), 0x20),
      (! o.outScree || o.outSlot == 0 || decide (screeMax o.fout o.oh o.ow o.oc ≤ o.outSlot * 256) || o.striped, 0x36)]
  else if o.opc = 2 then
    base ++ planes ++ [(cncFmt o.fout, 1), (decide (fld o.flags 9 2 = 0), 2), src, dst,
      (! o.outScree || o.outSlot == 0 || decide (screeMax o.fout o.h o.w o.c ≤ o.outSlot * 256), 0x36)]
  else if o.opc = 3 then
    base ++ planes ++ [(cncFmt o.fout, 1), (decide (fld o.flags 9 2 = 0), 2), dim o.oh 8, dim o.ow 0xA, src, dst,
      (cncReadOk w qin o.auxWin o.aux (16 * o.count), 0x20), (small o.count 1024, 0x2A),
      (! o.outScree || decide (screeMax o.fout o.oh o.ow o.c ≤ o.outSlot * 256), 0x36)]
  else [(false, 0)]

/-- The operations of a list, with their offsets, up to END; none when it runs off the program. -/
def cListOps (img : List Byte) (top : Nat) : Nat → Nat → Option (List (Nat × COp))
  | 0, _ => none
  | fuel + 1, off =>
    if top < off + 64 then none
    else
      let o := copAt img off
      if o.opc = 0x7F then some [(off, o)] else (cListOps img top fuel (off + 64)).map ((off, o) :: ·)

/-- R225: the lists of a program: entry and operations; none where a list has no END. -/
def cLists (img : List Byte) : Option (List (Nat × List (Nat × COp))) :=
  let off := leAt img 8 4
  let len := leAt img 0xC 4
  (List.range (leAt img (off + 4) 2)).foldr (fun e acc =>
    if cncList img e = 0 then acc
    else match acc, cListOps img (off + len) (len / 64 + 1) (cncList img e) with
      | some t, some ops => some ((e, ops) :: t)
      | _, _ => none) (some [])

/-- R233: in overlap-load mode the DST of a STRIPED operation overlaps no SRC of the two STRIPED operations before it. -/
def overlapBad : List COp → Bool
  | [] => false
  | o :: r =>
    let hits := fun (a b : COp) => a.dstWin && b.srcWin && decide (a.dst < b.src + b.srcBytes) && decide (b.src < a.dst + a.dstBytes)
    (r.take 2).any (fun d => hits d o) || overlapBad r

/-- R213, R218, R225, R227, R234: the first byte offset at which an engine's program fails ERR 0x0E. -/
def cncBad (w : Nat) (qin : Quad → Nat) (cfg : Option CorniceCfg) (img : List Byte) : Option Nat :=
  let off := leAt img 8 4
  let len := leAt img 0xC 4
  if off = 0 then none
  else match cfg with
    | none => some off
    | some c =>
      let n := leAt img (off + 4) 2
      let hdr : List (Bool × Nat) := [(decide (leAt img off 4 = 0x4D524E43), off), (n = kEntries img && decide (8 + 4 * n ≤ len), off + 4),
          (leAt img (off + 6) 2 = 0, off + 6)]
        ++ (List.range n).map (fun e =>
          let l := leAt img (off + 8 + 4 * e) 4
          (decide (l = 0) || (decide (l % 64 = 0) && decide (l < len)), off + 8 + 4 * e))
      match firstBad hdr with
      | some o => some o
      | none =>
        match cLists img with
        | none => some (off + 8)
        | some ls =>
          ls.findSome? (fun l =>
            (l.2.findSome? (fun o => (firstBad (cncChecks w qin c o.2)).map (o.1 + ·)))
            <|> (if c.overlap && overlapBad ((l.2.map (·.2)).filter COp.striped) then some off else none))

/-- The STRIPED operations of entry e of an image, in order. -/
def stripedOps (img : List Byte) (e : Nat) : List COp :=
  match cLists img with
  | some ls => match ls.find? (fun l => l.1 == e) with
    | some l => (l.2.map (·.2)).filter COp.striped
    | none => []
  | none => []

/-- R229, R230, R232, R234: what one STRIPED operation needs of its chain: rows, books, and the rows it follows. -/
def stripeOpBad (cor : Vector (Option CorniceCfg) 16) (e : Quad) (prev : Option COp) (o : COp) : Bool :=
  let st := stripeAt cor o e
  let ov := match tget cor e with | some c => c.overlap | none => false
  let empty := decide (st.o1 ≤ st.o0)
  (! empty && (st.above.isSome || st.below.isSome) && decide (st.i1 - st.i0 < max o.up o.down))
    || decide (262144 < o.books ov st)
    || (! ov && o.follows && (match prev with
      | some p => let sp := stripeAt cor p e; ! empty && ! (sp.o0 == st.i0 && sp.o1 == st.i1)
      | none => true))

/-- R229, R230, R242: the stripe chains of a partition fail ERR 0x0E; `imgs` are its quads' images. -/
def chainBad (cor : Vector (Option CorniceCfg) 16) (quads : Nat) (imgs : List (Nat × List Byte)) : Bool :=
  let imgOf := fun (q : Quad) => ((imgs.find? (fun x => x.1 == q.val)).map (·.2)).getD []
  (allQuads.filter (fun q => bitAt quads q.val)).any (fun q =>
    let img := imgOf q
    (match cLists img with
    | none => false
    | some ls => ls.any (fun l =>
        let mine := (l.2.map (·.2)).filter COp.striped
        (l.2.any (fun o => ! o.2.striped && decide (262144 < o.2.books false (stripeAt cor o.2 q))))
        || (! mine.isEmpty && (chainOf cor q).any (fun r => stripedOps (imgOf r) l.1 ≠ mine))
        || ((List.range mine.length).any (fun i => match mine[i]? with
          | some o => stripeOpBad cor q (if i = 0 then none else mine[i - 1]?) o
          | none => false)))))

/-- R229, R232, R243: the stripe chains break a rule of the whole structure (ERR 0x0F). -/
def chainRuleBad (cor : Vector (Option CorniceCfg) 16) (quads : Nat) (routes : List Route) (_p : Nat) : Bool :=
  let mine := allQuads.filter (fun q => bitAt quads q.val && (tget cor q).isSome)
  let nb := fun (q : Quad) => match tget cor q with | some c => c.neighbour | none => 0xFF
  let route := fun (a b : Nat) => routes.any (fun r => r.src == a && r.dst == b)
  mine.any (fun q =>
    let n := nb q
    decide (n < 16) &&
      (! bitAt quads n || ! mine.any (fun r => r.val == n)
        || mine.any (fun r => r != q && nb r == n)
        || decide ((chainDown cor 17 q).length > 16)
        || ((match tget cor q with | some c => ! c.overlap | none => false) && ! (route q.val n && route n q.val))))

/-- R196, R213: the quads whose input regions an engine's program writes. -/
def cncRoutes (w : Nat) (qin : Quad → Nat) (own : Quad) (img : List Byte) : List Nat :=
  match cLists img with
  | none => []
  | some ls => ls.flatMap (fun l => l.2.filterMap (fun o =>
      if o.2.dstWin ∨ o.2.opc = 0 ∨ 5 ≤ o.2.opc then none
      else match regionOf w qin o.2.dst 32 with
        | .remote q => if q = own then none else some q.val
        | _ => none))

end Sys2Proof.Machine
end

