-- ==== Sys2Proof/Machine/TrvOps.lean ====
section
/-! DEFINITION. Traverse: the session table, ticks and steps (R170 to R179), inbound and outbound rings (R173 to R183),
the gates (R184, R185), the voice detector (R186, R187) and the rendered stream (R181, R188, R189). -/

namespace Sys2Proof.Machine

/-! ## The session table -/

/-- The session of a number, open or playing its last ramp. -/
def State.sessAny (s : State) (n : Nat) : Option SessSt := (s.trv.sess.find? (fun e => e.1 == n)).map (·.2)

/-- The open session of a number. -/
def State.sess (s : State) (n : Nat) : Option SessSt :=
  match s.sessAny n with
  | some x => if x.shut then none else some x
  | none => none

/-- A session placed in the table, in ascending order of number. -/
def insSess (n : Nat) (x : SessSt) : List (Nat × SessSt) → List (Nat × SessSt)
  | [] => [(n, x)]
  | (m, y) :: r => if n < m then (n, x) :: (m, y) :: r else if n = m then (n, x) :: r else (m, y) :: insSess n x r

def State.putSess (s : State) (n : Nat) (x : SessSt) : State :=
  { s with trv := { s.trv with sess := insSess n x s.trv.sess } }

def State.dropSess (s : State) (n : Nat) : State :=
  { s with trv := { s.trv with sess := s.trv.sess.filter (fun e => e.1 ≠ n) } }

def State.setSess (s : State) (n : Nat) (f : SessSt → SessSt) : State :=
  { s with trv := { s.trv with sess := s.trv.sess.map (fun e => if e.1 = n then (e.1, f e.2) else e) } }

def State.setOut (s : State) (n : Nat) (f : OutSt → OutSt) : State :=
  s.setSess n (fun x => { x with out := f x.out })

/-- `f` on the session of a number, open or playing its last ramp. -/
def State.withSess (s : State) (n : Nat) (f : SessSt → State) : State :=
  match s.sessAny n with
  | some x => f x
  | none => s

/-- Counters of a session: IN_GAPS, IN_DISCARD, OUT_DISCARD, LATE_RAMPS, BARGES, CONT_BREAKS, in the session header
and in TRV_PCNT of its partition. -/
def State.trvCount (s : State) (n : Nat) (k : Fin 6) (m : Nat) : State :=
  s.withSess n (fun x =>
    let s := s.setSess n (fun x => { x with cnt := updWith x.cnt k (fun v => satAdd v m 0xFFFF) })
    { s with trv := { s.trv with
      pcnt := updWith s.trv.pcnt x.part (fun v => updWith v k (fun c => satAdd c m 1023)) } })

/-- TRV_PCFG of a partition: field [hi:lo]. -/
def State.pcfg (s : State) (p : Part) (hi lo : Nat) : Nat := fld (tget s.trv.pcfg p).toNat hi lo

/-! ## Time -/

/-- R170: the crystal cycle of the epoch: the first slow clock edge at least 1 ms after the switch. -/
def epochEdge (switch : Nat) : Nat := cdiv (switch + msCyc 1) 32 * 32

/-- The epoch in force, or the one that a switch has set. -/
def State.epochCyc (s : State) : Nat :=
  if s.trv.run then s.trv.epoch else match s.trv.startAt with | some c => epochEdge c | none => 0

/-- R172: the crystal cycle of session tick 0: the first tick of the phase at least 625 µs after the open. -/
def firstTick (epoch phase openAt : Nat) : Nat :=
  let base := epoch + 15625 * phase
  base + 250000 * cdiv (openAt + 15625 - base) 250000

/-- Samples of a frame at the session's rate (R173). -/
def frameLen (codec : Nat) : Nat := if codec = 0 then 160 else 80

/-- Traverse PLL cycles of 1.25 ns in 62.5 µs, the unit of the alignment offsets. -/
def alignPll : Int := 50000

/-- R181: the time of outbound tick n in Traverse PLL cycles. -/
def SessSt.outTick (x : SessSt) (n : Nat) : Int := (x.tick0 : Int) * 32 + (n : Int) * 8000000 + x.out.align * alignPll

/-- R181: the first outbound tick that is rendered. -/
def SessSt.n0 (x : SessSt) : Nat :=
  ((List.range 11).find? (fun n => decide ((x.openAt : Int) * 32 + 500000 ≤ x.outTick n))).getD 10

/-- The current time in Traverse PLL cycles. -/
def State.pll (s : State) : Int := (s.now : Int) * 32

/-- R182: the Col timestamp of outbound tick n, to the nearest tick, halves up. -/
def SessSt.outStamp (x : SessSt) (n : Nat) : Nat := ((x.outTick n + 512) / 1024).toNat % 2 ^ 64

/-! ## Session memory (R191) -/

/-- Device physical address of a session's 32 KiB. -/
def sessBase (n : Nat) : Nat := 0x3FF0000000 + n * 0x8000

/-- Address of inbound frame f, and of outbound frame m. -/
def inSlot (n f : Nat) : Nat := sessBase n + f % 16 * 320
def outSlot (n m : Nat) : Nat := sessBase n + 0x1400 + m % 64 * 320

/-- Samples as 16-bit words and back. -/
def samplesOf (bs : List Byte) : Nat → List Int
  | 0 => []
  | k + 1 => sgn 16 (leNat (bs.take 2)) :: samplesOf (bs.drop 2) k

def sampleBytes (l : List Int) : List Byte := l.flatMap (fun v => leBytes 2 (unsgn 16 v))

/-- A ring frame, none when it reads uncorrectable or poisoned; the device logs it (R191). -/
def State.ringFrame (s : State) (a len : Nat) (p : Part) : Option (List Int) × State :=
  let (bs, pz, s) := s.memRead a (2 * len)
  if pz = 0 then (some (samplesOf bs len), s) else (none, s.log 1 0x05 1 a (some p) 0 true)

/-- R191: the session memory of a range cleared: the state (by closing) and the ring area. -/
def State.clearRing (s : State) (a n : Nat) : State :=
  let cols := columns a n
  s.each cols (fun s c => match s.locOf c.1 with | some l => s.clearLocs l 32 | none => s)

/-! ## Codecs (R173) -/

/-- ITU-T G.711 A-law: a 13-bit linear value shifted left by 3. -/
def aLaw (b : Nat) : Int :=
  let c := Nat.xor b 0x55
  let seg := fld c 6 4
  let man := fld c 3 0
  let v := if seg = 0 then 2 * man + 1 else (2 * man + 33) * 2 ^ (seg - 1)
  let w := (v : Int) * 8
  if bitAt c 7 then w else -w

/-- ITU-T G.711 µ-law: a 14-bit linear value shifted left by 2. -/
def muLaw (b : Nat) : Int :=
  let c := Nat.xor b 0xFF
  let v := (2 * fld c 3 0 + 33) * 2 ^ fld c 6 4 - 33
  let w := (v : Int) * 4
  if bitAt c 7 then -w else w

/-- Bytes of an inbound frame in host memory (R158). -/
def inBytes (codec : Nat) : Nat := if codec = 0 then 320 else if codec = 1 then 160 else 80

/-- R173: the linear samples of an inbound frame. -/
def decodeFrame (codec : Nat) (bs : List Byte) : List Int :=
  if codec ≤ 1 then samplesOf bs (frameLen codec)
  else bs.map (fun b => if codec = 2 then aLaw b.toNat else muLaw b.toNat)

/-! ## The session header and result slots (R179) -/

/-- TRV_SESS_STAT.MODE. -/
def PlayMode.num : PlayMode → Nat
  | .play => 0
  | .ramp => 1
  | .fill => 2
  | .crossfade => 3
  | .silent => 4
  | .stopped => 5

/-- The current session tick. -/
def SessSt.tickNow (x : SessSt) : Nat := (x.ticks.getD 0) - 1

/-- R179: the 64 bytes of the session header. -/
def SessSt.header (x : SessSt) (time : Nat) : List Byte :=
  leBytes 4 x.tickNow ++ leBytes 1 (bnat x.hold + 2 * bnat x.gone + 4 * bnat x.barge) ++ leBytes 1 x.out.mode.num
    ++ leBytes 2 0 ++ leBytes 4 x.lastSeq ++ leBytes 4 x.inNext ++ leBytes 4 x.out.cursor ++ leBytes 4 x.out.write
    ++ leBytes 8 time ++ x.cnt.toList.flatMap (leBytes 2) ++ List.replicate 20 0

/-- R179: the session header is written. -/
def State.putHeader (s : State) (n : Nat) : State :=
  s.withSess n (fun x => s.winWrite x.part x.resBase (x.header s.time))

/-- R179: S of a session. -/
def SessSt.slotSize (x : SessSt) : Nat := (x.resLen - 64) / 8

/-- R179: the window offset of the result slot of a sequence. -/
def SessSt.slotAt (x : SessSt) (seq : Nat) : Nat := x.resBase + 64 + seq % 8 * x.slotSize

/-- R177: FLAGS of a step record. -/
def StepRec.flags (r : StepRec) : Nat := bnat r.resetState + 2 * bnat r.inGap + 4 * bnat r.barge

/-- R177: the 32 bytes of a step record. -/
def StepRec.bytes (r : StepRec) (p : Part) : List Byte :=
  leBytes 2 (r.sess.val + p.val * 4096) ++ leBytes 1 r.pass ++ leBytes 1 r.flags ++ leBytes 4 r.seq ++ leBytes 4 r.prev
    ++ leBytes 4 r.frameFirst ++ leBytes 1 r.frameCount ++ leBytes 1 r.vad ++ leBytes 1 r.codec ++ leBytes 1 0
    ++ leBytes 8 r.slot ++ leBytes 4 0

/-- The step record of an item. -/
def Item.stepRec (i : Item) : Option StepRec := match i.kind with | .step r => some r | _ => none

/-- The step items of a session. -/
def State.stepsOf (s : State) (n : Nat) : List (Item × StepRec) :=
  s.items.filterMap (fun i => match i.stepRec with
    | some r => if r.sess.val = n then some (i, r) else none
    | none => none)

def State.setStep (s : State) (id : Nat) (f : StepRec → StepRec) : State :=
  s.setItem id (fun i => match i.kind with | .step r => { i with kind := .step (f r) } | _ => i)

/-! ## Slots (R120) -/

/-- R120: a slot that frees goes to the step that has waited longest. -/
def State.stepSlots (s : State) (p : Part) : State :=
  s.each (s.items.filter (fun i => i.part == p && i.stepRec.isSome && ! i.slot && i.fin.isNone)) (fun s i =>
    if s.slotsUsed p < 64 then s.setItem i.id (fun j => { j with slot := true }) else s)

/-! ## Continuity (R178) -/

/-- The not-run codes of R178. -/
def Status.notRun (t : Status) : Bool :=
  t.code == .sessionGone || t.code == .sessionHeld || t.code == .refused || t.code == .abandoned
    || (t.code == .restructured && t.sub == 1)

/-- The remembered step of a sequence. -/
def SessSt.hist (x : SessSt) (seq : Nat) : Option StepHist := x.steps.find? (fun h => h.seq == seq)

/-- R178: PREV of a step that fires: the latest earlier step of its pass that has not completed with a not-run code;
its own sequence when there is none. -/
def SessSt.prevOf (x : SessSt) (pass seq : Nat) : Nat :=
  match x.steps.find? (fun h => h.pass == pass && ! (match h.status with | some t => t.notRun | none => false)) with
  | some h => h.seq
  | none => seq

/-- R178: the step runs from the reset state: RESET_STATE is set, it reports OK_CONCEALED, and a break is counted. -/
def State.breakCont (s : State) (i : Item) (n : Nat) : State :=
  let s := s.setStep i.id (fun r => { r with resetState := true })
  let s := s.setItem i.id (fun j => { j with contWait := false, marks := j.marks ++ [stConcealed] })
  s.trvCount n 5 1

/-- R178: a served hand-off runs from the reset state, and its answer says so. -/
def State.breakServed (s : State) (i : Item) : State :=
  s.setItem i.id (fun j => { j with contWait := false, marks := j.marks ++ [stConcealed] })

/-- R178: what a step that waits does, once the outcome of the step named by PREV is known. -/
def State.contDecide (s : State) (i : Item) (r : StepRec) : State :=
  s.withSess r.sess.val (fun x =>
    if ! i.contWait || i.fin.isSome then s
    else if r.prev = r.seq then s.setItem i.id (fun j => { j with contWait := false })
    else match x.hist r.prev with
      | some h =>
        match h.status with
        | some t => if t.failed then s.breakCont i r.sess.val
                    else s.setItem i.id (fun j => { j with contWait := false })
        | none => s
      | none => s.breakCont i r.sess.val)

/-- R178: a step completed: PREV of those that name it is relinked past it when it never ran, and they decide. -/
def State.relink (s : State) (n : Nat) (h : StepHist) (st : Status) : State :=
  s.each ((s.stepsOf n).filter (fun e => e.1.contWait && e.2.prev == h.seq && e.2.seq ≠ h.seq)) (fun s e =>
    let p := if h.prev = h.seq then e.2.seq else h.prev
    let s := if st.notRun then s.setStep e.1.id (fun r => { r with prev := p, resetState := r.resetState || p == r.seq }) else s
    match s.item e.1.id with
    | some i => (match i.stepRec with | some r => s.contDecide i r | none => s)
    | none => s)

/-- R178, R179: a step may issue its first operation. -/
def State.stepReady (s : State) (i : Item) (r : StepRec) : Bool :=
  i.slot && ! i.contWait
    && ! (s.stepsOf r.sess.val).any (fun e => e.2.seq == (r.seq + 2 ^ 32 - 8) % 2 ^ 32)

/-! ## Firing (R176, R177) -/

/-- The quads of a partition, as a mask. -/
def State.ownQuads (s : State) (p : Part) : Nat := match s.cfg p with | some c => c.quads | none => 0

/-- R208, R436: an item is set to run an entry on the quads of a mask that take part in it; it completes at once with
TIMEOUT, SUB 1, when one of `need` is retired. -/
def State.placeEntry (s : State) (id : Nat) (p : Part) (e quads need : Nat) : State :=
  if s.quadRetired need then s.finish id (stTimeout 1)
  else s.setItem id (fun i => { i with waitQ := s.entryMask p e quads })

/-- R177: VAD of a record: bit 4 f + j for the f-th-from-last covered frame, the last two. -/
def SessSt.vadBits (x : SessSt) (last count : Nat) : Nat :=
  let of := fun f => ((x.vads.find? (fun v => v.1 == f)).map (·.2)).getD 0
  of last + (if 2 ≤ count then of (last - 1) * 16 else 0)

/-- R120, R177, R178: a step fires with its record, takes a slot or waits for one, and the sequence moves on. -/
def State.fireStep (s : State) (n : Sess) (pass first count : Nat) (gap : Bool) : State :=
  s.withSess n.val (fun x =>
    let seq := x.seqNext
    let prev := x.prevOf pass seq
    let r : StepRec :=
      { sess := n, pass := pass, resetState := decide (prev = seq), inGap := gap, barge := x.barge, seq := seq,
        prev := prev, frameFirst := first, frameCount := count, vad := x.vadBits (first + count - 1) count,
        codec := x.codec, slot := x.slotAt seq }
    let id := s.nextItem
    let s := s.addItem x.part (.step r) (decide (s.slotsUsed x.part < 64))
    let s := s.setItem id (fun i => { i with contWait := true })
    let s := s.placeEntry id x.part (2 * x.table + pass - 1) (s.ownQuads x.part) (s.ownQuads x.part)
    let h : StepHist := { seq := seq, pass := pass, prev := prev, status := none, written := false }
    let s := s.setSess n.val (fun x => { x with seqNext := (seq + 1) % 2 ^ 32, steps := h :: x.steps.take 63 })
    match s.item id with
    | some i => s.contDecide i r
    | none => s)

/-- The pass table of a session (R105). -/
def State.passTable (s : State) (x : SessSt) : PassTable :=
  match (if s.committed then tget s.str.trv x.part else none) with
  | some c => c.tables.getD x.table { passes := 1, p1Adv := 10, p2Min := 10, p2Max := 10 }
  | none => { passes := 1, p1Adv := 10, p2Min := 10, p2Max := 10 }

/-- R120: at a frame tick, a step of the session that still waits for a slot is refused. -/
def State.refuseSlotless (s : State) (n : Nat) : State :=
  s.each ((s.stepsOf n).filter (fun e => ! e.1.slot && e.1.fin.isNone)) (fun s e => s.finish e.1.id (stRefused 1))

/-- R129: steps of a partition fire only while it runs. -/
def State.mayFire (s : State) (x : SessSt) : Bool :=
  ! x.hold && ! x.gone && (s.part x.part).state == .running && s.start.stop.isNone

/-- R172 to R177: a tick of one session at crystal cycle `at_`. -/
def State.sessTick (s : State) (n : Sess) (at_ : Nat) : State :=
  s.withSess n.val (fun x =>
    if x.shut then s else
    match x.ticks with
    | none => if x.tick0 ≤ at_ then s.setSess n.val (fun x => { x with ticks := some 1 }) else s
    | some k =>
      let f := k - 1
      let s := s.refuseSlotless n.val
      let fire := s.mayFire x
      let held := x.inHeld.contains f
      let (fr, s) := if held && fire then s.ringFrame (inSlot n.val f) (frameLen x.codec) x.part else (some [], s)
      let gap := ! held || fr.isNone
      let s := if gap then
          (s.trvCount n.val 0 1).memWrite (inSlot n.val f) (List.replicate (2 * frameLen x.codec) 0)
        else s
      let acc := if fire then min (x.accum + 1) 12 else 0
      let s := s.setSess n.val (fun x => { x with
        ticks := some (k + 1), inNext := k, inHeld := x.inHeld.filter (· ≠ f), consumed := x.consumed + bnat held
        accum := acc, accumGap := fire && (x.accumGap || gap) })
      let t := s.passTable x
      let s := if fire then s.fireStep n 1 f 1 gap else s
      if fire && decide (t.passes = 2) && decide (x.adv / 10 ≤ acc) then
        (s.fireStep n 2 (f + 1 - acc) acc (x.accumGap || gap)).setSess n.val (fun x =>
          { x with accum := 0, accumGap := false })
      else s)

/-! ## Outbound ring (R180) -/

/-- The last seam at or before a frame. -/
def OutSt.seamBefore (o : OutSt) (f : Nat) : Option Nat :=
  (o.seams.filter (· ≤ f)).foldl (fun m v => match m with | some w => some (max w v) | none => some v) none

/-- R180: the retention point. -/
def OutSt.retention (o : OutSt) (backup : Nat) : Nat := max ((o.seamBefore o.cursor).getD 0) (o.cursor - backup)

/-- BACKUP_MAX of a partition. -/
def State.backupMax (s : State) (p : Part) : Nat := s.pcfg p 5 0

/-- R180: whole frames appended with their seam marks; answers the frames kept. `discards` is the case of a set BARGE or
GONE. -/
def State.append (s : State) (n : Nat) (frames seams : Nat) (data : List Byte) (pz : Nat := 0) : Nat × State :=
  match s.sessAny n with
  | none => (0, s)
  | some x =>
    let len := 2 * frameLen x.codec
    let o := x.out
    let used := o.write - o.retention (s.backupMax x.part)
    let room := if x.gone || x.barge then 0 else min frames (64 - used)
    let s := s.each (List.range room) (fun s f =>
      s.memWrite (outSlot n (o.write + f)) (sliceB data (f * len) len) pz)
    let marks := (List.range (room + 1)).filter (fun f =>
      if f < room then bitAt seams f else decide (room = frames) && decide (frames < 64) && bitAt seams frames)
    let keep := fun (v : Nat) => decide (o.retention (s.backupMax x.part) ≤ v)
    let s := s.setOut n (fun o =>
      { o with write := o.write + room
               seams := o.seams.filter keep ++ (marks.map (o.write + ·)).filter (fun v => ! o.seams.contains v) })
    (room, s.trvCount n 2 (frames - room))

/-- Whether the frame at a ring index is present: appended and readable (R188, R191). -/
def State.present (s : State) (n : Nat) (x : SessSt) (f : Nat) : Option (List Int) × State :=
  if f < x.out.write then s.ringFrame (outSlot n f) (frameLen x.codec) x.part else (none, s)

/-! ## Rendering (R181, R188, R189) -/

/-- R189: the samples of a ramp, of the shorter ramp of an orderly stop, and of a crossfade. -/
def rampLen (codec : Nat) (stop : Bool) : Nat :=
  (if codec = 0 then 32 else 16) / (if stop then 2 else 1)
def xfadeLen (codec : Nat) : Nat := if codec = 0 then 80 else 40

/-- `num / den` rounded down or up to an integer: R189 gives the exact mixture and no rounding, so the choice is a free
value (log 30). -/
def State.roundFree (s : State) (num : Int) (den : Nat) : Int × State :=
  if num % (den : Int) = 0 then (num / (den : Int), s)
  else
    let (f, s) := s.draw
    (num / (den : Int) + (if bitAt f 0 then 1 else 0), s)

/-- R189: one sample of fill: silence, or a sample of white noise. The manual gives the noise no bits, so they are a
free value (log 30). -/
def State.fillSample (s : State) (n : Nat) (k : FillKind) : Int × State :=
  match k with
  | .silence => (0, s)
  | .comfort =>
    let (f, s) := s.draw
    (sgn 16 f, s.setOut n (fun o => { o with lfsr := f / 65536 % 2 ^ 23 }))

/-- What a sample of the stream is, as QFLAGS codes it (R182). -/
def PlayMode.qcode : PlayMode → Nat
  | .play => 0
  | .ramp => 1
  | .crossfade => 3
  | _ => 2

/-- R182: QFLAGS of quarter j after a sample of a mode: a crossfade ranks above a ramp, a ramp above fill. -/
def qMerge (first : Bool) (old m : Nat) : Nat :=
  if first then m
  else if old = 3 ∨ m = 3 then 3 else if old = 1 ∨ m = 1 then 1 else max old m

/-- R189: the sample of the stream at the present position: reply, fill, ramp or crossfade. -/
def State.sample (s : State) (n : Nat) (x : SessSt) (stopping : Bool) : Int × State :=
  let o := x.out
  let i := o.samples.length
  let reply := o.stage.getD i 0
  match o.mode with
  | .play => (reply, s)
  | .fill => s.fillSample n o.fillK
  | .silent => (0, s)
  | .stopped => (0, s)
  | .crossfade =>
    let j := o.fade.getD 0
    let N := xfadeLen x.codec
    let (f, s) := s.fillSample n o.fillK
    s.roundFree (f * ((N - j : Nat) : Int) + reply * (j : Int)) N
  | .ramp =>
    let j := o.fade.getD 0
    let N := rampLen x.codec stopping
    let w := o.fadeFrom
    if o.fillK = .silence then
      let (f, s) := if w = 160 then (0, s) else s.fillSample n .comfort
      s.roundFree ((reply * (w : Int) + f * ((160 - w : Nat) : Int)) * ((N - j : Nat) : Int)) (160 * N)
    else
      let (f, s) := s.fillSample n .comfort
      s.roundFree (reply * (w * (N - j) : Nat) + f * ((160 * N - w * (N - j) : Nat) : Int)) (160 * N)

/-- The reply weight of the present position, in 160ths. -/
def OutSt.weight (o : OutSt) (codec : Nat) (stopping : Bool) : Nat :=
  match o.mode with
  | .play => 160
  | .crossfade => o.fade.getD 0 * 160 / xfadeLen codec
  | .ramp => o.fadeFrom * (rampLen codec stopping - o.fade.getD 0) / rampLen codec stopping
  | _ => 0

/-- A ramp starts from the present level (R184, "At the edges"); comfort fill ramps only to silence. -/
def OutSt.startRamp (o : OutSt) (codec : Nat) (k : FillKind) : OutSt :=
  match o.mode with
  | .play | .crossfade | .ramp =>
    { o with mode := .ramp, fade := some 0, fadeFrom := o.weight codec false, fillK := k, rampAt := none }
  | .fill =>
    if k = .silence && o.fillK = .comfort then
      { o with mode := .ramp, fade := some 0, fadeFrom := 0, fillK := k, rampAt := none }
    else { o with fillK := k }
  | _ => o

/-- R188: where the cursor backs up to from the start of a frame. -/
def OutSt.backUp (o : OutSt) (backup f : Nat) : Nat :=
  match o.seamBefore f with | some v => if o.retention backup ≤ v then v else f | none => f

/-- R181: the number of the next outbound tick, on the new grid when OUT_ALIGN changes at it (R183). -/
def SessSt.nextTick (x : SessSt) : Nat :=
  match x.out.tick with
  | none => x.n0
  | some t =>
    match x.out.newAlign with
    | none => t + 1
    | some a => t + 1 + ((x.out.align - a + 159) / 160).toNat

/-- R181, R183, R188: an outbound tick begins: the plan of its late check, or the stop of a new OUT_ALIGN, takes
effect. After GONE no slot follows the one that holds the end of the ramp. -/
def State.beginTick (s : State) (n : Nat) (x : SessSt) : State :=
  let o := x.out
  let pend := match o.tick with
    | some u => if o.quarters < 4 then some (u, o.qflags, o.quarters, o.samples) else o.pendSlot
    | none => o.pendSlot
  if o.stop = some .gone && o.mode ≠ .ramp then
    s.setOut n (fun o => { o with pendSlot := pend, samples := [], quarters := 4, mode := .stopped, ended := true })
  else
    let t := x.nextTick
    let s := s.setOut n (fun o =>
      { o with tick := some t, samples := [], quarters := 0, qflags := 0, pendSlot := pend, plan := none, rampAt := none
               late := none, frame := none, align := o.newAlign.getD o.align, newAlign := none, stage := [] })
    let load := fun (s : State) (g : OutSt → List Int → OutSt) =>
      match s.present n x o.cursor with
      | (some l, s) => s.setOut n (fun o' => g o' l)
      | (none, s) => s.setOut n (fun o' => { o' with mode := if o.mode = .ramp then .ramp else .fill })
    if o.newAlign.isSome then
      load (s.setOut n (fun o' => { o'.startRamp x.codec .comfort with
        cursor := o.backUp (s.backupMax x.part) (o.frame.getD o.cursor) })) (fun o' l => { o' with stage := l })
    else if o.mode = .ramp then
      load s (fun o' l => { o' with stage := l })
    else match o.plan with
      | some .play => load s (fun o' l => { o' with stage := l, frame := some o.cursor, cursor := o.cursor + 1, mode := .play })
      | some .crossfade =>
        load s (fun o' l => { o' with stage := l, frame := some o.cursor, cursor := o.cursor + 1, mode := .crossfade
                                      fade := some 0 })
      | _ =>
        let s := s.setOut n (fun o' => { o' with
          mode := if o.mode = .play || o.mode = .crossfade then .fill else o.mode })
        match o.late with
        | some c => (s.setOut n (fun o' => { o' with cursor := c })).trvCount n 3 1
        | none => s

/-- The ramp or crossfade in progress moves one sample on, and ends after its length. -/
def OutSt.advance (o : OutSt) (codec : Nat) (stopping : Bool) : OutSt :=
  match o.mode with
  | .ramp =>
    let j := o.fade.getD 0 + 1
    if rampLen codec stopping ≤ j then
      { o with fade := none, fadeFrom := 160, mode := if o.held || o.stop = some .gone then .silent else .fill }
    else { o with fade := some j }
  | .crossfade =>
    let j := o.fade.getD 0 + 1
    if xfadeLen codec ≤ j then { o with fade := none, mode := .play } else { o with fade := some j }
  | _ => o

/-- R186: the energy of samples in 0.25 dB steps relative to full scale: the largest e with
mean square ÷ 32,768² at least 10^(e/40); the rounding between steps is free (log 31). -/
def State.energy (s : State) (l : List Int) : Int × State :=
  let sum := (l.map (fun v => (v * v).toNat)).sum
  let (f, s) := s.draw
  if sum = 0 then (-(512 + (f : Int)), s)
  else
    let full := l.length * 2 ^ 30
    let k := ((List.range 480).find? (fun k => decide (full ^ 40 ≤ sum ^ 40 * 10 ^ k))).getD 480
    (-(k : Int) + (if bitAt f 0 && decide (full ^ 40 ≠ sum ^ 40 * 10 ^ k) then 1 else 0), s)

/-- One rendered sample joins the slot; at the end of a 2.5 ms subframe its energy is kept (R187). -/
def State.renderOne (s : State) (n : Nat) : State :=
  s.withSess n (fun x =>
    let o := x.out
    let len := frameLen x.codec
    let i := o.samples.length
    if len ≤ i || o.tick.isNone then s
    else
      let stopping := s.start.stop.isSome
      let s := if o.rampAt = some i && o.mode = .play then s.setOut n (fun o => o.startRamp x.codec .comfort) else s
      s.withSess n (fun x =>
        let m := x.out.mode
        let (v, s) := s.sample n x stopping
        let q := len / 4
        let j := i / q
        let s := s.setOut n (fun o =>
          { (o.advance x.codec stopping) with
            samples := o.samples ++ [v]
            qflags := setFld o.qflags (2 * j + 1) (2 * j)
              (qMerge (decide (i % q = 0)) (fld o.qflags (2 * j + 1) (2 * j)) m.qcode) })
        if (i + 1) % q = 0 then
          let (e, s) := s.energy ((x.out.samples ++ [v]).drop (i + 1 - q))
          let pos := x.outTick (x.out.tick.getD 0) + (j * 2000000 : Nat)
          s.setSess n (fun x => { x with
            eout := (pos, e, m = .play || m = .crossfade) :: x.eout.take 79 })
        else s))

/-! ## Gates (R184, R185) -/

/-- R185: the unfinished or unwritten steps of a session take a gate's status; running ones are stopped. -/
def State.gateSteps (s : State) (n : Nat) (st : Status) : State :=
  s.each ((s.stepsOf n).filter (fun e => ! e.1.wrote)) (fun s e =>
    s.setItem e.1.id (fun i =>
      if i.fin.isSome then { i with fin := some (Status.first st (i.fin.getD st)) }
      else if i.runQ = 0 then { i with fin := some st, waitQ := 0, contWait := false }
      else { i with stop := some (match i.stop with | some (t, a) => (Status.first t st, a) | none => (st, s.now)) }))

/-- R184: GONE takes effect: the stream ramps to silence and ends. -/
def State.setGoneGate (s : State) (n : Nat) (sub : Nat) : State :=
  let s := s.setSess n (fun x =>
    let o := x.out.startRamp x.codec .silence
    { x with gone := true, barge := false, bargeSeen := false, goneReq := false
             out := { o with stop := some .gone, plan := none, late := none, newAlign := none
                             mode := if o.mode = .fill then .silent else o.mode } })
  s.gateSteps n (stGone sub)

/-- R184, R188: HOLD takes effect: the stream ramps to silence and the cursor backs up from the start of the frame that
was playing. -/
def State.setHoldGate (s : State) (n : Nat) : State :=
  s.withSess n (fun x =>
    let cur := x.out.backUp (s.backupMax x.part) (x.out.frame.getD x.out.cursor)
    let o := x.out.startRamp x.codec .silence
    let s := s.setSess n (fun x => { x with
      hold := true, barge := false, bargeSeen := false, accum := 0, accumGap := false
      out := { o with held := true, plan := none, late := none, cursor := cur, frame := none
                      mode := if o.mode = .fill then .silent else o.mode } })
    s.gateSteps n stHeld)

/-- R184, R176, R189: HOLD is cleared: the stream resumes from silence, and A restarts at P2_MIN. -/
def State.clearHoldGate (s : State) (n : Nat) : State :=
  s.withSess n (fun x =>
    let t := s.passTable x
    s.setSess n (fun x => { x with
      hold := false, adv := t.p2Min, accum := 0, accumGap := false, subNext := max x.subNext (4 * x.inNext)
      out := { x.out with held := false, fillK := .silence, mode := if x.out.mode = .ramp then .ramp else .fill } }))

/-- R187: the sweep acts on a BARGE that was set: a ramp to comfort fill, the frames discarded, the cursor moved. -/
def State.bargeSweep (s : State) (n : Nat) : State :=
  s.withSess n (fun x =>
    let o := x.out
    let s := s.trvCount n 2 (o.write - o.cursor)
    s.setSess n (fun x => { x with
      bargeSeen := true
      out := { (if o.mode = .play || o.mode = .crossfade then o.startRamp x.codec .comfort else o) with
               cursor := o.write, late := none, plan := none, seams := o.seams.filter (fun v => decide (v = o.write)) } }))

/-- R184: the session is closed: what is buffered counts as consumed, and OP 5 completes. -/
def State.closeSess (s : State) (n : Nat) : State :=
  s.withSess n (fun x =>
    let s := match x.closing with | some (some id) => s.finish id stOk | _ => s
    if x.out.ended && x.out.pendSlot.isNone then s.dropSess n
    else s.setSess n (fun x => { x with
      shut := true, closing := none, consumed := x.consumed + x.inHeld.length, inHeld := [] }))

/-- R184: OP 5 closes the session once GONE is in force and every step of it has completed. -/
def State.closeIfDone (s : State) (n : Nat) : State :=
  s.withSess n (fun x =>
    if x.closing.isSome && x.gone && (s.stepsOf n).isEmpty && ! x.shut then s.closeSess n else s)

/-- Every session of a partition closed at once, with its records (R114, R194). -/
def State.endSessions (s : State) (p : Part) : State :=
  { s with trv := { s.trv with sess := s.trv.sess.filter (fun e => e.2.part ≠ p)
                               appends := s.trv.appends.filter (fun a => a.part ≠ p) } }

/-! ## Session descriptors -/

/-- A session type takes effect in fetch order (R151). -/
def State.sessTurn (s : State) (i : Item) : Bool :=
  ! s.items.any (fun j => j.part == i.part && decide (j.id < i.id) && ! j.begun && j.fin.isNone
    && (match j.body with | .sessionOpen .. | .sessionCtrl .. | .audioIn .. | .audioOut .. => true | _ => false))

/-- The session a descriptor names. -/
def Item.sessNo (i : Item) : Nat := match i.kind with | .desc _ _ _ _ _ n _ => n | .step r => r.sess.val | _ => 0

/-- R151: the refusal of a session type that names a session of another partition, or one in the wrong state. -/
def State.sessRefuse (s : State) (i : Item) (opening : Bool) : Option Status :=
  if s.sessPart i.sessNo ≠ some i.part then some (stRefused 5)
  else if (s.sess i.sessNo).isSome = opening then some (stRefused 7)
  else none

end Sys2Proof.Machine
end

