-- ==== Sys2Proof/Machine/MsgOps.lean ====
section
/-! DEFINITION. Messages between partitions and devices (16): headers, routing, the transmit side of a link, requests
and replies, inbox cells, and what a kernel fault or a signal does to a quad. -/

namespace Sys2Proof.Machine

/-! ## Kernel faults and semaphores (R212, R213) -/

/-- CST_FAULT as a register value. -/
def QuadSt.faultReg (c : QuadSt) : Nat := pack [(31, 28, c.fCause), (27, 26, c.fTile), (15, 0, c.fOp)]

/-- R214: an item's entry is asked to stop with a status; requests combine under R14. -/
def State.askStop (s : State) (id : Nat) (st : Status) : State :=
  s.setItem id (fun i => if i.fin.isSome then i else
    { i with stop := some (match i.stop with | some (t, a) => (Status.first t st, a) | none => (st, s.now)) })

/-- R213: a kernel fault of the entry that runs on a quad: recorded, logged, its outputs poisoned, and the entry stopped
with POISONED, SUB 4. -/
def State.kernelFault (s : State) (q : Quad) (tile op cause : Nat) : State :=
  match (s.cq q).run with
  | none => s
  | some r =>
    let s := s.setCq q (fun c => { c with fCause := cause, fTile := tile, fOp := op, faults := satAdd c.faults 1 255 })
    let s := s.setItem r.item (fun i => { i with poison := some (i.poison.getD 4) })
    let s := s.askStop r.item (stPoisoned 4)
    s.log 1 0x06 2 (detailOf q.val (s.cq q).faultReg) (some r.part) (stPoisoned 4).num

/-- R212, R353: an addition to a semaphore of a quad from outside its lists: discarded when the quad runs no entry, and a
kernel fault when it would pass 65,535. -/
def State.signalSem (s : State) (q : Quad) (k : Fin 16) (n : Nat) : State :=
  if (s.cq q).run.isNone then s
  else if 65535 < tget (s.cq q).sems k + n then s.kernelFault q 0 0 4
  else s.setCq q (fun c => { c with sems := updWith c.sems k (· + n) })

/-- SPU_FAULT and SPU_PCNT.FAULTS record a faulty job or send. -/
def State.spurFault (s : State) (p : Part) (cause : Nat) (owner : Option (Nat × Quad)) (slot : Nat) : State :=
  s.setSpurPart p (fun r =>
    { r with fCause := cause, fHost := owner.isNone, fQuad := match owner with | some (_, q) => q.val | none => 0
             fSlot := slot, faults := satAdd r.faults 1 255 })

/-- SPU_FAULT as a register value. -/
def SpurPart.faultReg (r : SpurPart) : Nat :=
  pack [(31, 28, r.fCause), (12, 12, bnat r.fHost), (11, 8, r.fQuad), (4, 0, r.fSlot)]

/-! ## Message headers (R352) -/

/-- MFLAGS. -/
def MsgHdr.flags (h : MsgHdr) : Nat := bnat h.session + 2 * bnat h.tick + 4 * bnat h.degraded + 8 * bnat h.replyTrv

/-- R352: the 32 bytes of a header. -/
def MsgHdr.bytes (h : MsgHdr) : List Byte :=
  leBytes 1 h.mtype ++ leBytes 1 h.flags ++ leBytes 1 h.dstDev ++ leBytes 1 h.srcDev
    ++ leBytes 1 (h.srcPart.val + 16 * h.dstPart.val) ++ leBytes 1 h.hops ++ leBytes 2 h.entry ++ leBytes 2 h.sess
    ++ leBytes 2 h.status ++ leBytes 4 h.seq ++ leBytes 4 h.prev ++ leBytes 4 h.mid ++ leBytes 4 h.len ++ leBytes 4 h.aux

/-- R352: the header that 32 bytes spell. -/
def MsgHdr.ofBytes (bs : List Byte) : MsgHdr :=
  let f := leAt bs 1 1
  { mtype := leAt bs 0 1, session := bitAt f 0, tick := bitAt f 1, degraded := bitAt f 2, replyTrv := bitAt f 3
    dstDev := leAt bs 2 1, srcDev := leAt bs 3 1, srcPart := ⟨leAt bs 4 1 % 16, Nat.mod_lt _ (by decide)⟩
    dstPart := ⟨leAt bs 4 1 / 16 % 16, Nat.mod_lt _ (by decide)⟩, hops := leAt bs 5 1, entry := leAt bs 6 2
    sess := leAt bs 8 2, status := leAt bs 0xA 2, seq := leAt bs 0xC 4, prev := leAt bs 0x10 4, mid := leAt bs 0x14 4
    len := leAt bs 0x18 4, aux := leAt bs 0x1C 4 }

/-- R352: the virtual channel of a request by its LEN; its reply uses the same. -/
def reqVc (len : Nat) : Fin 4 := if len ≤ 65536 then 0 else 1

/-! ## Topology and routing (R359 to R361) -/

/-- The DEVICE frame in force. -/
def State.dev (s : State) : DeviceCfg := s.str.dev

/-- The first hop toward a device: the ports of the group, the dimension (0 ring or x, 1 y), and whether the hop
crosses the wrap link. -/
structure Hop where
  ports : List Nat
  dim : Nat
  wrap : Bool
  deriving DecidableEq, Repr

/-- One dimension of n places from a to b: whether the + direction is taken, and whether the hop crosses the wrap. -/
def dimStep (n a b : Nat) : Bool × Bool :=
  let fwd := (b + n - a) % n
  let plus := decide (2 * fwd ≤ n)
  (plus, if plus then decide (a + 1 = n) else decide (a = 0))

/-- R359, R360: the next hop from this device toward another. -/
def DeviceCfg.hop (d : DeviceCfg) (dst : Nat) : Option Hop :=
  let i := d.devIndex
  if dst = i ∨ d.devCount ≤ dst then none
  else if d.topo = 1 then
    let (plus, w) := dimStep d.devCount i dst
    some { ports := if plus then [0, 1, 2, 3] else [4, 5, 6, 7], dim := 0, wrap := w }
  else if d.topo = 2 ∧ 0 < d.torusW then
    let W := d.torusW
    if i % W ≠ dst % W then
      let (plus, w) := dimStep W (i % W) (dst % W)
      some { ports := if plus then [0, 4] else [1, 5], dim := 0, wrap := w }
    else
      let (plus, w) := dimStep (d.devCount / W) (i / W) (dst / W)
      some { ports := if plus then [2, 6] else [3, 7], dim := 1, wrap := w }
  else none

/-- A port of the model's port type. -/
def portOf (n : Nat) : Port := ⟨n % 8, Nat.mod_lt _ (by decide)⟩

/-- The enabled ports of a bundle. -/
def State.bundle (s : State) (h : Hop) : List Port := (h.ports.filter (fun p => bitAt s.dev.portEn p)).map portOf

/-- R361: the ports of a bundle in service: UP, or retraining (whose messages wait, R357); while none is, those whose
hold time has not expired. -/
def State.upPorts (s : State) (h : Hop) : List Port :=
  let b := s.bundle h
  let up := b.filter (fun p => (s.link p).st == .up || (s.link p).st == .retrain)
  if up.isEmpty then b.filter (fun p => ! (s.link p).held && (s.link p).st != .failed) else up

/-- Flits of a key wait or are unacknowledged on a port. -/
def LinkSt.holdsKey (l : LinkSt) (m : MsgHdr) : Bool :=
  (l.txq ++ l.replay).any (fun f => f.vc.val < 2 && f.srcd == m.srcDev && f.spart == m.srcPart.val)

/-- R361: the port of a bundle that a key and destination use; a key stays on its port while its last message there has
been neither acknowledged nor failed. -/
def State.pickPort (s : State) (h : Hop) (m : MsgHdr) : Option Port :=
  let up := s.upPorts h
  match up.find? (fun p => (s.link p).holdsKey m) with
  | some p => some p
  | none => up[(m.srcDev + m.srcPart.val + m.dstDev + m.dstPart.val) % (max up.length 1)]?

/-- R361: the structure holds a ROUTE from a quad of the partition, or from its Traverse endpoint, to a port of the
bundle. -/
def State.routeOut (s : State) (p : Part) (h : Hop) : Bool :=
  let quads := match s.cfg p with | some c => c.quads | none => 0
  s.str.routes.any (fun r =>
    (if r.src < 16 then bitAt quads r.src else decide (r.src = 0x80) && decide (r.part = p.val))
      && (s.bundle h).any (fun q => decide (r.dst = 0x40 + q.val)))

/-- R327: a grid position of the port's transmit direction is in FAULT or RETRAIN, or a fault is being moved away from
(the worked example of a double-step retrain counts a position from the moment its retrain is due). -/
def State.txDegraded (s : State) (p : Port) : Bool :=
  (tget (s.port p).grid 0).toList.any (fun g => g == .fault || g == .retrain)
    || (s.port p).txMoves.any (fun m => m.cause ≠ 0)

/-! ## The transmit side of a link (R337 to R343, R351) -/

/-- R351, R352: the flits of a message, before they have sequence numbers. -/
def flitsOf (vc : Fin 4) (dl : Bool) (srcd spart : Nat) (pz : Option Nat) (req : Option Nat) (first : Bool) :
    Nat → List Byte → List Flit
  | 0, _ => []
  | fuel + 1, bs =>
    let rest := bs.drop 240
    { seq := 0, vc := vc, first := first, last := rest.isEmpty, dl := dl, poison := pz.isSome, porg := pz.getD 0
      srcd := srcd, spart := spart, payload := bs.take 240, req := if rest.isEmpty then req else none }
      :: (if rest.isEmpty then [] else flitsOf vc dl srcd spart pz req false fuel rest)

/-- Index of a class in the credit tables: 2 VC + DL. -/
def credIdx (vc : Fin 4) (dl : Bool) : Fin 8 := ⟨2 * vc.val + bnat dl, by unfold bnat; split <;> omega⟩

/-- R341: the half-buffer size of a virtual channel. -/
def halfSize (vc : Nat) : Nat := if vc = 0 then 1024 else if vc = 1 then 512 else 32

/-- R345: the classes a link may carry in its state: all when UP, control while it synchronises. -/
def LinkSt.carries (l : LinkSt) (vc : Fin 4) : Bool :=
  match l.st with
  | .up => true
  | .sync | .miswired => vc == 2
  | _ => false

/-- R123, R342, R351: the next flit to send: control and calibration first, then in order, each class as it holds
credits, and no flit ahead of an earlier one of its VC and key. -/
def pickFlit (l : LinkSt) (pri : Bool) : List Flit → List Flit → Option (Flit × List Flit)
  | _, [] => none
  | skipped, f :: r =>
    let blocked := skipped.any (fun g => g.vc == f.vc && g.srcd == f.srcd && g.spart == f.spart)
    if (pri = (decide (f.vc = 2) || decide (f.vc = 3))) && ! blocked && l.carries f.vc
        && decide (0 < tget l.cred (credIdx f.vc f.dl)) then
      some (f, skipped.reverse ++ r)
    else pickFlit l pri (f :: skipped) r

/-- One flit leaves when a class may send and the replay buffer has room (R339). -/
def LinkSt.sendOne (l : LinkSt) (now : Nat) : Option (Flit × LinkSt) :=
  if 512 ≤ l.replay.length then none
  else
    let pick := match pickFlit l true [] l.txq with | some x => some x | none => pickFlit l false [] l.txq
    match pick with
    | some (f, q) =>
      let f := { f with seq := l.txSeq }
      some (f, { l with txq := q, replay := l.replay ++ [f], txSeq := (l.txSeq + 1) % 65536
                        cred := updWith l.cred (credIdx f.vc f.dl) (· - 1)
                        sentAt := if l.replay.isEmpty then now else l.sentAt
                        resent := if l.replay.isEmpty then 1 else l.resent })
    | none => none

/-- Flits leave a port while they can; a request whose last flit has left starts its reply limit (R355). -/
def State.pump (s : State) (p : Port) : Nat → State
  | 0 => s
  | fuel + 1 =>
    match (s.link p).sendOne s.now with
    | some (f, l) =>
      let s := s.setLink p (fun _ => l)
      let s := match f.req with
        | some m => { s with sends := s.sends.map (fun r => if r.mid = m then { r with sentAt := some s.now } else r) }
        | none => s
      State.pump s p fuel
    | none => s

/-- Flits join a port's queue and leave as they can. -/
def State.enqueue (s : State) (p : Port) (fs : List Flit) : State :=
  let s := s.setLink p (fun l => { l with txq := l.txq ++ fs })
  s.pump p (s.link p).txq.length

/-- A message leaves on a port. -/
def State.sendOn (s : State) (p : Port) (vc : Fin 4) (dl : Bool) (m : Msg) (req : Option Nat) : State :=
  let h := { m.hdr with degraded := m.hdr.degraded || s.txDegraded p }
  s.enqueue p (flitsOf vc dl h.srcDev (if vc = 2 ∨ vc = 3 then 0 else h.srcPart.val) m.poison req true
    (m.payload.length / 240 + 2) (h.bytes ++ m.payload))

/-- R348: a control message of the link, and the record of what this end has sent. -/
def State.sendCtl (s : State) (p : Port) (ctype : Nat) (body : List (Nat × Nat × Nat)) (vc : Fin 4 := 2) : State :=
  let l := s.link p
  let bs := body.foldl (fun b f => b.take f.1 ++ leBytes f.2.1 f.2.2 ++ b.drop (f.1 + f.2.1))
    (leBytes 1 ctype ++ List.replicate 15 0)
  let h : MsgHdr :=
    { mtype := if vc = 3 then 0x11 else 0x10, session := false, tick := false, degraded := false, replyTrv := false, dstDev := l.peerDev
      srcDev := s.dev.devIndex, srcPart := 0, dstPart := 0, hops := 0, entry := 0, sess := 0, status := 0, seq := 0
      prev := 0, mid := 0, len := 16, aux := 0 }
  let s := s.setLink p (fun l => { l with sent := (ctype, bs.map (·.toNat)) :: l.sent.take 31 })
  s.enqueue p (flitsOf vc false h.srcDev 0 none none true 2 (h.bytes ++ bs))

/-! ## Sends awaiting replies (R155, R353, R355) -/

/-- Sends of a partition that await a reply. -/
def State.awaiting (s : State) (p : Part) : Nat := (s.sends.filter (fun r => r.part == p)).length

/-- The statuses of R437 as a send reports them: DEGRADED with an OK status reads OK_DEGRADED, SUB 2 (R355). -/
def replyStatus (st : Status) (degraded : Bool) : Status :=
  if degraded && decide (st.code = .ok) then { code := .degraded, sub := 2 } else st

/-- A request of this device completes with a status: its reply record, signals, and the mark on the entry that sent it
(R155, R160, R353). -/
def State.sendDone (s : State) (r : SendRec) (st : Status) (len hint srcPart : Nat) : State :=
  let s := { s with sends := s.sends.filter (fun x => x.mid ≠ r.mid) }
  let rec_ := replyRecBytes st.num (r.tag.getD 0) len (if st.code = .refused then hint else 0) srcPart
  let s := match r.hostRec with
    | some a => s.hostWrite r.part a rec_
    | none => match r.winRec with
      | some o => s.winWrite r.part o rec_
      | none => s
  let s := if r.evt && r.hostRec.isSome then (s.setVf r.part (fun v => { v with evtReply := true })).event r.part else s
  let s := match r.signal with | some (q, k) => s.signalSem q k 1 | none => s
  if r.detach then s
  else match r.item with
    | some id => s.setItem id (fun i => { i with sends := i.sends - 1, marks := i.marks ++ [st] })
    | none => s

/-- CHL_PMSG.TIMEOUTS and LATE. -/
def State.countTimeout (s : State) (p : Part) : State :=
  { s with pmsg := updWith s.pmsg p (fun c => { c with timeouts := satAdd c.timeouts 1 0xFFFF }) }
def State.countLate (s : State) (p : Part) : State :=
  { s with pmsg := updWith s.pmsg p (fun c => { c with late := satAdd c.late 1 0xFFFF }) }

/-- R129, R131: an arriving request joins those waiting to be taken. -/
def State.arrive (s : State) (a : Arrived) : State :=
  s.setPart a.msg.hdr.dstPart (fun r => { r with arrivals := r.arrivals ++ [a] })

/-- An arriving reply joins those waiting to be taken. -/
def State.arriveReply (s : State) (m : Msg) : State :=
  s.setPart m.hdr.dstPart (fun r => { r with replies := r.replies ++ [m] })

/-- R352, R353, R361: a request is handed to the message layer with a new MID, and awaits its reply. -/
def State.issueSend (s : State) (h : MsgHdr) (payload : List Byte) (pz : Option Nat) (r : SendRec) : State :=
  let mid := s.nextMid
  let h := { h with mid := mid }
  let local_ := h.dstDev = s.dev.devIndex
  let r := { r with mid := mid, dstDev := h.dstDev, dstPart := h.dstPart, sentAt := if local_ then some s.now else none }
  let s := { s with nextMid := (mid + 1) % 2 ^ 32 }
  let m : Msg := { hdr := h, payload := payload, poison := pz }
  if local_ then
    ({ s with sends := s.sends ++ [r] } : State).arrive { msg := m, port := none, at_ := s.now }
  else match s.dev.hop h.dstDev with
    | none => ({ s with sends := s.sends ++ [r] } : State).sendDone r (stRefused 6) 0 0 h.dstPart.val
    | some hop =>
      match s.pickPort hop h with
      | none => ({ s with sends := s.sends ++ [r] } : State).sendDone r (stRefused 0xE) 0 0 h.dstPart.val
      | some p =>
        ({ s with sends := s.sends ++ [{ r with port := some p }] } : State).sendOn p (reqVc h.len) hop.wrap m (some mid)

/-- R155, R361: the structure has a route from a partition to a destination. On this device that is a ROUTE entry from a
quad of the partition, or from its Traverse endpoint, to a quad of the destination (R103, R126; log 56). -/
def State.canReach (s : State) (p : Part) (dev : Nat) (dst : Part) : Bool :=
  if dev = s.dev.devIndex then
    match s.cfg p, s.cfg dst with
    | some c, some d => s.str.routes.any (fun r =>
        (if r.src < 16 then bitAt c.quads r.src else decide (r.src = 0x80) && decide (r.part = p.val))
          && (decide (r.dst < 16) && bitAt d.quads r.dst))
    | _, _ => false
  else match s.dev.hop dev with
    | some h => s.routeOut p h
    | none => false

/-- R352: the reply to a request: to this device's requester, or over the links; one that cannot leave is discarded and
counted (R357). -/
def State.sendReply (s : State) (a : Arrived) (st : Status) (hint : Nat) (payload : List Byte) (pz : Option Nat) :
    State :=
  let q := a.msg.hdr
  let h : MsgHdr :=
    { q with mtype := 2, dstDev := q.srcDev, srcDev := s.dev.devIndex, srcPart := q.dstPart, dstPart := q.srcPart
             hops := 0, entry := 0, status := st.num, len := payload.length, aux := if st.code = .refused then hint else 0 }
  let m : Msg := { hdr := h, payload := payload, poison := pz }
  if q.srcDev = s.dev.devIndex then s.arriveReply m
  else match s.dev.hop q.srcDev with
    | none => s
    | some hop =>
      match s.pickPort hop h with
      | none => s.discarded q.dstPart 1
      | some p => s.sendOn p (reqVc q.len) hop.wrap m none

/-! ## Inbox cells and hand-offs (R354) -/

/-- Bytes of a partition's images, from the active directory. -/
def State.imageBytes (s : State) (p : Part) : Nat :=
  (s.quadsOf p).foldl (fun n q =>
    let tops := ((tget s.str.kernels q).toList ++ (List.range 4).flatMap (fun t =>
      match s.str.tileInit[q.val * 4 + t]? with | some (some l) => [l] | _ => [])).map (fun l => l.off + l.len)
    tops.foldl max n) (match s.cfg p with | some c => tenantTop c | none => 0)
    - (match s.cfg p with | some c => tenantTop c | none => 0)

/-- R354: I, the MiB of a partition's inbox. -/
def State.inboxMib (s : State) (p : Part) : Nat :=
  match s.cfg p with | some c => c.imageMib - cdiv (s.imageBytes p) (2 ^ 20) | none => 0

/-- R354: the window offset of an inbox cell. -/
def State.cellAt (s : State) (p : Part) (k : Nat) : Nat :=
  match s.cfg p with
  | some c => (c.winSize - s.inboxMib p) * 2 ^ 20 + k * (s.inboxMib p * 8192)
  | none => 0

/-- The lowest free cell. -/
def freeCell (used : List Nat) : Option Nat := (List.range 128).find? (fun k => ! used.contains k)

/-- A record of a session request is that of a sequence of the header's session. -/
def ServedReq.isOf (r : ServedReq) (h : MsgHdr) (seq : Nat) : Bool := r.dev == h.srcDev && r.sess == h.sess && r.seq == seq

/-- R178: what a request that names PREV as its state does, by the records of its partition: `some true`, it runs;
`some false`, the state was never produced; `none`, the request named is in flight. A record that never ran is passed
over to its own PREV. A PREV that the partition never took on is a state never produced (log 59). -/
def servedState (l : List ServedReq) (h : MsgHdr) : Nat → Nat → Option Bool
  | 0, _ => some false
  | fuel + 1, prev =>
    if prev = h.seq then some true
    else match l.find? (fun r => r.isOf h prev) with
      | none => some false
      | some r =>
        match r.status with
        | none => none
        | some t =>
          if t.notRun then (if r.prev = r.seq then some true else servedState l h fuel r.prev)
          else some (! t.failed)

/-- R178: the hand-offs of a partition that wait for a state decide, where the request named has its answer. -/
def State.servedDecide (s : State) (p : Part) : State :=
  s.each (s.items.filter (fun i => i.part == p && i.contWait && i.fin.isNone)) (fun s i =>
    match i.kind with
    | .handoff a _ =>
      let l := (s.part p).served
      let waiting := (s.part p).slotWait.any (fun w => w.1.msg.hdr.session && w.1.msg.hdr.srcDev == a.msg.hdr.srcDev
        && w.1.msg.hdr.sess == a.msg.hdr.sess && w.1.msg.hdr.seq == a.msg.hdr.prev)
      (match servedState l a.msg.hdr (l.length + 1) a.msg.hdr.prev with
      | some true => s.setItem i.id (fun j => { j with contWait := false })
      | some false => if waiting then s else s.breakServed i
      | none => s)
    | _ => s)

/-- R178: a session request is on record from the moment it is served; the first request of a session starts the record
of that session anew. -/
def State.noteServed (s : State) (p : Part) (h : MsgHdr) : State :=
  let mine := fun (r : ServedReq) => r.dev == h.srcDev && r.sess == h.sess
  s.setPart p (fun r => { r with
    served := { dev := h.srcDev, sess := h.sess, seq := h.seq, prev := h.prev, status := none }
      :: r.served.filter (fun x => ! (mine x && (x.seq == h.seq || (h.prev == h.seq && x.status.isSome)))) })

/-- R178: the answer of a session request goes on record. -/
def State.noteAnswer (s : State) (p : Part) (h : MsgHdr) (st : Status) : State :=
  s.setPart p (fun r => { r with
    served := r.served.map (fun x => if x.isOf h h.seq then { x with status := some st } else x) })

/-- R161, R178: a hand-off that has a slot becomes an item of the partition; that of a session waits for the state that it
continues. -/
def State.serve (s : State) (p : Part) (a : Arrived) (cell : Nat) : State :=
  let id := s.nextItem
  let s := s.addItem p (.handoff a (some cell)) true
  let s := s.setItem id (fun i => { i with at_ := a.at_, contWait := a.msg.hdr.session })
  let s := if a.msg.hdr.session then (s.noteServed p a.msg.hdr).servedDecide p else s
  s.placeEntry id p a.msg.hdr.entry (s.ownQuads p) (s.entryMask p a.msg.hdr.entry (s.ownQuads p))

/-- R120: slots that free go to the step or hand-off that has waited longest. -/
def State.grantSlots (s : State) (p : Part) : State :=
  let s := s.stepSlots p
  s.each (s.part p).slotWait (fun s w =>
    if s.slotsUsed p < 64 then
      (s.setPart p (fun r => { r with slotWait := r.slotWait.filter (fun v => v.2 ≠ w.2) })).serve p w.1 w.2
    else s)

/-- A cell is given back. -/
def State.freeCellOf (s : State) (p : Part) (k : Nat) : State :=
  s.setPart p (fun r => { r with cells := r.cells.filter (· ≠ k) })

/-- R160, R353, R354: a served hand-off is answered, its slot and its cell released. -/
def State.answerHandoff (s : State) (i : Item) (st : Status) (hint : Nat) : State :=
  match i.kind with
  | .handoff a cell =>
    let pay := if st.failed then [] else spRead i.outBuf 0 (min i.outLen a.msg.hdr.aux)
    let s := { s with items := s.items.filter (fun j => j.id ≠ i.id) }
    let s := match cell with | some k => s.freeCellOf i.part k | none => s
    let s := (s.sendReply a st hint pay (if st.failed then none else i.poison)).grantSlots i.part
    if a.msg.hdr.session then (s.noteAnswer i.part a.msg.hdr st).servedDecide i.part else s
  | _ => s

/-- R131: a request that arrives while its partition is restructured: held when the list has room, else answered. -/
def State.holdRequest (s : State) (p : Part) (a : Arrived) : State :=
  if (s.part p).held.length < 64 && decide (0 < (s.part p).holdNow) then
    s.setPart p (fun r => { r with held := r.held ++ [a] })
  else
    let (f, s) := s.draw
    (s.setPart p (fun r => { r with refused := satAdd r.refused 1 1023 })).sendReply a (stRefused 2) (f % 65536) [] none

/-- R354: what a request meets at its partition. -/
def State.takeRequest (s : State) (p : Part) (a : Arrived) : State :=
  let refuse := fun (s : State) (sub : Nat) =>
    (s.setPart p (fun r => { r with refused := satAdd r.refused (bnat (decide (sub ≤ 2))) 1023 })).sendReply a (stRefused sub) 0
      [] none
  if s.start.stop.isSome then s.sendReply a (stStopping 0) 0 [] none
  else match (s.part p).state with
  | .undefined => refuse s 6
  | .draining | .rebuilding => s.holdRequest p a
  | .running =>
    let I := s.inboxMib p
    if I * 8192 < 32 + a.msg.hdr.len then refuse s 0xF
    else match freeCell (s.part p).cells with
      | none => refuse s 1
      | some k =>
        let s := s.setPart p (fun r => { r with cells := r.cells ++ [k] })
        let o := s.cellAt p k
        let s := s.winWrite p o a.msg.hdr.bytes
        let s := s.winWrite p (o + 32) a.msg.payload (a.msg.poison.getD 0)
        if s.slotsUsed p < 64 then s.serve p a k
        else s.setPart p (fun r => { r with slotWait := r.slotWait ++ [(a, k)] })

/-! ## Outbound appends (R356, R425) -/

/-- R356: the header of an append: session, partition, FRAMES, RSV, SEQ and SEAMS, from 16 bytes. -/
def appendOf (bs : List Byte) : Append × Bool :=
  let n := leAt bs 2 1
  ({ sess := leAt bs 0 2 % 4096, part := ⟨leAt bs 0 2 / 4096 % 16, Nat.mod_lt _ (by decide)⟩, seq := leAt bs 4 4
     frames := n, seams := leAt bs 8 8, data := bs.drop 16, poison := false }, decide (1 ≤ n) && decide (n ≤ 64) && zeroB bs 3 1)

/-- Bytes of an append's frames: the session's rate, none when it is not open. -/
def State.appendBytes (s : State) (a : Append) : Nat :=
  match s.sess a.sess with | some x => a.frames * 2 * frameLen x.codec | none => a.frames * 320

end Sys2Proof.Machine
end

