-- ==== Sys2Proof/Machine/OptOps.lean ====
section
/-! DEFINITION. The physical layer of a Chrodom port: frame numbers, rings and heaters, the monitor converter, the ring
loops (R309 to R322, R383), and the state of grid positions (R324). -/

namespace Sys2Proof.Machine

/-! ## Rounding -/

/-- Rounding to nearest with halves away from zero (R310, R383). -/
def roundAway (num : Int) (den : Nat) : Int :=
  if 0 ≤ num then (2 * num + den) / (2 * (den : Int)) else -((-(2 * num) + den) / (2 * (den : Int)))

/-- Where the manual gives an exact quotient and no rounding: one of its two neighbours, free (log 40). -/
def roundOpen (op : Nat) (num : Int) (den : Nat) : Int :=
  if num % (den : Int) = 0 then num / (den : Int)
  else num / (den : Int) + (if bitAt (Config.corner op [num.natAbs, bnat (decide (num < 0)), den]) 0 then 1 else 0)

/-- A value held within bounds. -/
def clampI (lo hi v : Int) : Int := if v < lo then lo else if hi < v then hi else v

/-! ## Frame numbers (R322): 4,096 UI at 56 GBd, 35 frames in 64 crystal cycles -/

/-- The transmit frame counter. -/
def PortSt.txFrame (r : PortSt) (now : Nat) : Nat := (now - r.txBase) * 35 / 64 % 2 ^ 32
/-- The receiver's copy of the peer's frame counter. -/
def PortSt.rxFrame (r : PortSt) (now : Nat) : Nat := (r.rxBase + now * 35 / 64) % 2 ^ 32
/-- The frame counter of a direction. -/
def PortSt.dirFrame (r : PortSt) (rx : Bool) (now : Nat) : Nat := if rx then r.rxFrame now else r.txFrame now
/-- Frame numbers are compared modulo 2^32: frame n has been reached. -/
def reached (f n : Nat) : Bool := decide ((f + 2 ^ 32 - n % 2 ^ 32) % 2 ^ 32 < 2 ^ 31)
/-- Crystal cycles from frame f until frame n. -/
def cyclesTo (f n : Nat) : Nat := if reached f n then 0 else cdiv (((n + 2 ^ 32 - f) % 2 ^ 32) * 64) 35

/-! ## Rings (R309) -/

/-- Transmit ring of a position. -/
def txRing (g : Pos) : Fin 36 := ⟨g.val, by omega⟩
/-- Receive ring of a position. -/
def rxRing (g : Pos) : Fin 36 := ⟨g.val + 18, by omega⟩
/-- The ring of a position in a direction. -/
def ringOf (rx : Bool) (g : Pos) : Fin 36 := if rx then rxRing g else txRing g
/-- Every grid position, ascending. -/
def allPos : List Pos := List.finRange 18

def PortSt.ring (r : PortSt) (k : Fin 36) : RingSt := tget r.rings k
def PortSt.setRing (r : PortSt) (k : Fin 36) (f : RingSt → RingSt) : PortSt := { r with rings := updWith r.rings k f }
def State.ring (s : State) (p : Port) (k : Fin 36) : RingSt := (s.port p).ring k
def State.setRing (s : State) (p : Port) (k : Fin 36) (f : RingSt → RingSt) : State := s.setPort p (fun r => r.setRing k f)

/-- R309: a ring's mode changes; from OFF, and on entering OFF, u takes BIAS. UNLOCK clears at a mode change. -/
def RingSt.enter (r : RingSt) (m : RingMode) : RingSt :=
  if r.mode = m then r
  else { r with mode := m, u := if r.mode = .off ∨ m = .off then r.bias * 256 else r.u, unlock := false, lock := false
                good := 0, bad := 0, mEven := none }

/-- R309: a BIAS written while the ring is not in TRACK sets u. -/
def RingSt.setBias (r : RingSt) (b : Nat) : RingSt :=
  { r with bias := b, u := if r.mode = .track then r.u else b * 256 }

/-! ## Heaters (R308, R310, R311) -/

/-- u′ of R310: u plus the dither of a receive ring in TRACK; a ring in OFF contributes nothing. -/
def PortSt.uPrime (r : PortSt) (k : Fin 36) (odd : Bool) : Int :=
  let x := r.ring k
  if x.mode = .off then 0
  else if 18 ≤ k.val ∧ x.mode = .track then (x.u : Int) + (if odd then -(r.dither : Int) else r.dither) * 256
  else x.u

/-- R310: the sum of a ring's row over its bank, divided by 2^22 and rounded, before the clamp. -/
def PortSt.heaterSum (r : PortSt) (rx : Bool) (g : Pos) (odd : Bool) : Int :=
  let row := tget r.mat g
  roundAway ((List.finRange 9).foldl (fun acc (d : Fin 9) =>
    let j := g.val + d.val
    if h : 4 ≤ j ∧ j - 4 < 18 then acc + tget row d * r.uPrime (ringOf rx ⟨j - 4, h.2⟩) odd else acc) 0) (2 ^ 22)

/-- R310, R316: the heater code of one ring for the coming frame, and whether it clamps. -/
def PortSt.heat (r : PortSt) (k : Fin 36) (odd : Bool) : Nat × Bool :=
  if (r.ring k).mode = .off then (0, false)
  else
    let h := r.heaterSum (decide (18 ≤ k.val)) ⟨k.val % 18, Nat.mod_lt _ (by decide)⟩ odd
    ((clampI 0 16383 h).toNat, decide (h < 0) || decide (16383 < h))

/-- The frame boundary: the matrix shadow is loaded when asked (R311), and all 36 codes are written at once (R312). -/
def PortSt.boundary (r : PortSt) : PortSt :=
  let r := if r.xtLoad then { r with mat := r.xt, xtLoad := false } else r
  let odd := decide ((r.frame + 1) % 2 = 1)
  { r with rings := vmapIdx (fun k x => let h := r.heat k odd; { x with heater := h.1, clamp := h.2 }) r.rings }

/-! ## The monitor converter (R317 to R321) -/

/-- The gain that the scan uses for an input; the temperature points have their own range, 4 here. -/
def PortSt.scanGain (r : PortSt) (i : Nat) : Nat :=
  if i < 18 then r.gainTx else if i < 36 then r.gainRx else if i < 38 then r.gainTap else 4

/-- R318: an input, gain and filter are selected; S takes the larger of itself and the largest count of the changes. -/
def PortSt.choose (r : PortSt) (i gain : Nat) : PortSt :=
  let c := max (if i ≠ r.selIn then 2 else 0) (max (if gain ≠ r.selGain then 4 else 0) (if r.filt ≠ r.selFilt then 12 else 0))
  { r with settle := max r.settle c, selIn := i, selGain := gain, selFilt := r.filt }

/-- R384: the code written: the converter's, less the zero of its gain; a temperature point has no zero. -/
def PortSt.code (r : PortSt) (raw : Nat) : Nat :=
  if h : r.selGain < 4 then (clampI 0 65535 ((raw : Int) - tget r.zero ⟨r.selGain, h⟩)).toNat else raw

/-- R319: the sample word of the selected input at settle count `st`. Whether an input at the top code exceeded full
scale is open (log 42). -/
def PortSt.word (r : PortSt) (codes : List Nat) (st : Nat) : Nat :=
  let raw := codes.getD r.selIn 0
  let clip := decide (raw = 65535) && bitAt (Config.corner 0x1501 [r.frame, r.selIn]) 0
  pack [(31, 31, 1), (30, 25, r.selIn), (24, 24, bnat r.selFilt), (23, 22, if r.selGain = 4 then 0 else r.selGain),
        (21, 21, bnat clip), (20, 20, bnat (decide (0 < st))), (19, 16, st), (15, 0, r.code raw)]

/-- The word is the last of its input. -/
def PortSt.keep (r : PortSt) (w : Nat) : PortSt :=
  if h : r.selIn < 40 then { r with last := upd r.last ⟨r.selIn, h⟩ w } else r

/-- R320: the converter dwells on an input until one conversion is fresh, while slots remain in the frame. -/
def PortSt.dwell (r : PortSt) (codes : List Nat) (slots i gain : Nat) : PortSt × Nat × Bool :=
  if slots = 0 then (r, 0, false)
  else
    let r := r.choose i gain
    if r.settle < slots then (({ r with settle := 0 } : PortSt).keep (r.word codes 0), slots - (r.settle + 1), true)
    else (({ r with settle := r.settle - slots } : PortSt).keep (r.word codes (r.settle + 1 - slots)), 0, false)

/-- R320, steps 2 and 3: the same, only when the slots it needs remain. -/
def PortSt.dwellIf (r : PortSt) (codes : List Nat) (slots i gain : Nat) : PortSt × Nat × Bool :=
  if (r.choose i gain).settle < slots then r.dwell codes slots i gain else (r, slots, false)

/-- R320, step 1: every ring monitor in turn; the rings that got a fresh sample. -/
def PortSt.scanRings (r : PortSt) (codes : List Nat) : PortSt × Nat × List Bool :=
  (List.range 36).foldl (fun (x : PortSt × Nat × List Bool) i =>
    let y := x.1.dwell codes x.2.1 i (x.1.scanGain i)
    (y.1, y.2.1, x.2.2 ++ [y.2.2])) (r, 125, [])

/-- R320, step 2: laser tap A. -/
def PortSt.scanTap (r : PortSt) (codes : List Nat) (slots : Nat) : PortSt × Nat × Bool :=
  let y := r.dwellIf codes slots 36 r.gainTap
  if y.2.2 then ({ y.1 with tapA := (y.1.code (codes.getD 36 0), r.gainTap) }, y.2.1, true) else y

/-- R321: a host request is served: one stale conversion with IMMEDIATE, else a fresh one. -/
def PortSt.serveReq (r : PortSt) (codes : List Nat) (slots : Nat) : PortSt × Nat :=
  let gain := if r.reqIn < 38 then r.reqGain else 4
  if r.reqImm then
    if slots = 0 then (r, 0)
    else
      let c := r.choose r.reqIn gain
      let w := c.word codes c.settle
      (({ c with settle := c.settle - 1, reqPend := false, res := w } : PortSt).keep w, slots - 1)
  else
    let y := r.dwellIf codes slots r.reqIn gain
    if y.2.2 then ({ y.1 with reqPend := false, res := y.1.last.toList.getD r.reqIn 0 }, y.2.1) else (y.1, y.2.1)

/-- R406: a temperature point in 1/16 °C from its code. -/
def pointTemp (code : Nat) : Int := roundOpen 0x1503 ((code : Int) * 5 - 320 * 128) 128

/-- R397, R386: firmware's own requests of the temperature points: at least once a second, and 100 ms apart in step
F2. A point is converted in an odd frame that has no host request. -/
def PortSt.servePoint (r : PortSt) (codes : List Nat) (slots now : Nat) (i : Fin 2) : PortSt × Nat :=
  let gap := match r.cal with | some c => if c.step = 2 then msCyc 100 else sCyc 1 | none => sCyc 1
  let due := match tget r.tp i with | some (_, t) => decide (t + gap ≤ now) | none => true
  if due then
    let y := r.dwellIf codes slots (38 + i.val) 4
    if y.2.2 then ({ y.1 with tp := upd y.1.tp i (some (pointTemp (codes.getD (38 + i.val) 0), now)) }, y.2.1)
    else (y.1, y.2.1)
  else (r, slots)

/-- R320: the conversions of one frame; the rings with a fresh sample, and whether tap A is fresh. -/
def PortSt.scan (r : PortSt) (codes : List Nat) (now : Nat) : PortSt × List Bool × Bool :=
  let a := r.scanRings codes
  let b := a.1.scanTap codes a.2.1
  let c :=
    if r.frame % 2 = 0 then (b.1.dwellIf codes b.2.1 37 r.gainTap).1
    else if b.1.reqPend then (b.1.serveReq codes b.2.1).1
    else
      let y := b.1.servePoint codes b.2.1 now 0
      (y.1.servePoint codes y.2 now 1).1
  (c, a.2.2, b.2.2)

/-! ## The ring loops (R312 to R316) -/

/-- CODE of the last word of an input. -/
def PortSt.lastCode (r : PortSt) (i : Nat) : Nat := fld (r.last.toList.getD i 0) 15 0

/-- R315: tap A reads below 2 % of full scale at gain 0. -/
def PortSt.tapDark (r : PortSt) : Bool := decide (r.tapA.1 * 50 < 65536 * 4 ^ r.tapA.2)

/-- R313: the normalised ratio of a transmit ring. -/
def PortSt.ratio (r : PortSt) (k : Fin 36) : Nat :=
  min 65535 (r.lastCode k.val * 4 ^ r.tapA.2 * 65536 / (r.tapA.1 * 4 ^ r.gainTx))

/-- R314: a receive ring is at or above P_ref ÷ 4. -/
def PortSt.rxAbove (r : PortSt) (k : Fin 36) : Bool := decide ((r.ring k).target ≤ 4 * r.lastCode k.val)

/-- R315: light is absent for a ring. -/
def PortSt.dark (r : PortSt) (k : Fin 36) : Bool :=
  if k.val < 18 then r.tapDark
  else ! r.rxAbove k && decide ((allPos.filter (fun g => rxRing g ≠ k && r.rxAbove (rxRing g))).length < 8)

/-- R312, R316: u changes by `du` in units of 1/256 code, within STEP_MAX, its range, and away from a clamp. -/
def PortSt.stepU (r : PortSt) (x : RingSt) (du : Int) : RingSt :=
  let lim : Int := r.stepMax * 256
  let d := clampI (-lim) lim du
  let d := if x.clamp && decide (x.heater = 0) && decide (d < 0) then 0
    else if x.clamp && decide (x.heater = 16383) && decide (0 < d) then 0 else d
  { x with u := (clampI 0 4194303 ((x.u : Int) + d)).toNat }

/-- The lock counters of an update: `near` within the lock limit, `far` beyond the unlock limit. -/
def RingSt.judge (x : RingSt) (near far : Bool) : RingSt :=
  let g := if near then x.good + 1 else 0
  let b := if far then x.bad + 1 else 0
  { x with good := min g 16, bad := min b 8, lock := (x.lock || decide (16 ≤ g)) && decide (b < 8) }

/-- R313, R314: one update of a ring in TRACK that has a fresh sample and light. -/
def PortSt.update (r : PortSt) (k : Fin 36) : RingSt :=
  let x := r.ring k
  if k.val < 18 then
    let e : Int := (r.ratio k : Int) - x.target
    let q : Int := (r.kiTx * e.natAbs / 2 ^ 16 : Nat)
    (r.stepU x (if 0 < e then -q else q)).judge (decide (e.natAbs ≤ 1311)) (decide (5243 < e.natAbs))
  else
    let m := r.lastCode k.val
    let x := match decide (r.frame % 2 = 0), x.mEven with
      | true, _ => { x with mEven := some m }
      | false, some e => { r.stepU x (roundOpen 0x1504 ((r.kiRx : Int) * ((e : Int) - m)) (2 ^ 16)) with mEven := none }
      | false, none => x
    x.judge (decide (3 * x.target ≤ 4 * m)) (! r.rxAbove k)

/-- R312: the updates at the end of a frame, and LOOP_SKIP. -/
def PortSt.loops (r : PortSt) (fresh : List Bool) : PortSt :=
  let skips := ((List.finRange 36).filter (fun k => (r.ring k).mode == .track && ! fresh.getD k.val false)).length
  { r with
    cSkip := satAdd r.cSkip skips 0xFFFF
    rings := vmapIdx (fun k x =>
      if x.mode = .off then { x with noLight := false }
      else if ! fresh.getD k.val false then { x with mEven := none }
      else if r.dark k then { x with noLight := true, mEven := none }
      else if x.mode = .track then { r.update k with noLight := false } else { x with noLight := false }) r.rings
    txLight := ! r.tapDark
    rxLight := allPos.any (fun g => ! r.dark (rxRing g)) }

/-! ## Positions (R324) -/

/-- Index of a direction in the tables of a port. -/
def dirIdx (rx : Bool) : Fin 2 := if rx then 1 else 0

def PortSt.pos (r : PortSt) (rx : Bool) (g : Pos) : GState := tget (tget r.grid (dirIdx rx)) g
def PortSt.setPos (r : PortSt) (rx : Bool) (g : Pos) (v : GState) : PortSt :=
  { r with grid := updWith r.grid (dirIdx rx) (fun t => upd t g v) }
def State.pos (s : State) (p : Port) (rx : Bool) (g : Pos) : GState := (s.port p).pos rx g
def State.setPos (s : State) (p : Port) (rx : Bool) (g : Pos) (v : GState) : State := s.setPort p (fun r => r.setPos rx g v)

/-- Positions of a direction in a state, ascending. -/
def PortSt.inState (r : PortSt) (rx : Bool) (v : GState) : List Pos := allPos.filter (fun g => r.pos rx g == v)

/-- The lane that a position of a direction carries. -/
def PortSt.laneAt (r : PortSt) (rx : Bool) (g : Pos) : Option Lane :=
  if r.pos rx g = .active then (List.finRange 16).find? (fun l => tget (tget r.lmap (dirIdx rx)) l == g) else none

def PortSt.setLane (r : PortSt) (rx : Bool) (l : Lane) (g : Pos) : PortSt :=
  { r with lmap := updWith r.lmap (dirIdx rx) (fun t => upd t l g) }

/-- The transmit rings that are locked, as positions in ascending order. -/
def PortSt.txLocked (r : PortSt) : List Pos := allPos.filter (fun g => (r.ring (txRing g)).lock)

/-- The data of a log entry that names a position: its number and direction, and a cause (log 33). -/
def posData (rx : Bool) (g : Pos) (cause : Nat) : Nat := g.val + bnat rx * 256 + cause * 512

/-- A position goes out of service: the schedule of R391 starts from here. -/
def State.setFault (s : State) (p : Port) (rx : Bool) (g : Pos) : State :=
  let s := (s.setPos p rx g .fault).setPort p (fun r =>
    { r with tried := updWith r.tried (dirIdx rx) (fun t => upd t g (0, s.now)) })
  s.log 0 0x0A 2 (detailOf p.val (posData rx g 0))

/-! ## Temperature and the factory prediction (R383) -/

/-- R383: the die temperature: the mean of the points measured, of its eight. -/
def State.dieTemp (s : State) (die : Nat) : Option Int :=
  let l := (allPorts.filter (fun p => p.val / 4 = die)).flatMap (fun p => (s.port p).tp.toList.filterMap (fun t => t.map (·.1)))
  if l.isEmpty then none else some (roundOpen 0x1505 l.sum l.length)

/-- R383: the trim word of a ring: BIAS0, TREF, TC. -/
def State.ringTrim (s : State) (p : Port) (k : Fin 36) : Nat × Int × Nat :=
  let w := s.trim (p.val * 36 + k.val)
  (fld w 13 0, fld w 23 16, fld w 31 24)

/-- R383: the predicted centre of a ring at a die temperature in 1/16 °C. -/
def State.centre (s : State) (p : Port) (k : Fin 36) (t : Int) : Nat :=
  let (b, tref, tc) := s.ringTrim p k
  (clampI 0 16383 ((b : Int) - roundAway ((tc : Int) * (t - tref * 16)) 16)).toNat

end Sys2Proof.Machine
end

