-- ==== Sys2Proof/Machine/LinkOps.lean ====
section
/-! DEFINITION. Lane moves and their agreement (R325, R326, R349), calibration slots and their rollback (R392 to R394),
and the state of a link (R343 to R345, R357). -/

namespace Sys2Proof.Machine

/-! ## Counters of calibration (R395) -/

/-- CAL_CNT: 0 SLOTS, 1 ROLLBACKS, 2 EXPIRED, 3 FAILS. -/
def State.calCount (s : State) (p : Port) (i : Fin 4) : State :=
  { s with cal := { s.cal with cnt := updWith s.cal.cnt p (fun c => updWith c i (fun n => satAdd n 1 0xFFFF)) } }

/-- CAL_RTIME records a successful calibration of a ring. -/
def State.ringDone (s : State) (p : Port) (k : Fin 36) : State := s.setRing p k (fun x => { x with rtime := s.time })

/-! ## Messages of a link -/

/-- R337: a flit without a sequence number leaves: recorded as sent, 0x102 NAK and 0x103 CSYNC, with its ACK. -/
def State.sendFlit (s : State) (p : Port) (kind : Nat) (body : List Nat) : State :=
  s.setLink p (fun l => { l with sent := (kind, body) :: l.sent.take 31 })

/-- The last sequence accepted from the peer. -/
def LinkSt.ackSeq (l : LinkSt) : Nat := (l.rxSeq + 65535) % 65536

/-- R343: CSYNC: ACK, then the FREED count of each class. -/
def State.sendCsync (s : State) (p : Port) : State :=
  let l := s.link p
  s.sendFlit p 0x103 (l.ackSeq :: l.freed.toList)

/-- R345, R348: HELLO. -/
def State.sendHello (s : State) (p : Port) : State :=
  let d := s.dev
  s.sendCtl p 0x01 [(1, 1, d.devIndex), (2, 1, p.val), (3, 1, d.devCount), (4, 1, d.topo), (5, 1, d.torusW), (8, 8, s.col.serial)]

/-! ## Calibration slots -/

/-- This end transmits the direction of the slot. -/
def SlotSt.tx (x : SlotSt) : Bool := x.leadTx == x.own

/-- The ring of a slot at this end. -/
def SlotSt.ring (x : SlotSt) : Fin 36 := ringOf (! x.tx) x.pos

/-- A slot leaves its link: the gap of R392 starts. -/
def State.slotOver (s : State) (p : Port) : State :=
  (s.setLink p (fun l => { l with slot := none, slotEnd := s.now })).setPort p (fun r => { r with acq := r.acq.filter (fun a => ! a.slot) })

/-- R394: this end rolls a slot back: its saved values return and its ring goes to TRACK. A slot that has not changed
anything yet is withdrawn. -/
def State.slotBack (s : State) (p : Port) (cause : Nat) : State :=
  match (s.link p).slot with
  | some x =>
    if x.stage = 4 then s
    else if x.stage = 0 then s.slotOver p
    else
      let s := s.setLink p (fun l => { l with slot := some { x with stage := 4, backAt := s.now } })
      let s := s.setPort p (fun r => { r with acq := r.acq.filter (fun a => ! a.slot) })
      let s := s.setRing p x.ring (fun y =>
        { (y.enter .track) with u := x.saved.1, bias := x.saved.2.1, target := x.saved.2.2.1 })
      (s.calCount p 1).log 0 0x0D 2 (detailOf p.val (posData (! x.tx) x.pos cause))
  | none => s

/-- R393: CAL_ABORT is sent, and this end rolls back. -/
def State.slotAbort (s : State) (p : Port) (cause : Nat) : State :=
  match (s.link p).slot with
  | some x => (s.sendCtl p 0x03 [(1, 1, x.pos.val), (2, 1, cause), (8, 4, x.frame)] 3).slotBack p cause
  | none => s

/-! ## Lane moves -/

/-- R325, R349: a switch frame: at least 96 frames ahead, and at least 4 apart from every other move of the
direction. -/
def PortSt.nextSwitch (r : PortSt) (now : Nat) : Nat :=
  r.txMoves.foldl (fun n m => if reached (m.n + 3) n then (m.n + 4) % 2 ^ 32 else n) ((r.txFrame now + 96) % 2 ^ 32)

/-- R326: the lowest WARM position of the transmit direction that no move has taken. -/
def PortSt.spare (r : PortSt) : Option Pos :=
  (r.inState false .warm).find? (fun g => ! r.txMoves.any (fun m => m.dst == g && m.dst ≠ m.frm))

/-- R325, R326, R349: the transmitter moves the lane of a position to a spare: MOVE is sent with its switch frame. With no
spare the need is kept (a move onto itself), and a calibration slot of the direction is asked to roll back (R330,
R404). The switch frame of an outage is its F (R392). -/
def State.startMove (s : State) (p : Port) (frm : Pos) (cause : Nat) (outage : Option Nat := none) : State :=
  let r := s.port p
  match r.laneAt false frm with
  | none => s
  | some lane =>
    if r.txMoves.any (fun m => m.lane == lane && m.dst ≠ m.frm) then s
    else
      let s := s.setPort p (fun r => { r with txMoves := r.txMoves.filter (fun m => m.lane ≠ lane) })
      match r.spare with
      | some b =>
        let n := match outage with
          | some f => if reached f ((r.txFrame s.now + 96) % 2 ^ 32) then f else r.nextSwitch s.now
          | none => r.nextSwitch s.now
        let s := s.setPort p (fun r =>
          { r with txMoves := r.txMoves ++ [{ lane := lane, frm := frm, dst := b, cause := cause, n := n, acked := false }] })
        s.sendCtl p 0x02 [(1, 1, lane.val), (2, 1, frm.val), (3, 1, b.val), (4, 1, cause), (8, 4, n)]
      | none =>
        let s := s.setPort p (fun r =>
          { r with txMoves := r.txMoves ++ [{ lane := lane, frm := frm, dst := frm, cause := cause, n := 0, acked := false }] })
        match (s.link p).slot with
        | some x => if x.tx then s.slotAbort p 1 else s
        | none => s

/-- A position of a direction has become WARM: a move that waits for a spare runs on it (R330). -/
def State.becomeWarm (s : State) (p : Port) (rx : Bool) (g : Pos) : State :=
  let s := s.setPos p rx g .warm
  if rx then s
  else match (s.port p).txMoves.find? (fun m => m.frm == m.dst) with
    | some m => s.startMove p m.frm m.cause
    | none => s

/-- R326, R363: a cause takes a position out of service. A position that carries a lane is moved away from, by the
transmitter, or by MOVE_REQ when this end receives; any other position is in FAULT at once. A slot announced for the
position is withdrawn, and one that runs on it has failed. -/
def State.posFault (s : State) (p : Port) (rx : Bool) (g : Pos) (cause : Nat) : State :=
  let running := match (s.link p).slot with | some x => x.pos == g && x.tx == ! rx | none => false
  let early := match (s.link p).slot with | some x => decide (x.stage = 0) | none => false
  match s.pos p rx g with
  | .active =>
    let s := if running && early then s.slotOver p else s
    if rx then s.sendCtl p 0x05 [(2, 1, g.val), (4, 1, cause)] else s.startMove p g cause
  | .cal => if running then s.slotAbort p 2 else s.setFault p rx g
  | .off | .fault => s
  | .warm => (if rx then s.sendCtl p 0x05 [(2, 1, g.val), (4, 1, cause)] else s).setFault p rx g
  | _ => s.setFault p rx g

/-! ## Link states (R344) -/

/-- LINK_SWAP owed a reply is refused: the link left UP, or went DOWN (R350). -/
def State.swapFail (s : State) (p : Port) (down : Bool) : State :=
  let fail := fun (h : Bool) =>
    let s := s.setLink p (fun l => { l with swap := .none })
    if h then s.mbxDone (stRefused 0xE) else s
  match (s.link p).swap with
  | .asked h _ => if down then fail h else s
  | .granted h _ _ _ => fail h
  | .none => s

/-- A link leaves service: slots roll back at both ends (R404), swaps end, and the hold time of R357 starts. -/
def State.linkLeave (s : State) (p : Port) (st : LinkState) : State :=
  let s := (s.slotBack p 2).swapFail p (st == .down)
  s.setLink p (fun l => { l with st := st, csyncOk := false, nakAt := none, resent := 0,
                                 outAt := some (l.outAt.getD s.now) })

/-- R344: the link retrains: counted, logged, and its credit-sync handshake begins. -/
def State.linkRetrain (s : State) (p : Port) : State :=
  if (s.link p).st = .up then
    let s := s.linkLeave p .retrain
    let s := s.setLink p (fun l => { l with retrains := satAdd l.retrains 1 0xFFFF })
    let s := s.log 0 0x0B 2 (detailOf p.val 0)
    if (s.port p).state = 4 then s.sendCsync p else s
  else s

/-- R357: what a link out of service for LINK_HOLD_MS gives up: its replay buffer and queue, the requests it held or had
sent, and the replies that wait. -/
def State.linkGiveUp (s : State) (p : Port) : State :=
  let l := s.link p
  let replies := (l.txq.filter (fun f => f.req.isNone && f.last && f.vc.val < 2 && f.srcd == s.dev.devIndex)).map (·.spart)
  let s := s.setLink p (fun l => { l with replay := [], txq := [], rxPart := [], held := true })
  let s := s.each replies (fun s q => s.discarded ⟨q % 16, Nat.mod_lt _ (by decide)⟩ 1)
  s.each (s.sends.filter (fun r => r.port == some p)) (fun s r =>
    match r.sentAt with
    | some _ => (s.countTimeout r.part).sendDone r (stTimeout 6) 0 0 r.dstPart.val
    | none =>
      let up := match s.dev.hop r.dstDev with
        | some h => (s.bundle h).any (fun q => (s.link q).st == .up)
        | none => false
      s.sendDone r (stRefused 0xE) 0 (bnat up) r.dstPart.val)

/-- R344: the link goes DOWN. -/
def State.linkDown (s : State) (p : Port) : State :=
  if (s.link p).st = .down then s
  else
    let s := s.linkLeave p .down
    s.setLink p (fun l => { l with locked := rep 16 false, helloOk := false, lead := false })

/-- R343, R344: the port's physical state has reached UP: a link that was DOWN starts from fresh credits and sends CSYNC
and HELLO; one that retrains sends CSYNC. -/
def State.linkStart (s : State) (p : Port) : State :=
  match (s.link p).st with
  | .down =>
    let s := s.setLink p (fun l =>
      { l with st := .sync, bringUp := true, helloOk := false, csyncOk := false, mis := 0, replay := [], txq := [], rxPart := []
               cred := tab 8 (fun i => halfSize (i.val / 2)), freed := rep 8 0, seen := rep 8 0, occ := rep 8 0
               outAt := some (l.outAt.getD s.now) })
    (s.sendCsync p).sendHello p
  | .retrain => s.sendCsync p
  | _ => s

/-- R344, R345: SYNC is complete: the link is UP; the roles are decided unless it retrained. -/
def State.syncCheck (s : State) (p : Port) : State :=
  let l := s.link p
  if (l.st == .sync || l.st == .retrain || l.st == .miswired) && (s.port p).state == 4 && l.helloOk && l.csyncOk
      && l.locked.toList.all id then
    let s := s.setLink p (fun l =>
      { l with st := .up, lead := if l.st = .retrain then l.lead else decide (s.col.serial < l.peerSerial), bringUp := false
               mis := 0, outAt := none, held := false, sentAt := s.now, resent := 0, nakAt := none })
    s.pump p ((s.link p).txq.length)
  else s

/-! ## The physical state of a port (OPH_PORT.STATE) -/

/-- R324: a direction trains: every position with light trains again; the transmitter maps lane l to the l-th position
whose ring is locked. -/
def PortSt.trainDir (r : PortSt) (rx : Bool) (now : Nat) : PortSt :=
  let ok := fun (g : Pos) => if rx then (r.ring (rxRing g)).mode ≠ .off else (r.ring (txRing g)).lock
  let r := { r with grid := updWith r.grid (dirIdx rx) (fun t => vmapIdx (fun g _ => if ok g then GState.train else .fault) t)
                    tried := updWith r.tried (dirIdx rx) (fun t => vmapIdx (fun g v => if ok g then v else (0, now)) t)
                    txMoves := if rx then r.txMoves else [], rxMoves := if rx then [] else r.rxMoves }
  if rx then r
  else (List.finRange 16).foldl (fun r l => match r.txLocked[l.val]? with | some g => r.setLane false l g | none => r) r

/-- R391: at bring-up every receive ring that is not locked is swept, in the five sets of R387. -/
def PortSt.bringUpSweeps (r : PortSt) : PortSt :=
  let add := (List.range 5).flatMap (fun j => (allPos.filter (fun g => g.val % 5 = j && ! (r.ring (rxRing g)).lock
      && (r.ring (rxRing g)).mode ≠ .off)).map (fun g =>
    ({ rx := true, pos := g, centre := (r.ring (rxRing g)).u / 256, idx := 0, samples := [], wide := false, slot := false } : AcqSt)))
  { r with acq := r.acq.filter (fun a => ! a.rx) ++ add
           rings := vmapIdx (fun k x => if add.any (fun a => rxRing a.pos == k) then x.enter .hold else x) r.rings }

/-- R324, R331, R344: a port with its PLL locked proceeds: at least 16 transmit rings locked and light, it trains. -/
def State.portTry (s : State) (p : Port) : State :=
  let r := s.port p
  if r.state = 2 ∧ r.cal.isNone ∧ 16 ≤ r.txLocked.length ∧ r.txLight then
    s.setPort p (fun r => ({ (r.trainDir false s.now).trainDir true s.now with state := 3 } : PortSt).bringUpSweeps)
  else s

/-- A receive direction carries its 16 lanes: each on a position of its own. -/
def PortSt.rxWhole (r : PortSt) : Bool :=
  let l := tget r.lmap 1
  (List.finRange 16).all (fun i => r.pos true (tget l i) == .active
    && ! (List.finRange 16).any (fun j => i ≠ j && tget l i == tget l j))

/-- R324: a port in training whose directions both carry 16 lanes is UP: the transmitter's lanes are ACTIVE and its other
locked positions WARM. -/
def State.portUp (s : State) (p : Port) : State :=
  let r := s.port p
  if (r.state = 3 ∨ r.state = 5) ∧ r.rxWhole ∧ 16 ≤ (r.inState false .train).length + (r.inState false .active).length
      + (r.inState false .warm).length then
    let lanes := (tget r.lmap 0).toList
    let s := s.setPort p (fun r => { r with
      state := 4
      grid := updWith r.grid 0 (fun t => vmapIdx (fun g v =>
        if v = .train then (if lanes.contains g then .active else .warm) else v) t) })
    s.linkStart p
  else s

/-- R330: a direction is retrained as a whole: the port goes to RETRAIN, and the link with it. -/
def State.dirRetrain (s : State) (p : Port) (rx : Bool) : State :=
  let s := (s.slotBack p 1).setPort p (fun r =>
    let t := { r.trainDir rx s.now with state := 5 }
    if rx then t.bringUpSweeps else t)
  s.linkRetrain p

/-- The port's positions go OFF (R331, R332): no move, sweep or slot is left on it. -/
def State.portDark (s : State) (p : Port) (state : Nat) : State :=
  let s := s.slotBack p 2
  let s := s.setLink p (fun l => { l with slot := none, locked := rep 16 false })
  s.setPort p (fun r => { r with
    state := state, grid := rep 2 (rep 18 .off), txMoves := [], rxMoves := [], acq := []
    trk := vmap (fun t => { t with since := none, pend := false }) r.trk })

end Sys2Proof.Machine
end

