-- ==== Sys2Proof/Machine/CalOps.lean ====
section
/-! DEFINITION. Calibration work: snapshots (R396 to R401), sweeps and acquisition (R387, R391, R393), and the steps of a
full calibration (R386 to R390). -/

namespace Sys2Proof.Machine

/-! ## Snapshots -/

/-- R396: bytes of a snapshot. -/
def snapLen : Nat := 4176

/-- A 16-bit field of a signed value. -/
def le16s (v : Int) : List Byte := leBytes 2 (unsgn 16 v)

/-- R396: ring k holds values: it has been placed, and its port has not failed (log 43). -/
def PortSt.holds (r : PortSt) (k : Fin 36) : Bool :=
  (r.ring k).mode != .off && decide ((r.ring k).target ≠ 0) && decide (r.state ≠ 7)

/-- R396: the 512 bytes of a port block. -/
def PortSt.snapBlock (r : PortSt) (p : Port) : List Byte :=
  let valid := maskOf 36 (fun k => if h : k < 36 then r.holds ⟨k, h⟩ else false)
  let tp := fun (i : Fin 2) => match tget r.tp i with | some (t, _) => t | none => 0
  leBytes 1 p.val ++ leBytes 3 0 ++ leBytes 8 valid ++ le16s (tp 0) ++ le16s (tp 1)
    ++ r.rings.toList.flatMap (fun x => leBytes 2 (min 16383 ((x.u + 128) / 256)) ++ leBytes 2 x.target)
    ++ r.mat.toList.flatMap (fun row => row.toList.flatMap le16s) ++ r.zero.toList.flatMap le16s ++ List.replicate 20 0

/-- R396, R401: SMAGIC, FMT and LEN are correct. -/
def snapShape (b : List Byte) : Bool := b.length == snapLen && leAt b 0 4 == 0x534C4143 && leAt b 4 2 == 1 && leAt b 6 2 == 0x1050
/-- R396, R401: the CRC-32C is correct. -/
def snapCrc (b : List Byte) : Bool := crc32c (b.take 0x104C) == leAt b 0x104C 4
/-- R401: a snapshot is valid. -/
def snapValid (b : List Byte) : Bool := snapShape b && snapCrc b

/-- The bytes stored in the retention region (1), flash slot A (2) and flash slot B (3); an unsealed region holds no
snapshot. -/
def State.snapAt (s : State) (src : Nat) : List Byte :=
  if src = 1 then (if s.cal.sealed then s.cal.snap else [])
  else s.flashRead (if src = 2 then snapSlotA else snapSlotB) snapLen

/-- SEQ of a stored snapshot, 0 when it is not valid. -/
def State.snapSeq (s : State) (src : Nat) : Nat :=
  let b := s.snapAt src
  if snapValid b then leAt b 0x10 4 else 0

/-- R396: the snapshot captured now. -/
def State.snapBytes (s : State) (kind : Nat) : List Byte :=
  let seq := max (s.snapSeq 1) (max (s.snapSeq 2) (s.snapSeq 3)) + 1
  let b := leBytes 4 0x534C4143 ++ leBytes 2 1 ++ leBytes 2 0x1050 ++ leBytes 8 s.col.serial ++ leBytes 4 seq
    ++ leBytes 1 kind ++ leBytes 3 0 ++ leBytes 8 s.time ++ le16s ((s.dieTemp 0).getD 0) ++ le16s ((s.dieTemp 1).getD 0)
    ++ leBytes 4 0 ++ leBytes 8 s.col.life ++ List.replicate 16 0
    ++ allPorts.flatMap (fun p => (s.port p).snapBlock p) ++ List.replicate 12 0
  b ++ leBytes 4 (crc32c b)

/-- R397: no capture runs while a full calibration or a slot is in progress. -/
def State.calBusy (s : State) : Bool := s.cal.full.isSome || allPorts.any (fun p => (s.link p).slot.isSome)

/-- R397: every temperature point was measured within the last `d` crystal cycles. -/
def State.tempsFresh (s : State) (d : Nat) : Bool :=
  allPorts.all (fun p => (s.port p).tp.toList.all (fun t => match t with | some (_, at_) => decide (s.now ≤ at_ + d) | none => false))

/-- R397 to R399: a capture: into the retention region, sealed last; a flash write falls due after KIND 0 and 3, and when
FLASH_MIN minutes have passed. -/
def State.capture (s : State) (kind : Nat) : State :=
  if s.calBusy then s
  else
    let flash := decide (kind ≠ 2) && (decide (kind = 0) || decide (kind = 3) || s.past s.cal.flashAt (sCyc 60 * s.cal.flashMin))
    { s with cal := { s.cal with sealed := true, snap := s.snapBytes kind, snapTime := s.time, capAt := s.now
                                 flashBusy := s.cal.flashBusy || flash } }

/-- R397: the capture of an orderly stop: with temperatures at most 2 s old. -/
def State.captureStop (s : State) : State := s.when (s.tempsFresh (sCyc 2)) (fun s => s.capture 2)

/-- R401: a valid snapshot is restored: zeros, matrices, then each ring with VALID at its centre for today's
temperature, in TRACK. -/
def State.restoreSnap (s : State) (b : List Byte) (src : Nat) : State :=
  let s := { s with cal := { s.cal with restored := src } }
  s.each allPorts (fun s p =>
    let o := 0x40 + 0x200 * p.val
    let dt := (s.dieTemp (p.val / 4)).getD 0 - sgn 16 (leAt b (0x20 + 2 * (p.val / 4)) 2)
    let valid := leAt b (o + 4) 8
    let tcs := (List.finRange 36).map (fun k => (s.ringTrim p k).2.2)
    s.setPort p (fun r => { r with
      zero := tab 4 (fun g => sgn 16 (leAt b (o + 0x1E4 + 2 * g.val) 2))
      xt := tab 18 (fun k => tab 9 (fun d => sgn 16 (leAt b (o + 0xA0 + 18 * k.val + 2 * d.val) 2)))
      xtLoad := true
      rings := vmapIdx (fun k x =>
        if bitAt valid k.val then
          let bias := (clampI 0 16383 ((leAt b (o + 0x10 + 4 * k.val) 2 : Int) - roundAway ((tcs.getD k.val 0 : Int) * dt) 16)).toNat
          ({ x with bias := bias, target := leAt b (o + 0x12 + 4 * k.val) 2, mode := .off } : RingSt).enter .track
        else x) r.rings }))

/-! ## Sweeps -/

/-- R387, step F4: TARGET and BIAS from the samples of a sweep, in ascending order of code. -/
def f4Result (l : List (Nat × Nat)) : Option (Nat × Nat) :=
  match l with
  | [] => none
  | x :: t =>
    let lo := t.foldl (fun m y => if y.2 < m.2 then y else m) x
    let hi := t.foldl (fun m y => max m y.2) x.2
    let target := (lo.2 + hi) / 2
    match l.find? (fun y => decide (lo.1 < y.1) && decide (target ≤ y.2)) with
    | some y => some (y.1, target)
    | none => none

/-- R391, step 2: the peak: the highest code at least 4 times the least, at least 16 codes inside the sweep. -/
def rxPeak (l : List (Nat × Nat)) (lo hi : Nat) : Option (Nat × Nat) :=
  match l with
  | [] => none
  | x :: t =>
    let least := t.foldl (fun m y => min m y.2) x.2
    let ok := l.filter (fun y => decide (4 * least ≤ y.2) && decide (lo + 16 ≤ y.1) && decide (y.1 + 16 ≤ hi))
    match ok with
    | [] => none
    | y :: r => some (r.foldl (fun m z => if m.2 < z.2 then z else m) y)

/-- R387, step F3: the dips of a wide sweep: local minima at least 16 codes inside the range, at most half the largest
ratio. -/
def dipsOf (l : List (Nat × Nat)) : List Nat :=
  let top := l.foldl (fun m y => max m y.2) 0
  let rec go : List (Nat × Nat) → List Nat
    | a :: b :: c :: r =>
      (if b.2 < a.2 ∧ b.2 ≤ c.2 ∧ 2 * b.2 ≤ top ∧ 16 ≤ b.1 ∧ b.1 + 16 ≤ 16383 then [b.1] else []) ++ go (b :: c :: r)
    | _ => []
  go l

/-- The distance of two codes. -/
def codeGap (a b : Nat) : Nat := (a - b) + (b - a)

/-- R387, step F3: the dip nearest the predicted centre, within half a grid spacing of it. -/
def nearestDip (l : List Nat) (c : Nat) : Option Nat :=
  match l with
  | [] => none
  | x :: t =>
    let d := t.foldl (fun m y => if codeGap y c < codeGap m c then y else m) x
    if codeGap d c ≤ 1707 then some d else none

/-- R395: a sweep has failed: counted and logged. -/
def State.sweepFailed (s : State) (p : Port) (rx : Bool) (g : Pos) (cause : Nat) : State :=
  (s.calCount p 3).log 0 0x0D 1 (detailOf p.val (posData rx g cause))

/-! ## Acquisition (R391, R393) -/

/-- The code of sample i of a sweep. -/
def AcqSt.codeAt (a : AcqSt) (i : Nat) : Nat :=
  (clampI 0 16383 (if a.wide then (a.centre : Int) - 1024 + 8 * i else (a.centre : Int) - 256 + 2 * i)).toNat

/-- Sweep done: the ring waits for lock. -/
def acqWait : Nat := 1000

def AcqSt.ring (a : AcqSt) : Fin 36 := ringOf a.rx a.pos
def AcqSt.is (a b : AcqSt) : Bool := a.rx == b.rx && a.pos == b.pos

/-- One acquisition of a port changed. -/
def State.setAcq (s : State) (p : Port) (a : AcqSt) (b : AcqSt) : State :=
  s.setPort p (fun r => { r with acq := r.acq.map (fun x => if x.is a then b else x) })

/-- An acquisition ends. -/
def State.dropAcq (s : State) (p : Port) (a : AcqSt) : State :=
  s.setPort p (fun r => { r with acq := r.acq.filter (fun x => ! x.is a) })

/-- R391: an acquisition of one ring begins at its held intention. -/
def State.startAcq (s : State) (p : Port) (rx : Bool) (g : Pos) (slot : Bool) : State :=
  let k := ringOf rx g
  let s := s.setRing p k (fun x => x.enter .hold)
  let a : AcqSt := { rx := rx, pos := g, centre := (s.ring p k).u / 256, idx := 0, samples := [], wide := false, slot := slot }
  s.setPort p (fun r => { r with acq := r.acq.filter (fun x => ! x.is a) ++ [a] })

/-- An acquisition has failed, with RESULT 1 no peak or 2 no lock: a slot is aborted; at bring-up the sweep runs again; else
the position stays FAULT until its next attempt. -/
def State.acqFail (s : State) (p : Port) (a : AcqSt) (res : Nat) : State :=
  let s := (s.dropAcq p a).sweepFailed p a.rx a.pos res
  if a.slot then
    let s := match (s.link p).slot with
      | some x => if a.rx then s.sendCtl p 0x02 [(1, 1, x.pos.val), (2, 1, res), (8, 4, x.frame)] 3 else s
      | none => s
    s.slotAbort p 2
  else if a.rx && s.pos p true a.pos == .train then s.startAcq p true a.pos false
  else s

/-- R391, R393: an acquisition has succeeded: the ring is locked, and a receive position is frame-aligned. -/
def State.acqDone (s : State) (p : Port) (a : AcqSt) : State :=
  let s := (s.dropAcq p a).ringDone p a.ring
  if a.slot then
    match (s.link p).slot with
    | some x =>
      if a.rx then
        let y := s.ring p a.ring
        let s := s.sendCtl p 0x02 [(1, 1, x.pos.val), (2, 1, 0), (4, 2, y.bias), (6, 2, y.target), (8, 4, x.frame)] 3
        ((s.slotOver p).becomeWarm p true a.pos).calCount p 0
      else
        let s := s.setLink p (fun l => { l with slot := some { x with stage := 3 } })
        s.sendCtl p 0x01 [(1, 1, x.pos.val), (8, 4, x.frame)] 3
    | none => s
  else if s.pos p a.rx a.pos == .fault then
    if (s.port p).state = 4 then s.becomeWarm p a.rx a.pos else s.setPos p a.rx a.pos .train
  else s

/-- The samples of a sweep are complete. -/
def State.acqEnd (s : State) (p : Port) (a : AcqSt) : State :=
  let go := fun (bias target : Nat) =>
    let s := s.setRing p a.ring (fun x => { ((x.setBias bias).enter .track) with target := target })
    s.setAcq p a { a with idx := acqWait, samples := [] }
  if a.rx then
    match rxPeak a.samples (a.codeAt 0) (a.codeAt 256) with
    | some (c, m) => go c m
    | none => s.acqFail p a 1
  else
    match f4Result a.samples with
    | some (b, t) => go b t
    | none => if a.wide || a.slot then s.acqFail p a 1 else s.setAcq p a { a with idx := 0, samples := [], wide := true }

/-- One loop frame of an acquisition: the sample of the code in force, then the next code. -/
def State.acqFrame (s : State) (p : Port) (fresh : List Bool) (a : AcqSt) : State :=
  let r := s.port p
  let k := a.ring
  if a.idx = acqWait then
    if ! (r.ring k).lock then s
    else if a.rx then s else s.acqDone p a
  else if ! a.rx && r.tapDark then s.acqFail p a 1
  else if decide (0 < a.idx) && ! fresh.getD k.val false then s
  else
    let v := if a.rx then r.lastCode k.val else r.ratio k
    let a' := if 0 < a.idx then { a with samples := a.samples ++ [(a.codeAt (a.idx - 1), v)] } else a
    if a.idx = 256 then s.acqEnd p a'
    else
      let s := s.setRing p k (fun x => { x with u := a.codeAt a.idx * 256 })
      s.setAcq p a { a' with idx := a.idx + 1 }

/-- R387, R391: the sweeps of the set in work run together; a ring that waits for lock holds up no other. -/
def State.acqFrames (s : State) (p : Port) (fresh : List Bool) : State :=
  let l := (s.port p).acq
  let act := l.filter (fun a => a.idx ≠ acqWait)
  let run := match act with
    | [] => []
    | h :: _ => act.filter (fun a => a.rx == h.rx && a.pos.val % 5 == h.pos.val % 5)
  s.each (run ++ l.filter (fun a => a.idx = acqWait)) (fun s a => s.acqFrame p fresh a)

/-! ## Full calibration (R386 to R390) -/

/-- A calibration run of a port changed. -/
def State.setCal (s : State) (p : Port) (f : CalRun → CalRun) : State :=
  s.setPort p (fun r => { r with cal := r.cal.map f })

/-- The next step of a run begins. -/
def State.calNext (s : State) (p : Port) (step : Nat) : State :=
  s.setCal p (fun c => { c with step := step, since := s.now, set := 0, idx := 0, samples := [], ph := 0, phAt := s.now })

/-- R386: the steps of a port begin. -/
def State.calBegin (s : State) (p : Port) : State :=
  let c : CalRun :=
    { step := 1, since := s.now, set := 0, idx := 0, samples := [], dips := rep 18 none, okF4 := rep 18 false, before := []
      coup := [], lastT := none, ph := 0, phAt := s.now }
  s.setPort p (fun r => { r with acq := [], cal := some c })

/-- R390: a full calibration of the ports of a mask begins: their links are DOWN, and R357 applies at once. -/
def State.fullStart (s : State) (mask : Nat) (byReq : Bool) : State :=
  let s := { s with cal := { s.cal with full := some (mask, byReq, s.now), portsOk := 0, portsFail := 0 } }
  s.each (allPorts.filter (fun p => bitAt mask p.val)) (fun s p =>
    let s := match (s.link p).slot with | some _ => s.slotAbort p 1 | none => s
    let r := s.port p
    let s := s.portDark p (if r.state = 0 ∨ r.state = 1 ∨ r.state = 7 then r.state else 2)
    let s := if (s.link p).st = .down ∨ (s.link p).st = .failed then s else (s.linkDown p).linkGiveUp p
    s.calBegin p)

/-- R397, R402: the last port of a full calibration is done: a KIND 0 capture and the reply. -/
def State.fullCheck (s : State) : State :=
  match s.cal.full with
  | some (_, byReq, _) =>
    if allPorts.any (fun p => (s.port p).cal.isSome) then s
    else
      let s := { s with cal := { s.cal with full := none, fullDone := true } }
      let s := s.capture 0
      let s := if s.starting then { s with start := { s.start with opticsDone := true, done := upd s.start.done 3 true } } else s
      if byReq then s.mbxDone stOk [(8, leBytes 1 s.cal.portsOk), (9, leBytes 1 s.cal.portsFail)] else s
  | none => s

/-- A port leaves its full calibration, as done or as failed. -/
def State.calLeave (s : State) (p : Port) (ok : Bool) : State :=
  let s := s.setPort p (fun r => { r with cal := none })
  let bit := 2 ^ p.val
  let s := { s with cal := { s.cal with portsOk := if ok then s.cal.portsOk ||| bit else s.cal.portsOk
                                        portsFail := if ok then s.cal.portsFail else s.cal.portsFail ||| bit } }
  s.fullCheck

/-- R389: the full calibration of a port ends with every ring OFF. -/
def State.calFail (s : State) (p : Port) : State :=
  let s := s.setPort p (fun r => { r with rings := vmap (fun x => x.enter .off) r.rings })
  (s.sweepFailed p false 0 3).calLeave p false

/-- R389: a ring fails: OFF, and its transmit position is in FAULT. -/
def State.calRingOff (s : State) (p : Port) (g : Pos) : State :=
  let s := s.setRing p (txRing g) (fun x => x.enter .off)
  let s := s.setCal p (fun c => { c with okF4 := upd c.okF4 g false, dips := upd c.dips g none })
  (s.sweepFailed p false g 1).setFault p false g

/-- Transmit positions still in the run. -/
def CalRun.live (c : CalRun) : List Pos := allPos.filter (fun g => tget c.okF4 g)

/-- F1: the zeros; the conversions of the internal short are no part of the frame, so the zeros are free values
(log 44). -/
def State.calF1 (s : State) (p : Port) : State :=
  let s := s.each (List.finRange 4) (fun s (g : Fin 4) =>
    let (f, s) := s.draw
    s.setPort p (fun r => { r with zero := upd r.zero g (sgn 16 f) }))
  let t := (s.dieTemp (p.val / 4)).getD 0
  let cs := (List.finRange 36).map (s.centre p · t)
  let s := s.setPort p (fun r => { r with
    xt := rep 18 xtIdentity, xtLoad := true
    rings := vmapIdx (fun k x => (({ x with mode := .off } : RingSt).setBias (cs.getD k.val 0)).enter .hold) r.rings })
  s.calNext p 2

/-- F2: the die temperatures are compared with those measured at least 100 ms before; a change of less than 0.1 °C ends
the step. -/
def State.calF2 (s : State) (p : Port) (c : CalRun) : State :=
  let seen := fun (t : Nat) => allPorts.all (fun q => (s.port q).cal.isNone
    || (s.port q).tp.toList.all (fun x => match x with | some (_, a) => decide (t ≤ a) | none => false))
  match s.dieTemp 0, s.dieTemp 1 with
  | some a, some b =>
    match c.lastT with
    | none => if seen c.since then s.setCal p (fun c => { c with lastT := some (a, b), phAt := s.now }) else s
    | some (x, y) =>
      if s.past c.phAt (msCyc 100) && seen (c.phAt + 1) then
        if (a - x).natAbs * 10 < 16 ∧ (b - y).natAbs * 10 < 16 then
          let t := if p.val < 4 then a else b
          let cs := (List.finRange 36).map (s.centre p · t)
          let s := s.setPort p (fun r => { r with rings := vmapIdx (fun k x => x.setBias (cs.getD k.val 0)) r.rings })
          s.calNext p 3
        else s.setCal p (fun c => { c with lastT := some (a, b), phAt := s.now })
      else s
  | _, _ => s

/-- The rings of the set in work of F3 and F4. -/
def CalRun.rings (c : CalRun) : List Pos :=
  allPos.filter (fun g => decide (g.val % 5 = c.set) && (decide (c.step = 3) || (tget c.dips g).isSome))

/-- The code of sample i of F3 and F4. -/
def CalRun.codeAt (c : CalRun) (g : Pos) (i : Nat) : Nat :=
  if c.step = 3 then 8 * i else (clampI 0 16383 (((tget c.dips g).getD 0 : Int) - 256 + 2 * i)).toNat

/-- The samples of one ring. -/
def CalRun.of (c : CalRun) (g : Pos) : List (Nat × Nat) := (c.samples.filter (fun x => x.1 = g.val)).map (·.2)

/-- A set of F3 or F4 is complete: each ring has its dip, or its TARGET and BIAS, or fails. -/
def State.calSetEnd (s : State) (p : Port) (c : CalRun) (g : Pos) : State :=
  if c.step = 3 then
    let t := (s.dieTemp (p.val / 4)).getD 0
    let k := txRing g
    match nearestDip (dipsOf (c.of g)) (s.centre p k t) with
    | some d =>
      let s := s.setCal p (fun c => { c with dips := upd c.dips g (some d) })
      s.setRing p k (fun x => { x with u := d * 256 })
    | none => s.calRingOff p g
  else
    match f4Result (c.of g) with
    | some (b, t) =>
      let s := s.setRing p (txRing g) (fun x => { (x.setBias b) with target := t })
      s.setCal p (fun c => { c with okF4 := upd c.okF4 g true })
    | none => s.calRingOff p g

/-- F3 and F4: one frame of a sweep. -/
def State.calSweep (s : State) (p : Port) (fresh : List Bool) (c : CalRun) : State :=
  let r := s.port p
  let l := c.rings
  let n := if c.step = 3 then 2048 else 256
  if r.tapDark then s.calFail p
  else if decide (0 < c.idx) && ! l.all (fun g => fresh.getD g.val false) then s
  else
    let c' := if 0 < c.idx then
      { c with samples := c.samples ++ l.map (fun g => (g.val, c.codeAt g (c.idx - 1), r.ratio (txRing g))) } else c
    if c.idx = n then
      let s := s.each l (fun s g => s.calSetEnd p c' g)
      if c.set = 4 then
        let s := s.calNext p (c.step + 1)
        if c.step = 3 then s
        else s.each ((match (s.port p).cal with | some x => x.live | none => [])) (fun s g => s.setRing p (txRing g) (fun x => x.enter .track))
      else s.setCal p (fun x => { x with set := c.set + 1, idx := 0, samples := [] })
    else
      let s := s.each l (fun s g => s.setRing p (txRing g) (fun x => { x with u := c.codeAt g c.idx * 256 }))
      s.setCal p (fun x => { x with samples := c'.samples, idx := c.idx + 1 })

/-- R388: the row of C = I − E + E² for ring k, over the measured changes of u (units of 1/256 code, for Δ = 2^18). -/
def xtRow (coup : List (Nat × Nat × Int)) (k : Nat) : Vector Int 9 :=
  let e := fun (a b : Nat) => match coup.find? (fun x => x.1 == a && x.2.1 == b) with | some x => -x.2.2 | none => 0
  tab 9 (fun d =>
    let j := k + d.val
    if 4 ≤ j ∧ j - 4 < 18 then
      let j := j - 4
      let sq := (List.range 18).foldl (fun acc m => acc + e k m * e m j) 0
      clampI (-32768) 32767 (roundAway ((if j = k then (2 : Int) ^ 36 else 0) - e k j * 2 ^ 18 + sq) (2 ^ 22))
    else 0)

/-- F5: lock under the identity, then each of nine sets raised by 1,024 codes for 5 ms, read, and restored for 5 ms. -/
def State.calF5 (s : State) (p : Port) (c : CalRun) : State :=
  let r := s.port p
  let set := c.live.filter (fun g => decide (g.val % 9 + 1 = c.set))
  if c.set = 0 then
    if c.live.all (fun g => (r.ring (txRing g)).lock) then s.setCal p (fun c => { c with set := 1, ph := 0 }) else s
  else if c.ph = 0 then
    let s := s.setCal p (fun c => { c with ph := 1, phAt := s.now, before := allPos.map (fun g => (r.ring (txRing g)).u) })
    s.each set (fun s g => s.setRing p (txRing g) (fun x => { (x.enter .hold) with u := min 4194303 (x.u + 262144) }))
  else if ! s.past c.phAt (msCyc 5) then s
  else if c.ph = 1 then
    let got := set.flatMap (fun j => (c.live.filter (fun k => k ≠ j && decide (codeGap k.val j.val ≤ 4))).map (fun k =>
      (k.val, j.val, ((r.ring (txRing k)).u : Int) - (c.before.getD k.val 0 : Nat))))
    let s := s.each set (fun s g => s.setRing p (txRing g) (fun x => { (x.enter .track) with u := c.before.getD g.val x.u }))
    s.setCal p (fun c => { c with ph := 2, phAt := s.now, coup := c.coup ++ got })
  else if c.set < 9 then s.setCal p (fun c => { c with set := c.set + 1, ph := 0 })
  else
    let s := s.setPort p (fun r => { r with xt := tab 18 (fun k => xtRow c.coup k.val), xtLoad := true })
    let s := s.each c.live (fun s g => s.setRing p (txRing g) (fun x => { x with lock := false, good := 0, bad := 0 }))
    s.calNext p 6

/-- F6 and F7: every ring locked under the new matrix; its record, and the port's. -/
def State.calF6 (s : State) (p : Port) (c : CalRun) : State :=
  let r := s.port p
  if ! r.xtLoad && c.live.all (fun g => (r.ring (txRing g)).lock) then
    let s := s.each c.live (fun s g => s.ringDone p (txRing g))
    s.calLeave p (decide (16 ≤ c.live.length))
  else s

/-- One loop frame of a port's full calibration. -/
def State.calFrame (s : State) (p : Port) (fresh : List Bool) : State :=
  match (s.port p).cal with
  | some c =>
    if c.step = 1 then s.calF1 p
    else if c.step = 2 then s.calF2 p c
    else if c.step = 3 ∨ c.step = 4 then s.calSweep p fresh c
    else if c.step = 5 then s.calF5 p c
    else s.calF6 p c
  | none => s

/-- R386: the limit of a step. -/
def calLimit (step : Nat) : Nat :=
  msCyc (match step with | 1 => 10 | 2 => 3000 | 3 => 1000 | 4 => 200 | 5 => 300 | 6 => 100 | _ => 50)

end Sys2Proof.Machine
end

