-- ==== Sys2Proof/Machine/Num.lean ====
section
/-! DEFINITION. The number formats of Crest and Cornice (R198, R199) as exact values, and the conversions of R200 to
R202, rounded once. -/

namespace Sys2Proof.Machine

/-- A value of a number format: not a number, an infinity, or (−1)^neg × m × 2^e. -/
inductive Num
  | nan
  | inf (neg : Bool)
  | fin (neg : Bool) (m : Nat) (e : Int)
  deriving DecidableEq, Repr

/-- Positive zero. -/
def Num.zero : Num := .fin false 0 0

/-- An integer. -/
def Num.ofInt (v : Int) : Num := .fin (decide (v < 0)) v.natAbs 0

/-! ## Exact arithmetic -/

/-- A finite value as an integer count of 2^q, for q no larger than its exponent. -/
def alignTo (q : Int) (neg : Bool) (m : Nat) (e : Int) : Int :=
  let v : Int := (m * 2 ^ (e - q).toNat : Nat)
  if neg then -v else v

/-- Exact sum; an exact zero is +0 unless both are −0. -/
def Num.add : Num → Num → Num
  | .nan, _ => .nan
  | _, .nan => .nan
  | .inf a, .inf b => if a = b then .inf a else .nan
  | .inf a, _ => .inf a
  | _, .inf b => .inf b
  | .fin a m e, .fin b n f =>
    let q := min e f
    let v := alignTo q a m e + alignTo q b n f
    .fin (if v = 0 then a && b && decide (m = 0) && decide (n = 0) else decide (v < 0)) v.natAbs q

/-- Exact product; infinity times zero is NaN (R200). -/
def Num.mul : Num → Num → Num
  | .nan, _ => .nan
  | _, .nan => .nan
  | .inf a, .inf b => .inf (xor a b)
  | .inf a, .fin b n _ => if n = 0 then .nan else .inf (xor a b)
  | .fin a m _, .inf b => if m = 0 then .nan else .inf (xor a b)
  | .fin a m e, .fin b n f => .fin (xor a b) (m * n) (e + f)

/-- Whether a finite or infinite value is below another; zeros are equal. -/
def Num.lt : Num → Num → Bool
  | .inf a, .inf b => a && ! b
  | .inf a, .fin _ _ _ => a
  | .fin _ _ _, .inf b => ! b
  | .fin a m e, .fin b n f => let q := min e f; decide (alignTo q a m e < alignTo q b n f)
  | _, _ => false

/-- The value is a zero. -/
def Num.isZero : Num → Bool
  | .fin _ m _ => m == 0
  | _ => false

/-! ## Rounding -/

/-- `n ÷ d` to the nearest integer, ties to even. -/
def rne (n d : Nat) : Nat :=
  let q := n / d
  let r := n % d
  if 2 * r < d then q else if d < 2 * r then q + 1 else q + q % 2

/-- m × 2^e as an integer count of 2^q, to nearest with ties to even. -/
def quantize (m : Nat) (e q : Int) : Nat :=
  if q ≤ e then m * 2 ^ (e - q).toNat else rne m (2 ^ (q - e).toNat)

/-- A floating format: exponent and mantissa bits, bias, code of the largest finite magnitude, canonical NaN, and the
code of its infinity when it has one (R198, R201). -/
structure FpFmt where
  eb : Nat
  mb : Nat
  bias : Nat
  top : Nat
  qnan : Nat
  inf : Option Nat

def fpE4M3 : FpFmt := { eb := 4, mb := 3, bias := 7, top := 0x7E, qnan := 0x7F, inf := none }
def fpE5M2 : FpFmt := { eb := 5, mb := 2, bias := 15, top := 0x7B, qnan := 0x7F, inf := some 0x7C }
def fpBF16 : FpFmt := { eb := 8, mb := 7, bias := 127, top := 0x7F7F, qnan := 0x7FC0, inf := some 0x7F80 }
def fpFP32 : FpFmt := { eb := 8, mb := 23, bias := 127, top := 0x7F7FFFFF, qnan := 0x7FC00000, inf := some 0x7F800000 }

/-- The magnitude code of m × 2^e rounded once into a format, which may lie above its largest finite code. -/
def FpFmt.code (f : FpFmt) (m : Nat) (e : Int) : Nat :=
  if m = 0 then 0
  else
    let q := max ((Nat.log2 m : Int) + e - f.mb) (1 - (f.bias : Int) - f.mb)
    let r := quantize m e q
    let biased := (q + f.mb + f.bias).toNat
    if r < 2 ^ f.mb then r else (biased - 1) * 2 ^ f.mb + r

/-- The value of a code of a floating format. -/
def FpFmt.value (f : FpFmt) (w : Nat) : Num :=
  let neg := bitAt w (f.eb + f.mb)
  let mag := w % 2 ^ (f.eb + f.mb)
  let ex := mag / 2 ^ f.mb
  let man := mag % 2 ^ f.mb
  if f.top < mag then (if f.inf = some mag then .inf neg else .nan)
  else if ex = 0 then .fin neg man (1 - (f.bias : Int) - f.mb)
  else .fin neg (man + 2 ^ f.mb) ((ex : Int) - f.bias - f.mb)

/-- R201: a value converted to a floating format; the flag is a saturation. -/
def FpFmt.conv (f : FpFmt) (v : Num) : Nat × Bool :=
  let sign := fun (neg : Bool) (c : Nat) => bnat neg * 2 ^ (f.eb + f.mb) + c
  match v with
  | .nan => (f.qnan, false)
  | .inf neg => match f.inf with | some c => (sign neg c, false) | none => (sign neg f.top, true)
  | .fin neg m e =>
    let c := f.code m e
    if f.top < c then (sign neg f.top, true) else (sign neg c, false)

/-- One IEEE rounding to FP32, where an overflow is an infinity (R200). -/
def Num.toF32 : Num → Num
  | .fin neg m e =>
    let c := fpFP32.code m e
    if fpFP32.top < c then .inf neg else fpFP32.value (bnat neg * 2 ^ 31 + c)
  | v => v

/-- R201: a value converted to a two's-complement format of `b` bits. -/
def convInt (b : Nat) (v : Num) : Nat × Bool :=
  let top : Int := (2 ^ (b - 1) : Nat)
  match v with
  | .nan => (0, true)
  | .inf neg => (unsgn b (if neg then -top else top - 1), true)
  | .fin neg m e =>
    let r : Int := (quantize m e 0 : Nat)
    let w := if neg then -r else r
    if w < -top then (unsgn b (-top), true) else if top - 1 < w then (unsgn b (top - 1), true) else (unsgn b w, false)

/-! ## FP4 (R198, R199, R202) -/

/-- Twice the E2M1 magnitudes. -/
def e2m1 (c : Nat) : Nat := [0, 1, 2, 3, 4, 6, 8, 12].getD (c % 8) 0

/-- The value of a 4-bit element under a scale byte. -/
def fp4Value (x c : Nat) : Num :=
  if x = 0xFF then .nan else .fin (bitAt c 3) (e2m1 c) ((x : Int) - 127 - 1)

/-- floor(log2) of m × 2^e for m not 0. -/
def floorLog2 (m : Nat) (e : Int) : Int := (Nat.log2 m : Int) + e

/-- R202: the scale byte of a block, and whether it was clamped at 254. -/
def fp4Scale (l : List Num) : Nat × Bool :=
  if l.any (fun v => match v with | .fin _ _ _ => false | _ => true) then (0xFF, false)
  else
    let tops := l.filterMap (fun v => match v with | .fin _ m e => if m = 0 then none else some (floorLog2 m e) | _ => none)
    match tops with
    | [] => (127, false)
    | t :: r =>
      let x := r.foldl max t + 125
      if x < 0 then (0, false) else if 254 < x then (254, true) else (x.toNat, false)

/-- R202: one element under its block's scale: nearest magnitude, ties to the even code, saturated at 6. -/
def fp4Elem (x : Nat) (v : Num) : Nat :=
  match v with
  | .fin neg m e =>
    let k := e - ((x : Int) - 127)
    -- compares m × 2^k with the midpoints, in quarters
    let geq := fun (quarters : Nat) (strict : Bool) =>
      let a := if 0 ≤ k then 4 * m * 2 ^ k.toNat else 4 * m
      let b := if 0 ≤ k then quarters else quarters * 2 ^ (-k).toNat
      if strict then decide (b < a) else decide (b ≤ a)
    let c := if geq 20 true then 7 else if geq 14 false then 6 else if geq 10 true then 5 else if geq 7 false then 4
      else if geq 5 true then 3 else if geq 3 false then 2 else if geq 1 true then 1 else 0
    bnat neg * 8 + c
  | _ => 0

/-! ## Formats by code (R198) -/

/-- The value of an element of a format other than FP4. -/
def fmtValue (f w : Nat) : Num :=
  if f = 0 then .ofInt (sgn 4 w)
  else if f = 2 then .ofInt (sgn 8 w)
  else if f = 3 then fpE4M3.value w
  else if f = 4 then fpE5M2.value w
  else if f = 5 then fpBF16.value w
  else if f = 6 then .ofInt (sgn 32 w)
  else fpFP32.value w

/-- R201: a value converted to a format other than FP4. -/
def fmtConv (f : Nat) (v : Num) : Nat × Bool :=
  if f = 0 then convInt 4 v
  else if f = 2 then convInt 8 v
  else if f = 3 then fpE4M3.conv v
  else if f = 4 then fpE5M2.conv v
  else if f = 5 then fpBF16.conv v
  else if f = 6 then convInt 32 v
  else fpFP32.conv v

/-! ## Sums of R200 -/

/-- The exact sum of a list. -/
def exactSum (l : List Num) : Num := l.foldl Num.add Num.zero

/-- A list cut into groups of `n`. -/
def groupsOf {α : Type} (n : Nat) : Nat → List α → List (List α)
  | 0, _ => []
  | fuel + 1, l => if l.isEmpty then [] else l.take n :: groupsOf n fuel (l.drop n)

/-- R200: an FP32 accumulation of products in groups of 32, ascending, one rounding for each group. -/
def accFloat (ps : List Num) : Num :=
  (groupsOf 32 ps.length ps).foldl (fun a g => (a.add (exactSum g)).toF32) Num.zero

/-- INT32 with saturation; the flag counts one. -/
def sat32 (v : Int) : Int × Bool :=
  if v < -(2 ^ 31 : Nat) then (-(2 ^ 31 : Nat), true)
  else if (2 ^ 31 : Nat) - 1 < v then ((2 ^ 31 : Nat) - 1, true) else (v, false)

end Sys2Proof.Machine
end

