-- ==== Sys2Proof/Machine/Elementary.lean ====
section
/-! DEFINITION. The functions of ELTWISE whose value the manual gives within a relative error of 2^−20 (R210): GELU, SiLU,
exp and the reciprocal square root. Each is computed far more closely than that, in counts of 2^−160, and then moved by a
free amount within the bound (log 53). -/

namespace Sys2Proof.Machine

/-- ln 2 in counts of 2^−160. -/
def ln2Fix : Nat := 0xb17217f7d1cf79abc9e3b39803f2f6af40f34326

/-- 2 √(2 ÷ π) in counts of 2^−160: twice the constant of GELU's tanh form. -/
def geluFix : Nat := 0x19884533d436508d0fcb3c500bab8e2ff4e0a7cc1

/-- The terms of the exponential series from the i-th on, each from the one before it. -/
def expTerms (r : Nat) : Nat → Nat → Nat → Nat
  | 0, _, _ => 0
  | n + 1, i, t => t + expTerms r n (i + 1) (t * r / 2 ^ 160 / (i + 1))

/-- exp(z) for z in counts of 2^−160: a number m and an exponent k, for m × 2^k. -/
def expFix (z : Int) : Nat × Int :=
  let k := z / (ln2Fix : Int)
  (expTerms (z - k * (ln2Fix : Int)).toNat 48 0 (2 ^ 160), k - 160)

/-- A finite value in counts of 2^−160, toward zero. -/
def fixOf (neg : Bool) (m : Nat) (e : Int) : Int :=
  let v : Int := (if 0 ≤ e + 160 then m * 2 ^ (e + 160).toNat else m / 2 ^ (-(e + 160)).toNat : Nat)
  if neg then -v else v

/-- 1 ÷ (1 + exp(−z)) for z in counts of 2^−160: a number m and an exponent k, for m × 2^k. -/
def logistic (z : Int) : Nat × Int :=
  if 0 ≤ z then
    let (m, k) := expFix (-z)
    (2 ^ 320 / (2 ^ 160 + m / 2 ^ (-(k + 160)).toNat), -160)
  else
    let (m, k) := expFix z
    (m * 2 ^ 160 / (2 ^ 160 + m / 2 ^ (-(k + 160)).toNat), k)

/-- The square root of `n`, rounded down, for `n` below 4^bits. -/
def isqrt (n : Nat) : Nat → Nat → Nat
  | 0, r => r
  | b + 1, r => isqrt n b (if (r + 2 ^ b) * (r + 2 ^ b) ≤ n then r + 2 ^ b else r)

/-- R210: m × 2^e with a free relative error of at most 2^−20 (and a further 2^−44, which covers the error of the
computation). -/
def nearF (fn : Nat) (bits : List Nat) (neg : Bool) (m : Nat) (e : Int) : Num :=
  .fin neg (m * (2 ^ 44 - (2 ^ 24 + 1) + Config.eltwise fn 7 bits % (2 ^ 25 + 3))) (e - 44)

/-- R210: ELTWISE functions 0x05 to 0x08 of one value. The manual states no result for exp beyond the range of FP32 (an
infinity or a saturation), for the root of zero or of a negative value, and for GELU and SiLU of −∞ (log 53). -/
def eltFun (fn : Nat) (v : Num) : Num :=
  let bits := [(fpFP32.conv v).1]
  let free := fpFP32.value (Config.corner (0x0200 + fn) bits)
  let high : Num := if bitAt (Config.corner 0x0207 bits) 0 then .inf false else .fin false 1 400
  match v with
  | .nan => .nan
  | .inf neg =>
    if fn = 7 then (if neg then Num.zero else .inf false)
    else if neg then free
    else if fn = 8 then Num.zero else .inf false
  | .fin neg m e =>
    let big := decide (2 ^ 408 ≤ m * 2 ^ (e + 400).toNat)
    let x := fixOf neg m e
    if fn = 7 then
      if big then (if neg then .fin false 1 (-400) else high)
      else
        let (n, k) := expFix x
        if 128 ≤ floorLog2 n k then high else nearF fn bits false n k
    else if fn = 8 then
      if m = 0 ∨ neg then free
      else
        let (m, e) := if e % 2 = 0 then (m, e) else (2 * m, e - 1)
        nearF fn bits false (isqrt (2 ^ 400 / m) 200 0) (-200 - e / 2)
    else if m = 0 then .fin neg 0 0
    else if big then (if neg then .fin true 1 (-400) else nearF fn bits false m e)
    else
      let sq := x * x / 2 ^ 160
      let z := if fn = 6 then x else (geluFix : Int) * x / 2 ^ 160 * (1000000 * 2 ^ 160 + 44715 * sq) / (1000000 * 2 ^ 160)
      if z < -(300 * 2 ^ 160) then .fin true 1 (-400)
      else
        let (n, k) := logistic z
        nearF fn bits neg (m * n) (e + k)

end Sys2Proof.Machine
end

