-- ==== Sys2Proof/Machine/CrestOps.lean ====
section
/-! DEFINITION. What Crest operations share: the address regions (R195 to R197), matrices (R199), landings in the job and
send areas (R251, R353), the Traverse endpoint (R356), and the run of an operation list (R207 to R214). -/

namespace Sys2Proof.Machine

/-! ## SRAM with error correction (R197) -/

/-- What a read or a write of an operation meets. -/
inductive Access
  | ok (bs : List Byte) (pz : Nat) (s : State)
  | wait (s : State)
  | fault (cause : Nat)

/-- R197: bytes of tile SRAM (`tile` some) or of a quad-buffer slice: corrections counted, an uncorrectable word counted,
logged once and poisoned with origin 3. -/
def State.sramRead (s : State) (q : Quad) (tile : Option (Fin 4)) (a n : Nat) : List Byte × Nat × State :=
  let base := match tile with | some t => (q.val * 4 + t.val) * 2 ^ 21 + a | none => q.val * 2 ^ 21 + a
  let c := s.crest
  let mem := if tile.isSome then c.sram else c.qbuf
  let flaws := if tile.isSome then c.sramFlaws else c.qbufFlaws
  let pois := if tile.isSome then c.sramPoison else c.qbufPoison
  let fl := (List.range (n / 8)).filterMap (fun i =>
    let f := spGet Flaw.none flaws (base / 8 + i)
    if f = .none then none else some (i, f))
  let marks := ((List.range (n / 32)).map (fun i => spGet 0 pois (base / 32 + i))).filter (· ≠ 0)
  let ues := (fl.filter (fun f => f.2 == .ue && spGet 0 pois (base / 32 + f.1 / 4) == 0)).map (·.1)
  let s := s.setCq q (fun k =>
    { k with eccCe := satAdd k.eccCe (fl.filter (fun f => f.2 == .ce)).length 0xFFFF
             eccUe := satAdd k.eccUe ues.length 255 })
  let s := s.each ues (fun s i =>
    let d := detailOf q.val (a + 8 * i) + (match tile with | some t => t.val * 2 ^ 32 | none => 2 ^ 34)
    let s := s.log 1 0x06 1 d (s.owner q) (stPoisoned 3).num
    { s with crest := if tile.isSome
      then { s.crest with sramPoison := spSet 0 s.crest.sramPoison ((base + 8 * i) / 32) 3 }
      else { s.crest with qbufPoison := spSet 0 s.crest.qbufPoison ((base + 8 * i) / 32) 3 } })
  (spRead mem base n, (match marks with | m :: _ => m | [] => if ues.isEmpty then 0 else 3), s)

/-- R197, R431: whole 32-byte units written with the poison they carry. -/
def State.sramWrite (s : State) (q : Quad) (tile : Option (Fin 4)) (a : Nat) (bs : List Byte) (pz : Nat) : State :=
  let base := match tile with | some t => (q.val * 4 + t.val) * 2 ^ 21 + a | none => q.val * 2 ^ 21 + a
  let n := bs.length
  let mark := fun (m : Sparse Nat) =>
    (List.range (n / 32)).foldl (fun m i => spSet 0 m (base / 32 + i) pz) m
  { s with crest := if tile.isSome
    then { s.crest with sram := spWrite s.crest.sram base bs, sramPoison := mark s.crest.sramPoison
                        sramFlaws := spClear s.crest.sramFlaws (base / 8) (n / 8) }
    else { s.crest with qbuf := spWrite s.crest.qbuf base bs, qbufPoison := mark s.crest.qbufPoison
                        qbufFlaws := spClear s.crest.qbufFlaws (base / 8) (n / 8) } }

/-- R113, R134: the SRAM of a quad cleared. -/
def State.clearQuadSram (s : State) (q : Quad) : State :=
  let t := q.val * 4 * 2 ^ 21
  let b := q.val * 2 ^ 21
  { s with crest := { s.crest with
    sram := spClear s.crest.sram t (2 ^ 23), sramPoison := spClear s.crest.sramPoison (t / 32) (2 ^ 18)
    sramFlaws := spClear s.crest.sramFlaws (t / 8) (2 ^ 20)
    qbuf := spClear s.crest.qbuf b (2 ^ 21), qbufPoison := spClear s.crest.qbufPoison (b / 32) (2 ^ 16)
    qbufFlaws := spClear s.crest.qbufFlaws (b / 8) (2 ^ 18) } }

/-! ## Regions (R195, R196) -/

/-- TILE_W_KIB and QBUF_IN_KIB of a quad, in bytes. -/
def State.tileW (s : State) (q : Quad) : Nat := match s.quadCfg q with | some c => c.tileWKib * 1024 | none => 0
def State.qbufIn (s : State) (q : Quad) : Nat := match s.quadCfg q with | some c => c.qbufInKib * 1024 | none => 0

/-- R195: the length of an item's context, and `n` bytes of it. -/
def Item.ctxLen (i : Item) : Nat :=
  match i.kind with
  | .desc _ _ _ _ _ _ (.run _ _ n ..) => n
  | .step _ => 32
  | .handoff a _ => a.msg.hdr.len
  | _ => 0

def State.ctxRead (s : State) (i : Item) (o n : Nat) : List Byte × Nat × State :=
  match i.kind with
  | .desc _ _ _ _ _ _ (.run _ _ _ arg ..) => s.winRead i.part (arg + o) n
  | .step r => (sliceB (r.bytes i.part) o n, 0, s)
  | .handoff _ (some k) => s.winRead i.part (s.cellAt i.part k + 32 + o) n
  | _ => (List.replicate n 0, 0, s)

/-- R195: `n` bytes of the covered inbound frames, frame f at 320 f. -/
def State.framesRead (s : State) (r : StepRec) (o n : Nat) : List Byte × Nat × State :=
  (List.range (n / 32)).foldl (fun acc k =>
    let a := o + 32 * k
    let (bs, pz, s) := acc.2.2.memRead (inSlot r.sess.val (r.frameFirst + a / 320) + a % 320) 32
    (acc.1 ++ bs, if acc.2.1 ≠ 0 then acc.2.1 else pz, s)) ([], 0, s)

/-- A read of an operation of a tile, or of the quad's engine (`tile` none). -/
def State.opRead (s : State) (q : Quad) (tile : Option (Fin 4)) (i : Item) (a n : Nat) : Access :=
  if n = 0 then .ok [] 0 s
  else match regionOf (s.tileW q) s.qbufIn a n with
    | .weight | .act => let (bs, pz, s) := s.sramRead q tile a n; .ok bs pz s
    | .qbuf => let (bs, pz, s) := s.sramRead q none (a - 0x01000000) n; .ok bs pz s
    | .ctx =>
      if i.ctxLen < a - 0x08000000 + n then .fault 1
      else let (bs, pz, s) := s.ctxRead i (a - 0x08000000) n; .ok bs pz s
    | .frames =>
      match i.stepRec with
      | some r => if 320 * r.frameCount < a - 0x0A000000 + n then .fault 2
                  else let (bs, pz, s) := s.framesRead r (a - 0x0A000000) n; .ok bs pz s
      | none => .fault 2
    | _ => .ok (List.replicate n 0) 0 s

/-! ## The Traverse endpoint (R356) -/

/-- R356: appends of an endpoint sequence are taken as their bytes land. -/
def State.endptTake (s : State) (e : EndPt) : Nat → State × EndPt
  | 0 => (s, e)
  | fuel + 1 =>
    if e.ended || e.top < e.off + 16 then (s, e)
    else
      let (a, ok) := appendOf (spRead e.bytes e.off 16)
      let total := 16 + s.appendBytes a
      if ! ok || 2 ^ 20 < e.off + total then
        ({ s with trv := { s.trv with pcnt := updWith s.trv.pcnt e.part (fun v => updWith v 2 (fun c => satAdd c a.frames 1023)) } },
         { e with ended := true })
      else if e.top < e.off + total then (s, e)
      else
        let a := { a with data := spRead e.bytes (e.off + 16) (total - 16) }
        let own := a.part == e.part
        let s := if own then { s with trv := { s.trv with appends := s.trv.appends ++ [a] } }
          else { s with trv := { s.trv with
            pcnt := updWith s.trv.pcnt e.part (fun v => updWith v 2 (fun c => satAdd c a.frames 1023)) } }
        State.endptTake s { e with off := cdiv (e.off + total) 32 * 32 } fuel

/-- R356: bytes of an entry land at the endpoint. -/
def State.endptWrite (s : State) (i : Item) (o : Nat) (bs : List Byte) : State :=
  let e := (s.trv.endpts.find? (fun e => e.item == i.id)).getD
    { item := i.id, part := i.part, bytes := [], top := 0, off := 0, ended := false }
  let e := { e with bytes := spWrite e.bytes o bs, top := max e.top (o + bs.length) }
  let (s, e) := s.endptTake e 65536
  { s with trv := { s.trv with endpts := s.trv.endpts.filter (fun x => x.item ≠ i.id) ++ [e] } }

/-! ## Entry output (R196) -/

/-- R196: the limit of an item's entry output. -/
def State.outLimit (s : State) (i : Item) : Nat :=
  match i.kind with
  | .desc _ _ _ _ _ _ (.run _ _ _ _ _ m _) => m
  | .step r => match s.sessAny r.sess.val with | some x => x.slotSize - 16 | none => 0
  | .handoff a _ => a.msg.hdr.aux
  | _ => 0

/-- R196: bytes of an entry's output: those within the limit land, and the output length grows. -/
def State.outWrite (s : State) (i : Item) (o : Nat) (bs : List Byte) (pz : Nat) : State :=
  let bs := bs.take (s.outLimit i - o)
  if bs.isEmpty then s
  else
    let s := match i.kind with
      | .desc _ _ _ _ _ _ (.run _ _ _ _ out _ _) => s.winWrite i.part (out + o) bs pz i.stepKey
      | .step r => s.winWrite i.part (r.slot + 16 + o) bs pz i.stepKey
      | _ => s.setItem i.id (fun j => { j with outBuf := spWrite j.outBuf o bs })
    s.setItem i.id (fun j => { j with outLen := max j.outLen (o + bs.length) })

/-- A quad can take a remote write: in Run and reloaded. -/
def State.quadUp (s : State) (q : Quad) : Bool :=
  let k := s.quad q
  k.st == .run && k.pll && ! k.reload && k.waking.isNone

/-- A demand for a quad that is not in Run (R57, R196): the wake it asks for is counted from now. -/
def State.demand (s : State) (q : Quad) : State :=
  s.setQ q (fun k => { k with waitFrom := some (k.waitFrom.getD s.now) })

/-- A write of an operation of a tile, or of the quad's engine (`tile` none). -/
def State.opWrite (s : State) (q : Quad) (tile : Option (Fin 4)) (i : Item) (a : Nat) (bs : List Byte) (pz : Nat) :
    Access :=
  if bs.isEmpty then .ok [] 0 s
  else match regionOf (s.tileW q) s.qbufIn a bs.length with
    | .act => .ok [] 0 (s.sramWrite q tile a bs pz)
    | .qbuf => .ok [] 0 (s.sramWrite q none (a - 0x01000000) bs pz)
    | .remote r =>
      let o := a - 0x02000000 - r.val * 0x200000
      if r = q then .ok [] 0 (s.sramWrite q none o bs pz)
      else if (s.owner r).any (fun p => (s.part p).state != .running) then .ok [] 0 s
      else if s.quadUp r then .ok [] 0 (s.sramWrite r none o bs pz)
      else .wait (s.demand r)
    | .endpoint =>
      if i.stepRec.isSome then .ok [] 0 (s.endptWrite i (a - 0x0A100000) bs) else .fault 3
    | .out => .ok [] 0 (s.outWrite i (a - 0x10000000) bs pz)
    | _ => .ok [] 0 s

/-! ## Landings (R251, R353) -/

/-- R251, R353: an aligned 128-byte write by a MOVE or a COPY in the job or the send area starts a job or a send. -/
def State.landing (s : State) (p : Part) (o : Nat) (bs : List Byte) (owner : Option (Nat × Quad)) : State :=
  match s.cfg p with
  | none => s
  | some c =>
    if bs.length ≠ 128 ∨ o % 128 ≠ 0 ∨ leAt bs 0 1 = 0 then s
    else
      let bump := fun (s : State) (f : Item → Item) => match owner with | some (id, _) => s.setItem id f | none => s
      let top := tenantTop c
      if top - 4096 ≤ o ∧ o < top then
        bump (s.setSpurPart p (fun r => { r with landed := r.landed ++ [((o - (top - 4096)) / 128, bs, owner)] }))
          (fun i => { i with jobs := i.jobs + 1 })
      else if top - 8192 ≤ o ∧ o < top - 4096 then
        bump (s.setPart p (fun r => { r with sendRecs := r.sendRecs ++ [((o - (top - 8192)) / 128, bs, owner)] }))
          (fun i => { i with sends := i.sends + 1 })
      else s

/-- R254: the write would start a 65th job of its partition, and waits. -/
def State.landFull (s : State) (p : Part) (o : Nat) (bs : List Byte) : Bool :=
  match s.cfg p with
  | none => false
  | some c =>
    bs.length == 128 && o % 128 == 0 && decide (leAt bs 0 1 ≠ 0) && decide (tenantTop c - 4096 ≤ o) && decide (o < tenantTop c)
      && decide (64 ≤ (s.spur.jobs.filter (fun j => j.part == p)).length + (tget s.spur.parts p).landed.length)

/-! ## Matrices (R199) -/

/-- One element code of a row of bytes. -/
def elemCode (f : Nat) (row : List Byte) (c : Nat) : Nat :=
  if fmtBits f = 4 then
    let b := leAt row (c / 2) 1
    if c % 2 = 0 then b % 16 else b / 16
  else leAt row (c * fmtBits f / 8) (fmtBits f / 8)

/-- R199: the rows of an activation or output matrix. -/
def matRows (f r c : Nat) (bs : List Byte) : List (List Num) :=
  let rb := rowBytes f c
  (List.range r).map (fun m =>
    let row := sliceB bs (m * rb) rb
    let scales := sliceB bs (r * rb + m * scaleRow c) (scaleRow c)
    (List.range c).map (fun j =>
      if f = 1 then fp4Value (leAt scales (j / 32) 1) (elemCode f row j) else fmtValue f (elemCode f row j)))

/-- R199: the weight of row k and column n. -/
def weightAt (f K : Nat) (bs : List Byte) (k n : Nat) : Num :=
  let kb := blockK f
  let base := (n / 128 * cdiv K kb + k / kb) * wBlockBytes f
  let e := k % kb * 128 + n % 128
  if f = 1 then
    let b := leAt bs (base + e / 2) 1
    let x := leAt bs (base + kb * 64 + k % kb / 32 * 128 + n % 128) 1
    fp4Value x (if e % 2 = 0 then b % 16 else b / 16)
  else if f = 0 then
    let b := leAt bs (base + e / 2) 1
    fmtValue 0 (if e % 2 = 0 then b % 16 else b / 16)
  else fmtValue f (leAt bs (base + e * fmtBits f / 8) (fmtBits f / 8))

/-- Element codes packed into a row of bytes padded to 32 (R199). -/
def packRow (f : Nat) (codes : List Nat) : List Byte :=
  let raw := if fmtBits f = 4 then
      (List.range (cdiv codes.length 2)).flatMap (fun i => leBytes 1 (codes.getD (2 * i) 0 + 16 * codes.getD (2 * i + 1) 0))
    else codes.flatMap (fun c => leBytes (fmtBits f / 8) c)
  raw ++ List.replicate (pad32 raw.length - raw.length) 0

/-- R201, R202: an output matrix in a format, and its saturations. -/
def encMat (f : Nat) (rows : List (List Num)) : List Byte × Nat :=
  if f = 1 then
    let blocks := rows.map (fun r => groupsOf 32 r.length r)
    let scales := blocks.map (fun r => r.map fp4Scale)
    let elems := (blocks.zip scales).flatMap (fun p =>
      packRow 1 ((p.1.zip p.2).flatMap (fun b => b.1.map (fp4Elem b.2.1))))
    let plane := scales.flatMap (fun r =>
      let raw := r.map (fun x => BitVec.ofNat 8 x.1)
      raw ++ List.replicate (pad32 raw.length - raw.length) 0)
    (elems ++ plane, (scales.map (fun r => (r.filter (·.2)).length)).sum)
  else
    let conv := rows.map (fun r => r.map (fmtConv f))
    (conv.flatMap (fun r => packRow f (r.map (·.1))), (conv.map (fun r => (r.filter (·.2)).length)).sum)

/-! ## Running a list -/

/-- CST_QCNT.SAT. -/
def State.satCount (s : State) (q : Quad) (n : Nat) : State := s.setCq q (fun c => { c with sat := satAdd c.sat n 0xFFFF })

/-- The item consumed poison of an origin; the first mark stays (R432). -/
def State.consume (s : State) (id pz : Nat) : State :=
  if pz = 0 then s else s.setItem id (fun i => { i with poison := some (i.poison.getD pz) })

/-- R214: the item's first operation issues now. -/
def State.markFirst (s : State) (id : Nat) : State :=
  s.setItem id (fun i => { i with begun := true, firstOp := some (i.firstOp.getD s.now) })

/-- The tile moves on to its next operation. -/
def State.nextOp (s : State) (q : Quad) (t : Fin 4) (pc : Option Nat) : State :=
  s.setCq q (fun c => match c.run with
    | some r => { c with run := some { r with tiles := updWith r.tiles t (fun x => { pc := pc, op := x.op + 1 }) } }
    | none => c)

/-- The operation at which a tile's list stands, when an operation of this OPC may issue now: the quad is in Run, CAP is
above 0, k is above 0 where k governs it (R205, R206), and no stop is requested. -/
def State.tileOp (s : State) (q : Quad) (t : Fin 4) (opc : Nat) (f : State → Item → KOp → Nat → State) : State :=
  let c := s.cq q
  match c.run with
  | none => s
  | some r =>
    match (tget r.tiles t).pc, s.item r.item with
    | some pc, some i =>
      let o := kopAt c.kernel pc
      let governed := opc == 1 || opc == 2 || opc == 3
      s.when (decide (o.opc = opc) && s.quadUp q && decide (0 < c.cap) && (! governed || decide (0 < c.k))
          && i.stop.isNone && i.fin.isNone) (fun s => f (s.markFirst i.id) i o pc)
    | _, _ => s

/-- An operation that reads some ranges, computes output bytes and saturations from them, and writes one range: faults
stop the entry, a write that must wait changes nothing else, and poison read marks what is written. -/
def State.computeOp (s : State) (q : Quad) (t : Fin 4) (i : Item) (pc : Nat) (reads : List (Nat × Nat)) (dst : Nat)
    (f : List (List Byte) → List Byte × Nat) : State :=
  let op := (match (s.cq q).run with | some r => (tget r.tiles t).op | none => 0)
  let go := reads.foldl (fun (acc : Except Nat (List (List Byte) × Nat × State)) r =>
    match acc with
    | .ok (l, pz, s) =>
      (match s.opRead q (some t) i r.1 r.2 with
      | .ok bs p s => .ok (l ++ [bs], if pz = 0 then p else pz, s)
      | .fault c => .error c
      | .wait s => .ok (l ++ [List.replicate r.2 0], pz, s))
    | .error c => .error c) (.ok ([], 0, s))
  match go with
  | .error c => s.kernelFault q t.val op c
  | .ok (l, pz, s') =>
    let (bs, sat) := f l
    match s'.opWrite q (some t) i dst bs pz with
    | .fault c => s.kernelFault q t.val op c
    | .wait s => s
    | .ok _ _ s => ((s.satCount q sat).consume i.id pz).nextOp q t (some (pc + 32))

/-- R200: the output rows of a MATMUL, with the INT32 saturations. -/
def matmulRows (o : KOp) (src wgt acc bias : List Byte) : List (List Num) × Nat :=
  let a := matRows o.fin o.m o.k src
  let d := if bitAt o.flags 0 then matRows o.fout o.m o.n acc else []
  let scale := fpFP32.value o.scale
  let conv := fun (v : Num) => if bitAt o.flags 2 then v.mul scale else v
  let cells := (List.range o.m).map (fun m => (List.range o.n).map (fun n =>
    let ps := (List.range o.k).map (fun k => ((a.getD m []).getD k Num.zero).mul (weightAt o.wfmt o.k wgt k n))
    let old := (d.getD m []).getD n Num.zero
    let b := leAt bias (4 * n) 4
    if isIntFmt o.fin then
      let p : Int := (ps.map (fun x => match x with | .fin g v _ => if g then -(v : Int) else (v : Int) | _ => 0)).sum
      let (v, s0) := sat32 p
      let add : Int := if ! bitAt o.flags 0 then 0
        else if isIntFmt o.fout then (match old with | .fin g w _ => if g then -(w : Int) else (w : Int) | _ => 0)
        else sgn 32 (Config.corner 0x0100 [leAt acc 0 4, m, n])
      let (v, s1) := sat32 (v + add)
      let (v, s2) := sat32 (v + (if bitAt o.flags 3 then sgn 32 b else 0))
      (conv (.ofInt v), bnat s0 + bnat s1 + bnat s2)
    else
      let v := accFloat ps
      let v := if bitAt o.flags 0 then (v.add old).toF32 else v
      let v := if bitAt o.flags 3 then (v.add (fpFP32.value b)).toF32 else v
      (conv v, 0)))
  (cells.map (fun r => r.map (·.1)), (cells.map (fun r => (r.map (·.2)).sum)).sum)

/-- R210: the greater of two values; the manual states no result for a NaN operand or for zeros of unlike sign (log 32). -/
def numMax (a b : Num) : Num :=
  if a = b then a
  else if a = .nan || b = .nan || (a.isZero && b.isZero) then
    fpFP32.value (Config.corner 0x0203 [(fpFP32.conv a).1, (fpFP32.conv b).1])
  else if a.lt b then b else a

/-- How often 2 divides a number that is not 0, up to `fuel`. -/
def twos : Nat → Nat → Nat
  | 0, _ => 0
  | fuel + 1, m => if m % 2 = 1 then 0 else twos fuel (m / 2) + 1

/-- R210: the sum of a row in FP32. The manual gives no order of addition, so the sum is the exact one where every order
agrees, and is free elsewhere (log 32). -/
def rowSum (l : List Num) : Num :=
  let es := l.filterMap (fun v => match v with | .fin _ m e => if m = 0 then none else some (e + twos 24 m) | _ => none)
  let q := es.foldl min (es.headD 0)
  let mags := (l.map (fun v => match v with | .fin _ m e => m * 2 ^ (e - q + 64).toNat / 2 ^ 64 | _ => 0)).sum
  let t := exactSum l
  match t with
  | .fin .. => if mags ≤ 2 ^ 24 then t.toF32
    else fpFP32.value (Config.corner 0x0210 (l.map (fun v => (fpFP32.conv v).1)))
  | _ => t

/-- R210: the row of results of an ELTWISE function on a row of SRC and of the second operand. -/
def eltRow (fn : Nat) (a b : List Num) : List Num :=
  let a := a.map Num.toF32
  let b := b.map Num.toF32
  let two := fun (g : Num → Num → Num) => (List.range a.length).map (fun j =>
    (g (a.getD j Num.zero) (b.getD j Num.zero)).toF32)
  if fn = 1 then two Num.add
  else if fn = 2 then two Num.mul
  else if fn = 3 then two numMax
  else if fn = 4 then a.map (fun v => numMax v Num.zero)
  else if fn ≤ 8 then a.map (eltFun fn)
  else if fn = 0x10 then [rowSum a]
  else if fn = 0x11 then [match a with | [] => Num.zero | v :: r => r.foldl numMax v]
  else a.map (fun v => (v.mul (b.getD 0 Num.zero)).toF32)

end Sys2Proof.Machine
end

