-- ==== Sys2Proof/Machine/SpurOps.lean ====
section
/-! DEFINITION. Spur (12): columns and banks, job records and their checks, the channel queues, turns on shared resources
(R124), fires and tokens, and the results of jobs. -/

namespace Sys2Proof.Machine

/-! ## Groups, banks and columns (R245 to R249) -/

def grp (n : Nat) : Group := ⟨n % 512, Nat.mod_lt _ (by decide)⟩
def chanNo (n : Nat) : Chan := ⟨n % 128, Nat.mod_lt _ (by decide)⟩
def stackNo (n : Nat) : Stack := ⟨n % 8, Nat.mod_lt _ (by decide)⟩

/-- The stack and the channel of a group. -/
def stackOfGroup (g : Group) : Stack := stackNo (g.val / 64)
def chanOfGroup (g : Group) : Chan := chanNo (g.val / 4)

def State.group (s : State) (g : Group) : GroupSt := tget s.spur.groups g
def State.ledger (s : State) (k : Stack) : LedgerSt := tget s.spur.ledgers k

/-- R249, R271: the location of column index `c` from row `row0` of bank `b` of a group. -/
def bankCol (g b row0 c : Nat) : Nat :=
  g / 4 * 2 ^ 31 + (row0 + c / 32) * 2 ^ 17 + (g % 4 * 32 + b) * 2 ^ 10 + c % 32 * 32

/-- R255, cause 3: the column is a location of a partition's window below its image area. -/
def columnOwned (c : PartCfg) (lbase g b row0 i : Nat) : Bool :=
  let row := row0 + i / 32
  let L := bankCol g b row0 i % 2 ^ 31
  let cs := chanList c
  decide (row < 16384) && cs.contains (g / 4) && decide (lbase ≤ L / 2 ^ 20) && decide (L / 2 ^ 20 < lbase + shareOf c)
    && decide (winOff c lbase ((cs.filter (· < g / 4)).length) L + 32 ≤ tenantTop c)

/-! ## Job records (R252) -/

/-- The fields of a 128-byte record that are not kept in JobSt's own form. -/
structure JobRec where
  jop : Nat
  fmt : Nat
  vec : Nat
  spanLog : Nat
  row0 : Nat
  col0 : Nat
  kcol : Nat
  nout : Nat
  xredLog : Nat
  flags : Nat
  quad : Nat
  sem : Nat
  vsrc : Nat
  dst : Nat
  done : Nat
  jtag : Nat
  groups : List Nat
  rsvOk : Bool
  deriving DecidableEq, Repr

/-- R252: the record that 128 bytes spell. -/
def JobRec.ofBytes (b : List Byte) : JobRec :=
  { jop := leAt b 0 1, fmt := leAt b 1 1, vec := leAt b 2 1, spanLog := leAt b 3 1, row0 := leAt b 4 2, col0 := leAt b 6 1
    kcol := leAt b 7 1, nout := leAt b 8 2, xredLog := leAt b 0xA 1, flags := leAt b 0xB 1, quad := leAt b 0xC 1
    sem := leAt b 0xD 1, vsrc := leAt b 0x10 8, dst := leAt b 0x18 8, done := leAt b 0x20 8, jtag := leAt b 0x28 4
    groups := bitsOf 512 (leAt b 0x40 64), rsvOk := zeroB b 0xE 2 && zeroB b 0x2C 20 }

def JobRec.dstQ (r : JobRec) : Bool := bitAt r.flags 0
def JobRec.signal (r : JobRec) : Bool := bitAt r.flags 1
def JobRec.quadNo (r : JobRec) : Quad := ⟨r.quad % 16, Nat.mod_lt _ (by decide)⟩

/-- R249: KB, the bytes of each vector that one bank uses. -/
def kbOf (fmt kcol : Nat) : Nat := if fmt = 0 then kcol * 64 else kcol * 32

/-- Bytes of one vector at VSRC: KB × SPAN; the indices of a GATHER (R257). -/
def JobRec.vecBytes (r : JobRec) : Nat :=
  if r.jop = 2 then 2 * r.nout else kbOf r.fmt r.kcol * 2 ^ r.spanLog

/-- R253: entries that a group drains. -/
def drainCount (jop nout spanLog kcol : Nat) : Nat := if jop = 2 then 32 * (8 * kcol) else nout * (32 / 2 ^ spanLog)

/-- Bytes of the results (R253, R257, R258). -/
def JobRec.resBytes (r : JobRec) : Nat :=
  let G := r.groups.length
  if r.jop = 2 then 4 * (G * 32 * r.kcol * 32)
  else if r.jop = 3 then 8 * r.vec
  else 4 * r.vec * (G / 2 ^ r.xredLog * (32 / 2 ^ r.spanLog) * r.nout)

/-- R255, cause 1: every field in its range, RSV bytes 0, and the combinations of R250 and R257 (log 34). -/
def JobRec.fieldsOk (r : JobRec) : Bool :=
  let m := r.nout * r.kcol
  (r.jop = 1 || r.jop = 2 || r.jop = 3) && (r.fmt = 0 || r.fmt = 2) && decide (1 ≤ r.vec) && decide (r.vec ≤ 4)
    && decide (r.spanLog ≤ 5) && decide (r.row0 ≤ 16383) && decide (r.col0 ≤ 31) && decide (1 ≤ r.kcol)
    && decide (r.kcol ≤ if r.fmt = 0 then 8 else 16) && decide (1 ≤ r.nout) && decide (r.nout ≤ 2048)
    && decide (r.xredLog ≤ 9) && decide (r.groups.length % 2 ^ r.xredLog = 0) && decide (r.flags < 4)
    && decide (r.quad ≤ 15) && decide (r.sem ≤ 15) && r.rsvOk && decide (m ≤ 2048)
    && (r.done = 2 ^ 64 - 1 || r.done % 8 = 0) && (! r.dstQ || decide (r.dst < 2 ^ 32))
    && (if r.jop = 2 then
          r.fmt = 2 && r.vec = 1 && r.spanLog = 0 && r.xredLog = 0 && decide (r.kcol ≤ 8) && decide (r.nout ≤ 256)
        else decide (r.nout * (32 / 2 ^ r.spanLog) ≤ 2048))

/-- The 16-bit indices of a GATHER. -/
def indices (bs : List Byte) (n : Nat) : List Nat := (List.range n).map (fun i => leAt bs (2 * i) 2)

/-- The column indices (from ROW0) that each bank of a fire reads, in the order of R249 and R257. -/
def fireCols (jop col0 kcol nout : Nat) (idx : List Nat) : List Nat :=
  if jop = 2 then idx.flatMap (fun x => (List.range kcol).map (fun k => col0 + x * kcol + k))
  else (List.range (nout * kcol)).map (fun k => col0 + k)

/-- R255: the first check that a record fails, 0 when it passes all. -/
def State.jobCause (s : State) (p : Part) (c : PartCfg) (r : JobRec) : Nat :=
  let lb := tget s.str.lbase p
  let idx := if r.jop = 2 && tenantRange c r.vsrc (2 * r.nout)
    then indices (s.winRead p r.vsrc (2 * r.nout)).1 r.nout else []
  let cols := fireCols r.jop r.col0 r.kcol r.nout idx
  let dstOk := if r.dstQ then
      let lo := 0x02000000 + r.quad * 0x200000
      decide (lo ≤ r.dst) && decide (r.dst + r.resBytes ≤ lo + s.qbufIn r.quadNo)
    else tenantRange c r.dst r.resBytes
  if ! r.fieldsOk then 1
  else if ! r.groups.all (fun g => bitAt (tget s.str.banks p) g) then 2
  else if ! r.groups.all (fun g => (List.range 32).all (fun b => cols.all (fun i => columnOwned c lb g b r.row0 i))) then 3
  else if ! (tenantRange c r.vsrc (r.vecBytes * (if r.jop = 2 then 1 else r.vec)) && dstOk
      && (r.done = 2 ^ 64 - 1 || tenantRange c r.done 8)) then 4
  else if (r.dstQ || r.signal) && ! (s.str.routes.any (fun x => x.src == 0xC0 && x.dst == r.quad) && bitAt c.quads r.quad) then 5
  else 0

/-! ## Jobs and channel queues -/

def State.job (s : State) (j : Nat) : Option JobSt := s.spur.jobs.find? (fun x => x.id == j)

def State.setJob (s : State) (j : Nat) (f : JobSt → JobSt) : State :=
  { s with spur := { s.spur with jobs := s.spur.jobs.map (fun x => if x.id = j then f x else x) } }

def State.spurQ (s : State) (c : Chan) : List SpurCmd := tget s.spur.queues c

def State.setSpurQ (s : State) (c : Chan) (q : List SpurCmd) : State :=
  { s with spur := { s.spur with queues := upd s.spur.queues c q } }

def SpurCmd.job : SpurCmd → Nat
  | .clear _ j | .load _ _ j _ | .fire _ j | .drain _ _ j => j

/-- The groups of its die that a command concerns, 4 bits. -/
def SpurCmd.mask : SpurCmd → Nat
  | .clear m _ | .load m _ _ _ => m % 16
  | .fire g _ | .drain g _ _ => 2 ^ (g % 4)

/-- The jobs of a partition. -/
def State.jobsOf (s : State) (p : Part) : List JobSt := s.spur.jobs.filter (fun j => j.part == p)

/-- R254: jobs started and not finished, with the landings that wait to start. -/
def State.jobLoad (s : State) (p : Part) : Nat := (s.jobsOf p).length + (tget s.spur.parts p).landed.length

/-- R250: commands enter the channel queues, 32 entries each, in order. -/
def fillFrom (qs : Vector (List SpurCmd) 128) (blocked : List Nat) :
    List (Nat × SpurCmd) → Vector (List SpurCmd) 128 × List Nat × List (Nat × SpurCmd)
  | [] => (qs, blocked, [])
  | (c, cmd) :: r =>
    if blocked.contains c || decide (32 ≤ (tget qs (chanNo c)).length) then
      let (qs, b, rest) := fillFrom qs (c :: blocked) r
      (qs, b, (c, cmd) :: rest)
    else fillFrom (updWith qs (chanNo c) (· ++ [cmd])) blocked r

def State.spurFill (s : State) : State :=
  let (qs, _, js) := s.spur.jobs.foldl (fun (acc : Vector (List SpurCmd) 128 × List Nat × List JobSt) j =>
    let (qs, b, rest) := fillFrom acc.1 acc.2.1 j.todo
    (qs, b, acc.2.2 ++ [{ j with todo := rest }])) (s.spur.queues, [], [])
  { s with spur := { s.spur with queues := qs, jobs := js } }

/-- The first command of a queue that may issue among those of a kind: no earlier command concerns its groups, and none
of them is busy; with the rest of the queue. -/
def pickCmd (busy : Nat → Bool) (want : SpurCmd → Bool) : Nat → List SpurCmd → List SpurCmd → Option (SpurCmd × List SpurCmd)
  | _, _, [] => none
  | seen, front, c :: r =>
    if want c && decide (seen &&& c.mask = 0) && ! (bitsOf 4 c.mask).any busy then some (c, front.reverse ++ r)
    else pickCmd busy want (seen ||| c.mask) (c :: front) r

/-- The group of a die is firing. -/
def State.busyOn (s : State) (c : Chan) (i : Nat) : Bool := (s.group (grp (4 * c.val + i))).fire.isSome

/-- R282, R292: a stack can take Spur commands. -/
def State.stackUp (s : State) (k : Stack) : Bool := (s.stack k).pll && ! (s.stack k).sr && (s.stack k).lost.isNone

/-- The job's entry is asked to stop: its commands are not issued, and nothing of it is written (12, At the edges). -/
def State.halted (s : State) (j : JobSt) : Bool :=
  match j.owner.bind (fun o => s.item o.1) with
  | some i => i.stop.isSome
  | none => false

/-! ## Turns on shared resources (R124) -/

/-- Work of a partition pending for a resource: whether its item is fired by a tick, and when the item arrived. -/
structure Claim where
  part : Part
  tick : Bool
  at_ : Nat
  deriving DecidableEq, Repr

/-- An item fired by Traverse, or a hand-off that serves such a step. -/
def Item.ticked (i : Item) : Bool :=
  match i.kind with
  | .step _ => true
  | .handoff a _ => a.msg.hdr.tick
  | _ => false

/-- What waits for channel c (0 to 127) or for the reload engine (128). -/
def State.claims (s : State) (r : Nat) : List Claim :=
  if r < 128 then
    (s.spurQ (chanNo r)).filterMap (fun cmd => (s.job cmd.job).map (fun j =>
      match j.owner.bind (fun o => s.item o.1) with
      | some i => { part := j.part, tick := i.ticked, at_ := i.at_ }
      | none => { part := j.part, tick := false, at_ := j.at_ }))
  else
    (allQuads.filter (fun q => (s.quad q).reload)).flatMap (fun q => match s.owner q with
      | none => []
      | some p =>
        let l := (s.items.filter (fun i => i.part == p && (bitAt i.waitQ q.val || bitAt i.runQ q.val))).map
          (fun i => ({ part := p, tick := i.ticked, at_ := i.at_ } : Claim))
        if l.isEmpty then [{ part := p, tick := false, at_ := s.now }] else l)

/-- R124: of two claims the one that goes first, after a last holder. -/
def Claim.before (last : Part) (a b : Claim) : Bool :=
  let rot := fun (p : Part) => (p.val + 15 - last.val) % 16
  if a.tick ≠ b.tick then a.tick
  else if a.at_ ≠ b.at_ then decide (a.at_ < b.at_)
  else decide (rot a.part < rot b.part)

/-- R124: the oldest pending claim of each partition decides; the partition whose turn is next. -/
def nextTurn (last : Part) (cs : List Claim) : Option Claim :=
  let oldest := allParts.filterMap (fun p => (cs.filter (fun c => c.part == p)).foldl (fun m c => match m with
    | some v => if c.at_ < v.at_ || (c.at_ == v.at_ && c.tick) then some c else some v
    | none => some c) none)
  oldest.foldl (fun m c => match m with
    | some v => if c.before last v then some c else some v
    | none => some c) none

def resNo (n : Nat) : Fin 129 := ⟨n % 129, Nat.mod_lt _ (by decide)⟩

/-- The partition whose turn it is on a resource: the holder while it has work, else the next. -/
def State.turnHolder (s : State) (r : Nat) : Option Part :=
  let t := tget s.turns (resNo r)
  let cs := s.claims r
  match t.holder with
  | some h => if cs.any (fun c => c.part == h) then some h else (nextTurn t.last cs).map (·.part)
  | none => (nextTurn t.last cs).map (·.part)

/-- A turn begins or goes on for a partition; the wait of a tick-fired item for it is recorded (R125). -/
def State.takeTurn (s : State) (r : Nat) (p : Part) : State :=
  let t := tget s.turns (resNo r)
  if t.holder = some p then s
  else
    let wait := ((s.claims r).filter (fun c => c.part == p && c.tick)).foldl (fun m c => max m ((s.now - c.at_) / 32)) 0
    let s := s.setPart p (fun x => { x with sliceWait := min (max x.sliceWait wait) 0xFFFF })
    { s with turns := upd s.turns (resNo r) { holder := some p, start := s.now, last := p } }

/-! ## Tokens (R259 to R262) -/

/-- The fires of a partition on a stack, and of a die. -/
def State.firesOn (s : State) (k : Stack) (p : Part) : Nat :=
  ((List.range 64).filter (fun i => match (s.group (grp (k.val * 64 + i))).fire with
    | some f => f.part == some p
    | none => false)).length

def State.firesOnDie (s : State) (c : Chan) : Nat := ((List.range 4).filter (s.busyOn c)).length

/-- Tokens that `n` fires of one partition need. -/
def State.tokensFor (s : State) (n : Nat) : Nat := cdiv n s.spur.width

/-- R261: starts and ends within the last microsecond. -/
def State.recent (s : State) (l : List Nat) : Nat := (l.filter (fun t => decide (s.now < t + 25))).length

/-- R260: the groups of a die whose FIRE could start but for the die limit. -/
def State.fireReady (s : State) (g : Group) : Option (Nat × List SpurCmd) :=
  let c := chanOfGroup g
  let k := stackOfGroup g
  match pickCmd (s.busyOn c) (fun x => match x with | .fire i _ => i % 4 == g.val % 4 | _ => false) 0 [] (s.spurQ c) with
  | none => none
  | some (cmd, rest) =>
    match s.job cmd.job with
    | none => none
    | some j =>
      if s.halted j then none
      else if tget s.spur.retired g then some (cmd.job, rest)
      else
        let f := s.firesOn k j.part
        let more := s.tokensFor (f + 1) - s.tokensFor f
        if decide (f < s.spur.width * tget (tget s.spur.parts j.part).allow k) && decide (more ≤ (s.ledger k).free)
            && decide (s.recent s.spur.starts + 1 ≤ s.recent s.spur.ends + 48)
            && decide (tget s.dram.owed g < 4) && s.stackUp k && s.start.stop.isNone
        then some (cmd.job, rest) else none

/-- R260: the group may start within the die limit and the rotation. -/
def State.fireTurn (s : State) (g : Group) : Bool :=
  let c := chanOfGroup g
  let room := 2 * s.spur.width - s.firesOnDie c
  let last := (tget s.spur.rot c).val
  let order := (List.range 4).map (fun i => 4 * c.val + (last + 1 + i) % 4)
  let ready := order.filter (fun i => (s.fireReady (grp i)).isSome && ! tget s.spur.retired (grp i))
  tget s.spur.retired g || (ready.take room).contains g.val

/-- Tokens return or retire (R262): the pool falls to the target before any token is free again, and under a raised target
retired tokens are free at once. -/
def LedgerSt.giveBack (l : LedgerSt) (n : Nat) : LedgerSt :=
  let l := { l with held := l.held - n, free := l.free + n }
  let cut := min l.free (l.free + l.held - l.target)
  let back := min l.retired (l.target - (l.free + l.held))
  { l with free := l.free - cut + back, retired := l.retired + cut - back }

/-! ## Masks (R264, R268) -/

/-- Banks masked, with their log entries; a group with more than 4 masked banks is retired. `test` is whether a self-test
found them. -/
def State.maskBanks (s : State) (g : Group) (bad : Nat) (test : Bool) : State :=
  let old := tget s.spur.masks g
  let fresh := (bitsOf 32 bad).filter (fun b => ! bitAt old b)
  let s := { s with spur := { s.spur with masks := upd s.spur.masks g (old ||| bad % 2 ^ 32) } }
  let s := s.setLedger (stackOfGroup g) (fun l =>
    if test then { l with test := satAdd l.test fresh.length 255 } else { l with residue := satAdd l.residue fresh.length 255 })
  let s := s.each fresh (fun s b => s.log 0 0x08 2 (detailOf 0 (g.val * 32 + b)))
  if 4 < popN 32 (old ||| bad) ∧ ! tget s.spur.retired g then
    ({ s with spur := { s.spur with retired := upd s.spur.retired g true } } : State).log 2 0x08 3 (detailOf 0 g.val)
  else s

/-! ## Computing (R248, R249, R256 to R258, R267) -/

/-- One column as Spur reads it: an uncorrectable or poisoned column poisons the job (R256). -/
def State.spurCol (s : State) (loc g b row0 i : Nat) (p : Part) : List Byte × Bool × State :=
  let bs := spRead s.dram.mem loc 32
  let fl := s.colFlaws loc
  if s.colPoison loc ≠ 0 then
    (bs, true, s.setChan (chanOf loc) (fun c => { c with poisonRd := satAdd c.poisonRd 1 0xFFFF }))
  else if fl.any (· == .ue) then
    let a := s.addrOfLoc loc
    let s := s.setChan (chanOf loc) (fun c => { c with ue := satAdd c.ue 1 255 })
    let s := { s with dram := { s.dram with ueLast := some ((chanOf loc).val, a / 32 * 32) } }
    let d := (g * 32 + b) + (row0 + i / 32) * 2 ^ 14 + i % 32 * 2 ^ 28
    (bs, true, (s.log 1 0x08 1 (detailOf 0 d) (some p) (stPoisoned 8).num).markSeen loc)
  else if flawed fl then
    (bs, true, s.setChan (chanOf loc) (fun c => { c with poisonRd := satAdd c.poisonRd 1 0xFFFF }))
  else
    (bs, false, s.setChan (chanOf loc) (fun c => { c with ce := satAdd c.ce (fl.filter (· == .ce)).length 0xFFFFFF }))

/-- R247: the weights of a column. -/
def weightsOf (fmt : Nat) (col : List Byte) : List Int :=
  if fmt = 0 then col.flatMap (fun b => [sgn 4 (b.toNat % 16), sgn 4 (b.toNat / 16)])
  else col.map (fun b => sgn 8 b.toNat)

/-- Products of weights and INT8 activations, added. -/
def dot : List Int → List Byte → Int
  | w :: r, a :: t => w * sgn 8 a.toNat + dot r t
  | _, _ => 0

/-- R249: the bytes of a register that a bank at position j of its bank-set holds; a register not loaded holds zero. -/
def VecLoad.slice (v : VecLoad) (b : Nat) : List Byte := sliceB v.bytes (b % (max v.span 1) * v.kb) v.kb

/-- The columns that one bank of a fire reads. -/
def State.bankCols (s : State) (p : Part) (g b row0 : Nat) : List Nat → List (List Byte) × Bool × State
  | [] => ([], false, s)
  | i :: r =>
    let (bs, bad, s) := s.spurCol (bankCol g b row0 i) g b row0 i p
    let (l, bad2, s) := State.bankCols s p g b row0 r
    (bs :: l, bad || bad2, s)

/-- Sums of a fire of a matrix job: for each output of each bank-set, four INT32 sums. -/
def matSums (j : JobSt) (regs : Vector (Option VecLoad) 4) (cols : List (List (List Byte))) :
    List (Int × Int × Int × Int) :=
  let span := j.span
  (List.range (32 / max span 1)).flatMap (fun bs => (List.range j.nout).map (fun m =>
    let sum := fun (v : Fin 4) =>
      match tget regs v with
      | none => (0 : Int)
      | some ld => ((List.range span).map (fun q =>
          let b := bs * span + q
          dot (((cols.getD b []).drop (m * j.kcol)).take j.kcol |>.flatMap (weightsOf j.fmt)) (ld.slice b))).sum
    (sum 0, sum 1, sum 2, sum 3)))

/-- R257: the sums of a GATHER: 8 × KCOL entries per bank, four elements each. -/
def gatherSums (j : JobSt) (cols : List (List (List Byte))) : List (Int × Int × Int × Int) :=
  cols.flatMap (fun cs =>
    let el := fun (e : Nat) =>
      ((List.range j.nout).map (fun x => ((weightsOf 2 (cs.getD (x * j.kcol + e / 32) [])).getD (e % 32) 0))).sum
    (List.range (8 * j.kcol)).map (fun i => (el (4 * i), el (4 * i + 1), el (4 * i + 2), el (4 * i + 3))))

/-- A fire of a job on a group is carried out: the result buffer holds the sums, whether units or the fallback made them
(R267). -/
def State.runFire (s : State) (g : Group) (j : JobSt) : State :=
  let gs := s.group g
  let idx := match tget gs.regs 0 with | some v => indices v.bytes j.nout | none => []
  let cs := fireCols j.jop j.col0 j.kcol j.nout idx
  let (cols, bad, s) := (List.range 32).foldl (fun (acc : List (List (List Byte)) × Bool × State) b =>
    let (l, bad, s) := acc.2.2.bankCols j.part g.val b j.row0 cs
    (acc.1 ++ [l], acc.2.1 || bad, s)) ([], false, s)
  let sums := if j.jop = 2 then gatherSums j cols else matSums j gs.regs cols
  let res : Sparse (Int × Int × Int × Int) := (List.range sums.length).foldl (fun m i =>
    spSet (0, 0, 0, 0) m i (sums.getD i (0, 0, 0, 0))) gs.res
  let s := s.setGroup g (fun x => { x with res := res })
  if bad then s.setJob j.id (fun x => { x with poison := some (x.poison.getD 8) }) else s

/-! ## Results (R253, R257, R258) -/

/-- Sums over the group ordinals of each reduced group, ascending, in INT32 (log 33), and the saturations. -/
def reduce (j : JobSt) : List (List (Int × Bool)) :=
  let E := j.nout * (32 / max j.span 1)
  let R := j.xred
  let at_ := fun (o i v : Nat) => match (j.drained.find? (fun d => d.1 == j.groups.getD o 512)) with
    | some d => let e := d.2.getD i (0, 0, 0, 0)
                if v = 0 then e.1 else if v = 1 then e.2.1 else if v = 2 then e.2.2.1 else e.2.2.2
    | none => 0
  (List.range j.vec).map (fun v => (List.range (j.groups.length / max R 1)).flatMap (fun r => (List.range E).map (fun i =>
    (List.range R).foldl (fun (a : Int × Bool) o =>
      let (w, sat) := sat32 (a.1 + at_ (r * R + o) i v)
      (w, a.2 || sat)) (0, false))))

/-- The result bytes of a job whose groups have all drained, and its saturations. -/
def jobResult (j : JobSt) (free : Nat) : List Byte × Nat :=
  if j.jop = 2 then
    ((j.groups.flatMap (fun g => match j.drained.find? (fun d => d.1 == g) with
      | some d => d.2.flatMap (fun e => [e.1, e.2.1, e.2.2.1, e.2.2.2].flatMap (fun v => leBytes 4 (unsgn 32 v)))
      | none => [])), 0)
  else
    let rows := reduce j
    let sats := (rows.map (fun r => (r.filter (·.2)).length)).sum
    if j.jop = 3 then
      (rows.flatMap (fun r => match r with
        | [] => leBytes 8 free
        | _ :: _ =>
          let best := (List.range r.length).foldl (fun b i =>
            if (r.getD b (0, false)).1 < (r.getD i (0, false)).1 then i else b) 0
          leBytes 4 (unsgn 32 (r.getD best (0, false)).1) ++ leBytes 4 best), sats)
    else (rows.flatMap (fun r => r.flatMap (fun v => leBytes 4 (unsgn 32 v.1))), sats)

/-- Bytes written into a quad-buffer slice at any offset; a unit written in part keeps an older poison mark. -/
def State.qbufWrite (s : State) (q : Quad) (o : Nat) (bs : List Byte) (pz : Nat) : State :=
  let lo := o / 32 * 32
  let n := pad32 (o - lo + bs.length)
  let base := q.val * 2 ^ 21 + lo
  let old := spRead s.crest.qbuf base n
  let new := old.take (o - lo) ++ bs ++ old.drop (o - lo + bs.length)
  let marks := (List.range (n / 32)).map (fun i =>
    let whole := decide (o ≤ lo + 32 * i) && decide (lo + 32 * i + 32 ≤ o + bs.length)
    let m := spGet 0 s.crest.qbufPoison (base / 32 + i)
    if whole || pz ≠ 0 then pz else m)
  (List.range (n / 32)).foldl (fun s i => s.sramWrite q none (lo + 32 * i) ((new.drop (32 * i)).take 32) (marks.getD i 0)) s

/-- R253: the results of a job whose last entry has drained are written, and the status of its done word is known; a
quad that is not in Run is first woken. -/
def State.spurResults (s : State) (id : Nat) : State :=
  match s.job id with
  | none => s
  | some j =>
    if j.fin.isSome || s.halted j || ! j.queued || ! j.groups.all (fun g => j.drained.any (fun d => d.1 == g)) then s
    else
      let q : Quad := ⟨j.quad % 16, Nat.mod_lt _ (by decide)⟩
      if j.dstQ && ! s.quadUp q then s.demand q
      else
        let (f, s) := if j.jop = 3 && j.groups.isEmpty then s.draw else (0, s)
        let (bs, sats) := jobResult j f
        let pz := j.poison.getD 0
        let s := if bs.isEmpty then s
          else if j.dstQ then s.qbufWrite q (j.dst - 0x02000000 - q.val * 0x200000) bs pz
          else s.winWrite j.part j.dst bs pz
        let s := s.setSpurPart j.part (fun r =>
          { r with sat := satAdd r.sat sats 0xFFFF, degraded := satAdd r.degraded (bnat (j.degraded && j.poison.isNone)) 0xFFFF })
        s.setJob id (fun x => { x with fin := some (match j.poison with
          | some n => stPoisoned n
          | none => if j.degraded then { code := .degraded, sub := 1 } else stOk) })

/-! ## Cancelling (12, At the edges) -/

/-- The jobs of a kind are cancelled: commands not issued are discarded, no result, done word or signal is written, and
fires in progress end by themselves. -/
def State.dropJobs (s : State) (f : JobSt → Bool) : State :=
  let ids := (s.spur.jobs.filter f).map (·.id)
  { s with spur := { s.spur with
    jobs := s.spur.jobs.filter (fun j => ! f j)
    queues := vmap (fun q => q.filter (fun c => ! ids.contains c.job)) s.spur.queues } }

/-- Landings of an item that have not started. -/
def State.dropLanded (s : State) (p : Part) (f : Option (Nat × Quad) → Bool) : State :=
  s.setSpurPart p (fun r => { r with landed := r.landed.filter (fun l => ! f l.2.2) })

/-- A group fires for a job of an item. -/
def State.firing (s : State) (id : Nat) : Bool :=
  let ids := (s.spur.jobs.filter (fun j => match j.owner with | some (i, _) => i == id | none => false)).map (·.id)
  s.spur.groups.toList.any (fun g => match g.fire with | some f => ids.contains f.job | none => false)

/-- The registers and result buffer of a group are clear. -/
def GroupSt.cleared (g : GroupSt) : GroupSt := { g with regs := rep 4 none, res := [] }

end Sys2Proof.Machine
end

