-- ==== Sys2Proof/Machine/Spur.lean ====
section
/-! DEFINITION. The commands of Spur (12). -/

namespace Sys2Proof.Machine

/-- SPUR_JOB_LAND (R251, R254, R255): the oldest landed record of a partition, in the slot named, starts a job after its
checks. -/
def execSpurJobLand (p : Part) (slot : Nat) (s : State) : Host.Outcome State Fault Refusal :=
  .next (match (tget s.spur.parts p).landed, s.cfg p with
    | (k, bs, owner) :: rest, some c =>
      s.when (decide (k = slot) && decide ((s.jobsOf p).length < 64)) (fun s =>
        let r := JobRec.ofBytes bs
        let cause := s.jobCause p c r
        let s := s.setSpurPart p (fun x => { x with landed := rest })
        let sigOk := s.str.routes.any (fun x => x.src == 0xC0 && x.dst == r.quad) && bitAt c.quads r.quad
        let bad := decide (cause ≠ 0)
        let j : JobSt :=
          { id := s.spur.nextJob, at_ := s.now, part := p, slot := slot, owner := owner, jop := r.jop, fmt := r.fmt
            vec := r.vec, span := 2 ^ r.spanLog, row0 := r.row0, col0 := r.col0, kcol := r.kcol, nout := r.nout
            xred := 2 ^ r.xredLog, dstQ := r.dstQ, signal := r.signal && (! bad || sigOk), quad := r.quad, sem := r.sem
            vsrc := r.vsrc, dst := r.dst
            done := if bad && ! tenantRange c r.done 8 then 2 ^ 64 - 1 else r.done
            jtag := r.jtag, groups := r.groups, queued := bad, todo := [], drained := []
            degraded := false, poison := none, fin := if bad then some (stPoisoned 0xA) else none }
        let s := { s with spur := { s.spur with jobs := s.spur.jobs ++ [j], nextJob := s.spur.nextJob + 1 } }
        if bad then
          let s := s.spurFault p cause owner slot
          s.log 1 0x08 4 (detailOf 0 (tget s.spur.parts p).faultReg) (some p) (stPoisoned 0xA).num
        else s)
    | _, _ => s)

/-- R253: the commands of a job, in order: for each die CLEAR, the LOADs, the FIREs, the DRAINs and a final CLEAR. -/
def jobCmds (j : JobSt) (vecs : List VecLoad) : List (Nat × SpurCmd) :=
  let dies := (List.range 128).filter (fun c => j.groups.any (fun g => g / 4 == c))
  dies.flatMap (fun c =>
    let gs := (j.groups.filter (fun g => g / 4 == c)).map (· % 4)
    let m := gs.foldl (fun m g => m + 2 ^ g) 0
    let E := if j.jop = 2 then 32 * (8 * j.kcol) else j.nout * (32 / max j.span 1)
    ([(c, SpurCmd.clear m j.id)]
      ++ (List.range vecs.length).filterMap (fun v => vecs[v]?.map (fun ld => (c, SpurCmd.load m v j.id ld)))
      ++ gs.map (fun g => (c, SpurCmd.fire g j.id)) ++ gs.map (fun g => (c, SpurCmd.drain g E j.id))
      ++ [(c, SpurCmd.clear m j.id)]))

/-- A job of an operation is queued: its vectors are read, and its commands enter the channel queues. -/
def State.queueJob (s : State) (id jop : Nat) : State :=
  match s.job id with
  | none => s
  | some j =>
    let earlier := (s.jobsOf j.part).any (fun x => decide (x.id < id) && ! x.queued)
    s.when (decide (j.jop = jop) && ! j.queued && ! earlier) (fun s =>
      let n := if jop = 2 then 2 * j.nout else kbOf j.fmt j.kcol * j.span
      let (vecs, pz, s) := (List.range (if jop = 2 then 1 else j.vec)).foldl
        (fun (acc : List VecLoad × Nat × State) v =>
          let (bs, pz, s) := acc.2.2.winRead j.part (j.vsrc + v * n) n
          let ld : VecLoad := if jop = 2 then { kb := n, span := 1, bytes := bs }
            else { kb := kbOf j.fmt j.kcol, span := j.span, bytes := bs }
          (acc.1 ++ [ld], if acc.2.1 ≠ 0 then acc.2.1 else pz, s)) ([], 0, s)
      let s := s.setJob id (fun x => { x with
        queued := true, todo := jobCmds x vecs, poison := if pz ≠ 0 then some (x.poison.getD pz) else x.poison })
      s.spurFill.spurResults id)

/-- MATVEC (R253). -/
def execMatvec (job : Nat) (s : State) : Host.Outcome State Fault Refusal := .next (s.queueJob job 1)

/-- GATHER (R257). -/
def execGather (job : Nat) (s : State) : Host.Outcome State Fault Refusal := .next (s.queueJob job 2)

/-- SCAN (R258). -/
def execScan (job : Nat) (s : State) : Host.Outcome State Fault Refusal := .next (s.queueJob job 3)

/-- A command of a channel issues in its partition's turn: `f` on the command and the state without it. -/
def State.issueCmd (s : State) (c : Chan) (want : SpurCmd → Bool) (f : State → SpurCmd → State) : State :=
  if ! s.stackUp (stackNo (c.val / 16)) || s.start.stop.isSome then s
  else match pickCmd (s.busyOn c) want 0 [] (s.spurQ c) with
    | none => s
    | some (cmd, rest) =>
      match s.job cmd.job with
      | none => (f (s.setSpurQ c rest) cmd).spurFill
      | some j =>
        s.when (! s.halted j && s.turnHolder c.val == some j.part) (fun s => (f ((s.takeTurn c.val j.part).setSpurQ c rest) cmd).spurFill)

/-- The groups of a die named by a mask, each woken (R263) and passed through `f`. -/
def State.onGroups (s : State) (c : Chan) (mask : Nat) (f : GroupSt → GroupSt) : State :=
  s.each (bitsOf 4 mask) (fun s i => s.setGroup (grp (4 * c.val + i)) (fun g =>
    f (if g.gated then { g.cleared with gated := false } else g)))

/-- SPUR_CLEAR (R250). -/
def execSpurClear (c : Chan) (s : State) : Host.Outcome State Fault Refusal :=
  .next (s.issueCmd c (fun x => match x with | .clear _ _ => true | _ => false) (fun s cmd =>
    s.onGroups c cmd.mask GroupSt.cleared))

/-- A FIRE of the channel is ready, and goes ahead of its LOADs and DRAINs (R250). -/
def State.fireFirst (s : State) (c : Chan) : Bool :=
  (List.range 4).any (fun i =>
    let g := grp (4 * c.val + i)
    (s.fireReady g).isSome && s.fireTurn g)

/-- SPUR_LOAD (R249, R250). -/
def execSpurLoad (c : Chan) (s : State) : Host.Outcome State Fault Refusal :=
  .next (s.when (! s.fireFirst c) (fun s =>
    s.issueCmd c (fun x => match x with | .load _ _ _ _ => true | _ => false) (fun s cmd =>
      match cmd with
      | .load m r _ v => s.onGroups c m (fun g =>
          { g with regs := upd g.regs ⟨r % 4, Nat.mod_lt _ (by decide)⟩ (some v), lastUse := s.now })
      | _ => s)))

/-- SPUR_FIRE (R250, R259 to R262, R267, R268): a ready FIRE of the group starts, or runs as the fallback of a retired
group. -/
def execSpurFire (g : Group) (s : State) : Host.Outcome State Fault Refusal :=
  .next (match s.fireReady g with
    | none => s
    | some (id, rest) =>
      match s.job id with
      | none => s
      | some j =>
        let c := chanOfGroup g
        let k := stackOfGroup g
        s.when (s.fireTurn g && s.turnHolder c.val == some j.part && s.stackUp k && s.start.stop.isNone) (fun s =>
          let s := (s.takeTurn c.val j.part).setSpurQ c rest
          let masked := decide (tget s.spur.masks g ≠ 0)
          let s := s.setJob id (fun x => { x with degraded := x.degraded || masked })
          let s := s.setGroup g (fun x => { x with gated := false, lastUse := s.now, lastFire := s.now })
          if tget s.spur.retired g then (s.runFire g j).spurFill
          else
            let more := s.tokensFor (s.firesOn k j.part + 1) - s.tokensFor (s.firesOn k j.part)
            let s := s.setLedger k (fun l => { l with free := l.free - more, held := l.held + more })
            let s := s.setGroup g (fun x => { x with fire := some { job := id, part := some j.part, start := s.now } })
            { s with spur := { s.spur with
              starts := s.now :: s.spur.starts.filter (fun t => decide (s.now < t + 25))
              rot := upd s.spur.rot c ⟨g.val % 4, Nat.mod_lt _ (by decide)⟩ } }.spurFill))

/-- R262: the tokens that the fires of a stack still need are held; the others are free or retired. -/
def State.settleLedger (s : State) (k : Stack) : State :=
  let need := (allParts.map (fun p => s.tokensFor (s.firesOn k p))).sum
  s.setLedger k (fun l => l.giveBack (l.held - need))

/-- SPUR_FIRE_END (R248, R256, R261, R262, R266): after its busy time, once the governor lets it, a fire ends: banks
that failed the residue check are masked and the fire is run again, else the sums stand and the token returns. -/
def execSpurFireEnd (g : Group) (badBanks : Nat) (s : State) : Host.Outcome State Fault Refusal :=
  .next (match (s.group g).fire with
    | none => s
    | some f =>
      let k := stackOfGroup g
      let busy := match s.job f.job with | some j => 16 + 2 * (j.nout * j.kcol) + 24 | none => 0
      let letEnd := decide (s.recent s.spur.ends + 1 ≤ s.recent s.spur.starts + 48)
      s.when (decide (busy ≤ 40 * (s.now - f.start)) && letEnd) (fun s =>
        let fresh := (bitsOf 32 badBanks).any (fun b => ! bitAt (tget s.spur.masks g) b)
        match s.job f.job with
        | some j =>
          if fresh then
            let s := (s.maskBanks g badBanks false).setJob j.id (fun x => { x with degraded := true })
            s.setGroup g (fun x => { x with fire := some { f with start := s.now } })
          else
            let s := s.runFire g j
            let s := s.setGroup g (fun x => { x with fire := none, lastUse := s.now, lastFire := s.now })
            { s with spur := { s.spur with ends := s.now :: s.spur.ends.filter (fun t => decide (s.now < t + 25)) } }.settleLedger k
        | none =>
          let s := s.maskBanks g badBanks false
          let s := s.setGroup g (fun x => { x with fire := none, lastUse := s.now, lastFire := s.now })
          { s with spur := { s.spur with ends := s.now :: s.spur.ends.filter (fun t => decide (s.now < t + 25)) } }.settleLedger k))

/-- SPUR_DRAIN (R250, R253): entries of the group's result buffer reach the logic die. -/
def execSpurDrain (c : Chan) (s : State) : Host.Outcome State Fault Refusal :=
  .next (s.when (! s.fireFirst c) (fun s =>
    s.issueCmd c (fun x => match x with | .drain _ _ _ => true | _ => false) (fun s cmd =>
      match cmd with
      | .drain i e id =>
        let g := grp (4 * c.val + i % 4)
        let l := (List.range e).map (fun n => spGet (0, 0, 0, 0) (s.group g).res n)
        let s := s.setGroup g (fun x => { x with lastUse := s.now })
        (s.setJob id (fun x => { x with drained := x.drained ++ [(g.val, l)] })).spurResults id
      | _ => s)))

/-- SPUR_JOB_DONE (R253, R254, R255): the done word and the signal of a partition's oldest job, in landing order. -/
def execSpurJobDone (p : Part) (s : State) : Host.Outcome State Fault Refusal :=
  .next (match (s.jobsOf p).head? with
    | none => s
    | some j0 =>
      let s := s.spurResults j0.id
      match s.job j0.id with
      | none => s
      | some j =>
        match (if s.halted j then none else j.fin) with
        | none => s
        | some st =>
          let s := if j.done = 2 ^ 64 - 1 then s
            else s.winWrite p j.done (leBytes 2 st.num ++ leBytes 2 0 ++ leBytes 4 j.jtag)
          let s := { s with spur := { s.spur with jobs := s.spur.jobs.filter (fun x => x.id ≠ j.id) } }
          let s := s.setSpurPart p (fun r => { r with jobs := satAdd r.jobs 1 0xFFFFFF })
          let s := if j.signal then
              s.signalSem ⟨j.quad % 16, Nat.mod_lt _ (by decide)⟩ ⟨j.sem % 16, Nat.mod_lt _ (by decide)⟩ 1
            else s
          match j.owner with
          | some (id, _) => s.setItem id (fun i =>
              if i.fin.isSome then i else { i with jobs := i.jobs - 1, marks := i.marks ++ [st] })
          | none => s)

/-- R265: a token that an idle test of the group may take: ungranted and free, or within its owner's unused allowance. -/
def State.testToken (s : State) (g : Group) : Bool :=
  let k := stackOfGroup g
  let unused := fun (p : Part) => tget (tget s.spur.parts p).allow k - s.tokensFor (s.firesOn k p)
  decide (0 < (s.ledger k).free)
    && (decide ((allParts.map unused).sum < (s.ledger k).free)
      || allParts.any (fun p => bitAt (tget s.str.banks p) g.val && decide (0 < unused p)))

/-- SPUR_SELFTEST (R264, R265, R268): an idle group is tested, and the banks that fail are masked. -/
def execSpurSelftest (g : Group) (fails : Nat) (s : State) : Host.Outcome State Fault Refusal :=
  .next (
    let x := s.group g
    s.when (s.isReady && s.spur.testEn && s.start.stop.isNone && x.fire.isNone && s.past x.lastFire (msCyc s.spur.testIdle)
        && s.past x.lastTest (sCyc s.spur.testPeriod) && ! tget s.spur.retired g && s.stackUp (stackOfGroup g)
        && decide (tget s.dram.owed g < 4) && s.testToken g) (fun s =>
      let s := s.setGroup g (fun x => { x.cleared with gated := false, lastUse := s.now, lastTest := s.now })
      s.maskBanks g fails true))

/-- SPUR_GROUP_GATE (R263): a group that has not fired, loaded or been tested for 1 ms gates its units; one whose
commands wait does not (log 35). -/
def execSpurGroupGate (g : Group) (s : State) : Host.Outcome State Fault Refusal :=
  .next (
    let x := s.group g
    let waits := (s.spurQ (chanOfGroup g)).any (fun c => bitAt c.mask (g.val % 4))
    s.when (! x.gated && x.fire.isNone && ! waits && s.past x.lastUse (msCyc 1)) (fun s =>
      s.setGroup g (fun x => { x.cleared with gated := true })))

end Sys2Proof.Machine
end

