-- ==== Sys2Proof/Machine/ThermOps.lean ====
section
/-! DEFINITION. The thermal limit L and what it governs (R122, R410, R411), and THERM_ALERT_N (R417). -/

namespace Sys2Proof.Machine

/-! ## Token allowances (R122) -/

/-- R122: the tokens of a stack's grants under a pool of `pool` tokens: the grants themselves, or shares by floor with the
rest to the largest remainders, the lower partition first. -/
def sharePool (pool : Nat) (grants : List Nat) : List Nat :=
  let g := grants.sum
  if g ≤ pool then grants
  else
    let base := grants.map (fun t => t * pool / g)
    let rem := grants.map (fun t => t * pool % g)
    let left := pool - base.sum
    let better := fun (i : Nat) => ((List.range grants.length).filter (fun j =>
      decide (rem.getD i 0 < rem.getD j 0) || (decide (rem.getD j 0 = rem.getD i 0) && decide (j < i)))).length
    (List.range grants.length).map (fun i => base.getD i 0 + bnat (decide (better i < left)))

/-- R122: every effective allowance of a stack under its target. -/
def State.allowances (s : State) (k : Stack) : State :=
  let grants := allParts.map (fun p => match s.cfg p with | some c => tget c.tokens k | none => 0)
  let e := sharePool (s.ledger k).target grants
  s.each allParts (fun s p => s.setSpurPart p (fun r => { r with allow := upd r.allow k (e.getD p.val 0) }))

/-! ## The limit (R410) -/

/-- L_TRIP. -/
def State.limTrip (s : State) : Nat := if s.laser.trip then s.thm.tripStep else 16
/-- L_LAPSE. -/
def State.limLapse (s : State) : Nat := if s.thm.lapse then 4 else 16
/-- R410: the minimum that L moves to. -/
def State.limGoal (s : State) : Nat := min (min s.thm.limT s.thm.hostLimit) (min s.limTrip s.limLapse)

/-- R410: L changes: caps and token targets follow, and the allowances with them. -/
def State.setLimit (s : State) (l : Nat) : State :=
  let s := { s with thm := { s.thm with lim := l } }
  let s := s.each allQuads (fun s q => s.setCq q (fun c => { c with cap := l }))
  s.each allStacks (fun s k => ((s.setLedger k (fun g => { g with target := 2 * l })).settleLedger k).allowances k)

/-! ## Sensors (R405) -/

/-- The ring oscillators. -/
def isRo (i : Nat) : Bool := decide (i < 96)
/-- The stack sensors. -/
def isStackSens (i : Nat) : Bool := decide (105 ≤ i)
/-- The junction sensors. -/
def isJunction (i : Nat) : Bool := isRo i || isStackSens i
/-- Every selector, ascending. -/
def allSens : List (Fin 113) := List.finRange 113

def State.sens (s : State) (i : Fin 113) : SensSt := tget s.thm.sens i

/-- The latest reading of a sensor, when it is no FAULT. -/
def SensSt.temp (x : SensSt) : Option Int := if x.fault then none else x.last.map (·.1)

/-- The hottest latest junction reading and its selector; the lower selector of equals. -/
def State.hottest (s : State) : Option (Int × Nat) :=
  allSens.foldl (fun m i =>
    if isJunction i.val then
      match (s.sens i).temp, m with
      | some t, some (u, _) => if u < t then some (t, i.val) else m
      | some t, none => some (t, i.val)
      | none, _ => m
    else m) none

/-! ## THERM_ALERT_N (R417) -/

/-- R417: the conditions of the pin. -/
def State.alertCause (s : State) : Bool :=
  decide (s.thm.limT < 16) || s.laser.trip || s.thm.lapse || s.start.thermHold
    || (match s.hottest with | some (t, _) => decide ((s.thm.alertC : Int) * 16 ≤ t) | none => false)

/-- R417: the pin follows its conditions; an assertion is counted. -/
def State.alertNow (s : State) : State :=
  let a := s.alertCause
  { s with thm := { s.thm with alert := a, cAlerts := satAdd s.thm.cAlerts (bnat (a && ! s.thm.alert)) 0xFFFF } }

end Sys2Proof.Machine
end

