-- ==== Sys2Proof/Machine/LaserOps.lean ====
section
/-! DEFINITION. The laser cartridge: the gate (R376), bias states and lit time (R371, R374, R375), authentication and
usage records (R367 to R373), warm-up, and spares (R379). -/

namespace Sys2Proof.Machine

/-! ## The gate (R376) -/

/-- Every laser, ascending. -/
def allLasers : List (Fin 20) := List.finRange 20
/-- Lasers 0 to 17. -/
def primaries : List (Fin 20) := allLasers.filter (fun n => n.val < 18)

def State.las (s : State) (n : Fin 20) : LaserSt := tget s.laser.lasers n

/-- R32, R35, R39: the clamp of the drivers; a safe start never lights a laser (R76). -/
def State.clamped (s : State) : Bool :=
  ! s.pins.pwrGood || s.start.resetHeld || s.start.uvHold || s.col.xtalBad || s.start.phase == .safe

/-- R376: every all-driver condition is false. -/
def State.gateOpen (s : State) : Bool :=
  let l := s.laser
  ! (s.clamped || l.trip || l.intlk || l.intlkLow || l.latchOpen || l.seat0 || l.seat1 || l.policyOff)

/-- R371: lit: in any state other than OFF or COLD. -/
def LaserState.lit (x : LaserState) : Bool := x != .off && x != .cold

/-- A laser takes a state and a bias code; its lit time is kept (R371). -/
def State.laserTo (s : State) (n : Fin 20) (st : LaserState) (bias : Nat) : State :=
  s.setLaser n (fun x =>
    let spent := match x.litAt with | some t => s.now - t | none => 0
    { x with st := st, bias := bias
             litAt := if st.lit then (if x.st.lit then x.litAt else some s.now) else none
             litCyc := if st.lit then x.litCyc else x.litCyc + spent })

/-- R377: a condition of the gate: every driver goes off, and nothing restarts it by itself. -/
def State.lasersDark (s : State) : State :=
  let s := s.each allLasers (fun s n =>
    let x := s.las n
    if x.st = .out ∨ x.st = .cold then s else s.laserTo n .off 0)
  { s with laser := { s.laser with warmAt := none, settled := false }, col := { s.col with idleHeld := false } }

/-! ## The EEPROM (R367, R368) -/

/-- Bytes of the cartridge's EEPROM. -/
def State.eep (s : State) (a n : Nat) : List Byte := spReadD 0xFF s.laser.eeprom a n
/-- IDLE and RUN codes of a laser. -/
def State.idleCode (s : State) (n : Fin 20) : Nat := leAt (s.eep (0x18 + 4 * n.val) 2) 0 2
def State.runCode (s : State) (n : Fin 20) : Nat := leAt (s.eep (0x1A + 4 * n.val) 2) 0 2
/-- R365: the spare that reaches a position, and the place of the position in its reach. -/
def spareFor (g : Pos) : Fin 20 := if g.val < 9 then 18 else 19
/-- R366, R368: the line code GAIN + TUNE[s][j] of a spare at a position. -/
def State.tuneCode (s : State) (n : Fin 20) (g : Nat) : Nat :=
  let k := n.val - 18
  leAt (s.eep (0x8C + 2 * k) 2) 0 2 + leAt (s.eep (0x68 + 18 * k + 2 * (g % 9)) 2) 0 2

/-- The position that a spare covers, by the record in force. -/
def State.covers (s : State) (n : Fin 20) : Option Nat :=
  if h : 18 ≤ n.val then
    let g := tget s.laser.sparePos ⟨n.val - 18, by omega⟩
    if g < 18 then some g else none
  else none

/-- RUN code of a laser: its own, or the line code of a spare in service (R375). -/
def State.runOf (s : State) (n : Fin 20) : Nat :=
  match s.covers n with | some g => s.tuneCode n g | none => s.runCode n

/-- A laser takes part in warm-up: a primary, or a spare in service, that is not OUT and carries no driver flag. -/
def State.usable (s : State) (n : Fin 20) : Bool :=
  let x := s.las n
  x.st != .out && ! x.oc && ! x.open_ && ! x.short && (decide (n.val < 18) || (s.covers n).isSome)

/-! ## Usage records (R371, R372) -/

/-- Bytes of usage page 0 (A) or 1 (B). -/
def State.page (s : State) (i : Fin 2) : List Byte := s.eep (0x400 + 0x100 * i.val) 256

/-- R371: a page holds a valid record. -/
def State.pageOk (s : State) (i : Fin 2) : Bool :=
  let b := s.page i
  crc32c (b.take 0xFC) == leAt b 0xFC 4 && leAt b 0 4 == 0x53524855 && tget s.laser.sigOk i

/-- R371: the page whose valid record has the highest SEQ. -/
def State.bestPage (s : State) : Option (Fin 2) :=
  match s.pageOk 0, s.pageOk 1 with
  | true, true => if leAt (s.page 0) 4 4 < leAt (s.page 1) 4 4 then some 1 else some 0
  | true, false => some 0
  | false, true => some 1
  | false, false => none

/-- Crystal cycles in a lit minute. -/
def minCyc : Nat := sCyc 60

/-- R371, R380: lit minutes of a laser, those not yet recorded included. -/
def State.litMin (s : State) (n : Fin 20) : Nat :=
  let x := s.las n
  (x.litCyc + (match x.litAt with | some t => s.now - t | none => 0)) / minCyc % 2 ^ 32

/-- OUT as a mask of 20 bits. -/
def State.outMask (s : State) : Nat := vmask (fun x => x.st == .out) s.laser.lasers

/-- The record in force is read: its SEQ, lit minutes, spares and lasers out of service. -/
def State.readRecord (s : State) (i : Fin 2) (fresh : Bool) : State :=
  let b := s.page i
  let out := leAt b 0x5C 4
  let s := { s with laser := { s.laser with
    recSeq := leAt b 4 4, sparePos := tab 2 (fun k => leAt b (0x58 + k.val) 1)
    recDue := decide (leAt b 0x60 8 ≠ s.col.serial)
    elemMin := tab 20 (fun n => leAt b (8 + 4 * n.val) 4), elemOut := out
    elemSeq := max (if fresh then 0 else s.laser.elemSeq) (leAt b 4 4) } }
  s.each allLasers (fun s n =>
    let m := leAt b (8 + 4 * n.val) 4 * minCyc
    let s := s.setLaser n (fun x => { x with litCyc := if fresh then m else max x.litCyc m
                                             cover := match s.covers n with | some g => g | none => x.cover })
    if bitAt out n.val then s.laserTo n .out 0 else s)

/-- R372: the record written next, bytes 0x00 to 0x7F. -/
def State.nextRecord (s : State) : List Byte :=
  leBytes 4 0x53524855 ++ leBytes 4 (s.laser.recSeq + 1) ++ allLasers.flatMap (fun n => leBytes 4 (s.litMin n))
    ++ s.laser.sparePos.toList.flatMap (leBytes 1) ++ leBytes 2 0 ++ leBytes 4 s.outMask ++ leBytes 8 s.col.serial
    ++ leBytes 8 s.time ++ List.replicate 16 0

/-- R372: a record is written into the page that does not hold the highest valid record, if the element signs it. The
signature's value is open. -/
def State.writeRecord (s : State) : State :=
  let b := s.nextRecord
  let low := allLasers.any (fun n => decide (s.litMin n < tget s.laser.elemMin n))
    || allLasers.any (fun n => bitAt s.laser.elemOut n.val && ! bitAt s.outMask n.val)
  if s.laser.recSeq + 1 ≤ s.laser.elemSeq || low then
    ({ s with laser := { s.laser with recDue := false } } : State).log 1 0x0C 3 (detailOf 0 0)
  else
    let i : Fin 2 := match s.bestPage with | some i => if i = 0 then 1 else 0 | none => 0
    let (f, s) := s.draw
    let b := b ++ leBytes 64 f ++ List.replicate 60 0
    let b := b ++ leBytes 4 (crc32c b)
    { s with laser := { s.laser with
      eeprom := spWriteD 0xFF (spClear s.laser.eeprom (0x400 + 0x100 * i.val) 256) (0x400 + 0x100 * i.val) b
      sigOk := upd s.laser.sigOk i true, recDue := false, recSeq := s.laser.recSeq + 1
      elemSeq := s.laser.recSeq + 1, elemMin := tab 20 s.litMin, elemOut := s.outMask } }

/-! ## Authentication (R370) -/

/-- Whether another cartridge's EEPROM was read, and the state with what was read. -/
def State.readCartridge (s : State) (c : SeatInput) : State :=
  let l := s.laser
  let l := match c.eeprom with
    | some bs => { l with eeprom := spWriteD 0xFF [] 0 bs, elemSeq := 0, sparePos := rep 2 0xFF }
    | none => l
  { s with laser := { l with sigOk := upd (upd l.sigOk 0 c.sigA) 1 c.sigB, temp := c.temp } }

/-- R369, R370: the first step that fails, as AUTH reports it; 1 when every step passes. -/
def State.authResult (s : State) (c : SeatInput) : Nat :=
  let id := s.eep 0 256
  let crt := s.eep 0x100 512
  let le := fun (o : Nat) => leAt crt o 48
  if s.laser.intlkLow || s.laser.latchOpen then 2
  else if ! c.ack || ! s.laser.vddOn then 3
  else if crc32c (id.take 0xFC) ≠ leAt id 0xFC 4 ∨ leAt id 0 4 ≠ 0x31435447 ∨ leAt id 4 2 ≠ 1 then 4
  else if (s.anchorFor s.cairn.genInForce 4 (leAt crt 4 2) (le 0x50) (le 0x80)).isNone then 5
  else if ! ecdsaVerify (le 0x50) (le 0x80) (le 0xB0) (le 0xE0) (sha384 (crt.take 0xB0)) ∨ leAt crt 8 8 ≠ leAt id 8 8 then 6
  else if ! c.challengeOk then 7
  else if s.bestPage.isNone then 8
  else 1

/-- R370: a cartridge is authenticated; a refusal is logged, and no laser of it is lit. -/
def State.authenticate (s : State) (c : SeatInput) (start : Bool) : State :=
  let s := s.readCartridge c
  let a := s.authResult c
  let s := { s with laser := { s.laser with auth := a, ctgState := if a = 1 then 2 else if a = 2 then 0 else 3 } }
  if a = 1 then
    let s := { s with laser := { s.laser with serial := leAt (s.eep 8 8) 0 8 } }
    match s.bestPage with
    | some i => s.readRecord i (start || c.eeprom.isSome)
    | none => s
  else s.log 1 0x0C 4 (detailOf 0 a)

/-! ## Warm-up (R375) -/

/-- R375, R376: laser warm-up begins when the gate is open, the cartridge is accepted and the policy asks for light; the
seat flags are cleared by it. -/
def State.warmUp (s : State) : State :=
  if s.gateOpen && s.laser.auth == 1 && decide (0 < s.laser.policy) then
    let s := s.each allLasers (fun s n =>
      if s.usable n && (s.las n).st == .off || s.usable n && (s.covers n).isSome && (s.las n).st == .cold then
        (s.laserTo n .idle (s.idleCode n)).setLaser n (fun x => { x with cover := (s.covers n).getD n.val })
      else s)
    if s.laser.policy = 2 then { s with laser := { s.laser with warmAt := some s.now, settled := false } } else s
  else s

/-- R375: the lasers in warm-up take a state: RAMP on the way to RUN, or RUN. -/
def State.warmTo (s : State) (st : LaserState) : State :=
  s.each allLasers (fun s n =>
    let x := s.las n
    if x.st = .idle ∨ x.st = .ramp then s.laserTo n st (s.runOf n) else s)

/-- R376: firmware answers the first seat fault of a start with a new warm-up, which clears it. -/
def State.seatRetry (s : State) : State :=
  if (s.laser.seat0 || s.laser.seat1) && decide (s.laser.seatTries < 2) then
    let t := { s with laser := { s.laser with seat0 := false, seat1 := false } }
    if t.gateOpen && t.laser.auth == 1 then t.warmUp else s
  else s

/-- R376: a seat fault on a photonic die holds every driver off. -/
def State.seatFault (s : State) (die : Nat) : State :=
  let s := { s with laser := { s.laser with
    seat0 := s.laser.seat0 || decide (die = 0), seat1 := s.laser.seat1 || decide (die = 1)
    seatTries := min 2 (s.laser.seatTries + 1) } }
  s.lasersDark

/-- R376: the primaries above their IDLE code. -/
def State.aboveIdle (s : State) : Nat :=
  (primaries.filter (fun n => (s.las n).st.lit && decide (s.idleCode n < (s.las n).bias))).length

/-- R386: every laser that serves a grid position is in RUN. -/
def State.allRun (s : State) : Bool :=
  allLasers.all (fun n => ! s.usable n || (s.las n).st == .run) && primaries.any (fun n => (s.las n).st == .run)

/-- The ports left without calibrated rings (R66). -/
def State.portsLeft (s : State) : Nat :=
  maskOf 8 (fun p => decide ((allPos.filter (fun g => decide (((s.port (portOf p)).ring (txRing g)).target ≠ 0))).length < 16))

/-! ## Spares (R379) -/

/-- R379: the spare of a position's reach is tuned to it, when it is COLD. -/
def State.tuneSpare (s : State) (g : Pos) : State :=
  let n := spareFor g
  if (s.las n).st = .cold then
    let s := s.laserTo n .tuning (s.tuneCode n g.val)
    let s := s.setLaser n (fun x => { x with cover := g.val })
    { s with laser := { s.laser with sparePos := upd s.laser.sparePos (if n = 18 then 0 else 1) g.val } }
  else s

/-- R326, R379: cause "laser out of service" for a position, at every port. -/
def State.laserLost (s : State) (g : Pos) : State := s.each allPorts (fun s p => s.posFault p false g 4)

/-- R379: a laser is OUT: its position moves on every port, and the spare of its reach is tuned; a spare that was covering
leaves its position in FAULT. -/
def State.laserOut (s : State) (n : Fin 20) : State :=
  let cov := s.covers n
  let s := (s.laserTo n .out 0).log 2 0x0C 1 (detailOf n.val 0)
  let s := { s with laser := { s.laser with recDue := true } }
  if h : n.val < 18 then
    let s := s.setLaser n (fun x => { x with cover := 31 })
    (s.laserLost ⟨n.val, h⟩).tuneSpare ⟨n.val, h⟩
  else
    let s := s.setLaser n (fun x => { x with cover := 31 })
    let s := { s with laser := { s.laser with sparePos := upd s.laser.sparePos (if n = 18 then 0 else 1) 0xFF } }
    match cov with
    | some g => s.laserLost ⟨g % 18, Nat.mod_lt _ (by decide)⟩
    | none => s

/-- R379: the transmit rings of a primary's position on every enabled port read below half their TARGET ratio. -/
def State.lowRatio (s : State) (n : Fin 20) : Bool :=
  let ps := allPorts.filter (fun p => bitAt s.dev.portEn p.val)
  if h : n.val < 18 then
    ! ps.isEmpty && (s.las n).st == .run
      && ps.all (fun p => let r := s.port p; let k := txRing ⟨n.val, h⟩; decide (2 * r.ratio k < (r.ring k).target))
  else false

end Sys2Proof.Machine
end

