-- ==== Sys2Proof/Machine/Laser.lean ====
section
/-! DEFINITION. The commands of the laser cartridge and its interlocks (R365 to R381). -/

namespace Sys2Proof.Machine

/-! ## Trips and interlocks (R376, R378) -/

/-- A TRIP or INTLK latch sets: recorded, logged, and every driver goes off (R377). -/
def State.latchSet (s : State) (f : LaserBlk → LaserBlk) : State :=
  let s := { s with laser := { (f s.laser) with tripTime := s.time } }
  ((s.log 1 0x0C 2 (detailOf 0 (bnat s.laser.trip + 2 * bnat s.laser.intlk))).lasersDark).alertNow

/-- R376: TRIP_N is asserted. -/
def State.tripAssert (s : State) : State :=
  ({ s with pins := { s.pins with tripN := false, tripRel := none } } : State).latchSet (fun l => { l with trip := true })

/-- TRIP_N_ASSERT (R23, R376). -/
def execTripNAssert (s : State) : Host.Outcome State Fault Refusal := .next (s.when (! s.col.por) State.tripAssert)

/-- TRIP_N_RELEASE (R378). -/
def execTripNRelease (s : State) : Host.Outcome State Fault Refusal :=
  .next (s.when (! s.col.por && ! s.pins.tripN) (fun s => { s with pins := { s.pins with tripN := true, tripRel := some s.now } }))

/-- R370: INTLK_N high and CTG_LATCH low begin to hold together. -/
def State.seatNow (s : State) (since : Nat) : State :=
  { s with laser := { s.laser with seatedAt := if s.laser.intlkLow || s.laser.latchOpen then none else some since } }

/-- The cartridge is no longer held: it must be authenticated again (log 47). -/
def State.unseat (s : State) : State :=
  { s with laser := { s.laser with seatedAt := none, auth := 0, ctgState := 0 } }

/-- INTLK_FALL (R376): the level holds the drivers off; the latch sets while CTG_VDD is on. -/
def execIntlkFall (s : State) : Host.Outcome State Fault Refusal :=
  .next (s.when (! s.col.por && ! s.laser.intlkLow) (fun s =>
    let s := ({ s with laser := { s.laser with intlkLow := true } } : State).unseat
    if s.laser.vddOn then s.latchSet (fun l => { l with intlk := true }) else s.lasersDark))

/-- INTLK_N_RISE (R376, R378). -/
def execIntlkNRise (s : State) : Host.Outcome State Fault Refusal :=
  .next (s.when (! s.col.por && s.laser.intlkLow) (fun s =>
    ({ s with laser := { s.laser with intlkLow := false, intlkRel := s.now } } : State).seatNow s.now))

/-- LATCH_OPEN (R376). -/
def execLatchOpen (s : State) : Host.Outcome State Fault Refusal :=
  .next (s.when (! s.col.por) (fun s =>
    ({ s with laser := { s.laser with latchOpen := true } } : State).unseat.lasersDark))

/-- LATCH_CLOSED (R376): CTG_LATCH has been low for 100 ms. -/
def execLatchClosed (s : State) : Host.Outcome State Fault Refusal :=
  .next (s.when (! s.col.por && s.laser.latchOpen) (fun s =>
    ({ s with laser := { s.laser with latchOpen := false } } : State).seatNow (max s.laser.intlkRel (s.now - msCyc 100))))

/-- R378: a write of LSR_TRIP_CLR: it arms the sequence, clears the named latches that may clear, or breaks the
sequence. -/
def State.tripClrWrite (s : State) (v : Nat) : State :=
  let l := s.laser
  let key := fld v 31 16
  let broken := { s with laser := { l with armed := none, seqErr := true } }
  match l.armed with
  | none => if key = 0xC1EA ∧ fld v 1 0 = 0 then { s with laser := { l with armed := some s.now } } else broken
  | some t =>
    if key = 0x5AFE ∧ s.now < t + msCyc 1 + 1 ∧ fld v 1 0 ≠ 0 then
      let tripIn := s.pins.tripN && (match s.pins.tripRel with | some r => s.past r (msCyc 1) | none => true)
      let intIn := ! l.intlkLow && s.past l.intlkRel (msCyc 1)
      let bad := (bitAt v 0 && l.trip && ! tripIn) || (bitAt v 1 && l.intlk && ! intIn)
      let s := { s with laser := { l with
        armed := none, clrRefused := l.clrRefused || bad
        trip := l.trip && ! (bitAt v 0 && tripIn), intlk := l.intlk && ! (bitAt v 1 && intIn) } }
      let s := s.alertNow
      if ! s.laser.trip && ! s.laser.intlk && s.isReady && ! s.laser.settled then s.warmUp else s
    else broken

/-- TRIP_CLEAR_ARM (R378). -/
def execTripClearArm (val : W32) (s : State) : Host.Outcome State Fault Refusal :=
  .next (s.when s.served (fun s => s.tripClrWrite val.toNat))

/-- TRIP_CLEAR (R378). -/
def execTripClear (val : W32) (s : State) : Host.Outcome State Fault Refusal :=
  .next (s.when s.served (fun s => s.tripClrWrite val.toNat))

/-- TRIP_CLEAR_SEQ_EXPIRY (R378). -/
def execTripClearSeqExpiry (s : State) : Host.Outcome State Fault Refusal :=
  .next (match s.laser.armed with
    | some t => s.when (s.past t (msCyc 1)) (fun s => { s with laser := { s.laser with armed := none, seqErr := true } })
    | none => s)

/-! ## The cartridge (R367, R370, R372) -/

/-- Firmware runs: it authenticates cartridges and writes records. -/
def State.fwRuns (s : State) : Bool := s.isReady || s.start.phase == .bringUp || s.start.phase == .commit

/-- CARTRIDGE_SEATED (R370): 100 ms after INTLK_N high and CTG_LATCH low began to hold together, the cartridge is
authenticated; with the gate open its lasers warm up under the policy. -/
def execCartridgeSeated (ctg : SeatInput) (s : State) : Host.Outcome State Fault Refusal :=
  .next (match s.laser.seatedAt with
    | some t => s.when (s.fwRuns && s.past t (msCyc 100)) (fun s =>
        let s := ({ s with laser := { s.laser with seatedAt := none, ctgState := 1 } } : State).authenticate ctg false
        if s.isReady then s.warmUp else s)
    | none => s)

/-- USAGE_RECORD_WRITE (R372): after a change of OUT or SPARE_POS, on a record of another device, or after 60 lit minutes;
never during an orderly stop. -/
def execUsageRecordWrite (s : State) : Host.Outcome State Fault Refusal :=
  let hour := allLasers.any (fun n => decide (tget s.laser.elemMin n + 60 ≤ s.litMin n))
  .next (s.when (s.fwRuns && s.start.stop.isNone && s.laser.auth == 1 && (s.laser.recDue || hour)) State.writeRecord)

/-- CTG_VDD_TRIP (R367). -/
def execCtgVddTrip (s : State) : Host.Outcome State Fault Refusal :=
  .next (s.when s.laser.vddOn (fun s => { s with laser := { s.laser with vddOn := false, vddOffAt := some s.now } }))

/-- CTG_VDD_RECLOSE (R367). -/
def execCtgVddReclose (s : State) : Host.Outcome State Fault Refusal :=
  .next (match s.laser.vddOffAt with
    | some t => s.when (s.past t (msCyc 100)) (fun s => { s with laser := { s.laser with vddOn := true, vddOffAt := none } })
    | none => s)

/-! ## Drivers, warm-up, spares (R374, R375, R379) -/

/-- DRIVER_FAULT (R374): the driver switches off at once and its flag sets; the others are not affected. -/
def execDriverFault (n : Fin 20) (kind : DriverFaultKind) (s : State) : Host.Outcome State Fault Refusal :=
  let x := s.las n
  .next (s.when (x.st.lit && x.st != .out) (fun s =>
    let s := (s.laserTo n .off 0).setLaser n (fun x => match kind with
      | .overcurrent => { x with oc := true, ocPrev := x.ocAt, ocAt := some s.now }
      | .open_ => { x with open_ := true }
      | .short => { x with short := true })
    { s with col := { s.col with idleHeld := false } }))

/-- OVERCURRENT_RETRY (R379): 100 ms after the flag firmware clears it and restarts the driver from OFF, to the bias that
the policy asks for. -/
def execOvercurrentRetry (n : Fin 20) (s : State) : Host.Outcome State Fault Refusal :=
  let x := s.las n
  .next (match x.ocAt with
    | some t => s.when (x.oc && x.st != .out && s.past t (msCyc 100)) (fun s =>
        let s := s.setLaser n (fun x => { x with oc := false })
        if s.gateOpen && s.laser.auth == 1 && s.usable n then
          if s.laser.policy = 2 && s.laser.settled then s.laserTo n .run (s.runOf n)
          else if 0 < s.laser.policy then s.laserTo n .idle (s.idleCode n) else s
        else s)
    | none => s)

/-- LASER_WARMUP_SETTLED (R66, R375, R386): the lasers are in RUN and full calibration follows in a start, or for the ports
left out; a warm-up not settled after 5 s has failed, and its lasers stay at idle bias. -/
def execLaserWarmupSettled (ok : Bool) (s : State) : Host.Outcome State Fault Refusal :=
  .next (match s.laser.warmAt with
    | none => s
    | some t =>
      if ok then
        let s := s.warmTo .run
        let s := { s with laser := { s.laser with warmAt := none, settled := true } }
        if s.starting then
          let s := { s with start := { s.start with done := upd s.start.done 2 true } }
          if s.start.opticsDone then s else s.fullStart 255 false
        else if s.start.optDown ∧ s.cal.full.isNone ∧ s.portsLeft ≠ 0 then s.fullStart s.portsLeft false
        else s
      else s.when (s.past t (sCyc 5)) (fun s =>
        let s := s.each allLasers (fun s n => if (s.las n).st = .ramp then s.laserTo n .idle (s.idleCode n) else s)
        let s := { s with laser := { s.laser with warmAt := none } }
        if s.starting then { s with start := { s.start with optDown := true, opticsDone := true } } else s))

/-- LASER_OUT (R379): a second overcurrent flag within 1 h, an open or short flag, or rings that read below half their
target at every enabled port. -/
def execLaserOut (n : Fin 20) (s : State) : Host.Outcome State Fault Refusal :=
  let x := s.las n
  let twice := match x.ocAt, x.ocPrev with | some a, some b => decide (a ≤ b + sCyc 3600) && x.oc | _, _ => false
  .next (s.when (s.fwRuns && x.st != .out && (twice || x.open_ || x.short || s.lowRatio n)) (fun s => s.laserOut n))

/-- SPARE_TUNED (R379, R391): 2 s after tuning began the spare is in RUN, and its position's rings are acquired. -/
def execSpareTuned (n : Fin 20) (s : State) : Host.Outcome State Fault Refusal :=
  let x := s.las n
  .next (match x.litAt with
    | some t => s.when (x.st == .tuning && s.past t (sCyc 2)) (fun s =>
        let s := s.laserTo n .run x.bias
        match s.covers n with
        | some g =>
          let g : Pos := ⟨g % 18, Nat.mod_lt _ (by decide)⟩
          s.each allPorts (fun s p =>
            if s.pos p false g == .fault then
              (s.setPort p (fun r => { r with tried := updWith r.tried 0 (fun v => updWith v g (fun e => (e.1 + 1, s.now))) })).startAcq p false g false
            else s)
        | none => s)
    | none => s)

/-! ## Mailbox requests (R380) -/

/-- CTG_INFO (R380). -/
def execCtgInfo (s : State) : Host.Outcome State Fault Refusal :=
  .next (s.onRequest 0x300 (fun req =>
    if s.start.phase = .safe then s.mbxAnswer req (stRefused 0xC)
    else
      let l := s.laser
      s.mbxAnswer req stOk [(8, leBytes 1 l.ctgState), (9, leBytes 1 l.auth), (0xA, l.sparePos.toList.flatMap (leBytes 1)),
        (0xC, leBytes 4 s.outMask), (0x10, leBytes 8 l.serial), (0x18, leBytes 4 l.recSeq)]))

/-- CTG_HOURS (R380). -/
def execCtgHours (s : State) : Host.Outcome State Fault Refusal :=
  .next (s.onRequest 0x301 (fun req =>
    let a := leAt req 0x10 8
    if s.start.phase = .safe then s.mbxAnswer req (stRefused 0xC)
    else if a % 16 ≠ 0 then s.mbxAnswer req (stRefused 4)
    else (s.hostWritePf a (allLasers.flatMap (fun n => leBytes 4 (s.litMin n)))).mbxAnswer req stOk [(8, leBytes 1 20)]))

/-- R380: the policy takes effect on the lasers now: off, idle, or warm-up toward RUN. -/
def State.applyPolicy (s : State) : State :=
  let l := s.laser
  if l.policy = 0 then ({ s with laser := { l with policyOff := true } } : State).lasersDark
  else
    let s := { s with laser := { l with policyOff := false } }
    if s.laser.policy = 1 then
      let s := s.each allLasers (fun s n =>
        let x := s.las n
        if x.st = .run ∨ x.st = .ramp ∨ x.st = .tuning then s.laserTo n .idle (s.idleCode n) else s)
      ({ s with laser := { s.laser with warmAt := none, settled := false } } : State).warmUp
    else if s.laser.settled || s.laser.warmAt.isSome then s else s.warmUp

/-- LASER_POLICY (R376, R380). -/
def execLaserPolicy (s : State) : Host.Outcome State Fault Refusal :=
  .next (s.onRequest 0x302 (fun req =>
    let m := leAt req 8 1
    if s.start.phase = .safe then s.mbxAnswer req (stRefused 0xC)
    else if 2 < m then s.mbxAnswer req (stRefused 4)
    else
      let s := { s with laser := { s.laser with policy := m, seatTries := 0 } }
      let s := s.seatRetry.applyPolicy
      s.mbxAnswer req stOk [(8, leBytes 1 s.laser.policy)]))

end Sys2Proof.Machine
end

