-- ==== Sys2Proof/Machine/Link.lean ====
section
/-! DEFINITION. The commands of the link layer (R334 to R363): flits, replay and credits, bringing a link up, lane moves,
role swaps, calibration messages and the hold time. A control message arrives as a command of its own or inside a flit
(log 38). -/

namespace Sys2Proof.Machine

/-! ## Acknowledgement, replay, credits (R339 to R343) -/

/-- R339: the flits that an ACK covers leave the replay buffer. -/
def LinkSt.ackTo (l : LinkSt) (ack now : Nat) : LinkSt :=
  match l.replay with
  | [] => l
  | f :: _ =>
    let n := (ack + 65536 - f.seq + 1) % 65536
    if n = 0 ∨ l.replay.length < n then l
    else { l with replay := l.replay.drop n, resent := 1, sentAt := now }

/-- R342: the credits that a FREED count returns. -/
def LinkSt.credit (l : LinkSt) (i : Fin 8) (freed : Nat) : LinkSt :=
  { l with cred := updWith l.cred i (fun c => min (halfSize (i.val / 2)) (c + (freed + 4096 - tget l.seen i % 4096) % 4096))
           seen := upd l.seen i (freed % 4096) }

/-- R339, R340: every unacknowledged flit is sent again; the eighth sending of the same oldest flit retrains the link. -/
def State.replayAll (s : State) (p : Port) : State :=
  let l := s.link p
  if l.replay.isEmpty then s
  else
    let s := s.setLink p (fun l => { l with replays := satAdd l.replays 1 0xFFFF, resent := l.resent + 1, sentAt := s.now })
    if 8 ≤ l.resent + 1 then s.linkRetrain p else s

/-- R339: NAK: its ACK counts, and everything after it is sent again. -/
def State.gotNak (s : State) (p : Port) (ack : Nat) : State :=
  if (s.link p).st = .up then (s.setLink p (fun l => l.ackTo ack s.now)).replayAll p else s

/-- R343: the peer's CSYNC. A link that is UP follows the peer into the handshake. -/
def State.gotCsync (s : State) (p : Port) (ack : Nat) (freed : List Nat) : State :=
  let s := s.linkRetrain p
  let l := s.link p
  if l.st = .sync ∨ l.st = .retrain ∨ l.st = .miswired then
    let s := s.setLink p (fun l =>
      let l := l.ackTo ack s.now
      let l := (List.finRange 8).foldl (fun l i => l.credit i (freed.getD i.val 0)) l
      { l with csyncOk := true, nakAt := none, txSeq := if l.replay.isEmpty then (ack + 1) % 65536 else l.txSeq })
    s.syncCheck p
  else s

/-! ## HELLO (R345) -/

/-- R345: CHL_LINK.MIS for a HELLO: 0 accepted. -/
def State.helloMis (s : State) (p : Port) (h : HelloMsg) : Nat :=
  let d := s.dev
  match tget s.str.links p with
  | none => 1
  | some c =>
    if h.devCount ≠ d.devCount ∨ h.topo ≠ d.topo ∨ h.torusW ≠ d.torusW then 3
    else if h.devIndex ≠ c.expDev ∨ (s.port p).peer.map (·.1) ≠ some c.expDev then 1
    else if h.port.val ≠ c.expPort ∨ (s.port p).peer.map (·.2) ≠ some c.expPort then 2
    else 0

/-- R344, R345: the peer's HELLO. -/
def State.gotHello (s : State) (p : Port) (h : HelloMsg) : State :=
  let st := (s.link p).st
  if st = .sync ∨ st = .miswired then
    let m := s.helloMis p h
    let s := s.setLink p (fun l => { l with peerDev := h.devIndex, peerPort := h.port.val, peerSerial := h.serial, mis := m })
    if m = 0 then
      let s := s.setLink p (fun l => { l with helloOk := true, st := .sync })
      s.syncCheck p
    else
      let s := s.setLink p (fun l => { l with helloOk := false, st := .miswired, outAt := some (l.outAt.getD s.now) })
      s.log 1 0x0B 1 (detailOf p.val m)
  else s

/-! ## Lane moves (R325, R349) -/

/-- MOVE arrives at the receiver of the direction, which answers MOVE_ACK; an outage announced for the position and not
begun gives way to a fault move (R363). -/
def State.gotMove (s : State) (p : Port) (lane : Lane) (frm dst : Pos) (cause n : Nat) : State :=
  if (s.link p).st = .up then
    let s := match (s.link p).slot with
      | some x => if cause ≠ 0 ∧ x.stage = 0 ∧ x.tx = false ∧ x.pos = frm then s.slotOver p else s
      | none => s
    let m : LaneMove := { lane := lane, frm := frm, dst := dst, cause := cause, n := n, acked := true }
    let s := s.setPort p (fun r => { r with rxMoves := r.rxMoves.filter (fun x => x.lane ≠ lane) ++ [m] })
    s.sendCtl p 0x03 [(8, 4, n)]
  else s

/-- MOVE_ACK arrives at the transmitter. -/
def State.gotMoveAck (s : State) (p : Port) (n : Nat) : State :=
  s.setPort p (fun r => { r with txMoves := r.txMoves.map (fun m => if m.n = n ∧ m.dst ≠ m.frm then { m with acked := true } else m) })

/-- MOVE_CANCEL arrives at the receiver: the lane stays. -/
def State.gotMoveCancel (s : State) (p : Port) (n : Nat) : State :=
  s.setPort p (fun r => { r with rxMoves := r.rxMoves.filter (fun m => m.n ≠ n) })

/-- MOVE_REQ arrives at the transmitter, which chooses the spare (R326, R349); cause 0 asks for the outage announced. -/
def State.gotMoveReq (s : State) (p : Port) (frm : Pos) (cause : Nat) : State :=
  if (s.link p).st ≠ .up then s
  else if cause = 0 then
    match (s.link p).slot with
    | some x => if x.tx = true ∧ x.pos = frm ∧ x.stage = 0 then s.startMove p frm 0 (some x.frame) else s
    | none => s
  else s.posFault p false frm cause

/-- CAL_ANNOUNCE arrives at the follow end (R349, R392); a fault move for the position wins (R363). -/
def State.gotCalAnnounce (s : State) (p : Port) (dir : Bool) (pos : Pos) (frame : Nat) : State :=
  let l := s.link p
  let r := s.port p
  let moving := (if dir then r.txMoves else r.rxMoves).any (fun m => m.frm == pos && decide (m.cause ≠ 0))
  if l.st = .up ∧ l.lead = false ∧ l.slot.isNone = true ∧ moving = false then
    let x : SlotSt := { leadTx := ! dir, pos := pos, frame := frame, own := false
                        at_ := s.now + cyclesTo (r.dirFrame (! dir) s.now) frame, stage := 0
                        saved := (0, 0, 0, .off), committed := false, backAt := 0 }
    s.setLink p (fun l => { l with slot := some x })
  else s

/-! ## Role swaps (R350) -/

/-- R350: SWAP_GRANT is sent: F_S is 96 frames ahead, and `lead` says whether this end leads from it. -/
def State.sendGrant (s : State) (p : Port) (byHost lead : Bool) : State :=
  let fs := ((s.port p).txFrame s.now + 96) % 2 ^ 32
  let serial := if lead then s.col.serial else (s.link p).peerSerial
  let s := s.sendCtl p 0x08 [(4, 4, fs), (8, 8, serial)]
  s.setLink p (fun l => { l with swap := .granted byHost fs (s.now + cdiv (96 * 64) 35) lead })

/-- R350: SWAP_REQ arrives: granted, a crossing, or between a grant and its F_S. -/
def State.gotSwapReq (s : State) (p : Port) : State :=
  let l := s.link p
  if l.st ≠ .up then s
  else match l.swap with
    | .none => s.sendGrant p false (! l.lead)
    | .asked h _ =>
      if s.col.serial < l.peerSerial then s.sendGrant p h true
      else s.setLink p (fun l => { l with swap := .asked h true })
    | .granted _ _ _ _ => s

/-- R350: SWAP_GRANT arrives at an end whose request is pending; the end that lost a crossing is answered SUB 0xD. -/
def State.gotSwapGrant (s : State) (p : Port) (fs serial : Nat) : State :=
  let l := s.link p
  match l.swap with
  | .asked h crossed =>
    let at_ := s.now + cyclesTo ((s.port p).rxFrame s.now) fs
    let s := s.setLink p (fun l => { l with swap := .granted (h && ! crossed) fs at_ (decide (serial = s.col.serial)) })
    if h && crossed then s.mbxDone (stRefused 0xD) else s
  | _ => s

/-- R350: at F_S an outage of the former lead that no MOVE_ACK has acknowledged is withdrawn, and its move with it. -/
def State.withdraw (s : State) (p : Port) : State :=
  match (s.link p).slot with
  | some x =>
    let r := s.port p
    let mine := fun (m : LaneMove) => decide (m.frm = x.pos) && decide (m.cause = 0)
    let acked := if x.tx then r.txMoves.any (fun m => mine m && m.acked) else r.rxMoves.any mine
    if x.stage = 0 ∧ acked = false then
      let gone := if x.tx then r.txMoves.filter mine else []
      let s := s.each gone (fun s m => if m.dst ≠ m.frm then s.sendCtl p 0x04 [(8, 4, m.n)] else s)
      let s := s.setPort p (fun r => { r with txMoves := r.txMoves.filter (fun m => ! gone.contains m) })
      s.setLink p (fun l => { l with slot := none })
    else s
  | none => s

/-- ROLE_SWAP_FRAME (R350): both ends exchange roles at F_S. -/
def execRoleSwapFrame (p : Port) (s : State) : Host.Outcome State Fault Refusal :=
  .next (match (s.link p).swap with
    | .granted h fs at_ lead => s.when (decide (at_ ≤ s.now) && (s.link p).st == .up) (fun s =>
        let s := if lead = (s.link p).lead then s else s.withdraw p
        let s := s.setLink p (fun l => { l with lead := lead, swap := .none })
        if h then s.mbxDone stOk [(8, leBytes 1 (bnat lead)), (0xC, leBytes 4 fs)] else s)
    | _ => s)

/-- SWAP_REQ (R350). -/
def execSwapReq (p : Port) (s : State) : Host.Outcome State Fault Refusal := .next (s.gotSwapReq p)

/-- SWAP_GRANT (R350). -/
def execSwapGrant (p : Port) (fs serial : Nat) (s : State) : Host.Outcome State Fault Refusal := .next (s.gotSwapGrant p fs serial)

/-- LINK_SWAP (R350): the mailbox request 0x0040. -/
def execLinkSwap (s : State) : Host.Outcome State Fault Refusal :=
  .next (s.onRequest 0x40 (fun req =>
    let n := leAt req 8 1
    if ! s.isReady then s.mbxAnswer req (stRefused 0xC)
    else if h : n < 8 then
      let p : Port := ⟨n, h⟩
      let l := s.link p
      if s.start.phase = .readyEmpty ∨ l.st ≠ .up then s.mbxAnswer req (stRefused 0xE)
      else match l.swap with
        | .none =>
          let s := (s.mbxStart req).setLink p (fun l => { l with swap := .asked true false })
          s.sendCtl p 0x07 []
        | _ => s.mbxAnswer req (stRefused 0xD)
    else s.mbxAnswer req (stRefused 4)))

/-! ## Calibration messages (R393, R394) -/

/-- R393: CAL_RX_START arrives at the receiver of the slot's direction, which sweeps its ring. -/
def State.gotRxStart (s : State) (p : Port) : State :=
  match (s.link p).slot with
  | some x => if x.tx = false ∧ x.stage = 2 then s.startAcq p true x.pos true else s
  | none => s

/-- R393: CAL_RX_DONE arrives at the transmitter: it commits, or the slot rolls back (R394). -/
def State.gotRxDone (s : State) (p : Port) (result : Nat) : State :=
  match (s.link p).slot with
  | some x =>
    if x.tx = true ∧ x.stage = 3 then
      if result = 0 then (((s.ringDone p x.ring).slotOver p).becomeWarm p false x.pos).calCount p 0
      else s.slotBack p 2
    else s
  | none => s

/-! ## Messages (R348, R351, R352, R360) -/

/-- A message of the link arrives whole on VC 2 or VC 3: dispatched by CTYPE. -/
def State.gotCtl (s : State) (p : Port) (vc : Fin 4) (b : List Byte) : State :=
  let u8 := fun (o : Nat) => leAt b (0x20 + o) 1
  let u32 := fun (o : Nat) => leAt b (0x20 + o) 4
  let pos : Nat → Pos := fun v => ⟨v % 18, Nat.mod_lt _ (by decide)⟩
  let ty := u8 0
  if vc = 3 then
    if ty = 1 then s.gotRxStart p else if ty = 2 then s.gotRxDone p (u8 2) else if ty = 3 then s.slotBack p (u8 2) else s
  else if ty = 1 then
    s.gotHello p { devIndex := u8 1, port := portOf (u8 2), devCount := u8 3, topo := u8 4, torusW := u8 5, serial := leAt b 0x28 8 }
  else if ty = 2 then s.gotMove p ⟨u8 1 % 16, Nat.mod_lt _ (by decide)⟩ (pos (u8 2)) (pos (u8 3)) (u8 4) (u32 8)
  else if ty = 3 then s.gotMoveAck p (u32 8)
  else if ty = 4 then s.gotMoveCancel p (u32 8)
  else if ty = 5 then s.gotMoveReq p (pos (u8 2)) (u8 4)
  else if ty = 6 then s.gotCalAnnounce p (u8 1 == 1) (pos (u8 2)) (u32 8)
  else if ty = 7 then s.gotSwapReq p
  else if ty = 8 then s.gotSwapGrant p (u32 4) (leAt b 0x28 8)
  else s

/-- R359: the dimension of a port: 0 for a ring and for x, 1 for y. -/
def portDim (topo p : Nat) : Nat := if topo = 2 ∧ (p % 4 = 2 ∨ p % 4 = 3) then 1 else 0

/-- R360, R361: a message for another device is forwarded on the same VC, HOPS one higher. -/
def State.forward (s : State) (p : Port) (vc : Fin 4) (dl : Bool) (m : Msg) : State :=
  let h := { m.hdr with hops := m.hdr.hops + 1 }
  if 32 ≤ h.hops then s.log 1 0x0B 4 (detailOf p.val h.srcDev)
  else match s.dev.hop h.dstDev with
    | none => s
    | some hop =>
      match s.pickPort hop h with
      | none => s
      | some q => s.sendOn q vc ((dl && portDim s.dev.topo p.val == hop.dim) || hop.wrap) { m with hdr := h } none

/-- R351, R352: a whole message has arrived. -/
def State.deliver (s : State) (p : Port) (vc : Fin 4) (dl : Bool) (b : List Byte) (pz : Option Nat) : State :=
  let h := MsgHdr.ofBytes b
  let m : Msg := { hdr := h, payload := (b.drop 32).take h.len, poison := pz }
  if vc = 2 ∨ vc = 3 then s.gotCtl p vc b
  else if h.dstDev ≠ s.dev.devIndex then s.forward p vc dl m
  else if h.mtype = 1 then s.arrive { msg := m, port := some p, at_ := s.now }
  else if h.mtype = 2 then s.arriveReply m
  else s

/-- R351: a DATA flit joins its message; the last one completes it. -/
def State.takeData (s : State) (p : Port) (f : Flit) : State :=
  let cls := (credIdx f.vc f.dl).val
  let key := f.srcd * 16 + f.spart
  let l := s.link p
  let same := fun (e : Nat × Nat × List Byte × Option Nat) => e.1 == cls && e.2.1 == key
  let old := if f.first then none else l.rxPart.find? same
  let bytes := (match old with | some e => e.2.2.1 | none => []) ++ f.payload
  let pz := match old with
    | some e => (match e.2.2.2 with | some o => some o | none => if f.poison then some f.porg else none)
    | none => if f.poison then some f.porg else none
  let rest := l.rxPart.filter (fun e => ! same e)
  let s := s.setLink p (fun l => { l with rxPart := if f.last then rest else rest ++ [(cls, key, bytes, pz)] })
  if f.last && (f.first || old.isSome) then s.deliver p f.vc f.dl bytes pz else s

/-- R336: the symbols corrected on each lane; more than 53,760 in one 1 ms window report its position errored. -/
def State.fecSeen (s : State) (p : Port) (ce : List Nat) : State :=
  s.each (List.finRange 16) (fun s (i : Lane) =>
    let n := ce.getD i.val 0
    let l := s.link p
    let w := tget l.fecWin i
    let w' := if s.past w.1 (msCyc 1) then (s.now, n) else (w.1, w.2 + n)
    let s := s.setLink p (fun l => { l with fecCe := satAdd l.fecCe n (2 ^ 64 - 1), fecWin := upd l.fecWin i w' })
    if w'.2 > 53760 ∧ (w'.2 - n ≤ 53760) ∧ l.st = .up then s.posFault p true (tget (tget (s.port p).lmap 1) i) 5 else s)

/-- R338: a flit that must be discarded: its CRC, its TYPE, its reserved bits or its LEN. -/
def flitBad (b : List Byte) : Bool :=
  crc32c (b.take 0xFC) != leAt b 0xFC 4 || decide (3 < leAt b 0 1) || decide (fld (leAt b 1 1) 7 6 ≠ 0)
    || decide (fld (leAt b 0xA 1) 7 4 ≠ 0) || decide (fld (leAt b 0xB 1) 7 4 ≠ 0) || decide (240 < leAt b 8 1)

/-- R339: one NAK is outstanding until the expected flit arrives. -/
def State.askAgain (s : State) (p : Port) : State :=
  if (s.link p).nakAt.isSome then s
  else (s.sendFlit p 0x102 [(s.link p).ackSeq]).setLink p (fun l => { l with nakAt := some s.now })

/-- FLIT_RECEIVE (R336 to R343, R351): a flit is discarded and asked for again, or its acknowledgement and credit return
count and a DATA flit in sequence is taken; its slot frees at once. -/
def execFlitReceive (p : Port) (flit : List Byte) (ok : Bool) (ce : List Nat) (s : State) : Host.Outcome State Fault Refusal :=
  let st := (s.link p).st
  .next (s.when (st != .down && st != .failed) (fun s =>
    let s := s.fecSeen p ce
    let s := if ok then s else s.setLink p (fun l => { l with fecUe := satAdd l.fecUe 1 0xFFFF })
    if ! ok || flitBad flit then
      let s := s.setLink p (fun l => { l with crcErr := satAdd l.crcErr 1 0xFFFF })
      if (s.link p).csyncOk then s.askAgain p else s
    else
      let ty := leAt flit 0 1
      let vcf := leAt flit 1 1
      let ack := leAt flit 4 2
      let crd := leAt flit 6 2
      if ty = 3 then s.gotCsync p ack ((List.range 8).map (fun i => leAt flit (0xC + 2 * i) 2))
      else if ! (s.link p).csyncOk then s
      else
        let s := s.setLink p (fun l =>
          let l := l.ackTo ack s.now
          if bitAt crd 15 then l.credit (credIdx ⟨fld crd 13 12 % 4, Nat.mod_lt _ (by decide)⟩ (bitAt crd 14)) (fld crd 11 0) else l)
        let s := s.pump p (s.link p).txq.length
        if ty = 2 then s.gotNak p ack
        else if ty = 1 then
          let seq := leAt flit 2 2
          let l := s.link p
          if seq = l.rxSeq then
            let f : Flit :=
              { seq := seq, vc := ⟨fld vcf 1 0 % 4, Nat.mod_lt _ (by decide)⟩, first := bitAt vcf 2, last := bitAt vcf 3
                dl := bitAt vcf 4, poison := bitAt vcf 5, porg := fld (leAt flit 0xB 1) 3 0, srcd := leAt flit 9 1
                spart := fld (leAt flit 0xA 1) 3 0, payload := sliceB flit 0xC (leAt flit 8 1), req := none }
            let s := s.setLink p (fun l =>
              { l with rxSeq := (seq + 1) % 65536, nakAt := none
                       freed := updWith l.freed (credIdx f.vc f.dl) (fun n => (n + 1) % 4096) })
            s.takeData p f
          else if (seq + 65536 - l.rxSeq) % 65536 < 32768 then s.askAgain p
          else s
        else s))

/-! ## Locks (R336) -/

/-- LANE_LOCK_LOST (R336, R344). -/
def execLaneLockLost (p : Port) (l : Lane) (s : State) : Host.Outcome State Fault Refusal :=
  let s := s.setLink p (fun x => { x with locked := upd x.locked l false })
  .next (s.linkRetrain p)

/-- LANE_LOCKED (R336): 8 good markers on a lane of a port that is physically UP. -/
def execLaneLocked (p : Port) (l : Lane) (s : State) : Host.Outcome State Fault Refusal :=
  .next (s.when (decide ((s.port p).state = 4)) (fun s =>
    (s.setLink p (fun x => { x with locked := upd x.locked l true })).syncCheck p))

/-! ## The other messages as commands -/

/-- NAK_RECEIVE (R339). -/
def execNakReceive (p : Port) (ack : Nat) (s : State) : Host.Outcome State Fault Refusal := .next (s.gotNak p ack)

/-- CSYNC (R343). -/
def execCsync (p : Port) (ack : Nat) (freed : List Nat) (s : State) : Host.Outcome State Fault Refusal :=
  .next (s.gotCsync p ack freed)

/-- HELLO (R345). -/
def execHello (p : Port) (h : HelloMsg) (s : State) : Host.Outcome State Fault Refusal := .next (s.gotHello p h)

/-- LANE_MOVE_MESSAGE (R349): a MOVE arrives. -/
def execLaneMoveMessage (p : Port) (lane : Lane) (frm dst : Pos) (cause n : Nat) (s : State) : Host.Outcome State Fault Refusal :=
  .next (s.gotMove p lane frm dst cause n)

/-- MOVE_ACK (R349). -/
def execMoveAck (p : Port) (lane : Lane) (n : Nat) (s : State) : Host.Outcome State Fault Refusal :=
  .next (s.when ((s.port p).txMoves.any (fun m => m.lane == lane)) (fun s => s.gotMoveAck p n))

/-- MOVE_CANCEL (R349). -/
def execMoveCancel (p : Port) (lane : Lane) (n : Nat) (s : State) : Host.Outcome State Fault Refusal :=
  .next (s.when ((s.port p).rxMoves.any (fun m => m.lane == lane)) (fun s => s.gotMoveCancel p n))

/-- MOVE_REQ (R349). -/
def execMoveReq (p : Port) (frm : Pos) (cause : Nat) (s : State) : Host.Outcome State Fault Refusal :=
  .next (s.gotMoveReq p frm cause)

/-- CAL_ANNOUNCE (R349). -/
def execCalAnnounce (p : Port) (dir : Bool) (pos : Pos) (frame : Nat) (s : State) : Host.Outcome State Fault Refusal :=
  .next (s.gotCalAnnounce p dir pos frame)

/-- MOVE_ACK_DEADLINE (R349): at frame N − 8 an unacknowledged move is cancelled, and a new MOVE is sent. -/
def execMoveAckDeadline (p : Port) (s : State) : Host.Outcome State Fault Refusal :=
  let r := s.port p
  let late := r.txMoves.filter (fun m => ! m.acked && m.dst ≠ m.frm && reached (r.txFrame s.now) ((m.n + 2 ^ 32 - 8) % 2 ^ 32))
  .next (s.each late (fun s m =>
    let s := s.sendCtl p 0x04 [(8, 4, m.n)]
    let s := s.setPort p (fun r => { r with txMoves := r.txMoves.filter (fun x => x.lane ≠ m.lane) })
    s.startMove p m.frm m.cause))

/-- REPLAY_TMO (R339): 2 µs and 10 ns for each metre of fibre. -/
def State.replayTmo (s : State) (p : Port) : Nat :=
  cdiv (2000 + 10 * (match tget s.str.links p with | some c => c.fibreM | none => 1)) 40

/-- REPLAY_TIMEOUT (R339): the oldest unacknowledged flit, or the NAK of a waiting receiver, has waited REPLAY_TMO. -/
def execReplayTimeout (p : Port) (s : State) : Host.Outcome State Fault Refusal :=
  let d := s.replayTmo p
  .next (s.when ((s.link p).st == .up) (fun s =>
    let s := match (s.link p).nakAt with
      | some t => if s.past t d then
          (s.sendFlit p 0x102 [(s.link p).ackSeq]).setLink p (fun l => { l with nakAt := some s.now }) else s
      | none => s
    if s.past (s.link p).sentAt d then s.replayAll p else s))

/-- LINK_HOLD_EXPIRY (R344, R357): a link out of service for LINK_HOLD_MS gives up what it holds; a link in RETRAIN goes
DOWN, and its port trains again. -/
def execLinkHoldExpiry (p : Port) (s : State) : Host.Outcome State Fault Refusal :=
  let l := s.link p
  .next (match l.outAt with
    | some t => s.when (l.st != .up && ! l.held && s.past t (msCyc s.linkHoldMs)) (fun s =>
        let s := if (s.link p).st = .retrain then
            let s := s.linkDown p
            if 3 ≤ (s.port p).state ∧ (s.port p).state < 7 then s.portDark p 2 else s
          else s
        let s := s.linkGiveUp p
        s.log 2 0x0B 3 (detailOf p.val 0))
    | none => s)

end Sys2Proof.Machine
end

