-- ==== Sys2Proof/Machine/Calibration.lean ====
section
/-! DEFINITION. The commands of calibration (R386 to R402). -/

namespace Sys2Proof.Machine

/-! ## Full calibration (R389, R390, R402) -/

/-- R402: the hint of a request refused while another runs: the rest of its 6 s at most; the manual gives no value
(log 44). -/
def State.calHint (s : State) : Nat × State :=
  let (f, s) := s.draw
  (f % 65536, s)

/-- CAL_FULL (R390, R402). -/
def execCalFull (s : State) : Host.Outcome State Fault Refusal :=
  .next (s.onRequest 0x200 (fun req =>
    if ! s.isReady then s.mbxAnswer req (stRefused 0xC)
    else if s.cal.full.isSome then
      let (h, s) := s.calHint
      s.mbxAnswer req (stRefused 0) [] h
    else
      let mask := leAt req 8 1
      let s := s.mbxStart req
      let s := s.fullStart mask true
      let s := if s.allRun then s
        else s.each (allPorts.filter (fun p => (s.port p).cal.isSome)) (fun s p => s.calFail p)
      s.fullCheck))

/-- CAL_STEP_LIMIT (R389): the step in progress has reached its limit; the port's calibration ends with its rings OFF. -/
def execCalStepLimit (p : Port) (s : State) : Host.Outcome State Fault Refusal :=
  .next (match (s.port p).cal with
    | some c => s.when (s.past c.since (calLimit c.step)) (fun s => s.calFail p)
    | none => s)

/-- CAL_FULL_TIMEOUT (R402): 6 s after a CAL_FULL began: the ports not done have failed, and it completes with TIMEOUT. -/
def execCalFullTimeout (s : State) : Host.Outcome State Fault Refusal :=
  .next (match s.cal.full with
    | some (_, true, t) => s.when (s.past t (sCyc 6)) (fun s =>
        let left := allPorts.filter (fun p => (s.port p).cal.isSome)
        let s := { s with cal := { s.cal with full := none, portsFail := left.foldl (fun (m : Nat) (p : Port) => m ||| 2 ^ p.val) s.cal.portsFail } }
        let s := s.each left (fun s p => s.setPort p (fun r =>
          { r with cal := none, rings := vmap (fun x => x.enter .off) r.rings }))
        s.mbxDone (stTimeout 7) [(8, leBytes 1 s.cal.portsOk), (9, leBytes 1 s.cal.portsFail)])
    | _ => s)

/-! ## Acquisition and slots (R391 to R394) -/

/-- R391: when the next attempt on a FAULT position falls due: 1 s, then 10 s, then every 600 s. -/
def retryAfter (n : Nat) : Nat := sCyc (if n = 0 then 1 else if n = 1 then 10 else 600)

/-- ACQUISITION_RETRY (R391): an attempt falls due on the rings of a FAULT position. -/
def execAcquisitionRetry (p : Port) (g : Pos) (s : State) : Host.Outcome State Fault Refusal :=
  .next (s.each [false, true] (fun s rx =>
    let t := tget (tget (s.port p).tried (dirIdx rx)) g
    let busy := (s.port p).acq.any (fun a => a.rx == rx && a.pos == g)
    if s.pos p rx g == .fault && ! busy && s.past t.2 (retryAfter t.1) && s.start.sysLock then
      let s := s.setPort p (fun r => { r with tried := updWith r.tried (dirIdx rx) (fun v => upd v g (t.1 + 1, s.now)) })
      s.startAcq p rx g false
    else s))

/-- R392: the positions of a direction that a slot may take: those in ACTIVE or WARM, when two are WARM. -/
def PortSt.slotPositions (r : PortSt) (rx : Bool) : List Pos :=
  if (r.inState rx .warm).length = 2 then allPos.filter (fun g => r.pos rx g == .active || r.pos rx g == .warm) else []

/-- R392: the position whose ring has the oldest CAL_RTIME, of both directions; the lower position of equals. -/
def PortSt.oldest (r : PortSt) : Option (Bool × Pos) :=
  let l := (r.slotPositions false).map (fun g => (false, g)) ++ (r.slotPositions true).map (fun g => (true, g))
  let age := fun (x : Bool × Pos) => (r.ring (ringOf x.1 x.2)).rtime
  match l with
  | [] => none
  | x :: t => some (t.foldl (fun m y => if age y < age m ∨ (age y = age m ∧ y.2 < m.2) then y else m) x)

/-- CAL_SLOT_START (R392): the lead announces a slot at least 1 ms ahead, and asks for the move of a position that
carries a lane. -/
def execCalSlotStart (p : Port) (s : State) : Host.Outcome State Fault Refusal :=
  let l := s.link p
  let due := l.st == .up && l.lead && s.cal.bgEn && l.slot.isNone && s.past l.slotEnd (msCyc s.cal.gapMs) && s.start.stop.isNone
    && (s.port p).cal.isNone
  .next (s.when due (fun s =>
    match (s.port p).oldest with
    | none => s
    | some (rx, g) =>
      let f := ((s.port p).dirFrame rx s.now + 13672) % 2 ^ 32
      let x : SlotSt := { leadTx := ! rx, pos := g, frame := f, own := true, at_ := s.now + cdiv (13672 * 64) 35, stage := 0
                          saved := (0, 0, 0, .off), committed := false, backAt := 0 }
      let s := s.setLink p (fun l => { l with slot := some x })
      let s := s.sendCtl p 0x06 [(1, 1, bnat rx), (2, 1, g.val), (8, 4, f)]
      if s.pos p rx g == .active then
        if rx then s.sendCtl p 0x05 [(2, 1, g.val), (4, 1, 0)] else s.startMove p g 0 (some f)
      else s))

/-- CAL_RX_START (R393). -/
def execCalRxStart (p : Port) (s : State) : Host.Outcome State Fault Refusal := .next (s.gotRxStart p)

/-- CAL_RX_DONE (R393, R395). -/
def execCalRxDone (p : Port) (result : Nat) (s : State) : Host.Outcome State Fault Refusal := .next (s.gotRxDone p result)

/-- CAL_ABORT (R394): the peer aborts the slot; this end rolls back. -/
def execCalAbort (p : Port) (cause : Nat) (s : State) : Host.Outcome State Fault Refusal := .next (s.slotBack p cause)

/-- SLOT_LIMIT_EXPIRY (R394): the slot that this end announced has not ended by F + SLOT_LIMIT_MS. -/
def execSlotLimitExpiry (p : Port) (s : State) : Host.Outcome State Fault Refusal :=
  .next (match (s.link p).slot with
    | some x => s.when (x.own && decide (x.stage < 4) && s.past x.at_ (msCyc s.cal.limitMs)) (fun s =>
        (s.calCount p 2).slotAbort p 0)
    | none => s)

/-- ROLLBACK_TIMEOUT (R394): a position not WARM within 5 ms of the rollback is in FAULT. -/
def execRollbackTimeout (p : Port) (s : State) : Host.Outcome State Fault Refusal :=
  .next (match (s.link p).slot with
    | some x => s.when (decide (x.stage = 4) && s.past x.backAt (msCyc 5)) (fun s => (s.slotOver p).setFault p (! x.tx) x.pos)
    | none => s)

/-! ## Snapshots (R397 to R402) -/

/-- SNAPSHOT_CAPTURE (R397): every 60 s while any port is UP. -/
def execSnapshotCapture (s : State) : Host.Outcome State Fault Refusal :=
  .next (s.when (allPorts.any (fun p => decide ((s.port p).state = 4)) && s.past s.cal.capAt (sCyc 60)) (fun s => s.capture 1))

/-- R399: the flash slot that a write takes: not the one with the highest valid SEQ; slot A when neither is valid. -/
def State.flashTarget (s : State) : Nat :=
  let a := s.snapSeq 2
  let b := s.snapSeq 3
  if a = 0 ∧ b = 0 then snapSlotA else if b ≤ a then snapSlotB else snapSlotA

/-- SNAPSHOT_FLASH_WRITE (R399): erase, program, verify; after a failed check and its retry the slot's bytes are open and
the failure is logged. It waits for a mailbox flash request. -/
def execSnapshotFlashWrite (ok : Bool) (s : State) : Host.Outcome State Fault Refusal :=
  .next (s.when (s.cal.flashBusy && s.start.stop.isNone && s.cal.sealed) (fun s =>
    let a := s.flashTarget
    let blob := s.cal.snap
    let s := s.flashErase a 0x10000
    let s := { s with cal := { s.cal with flashBusy := false, flashAt := s.now } }
    if ok then s.flashProgram a blob
    else
      let (f, s) := s.draw
      (s.flashProgram a (leBytes snapLen f)).log 1 0x0D 3 (detailOf 0 0)))

/-- CAL_SNAPSHOT (R397, R402). -/
def execCalSnapshot (s : State) : Host.Outcome State Fault Refusal :=
  .next (s.onRequest 0x201 (fun req =>
    if ! s.isReady then s.mbxAnswer req (stRefused 0xC)
    else if s.calBusy then
      let (h, s) := s.calHint
      s.mbxAnswer req (stRefused 0) [] h
    else
      let s := s.capture 3
      s.mbxAnswer req stOk [(8, leBytes 4 (s.snapSeq 1)), (0x10, leBytes 8 s.cal.snapTime)]))

/-- R402: CHECK of a stored snapshot. -/
def State.snapCheck (s : State) (b : List Byte) : Nat :=
  if ! snapShape b then 1
  else if ! snapCrc b then 2
  else if leAt b 8 8 ≠ s.col.serial then 3
  else if leAt b 0x28 8 ≠ s.col.life then 6
  else if s.time < leAt b 0x18 8 then 4
  else if 67500000000 < s.time - leAt b 0x18 8 then 5
  else 0

/-- The bytes of a source of CAL_EXPORT as they are stored. -/
def State.snapRaw (s : State) (src : Nat) : List Byte :=
  if src = 1 then sliceB s.cal.snap 0 snapLen else s.snapAt src

/-- CAL_EXPORT (R402). -/
def execCalExport (s : State) : Host.Outcome State Fault Refusal :=
  .next (s.onRequest 0x202 (fun req =>
    let src := leAt req 8 1
    if ! s.isReady then s.mbxAnswer req (stRefused 0xC)
    else if src < 1 ∨ 3 < src ∨ leAt req 0x18 4 < snapLen then s.mbxAnswer req (stRefused 4)
    else
      let b := s.snapRaw src
      (s.hostWritePf (leAt req 0x10 8) b).mbxAnswer req stOk
        [(8, leBytes 4 snapLen), (0xC, leBytes 4 (s.snapCheck (if src = 1 ∧ ! s.cal.sealed then [] else b)))]))

/-- CAL_IMPORT (R402); `bad`: the host read failed. -/
def execCalImport (bad : Bool) (s : State) : Host.Outcome State Fault Refusal :=
  .next (s.onRequest 0x203 (fun req =>
    if ! s.isReady then s.mbxAnswer req (stRefused 0xC)
    else if leAt req 0x18 4 ≠ snapLen then s.mbxAnswer req (stRefused 4)
    else if s.cal.full.isSome then
      let (h, s) := s.calHint
      s.mbxAnswer req (stRefused 0) [] h
    else
      let b := s.hostRead (leAt req 0x10 8) snapLen
      let c := if bad then 2 else s.snapCheck b
      if c = 0 then
        ({ s with cal := { s.cal with sealed := true, snap := b } } : State).mbxAnswer req stOk [(8, leBytes 4 0)]
      else s.mbxAnswer req (stRefused 4) [(8, leBytes 4 c)]))

end Sys2Proof.Machine
end

