-- ==== Sys2Proof/Machine/Crest.lean ====
section
/-! DEFINITION. Crest: entries on quads (R208, R214), the slew arbiter (R205), and the operations of a tile's list
(R200, R201, R210 to R213). -/

namespace Sys2Proof.Machine

/-! ## Entries -/

/-- R208: the rank of an item: tick-fired steps and the hand-offs that serve them come first. -/
def Item.tickRank (i : Item) : Nat :=
  match i.kind with
  | .step _ => 0
  | .handoff a _ => if a.msg.hdr.tick then 0 else 1
  | _ => 1

/-- The kernel entry of an item. -/
def State.entryOf (s : State) (i : Item) : Nat :=
  match i.kind with
  | .desc _ _ _ _ _ _ (.run e ..) => e
  | .step r => match s.sessAny r.sess.val with | some x => 2 * x.table + r.pass - 1 | none => 0
  | .handoff a _ => a.msg.hdr.entry
  | _ => 0

/-- An item that waits to start on a quad and may. -/
def State.waits (s : State) (q : Quad) (i : Item) : Bool :=
  bitAt i.waitQ q.val && i.fin.isNone && i.stop.isNone
    && (match i.stepRec with | some r => s.stepReady i r | none => ! i.contWait)

/-- R208: the entry that a quad starts next: by rank, then by arrival. -/
def State.nextEntry (s : State) (q : Quad) : Option Item :=
  (s.items.filter (s.waits q)).foldl (fun b i =>
    match b with
    | none => some i
    | some j => if i.tickRank < j.tickRank ∨ (i.tickRank = j.tickRank ∧ i.at_ < j.at_) then some i else some j) none

/-- R214: the time limit of an item's entry, in crystal cycles from its first operation. -/
def State.entryLimit (s : State) (i : Item) : Nat :=
  match i.kind with
  | .desc _ _ _ _ _ _ (.run _ _ _ _ _ _ us) => usCyc us
  | _ => msCyc (tget s.crest.stepLimit i.part)

/-- ENTRY_START (R195, R208, R212, R228, R231): a quad in Run that runs no entry starts the next one: semaphores,
ledgers and the endpoint offset are 0. -/
def execEntryStart (q : Quad) (s : State) : Host.Outcome State Fault Refusal :=
  .next (s.when (s.quadUp q && (s.cq q).run.isNone && ! (s.quad q).failed) (fun s =>
    match s.nextEntry q with
    | none => s
    | some i =>
      let e := s.entryOf i
      let img := (s.cq q).kernel
      let lst := fun (o : Nat) => ({ pc := if o = 0 then none else some o, op := 0 } : TileRun)
      let run : EntryRun :=
        { item := i.id, part := i.part, entry := e, tiles := tab 4 (fun t => lst (kList img e t.val))
          cnc := lst (cncList img e), started := s.now }
      let s := s.setCq q (fun c => { c with run := some run, last := e % 256, sems := rep 16 0 })
      let s := s.setEng q (fun g =>
        { g with entry := e % 256, op := 0, upAck := 0, upPub := 0, dnAck := 0, dnPub := 0, started := false, striped := 0
                 pubs := [], slots := [], st := .idle })
      s.setItem i.id (fun j => { j with
        waitQ := setFld j.waitQ q.val q.val 0, runQ := setFld j.runQ q.val q.val 1, limit := s.entryLimit i })))

/-- The quads that an item runs on are free again; each entry that finished is counted. -/
def State.freeQuads (s : State) (i : Item) (finished : Bool) : State :=
  let s := s.each (allQuads.filter (fun q => bitAt i.runQ q.val)) (fun s q =>
    let s := s.setCq q (fun c => { c with run := none, entries := if finished then satAdd c.entries 1 0xFFFF else c.entries })
    let s := s.setEng q (fun g => { g with st := .idle, resizing := false, waitFrom := none })
    s.setQ q (fun k => { k with idleAt := s.now }))
  let s := { s with trv := { s.trv with endpts := s.trv.endpts.filter (fun e => e.item ≠ i.id) } }
  s.setItem i.id (fun j => { j with runQ := 0, waitQ := 0 })

/-- Every list of the quads an item runs on has reached END, halo publications included. -/
def State.listsDone (s : State) (i : Item) : Bool :=
  allQuads.all (fun q => ! bitAt i.runQ q.val || (match (s.cq q).run with
    | some r => r.tiles.toList.all (fun t => t.pc.isNone) && r.cnc.pc.isNone && (s.eng q).pubs.isEmpty
    | none => true))

/-- R14, R432: the status of an entry: its marks, and the poison it consumed. -/
def Item.entryStatus (i : Item) : Status :=
  Status.worst (match i.poison with | some n => stPoisoned n | none => stOk) i.marks

/-- Items whose work is a kernel entry. -/
def Item.isEntry (i : Item) : Bool :=
  match i.kind with
  | .desc _ _ _ _ _ _ (.run ..) => i.begun || i.waitQ ≠ 0
  | .desc .. => false
  | .step _ => i.slot && ! i.contWait
  | .handoff .. => ! i.contWait

/-- ENTRY_FINISH (R18, R208, R254, R353): every list has ended and every job and send of the entry has completed. -/
def execEntryFinish (id : Nat) (s : State) : Host.Outcome State Fault Refusal :=
  .next (s.withItem id (fun i =>
    s.when (i.isEntry && i.fin.isNone && i.stop.isNone && i.waitQ = 0 && s.listsDone i && i.jobs = 0 && i.sends = 0) (fun s =>
      let s := (s.freeQuads i true).markFirst id
      let res := match i.kind with | .desc .. => i.outLen | _ => 0
      s.finish id i.entryStatus res)))

/-- R214: an entry stops: its quads are free, its sends and jobs report nowhere, and it completes with the stop's
status. -/
def State.stopEntry (s : State) (i : Item) (st : Status) : State :=
  let s := s.freeQuads i false
  let mine := fun (o : Option (Nat × Quad)) => match o with | some (j, _) => j == i.id | none => false
  let s := (s.dropJobs (fun j => mine j.owner)).dropLanded i.part mine
  let s := s.setPart i.part (fun r => { r with sendRecs := r.sendRecs.filter (fun l => ! mine l.2.2) })
  let s := { s with sends := s.sends.map (fun (r : SendRec) =>
    if r.item = some i.id then { r with item := none, detach := true } else r) }
  s.finish i.id (Status.worst st (i.entryStatus :: []))

/-- ENTRY_STOP (R214): a stop that was requested takes effect once the fires of the entry's jobs have ended. -/
def execEntryStop (id : Nat) (s : State) : Host.Outcome State Fault Refusal :=
  .next (s.withItem id (fun i =>
    match i.stop with
    | some (st, _) => s.when (i.fin.isNone && ! s.firing id) (fun s => s.stopEntry i st)
    | none => s))

/-- STEP_LIMIT_EXPIRY (R214): a step or hand-off entry reaches its STEP_LIMIT. -/
def execStepLimitExpiry (id : Nat) (s : State) : Host.Outcome State Fault Refusal :=
  .next (s.withItem id (fun i =>
    match i.kind, i.firstOp with
    | .desc .., _ => s
    | _, some t => s.when (i.fin.isNone && decide (i.runQ ≠ 0) && s.past t i.limit) (fun s => s.askStop id (stTimeout 2))
    | _, none => s))

/-! ## The slew arbiter (R205) -/

/-- The quad's power switch is closing, or opening (R50). -/
def QuadClk.closing (k : QuadClk) : Bool :=
  match k.waking with | some (_, .nap) | some (_, .retain) | some (_, .off) => true | _ => false
def QuadClk.opening (k : QuadClk) : Bool :=
  k.entering.isSome && (k.target == .nap || k.target == .retain || k.target == .off)

/-- Work that k governs stands at the front of a list of the quad. -/
def State.issuable (s : State) (q : Quad) : Bool :=
  let c := s.cq q
  match c.run with
  | none => false
  | some r =>
    (r.tiles.toList.any (fun t => match t.pc with
      | some pc => let o := (kopAt c.kernel pc).opc; o == 1 || o == 2 || o == 3
      | none => false))
    || (match r.cnc.pc with
      | some pc => let o := leAt c.kernel pc 1; o == 1 || o == 2 || o == 3
      | none => false)

/-- The first quad after `last`, in rotation, that a condition holds of. -/
def rotateFrom (last : Quad) (p : Quad → Bool) : Option Quad :=
  ((List.range 16).map (fun i => (⟨(last.val + 1 + i) % 16, Nat.mod_lt _ (by decide)⟩ : Quad))).find? p

/-- SLEW_GRANT (R205, R206): one interval of 62.5 ns: at most one increase and one decrease of k, in rotation, within the
bounds of every span of 16 intervals. -/
def execSlewGrant (s : State) : Host.Outcome State Fault Refusal :=
  let c := s.crest
  let run := fun (q : Quad) => (s.quad q).st == .run && (s.quad q).pll && ! (s.quad q).closing
  let wantInc := fun (q : Quad) => run q && s.issuable q && decide ((s.cq q).k < (s.cq q).cap)
  let wantDec := fun (q : Quad) => decide (0 < (s.cq q).k) && (decide ((s.cq q).cap < (s.cq q).k) || ! s.issuable q)
  let close := maskOf 16 (fun i => allQuads.any (fun q => q.val == i && (s.quad q).closing))
  let opn := maskOf 16 (fun i => allQuads.any (fun q => q.val == i && (s.quad q).opening))
  let w := popN 16 (c.slew.foldl (fun m e => m ||| e.2.2.1) close)
  let w' := popN 16 (c.slew.foldl (fun m e => m ||| e.2.2.2) opn)
  let incs := (c.slew.filter (fun e => e.1)).length
  let decs := (c.slew.filter (fun e => e.2.1)).length
  let inc := if incs + 1 ≤ 16 - w then rotateFrom c.incLast wantInc else none
  let dec := if decs + 1 ≤ 16 - w' then rotateFrom c.decLast wantDec else none
  let s := match inc with | some q => s.setCq q (fun k => { k with k := k.k + 1 }) | none => s
  let s := match dec with | some q => s.setCq q (fun k => { k with k := k.k - 1 }) | none => s
  .next { s with crest := { s.crest with
    slew := (inc.isSome, dec.isSome, close, opn) :: c.slew.take 14
    incLast := inc.getD c.incLast, decLast := dec.getD c.decLast } }

/-! ## Operations (R210) -/

/-- CREST_NOP. -/
def execCrestNop (q : Quad) (t : Fin 4) (s : State) : Host.Outcome State Fault Refusal :=
  .next (s.tileOp q t 0x00 (fun s _ _ pc => s.nextOp q t (some (pc + 32))))

/-- MATMUL (R199 to R202). -/
def execMatmul (q : Quad) (t : Fin 4) (s : State) : Host.Outcome State Fault Refusal :=
  .next (s.tileOp q t 0x01 (fun s i o pc =>
    s.computeOp q t i pc
      [(o.src, matBytes o.fin o.m o.k), (o.wgt, wBytes o.wfmt o.k o.n),
       (o.dst, if bitAt o.flags 0 then matBytes o.fout o.m o.n else 0),
       (o.aux, if bitAt o.flags 3 then pad32 (o.n * 4) else 0)] o.dst
      (fun l =>
        let (rows, n) := matmulRows o (l.getD 0 []) (l.getD 1 []) (l.getD 2 []) (l.getD 3 [])
        let (bs, m) := encMat o.fout rows
        (bs, n + m))))

/-- ELTWISE (R201, R210). -/
def execEltwise (q : Quad) (t : Fin 4) (s : State) : Host.Outcome State Fault Refusal :=
  .next (s.tileOp q t 0x02 (fun s i o pc =>
    let fn := o.aux % 256
    s.computeOp q t i pc [(o.src, matBytes o.fin o.m o.n), (o.wgt, fnOperand2 o)] o.dst
      (fun l =>
        let a := matRows o.fin o.m o.n (l.getD 0 [])
        let b := if fnOperand2 o = 0 then []
          else if fn = 0x12 then ((matRows o.fin 1 o.m (l.getD 1 [])).getD 0 []).map (fun v => [v])
          else matRows o.fin o.m o.n (l.getD 1 [])
        encMat o.fout ((List.range o.m).map (fun m => eltRow fn (a.getD m []) (b.getD m []))))))

/-- CONVERT (R201, R202): the value times SCALE, rounded once. -/
def execConvert (q : Quad) (t : Fin 4) (s : State) : Host.Outcome State Fault Refusal :=
  .next (s.tileOp q t 0x03 (fun s i o pc =>
    s.computeOp q t i pc [(o.src, matBytes o.fin o.m o.n)] o.dst
      (fun l => encMat o.fout ((matRows o.fin o.m o.n (l.getD 0 [])).map (fun r =>
        r.map (fun v => v.mul (fpFP32.value o.scale)))))))

/-- The bytes of a MOVE's destination as they land: in the window, with what a job or send area starts, or in a region. -/
def State.moveOut (s : State) (q : Quad) (t : Fin 4) (i : Item) (o : KOp) (pc : Nat) (bs : List Byte) (pz : Nat)
    (back : State) : State :=
  let op := (match (s.cq q).run with | some r => (tget r.tiles t).op | none => 0)
  let done := fun (s : State) => (s.consume i.id pz).nextOp q t (some (pc + 32))
  if bitAt o.flags 1 then
    let d := o.wgt * 2 ^ 32 + o.dst
    match s.cfg i.part with
    | some c =>
      if s.landFull i.part d bs then back
      else if tenantRange c d o.aux then done ((s.winWrite i.part d bs pz i.stepKey).landing i.part d bs (some (i.id, q)))
      else back.kernelFault q t.val op 6
    | none => s
  else match s.opWrite q (some t) i o.dst bs pz with
    | .ok _ _ s => done s
    | .wait s => s
    | .fault c => back.kernelFault q t.val op c

/-- MOVE (R196, R211). -/
def execMove (q : Quad) (t : Fin 4) (s : State) : Host.Outcome State Fault Refusal :=
  .next (s.tileOp q t 0x04 (fun s i o pc =>
    let op := (match (s.cq q).run with | some r => (tget r.tiles t).op | none => 0)
    if bitAt o.flags 0 then
      let a := o.wgt * 2 ^ 32 + o.src
      match s.cfg i.part with
      | some c =>
        if tenantRange c a o.aux then
          let (bs, pz, s') := s.winRead i.part a o.aux i.stepKey
          s'.moveOut q t i o pc bs pz s
        else s.kernelFault q t.val op 6
      | none => s
    else match s.opRead q (some t) i o.src o.aux with
      | .ok bs pz s' => s'.moveOut q t i o pc bs pz s
      | .wait s => s
      | .fault c => s.kernelFault q t.val op c))

/-- R213: the operations that the lists of a quad's entry still hold signal a semaphore. -/
def State.moreSignals (s : State) (q : Quad) (k : Nat) : Bool :=
  let c := s.cq q
  match c.run with
  | none => false
  | some r =>
    r.tiles.toList.any (fun t => match t.pc with
      | some pc => ((kListOps c.kernel (c.kernel.length / 32 + 1) pc).getD []).any (fun o => o.2.opc == 6 && o.2.sem == k)
      | none => false)
    || (match r.cnc.pc with
      | some pc => (List.range ((c.kernel.length - pc) / 64)).any (fun j =>
          leAt c.kernel (pc + 64 * j) 1 == 6 && leAt c.kernel (pc + 64 * j + 0x28) 1 == k)
      | none => false)

/-- A semaphore of an entry's operation. -/
def KOp.semIdx (o : KOp) : Fin 16 := ⟨o.sem % 16, Nat.mod_lt _ (by decide)⟩

/-- CREST_WAIT (R210, R213): waits until the semaphore is at least AUX and subtracts it; a WAIT that nothing can satisfy
is a kernel fault. -/
def execCrestWait (q : Quad) (t : Fin 4) (s : State) : Host.Outcome State Fault Refusal :=
  .next (s.tileOp q t 0x05 (fun s _ o pc =>
    let k := o.semIdx
    if o.aux ≤ tget (s.cq q).sems k then
      (s.setCq q (fun c => { c with sems := updWith c.sems k (· - o.aux) })).nextOp q t (some (pc + 32))
    else if 65535 < o.aux && ! s.moreSignals q k.val then
      s.kernelFault q t.val (match (s.cq q).run with | some r => (tget r.tiles t).op | none => 0) 5
    else s))

/-- CREST_SIGNAL (R210, R213). -/
def execCrestSignal (q : Quad) (t : Fin 4) (s : State) : Host.Outcome State Fault Refusal :=
  .next (s.tileOp q t 0x06 (fun s _ o pc =>
    let k := o.semIdx
    if 65535 < tget (s.cq q).sems k + o.aux then
      s.kernelFault q t.val (match (s.cq q).run with | some r => (tget r.tiles t).op | none => 0) 4
    else (s.setCq q (fun c => { c with sems := updWith c.sems k (· + o.aux) })).nextOp q t (some (pc + 32))))

/-- RESULT (R210): NEXT_ADV of a pass-2 step, from the lowest-numbered quad that sets it. -/
def execResult (q : Quad) (t : Fin 4) (s : State) : Host.Outcome State Fault Refusal :=
  .next (s.tileOp q t 0x07 (fun s i o pc =>
    (s.setItem i.id (fun j => { j with nextAdv := match j.nextAdv with
      | some (r, v) => if r.val < q.val then some (r, v) else some (q, o.aux % 256)
      | none => some (q, o.aux % 256) })).nextOp q t (some (pc + 32))))

/-- CREST_END (R210): the list has ended. -/
def execCrestEnd (q : Quad) (t : Fin 4) (s : State) : Host.Outcome State Fault Refusal :=
  .next (s.tileOp q t 0x7F (fun s _ _ _ => s.nextOp q t none))

end Sys2Proof.Machine
end

