-- ==== Sys2Proof/Machine/Cornice.lean ====
section
/-! DEFINITION. Cornice: planes and the Scree format (R216, R235 to R238), the arithmetic of CONV, CROP and RECODE
(R217 to R224), stripes and the halo ledger (R229 to R234), and the operations of a program (R227). -/

namespace Sys2Proof.Machine

/-! ## Faults (R241, R242) -/

/-- CNC_FAULT as a register value. -/
def EngineSt.faultReg (g : EngineSt) : Nat := pack [(31, 28, g.fCause), (11, 0, g.fOp)]

/-- R242: a run-time program fault: recorded, logged, outputs poisoned, and the entry stopped. -/
def State.cncFault (s : State) (e : Quad) (op cause : Nat) : State :=
  match (s.cq e).run with
  | none => s
  | some r =>
    let sub := if cause = 5 then 7 else 6
    let s := s.setEng e (fun g => { g with fCause := cause, fOp := op, faults := satAdd g.faults 1 255 })
    let s := s.setItem r.item (fun i => { i with poison := some (i.poison.getD sub) })
    (s.askStop r.item (stPoisoned sub)).log 1 0x07 2 (detailOf e.val (s.eng e).faultReg) (some r.part) (stPoisoned sub).num

/-- R241: a flaw of the line buffer as an operation reads it: counted; an uncorrectable one is logged and poisons the
outputs with origin 5. -/
def State.lineBuf (s : State) (e : Quad) (op : Nat) : Nat × State :=
  match (s.eng e).flaw with
  | some (.ce, _) => (0, s.setEng e (fun g => { g with flaw := none, eccCe := satAdd g.eccCe 1 255 }))
  | some (.ue, a) =>
    let s := s.setEng e (fun g => { g with flaw := none, eccUe := satAdd g.eccUe 1 255, fCause := 6, fOp := op })
    (5, s.log 1 0x07 1 (detailOf e.val a) (s.owner e) (stPoisoned 5).num)
  | _ => (0, s)

/-! ## Reads and writes of planes -/

/-- What a read of an operation answers: bytes, first poison mark and state, or the cause of a fault. -/
abbrev CRead := Except Nat (List Byte × Nat × State)

/-- R226, R242: `n` bytes at an address of an operation. -/
def State.cRead (s : State) (e : Quad) (i : Item) (win : Bool) (a n : Nat) : CRead :=
  if win then
    match s.cfg i.part with
    | some c => if tenantRange c a n then .ok (s.winRead i.part a n i.stepKey) else .error 1
    | none => .error 1
  else
    let lo := a / 32 * 32
    match s.opRead e none i lo (pad32 (a + n - lo)) with
    | .ok bs pz s => .ok ((bs.drop (a - lo)).take n, pz, s)
    | .fault _ => .error 2
    | .wait s => .ok (List.replicate n 0, 0, s)

/-- R226, R242: bytes written at an address of an operation. -/
def State.cWrite (s : State) (e : Quad) (i : Item) (win : Bool) (a : Nat) (bs : List Byte) (pz : Nat) : Access :=
  if win then
    match s.cfg i.part with
    | some c => if tenantRange c a bs.length then .ok [] 0 (s.winWrite i.part a bs pz i.stepKey) else .fault 1
    | none => .fault 1
  else s.opWrite e none i a (bs ++ List.replicate (pad32 bs.length - bs.length) 0) pz

/-! ## Scree (R235 to R238) -/

/-- R236: positions of a block. -/
def screeP (f : Nat) : Nat := if f = 5 then 4 else 8

/-- R236: one block decoded: its 128 bytes of element data, and the bytes after it; none when it is malformed. `ok i`
tells whether element i lies within W and C. -/
def screeBlock (f : Nat) (ok : Nat → Bool) (bs : List Byte) : Option (List Byte × List Byte) :=
  let es := esOf f
  let mask := leAt bs 0 16
  let n := screeP f * 16
  let set := bitsOf 128 mask
  let used := pad16 (set.length * es)
  if bs.length < 16 + used ∨ set.any (fun i => decide (n ≤ i) || ! ok i) then none
  else if ! zeroB bs (16 + set.length * es) (used - set.length * es) then none
  else
    let data := (List.range n).flatMap (fun i =>
      if bitAt mask i then (bs.drop (16 + (set.filter (· < i)).length * es)).take es else List.replicate es 0)
    some (data, bs.drop (16 + used))
where
  /-- rounded up to a multiple of 16 -/
  pad16 (n : Nat) : Nat := cdiv n 16 * 16

/-- R236: the blocks of a row decoded, in order; none when one is malformed or they do not end with the row. -/
def screeBlocks (f w c : Nat) : List Nat → List Byte → Option (List (List Byte))
  | [], bs => if bs.isEmpty then some [] else none
  | k :: r, bs =>
    let cg := cdiv c 16
    let ok := fun (i : Nat) => decide (k / cg * screeP f + i / 16 < w) && decide (k % cg * 16 + i % 16 < c)
    match screeBlock f ok bs with
    | some (d, rest) => (screeBlocks f w c r rest).map (d :: ·)
    | none => none

/-- R216, R236: a dense row from the blocks of a row. -/
def screeDense (f w c : Nat) (bl : List (List Byte)) : List Byte :=
  let es := esOf f
  let cg := cdiv c 16
  (List.range w).flatMap (fun x =>
    let pos := (List.range c).flatMap (fun ch =>
      ((bl.getD (x / screeP f * cg + ch / 16) []).drop ((x % screeP f * 16 + ch % 16) * es)).take es)
    pos ++ List.replicate (posBytes f c - pos.length) 0)

/-- R237, R238: row `r` of a Scree set, found from plane k upward; cause 5 when it is malformed. -/
def State.screeRow (s : State) (e : Quad) (i : Item) (o : COp) (r : Nat) : Nat → Nat → CRead
  | 0, _ => .error 5
  | fuel + 1, k =>
    let base := o.src + k * o.inSlot * 256
    match s.cRead e i o.srcWin base 32 with
    | .error x => .error x
    | .ok (h, pz, s) =>
      let rows := leAt h 8 2
      let row0 := leAt h 0xC 2
      let dOff := leAt h 0x10 4
      let dEnd := dOff + leAt h 0x14 4
      if leAt h 0 4 ≠ 0x45524353 ∨ leAt h 4 1 ≠ o.fin ∨ leAt h 6 2 ≠ o.c ∨ leAt h 0xA 2 ≠ o.w then .error 5
      else if r < row0 then .error 5
      else if row0 + rows ≤ r then
        if o.inSlot = 0 then .error 5 else State.screeRow s e i o r fuel (k + 1)
      else
        let j := r - row0
        match s.cRead e i o.srcWin (base + 0x20 + 4 * j) (if j + 1 = rows then 4 else 8) with
        | .error x => .error x
        | .ok (ix, p2, s) =>
          let a := leAt ix 0 4
          let b := if j + 1 = rows then dEnd else leAt ix 4 4
          let blocks := cdiv o.w (screeP o.fin) * cdiv o.c 16
          if a < dOff ∨ dEnd < b ∨ b < a ∨ blocks * 144 < b - a then .error 5
          else match s.cRead e i o.srcWin (base + a) (b - a) with
            | .error x => .error x
            | .ok (bs, p3, s) =>
              match screeBlocks o.fin o.w o.c (List.range blocks) bs with
              | some bl => .ok (screeDense o.fin o.w o.c bl, if pz ≠ 0 then pz else if p2 ≠ 0 then p2 else p3, s)
              | none => .error 5

/-- One row of the input plane as dense bytes. -/
def State.planeRow (s : State) (e : Quad) (i : Item) (o : COp) (r : Nat) : CRead :=
  if o.inScree then s.screeRow e i o r 4096 0
  else
    let n := o.w * posBytes o.fin o.c
    s.cRead e i o.srcWin (o.src + r * n) n

/-- Rows of the input plane, with their numbers. -/
def State.planeRows (s : State) (e : Quad) (i : Item) (o : COp) : List Nat → Except Nat (List (Nat × List Byte) × Nat × State)
  | [] => .ok ([], 0, s)
  | r :: rs =>
    match s.planeRow e i o r with
    | .error x => .error x
    | .ok (bs, pz, s) =>
      match State.planeRows s e i o rs with
      | .error x => .error x
      | .ok (l, p2, s) => .ok ((r, bs) :: l, if pz ≠ 0 then pz else p2, s)

/-- R236: one row encoded: element codes by position and channel, and the count of non-zero elements. -/
def screeEncode (f w c : Nat) (code : Nat → Nat → Nat) : List Byte × Nat :=
  let es := esOf f
  let cg := cdiv c 16
  let bl := (List.range (cdiv w (screeP f) * cg)).map (fun k =>
    let els := (List.range (screeP f * 16)).map (fun i =>
      let x := k / cg * screeP f + i / 16
      let ch := k % cg * 16 + i % 16
      if x < w ∧ ch < c then code x ch else 0)
    let nz := els.filter (· ≠ 0)
    let data := nz.flatMap (leBytes es)
    (leBytes 16 (maskOf els.length (fun i => els.getD i 0 ≠ 0)) ++ data
      ++ List.replicate (cdiv data.length 16 * 16 - data.length) 0, nz.length))
  (bl.flatMap (·.1), (bl.map (·.2)).sum)

/-- R235: a Scree plane of encoded rows. -/
def screePlane (f c w row0 total : Nat) (rows : List (List Byte × Nat)) : List Byte :=
  let h := rows.length
  let dOff := pad32 (32 + 4 * h)
  let data := rows.flatMap (·.1)
  let offs := (List.range h).map (fun k => dOff + ((rows.take k).map (fun r => r.1.length)).sum)
  let idx := offs.flatMap (leBytes 4)
  leBytes 4 0x45524353 ++ leBytes 1 f ++ leBytes 1 0 ++ leBytes 2 c ++ leBytes 2 h ++ leBytes 2 w ++ leBytes 2 row0
    ++ leBytes 2 total ++ leBytes 4 dOff ++ leBytes 4 data.length ++ leBytes 4 ((rows.map (·.2)).sum) ++ leBytes 4 0
    ++ idx ++ List.replicate (dOff - 32 - idx.length) 0 ++ data

/-- Output rows (by position and channel) in the layout of an operation: the bytes and the address they land at. -/
def COp.outPlane (o : COp) (slot : Nat) (row0 total w c : Nat) (rows : List (List (List Nat))) (dst : Nat) :
    List Byte × Nat :=
  if o.outScree then
    (screePlane o.fout c w row0 total (rows.map (fun r => screeEncode o.fout w c (fun x ch => (r.getD x []).getD ch 0))),
      dst + slot * o.outSlot * 256)
  else
    (rows.flatMap (fun r => r.flatMap (packRow o.fout)), dst + row0 * w * posBytes o.fout c)

/-! ## Arithmetic (R219, R224) -/

/-- Element (x, c) of a dense row of an input plane; zero outside the plane (R217). -/
def COp.elem (o : COp) (rows : List (Nat × List Byte)) (r x : Int) (c : Nat) : Num :=
  if r < 0 ∨ (o.h : Int) ≤ r ∨ x < 0 ∨ (o.w : Int) ≤ x ∨ o.c ≤ c then Num.zero
  else match rows.find? (fun p => (p.1 : Int) == r) with
    | some p => fmtValue o.fin (leAt p.2 (x.toNat * posBytes o.fin o.c + c * esOf o.fin) (esOf o.fin))
    | none => Num.zero

/-- R219: one output value before its conversion, and its INT32 saturations. -/
def COp.convAt (o : COp) (rows : List (Nat × List Byte)) (wgt : List Byte) (acc : List Byte) (oy ox oc : Nat) :
    Num × Nat :=
  let es := esOf o.fin
  let ps := (List.range o.kh).flatMap (fun i => (List.range o.kw).flatMap (fun j => (List.range 16).map (fun c =>
    let v := o.elem rows ((oy * o.sv : Nat) + o.orgY + (i * o.dv : Nat)) ((ox * o.sh : Nat) + o.orgX + (j * o.dh : Nat)) c
    v.mul (fmtValue o.fin (leAt wgt ((((oc * o.kh + i) * o.kw + j) * 16 + c) * es) es)))))
  let old := leAt acc (ox * posBytes 6 o.oc + 4 * oc) 4
  let b := leAt wgt (o.wgtOnly + 4 * oc) 4
  let (v, n) := if o.fin = 2 then
      let p : Int := (ps.map (fun x => match x with | .fin g v _ => if g then -(v : Int) else (v : Int) | _ => 0)).sum
      let (v, s0) := sat32 p
      let (v, s1) := sat32 (v + (if o.acc then sgn 32 old else 0))
      let (v, s2) := sat32 (v + (if o.bias then sgn 32 b else 0))
      (Num.ofInt v, bnat s0 + bnat s1 + bnat s2)
    else
      let v := accFloat ps
      let v := if o.acc then (v.add (fpFP32.value old)).toF32 else v
      (if o.bias then (v.add (fpFP32.value b)).toF32 else v, 0)
  let v := if o.relu && v ≠ .nan then numMax v Num.zero else v
  (if o.psum then v else v.mul (fpFP32.value o.scale), n)

/-- R224: a sample coordinate in 1/4,096, rounded toward −∞, from a box's edges. -/
def cropCoord (lo hi i n : Nat) : Int :=
  256 * (lo : Int) - 2048 + Int.fdiv (((2 * i + 1) * 128 : Nat) * ((hi : Int) - lo)) n

/-- R224: one output element of a box. -/
def COp.cropAt (o : COp) (rows : List (Nat × List Byte)) (py px : Int) (c : Nat) : Num :=
  let iy := Int.fdiv py 4096
  let ix := Int.fdiv px 4096
  let fy := (py - iy * 4096).toNat
  let fx := (px - ix * 4096).toNat
  let term := fun (wy wx : Nat) (r x : Int) => (Num.fin false (wy * wx) (-24)).mul (o.elem rows r x c)
  ((term (4096 - fy) (4096 - fx) iy ix).add (term (4096 - fy) fx iy (ix + 1))).add
    ((term fy (4096 - fx) (iy + 1) ix).add (term fy fx (iy + 1) (ix + 1)))

/-- Codes of output values in a format, with the saturations. -/
def codesOf (f : Nat) (rows : List (List (List Num))) : List (List (List Nat)) × Nat :=
  let conv := rows.map (fun r => r.map (fun p => p.map (fmtConv f)))
  (conv.map (fun r => r.map (fun p => p.map (·.1))),
    (conv.map (fun r => (r.map (fun p => (p.filter (·.2)).length)).sum)).sum)

/-! ## The run of a program -/

/-- The engine moves on to its next operation. -/
def State.nextCnc (s : State) (e : Quad) (pc : Option Nat) : State :=
  let s := s.setCq e (fun c => match c.run with
    | some r => { c with run := some { r with cnc := { pc := pc, op := r.cnc.op + 1 } } }
    | none => c)
  s.setEng e (fun g => { g with st := .idle, op := (g.op + 1) % 4096, started := false, resizing := false })

/-- HALO_STALL: the quad cycles of a wait that ends (CNC_ECNT). -/
def State.endWait (s : State) (e : Quad) : State :=
  match (s.eng e).waitFrom with
  | some t =>
    let n := (s.now - t) * (if s.col.grade2 then 56 else 64)
    s.setEng e (fun g => { g with waitFrom := none, stall := satAdd g.stall n 0xFFFFFFFF })
  | none => s

/-- The engine waits in the ledger or for a publication. -/
def State.beginWait (s : State) (e : Quad) (st : CncState) : State :=
  s.setEng e (fun g => { g with st := st, waitFrom := some (g.waitFrom.getD s.now) })

/-- The operation at which an engine's list stands, when an operation of this OPC may issue now. -/
def State.engOp (s : State) (e : Quad) (opc : Nat) (f : State → Item → COp → Nat → Nat → State) : State :=
  let c := s.cq e
  match c.run with
  | none => s
  | some r =>
    match r.cnc.pc, s.item r.item with
    | some pc, some i =>
      let o := copAt c.kernel pc
      let governed := opc == 1 || opc == 2 || opc == 3
      s.when (decide (o.opc = opc) && s.quadUp e && decide (0 < c.cap) && (! governed || decide (0 < c.k))
          && i.stop.isNone && i.fin.isNone) (fun s => f (s.markFirst i.id) i o pc r.cnc.op)
    | _, _ => s

/-- The outputs of an operation land, or it faults or waits; then the engine moves on. -/
def State.cncDone (s back : State) (e : Quad) (i : Item) (o : COp) (pc op : Nat) (bs : List Byte) (a pz sat : Nat)
    (after : State → State) : State :=
  match s.cWrite e i o.dstWin a bs pz with
  | .fault x => back.cncFault e op x
  | .wait s => s
  | .ok _ _ s => after ((((s.endWait e).satCount e sat).consume i.id pz).nextCnc e (some (pc + 64)))

/-- CORNICE_NOP. -/
def execCorniceNop (e : Quad) (s : State) : Host.Outcome State Fault Refusal :=
  .next (s.engOp e 0x00 (fun s _ _ pc _ => s.nextCnc e (some (pc + 64))))

/-- The engine's CORNICE frame runs overlap-load mode. -/
def State.overlaps (s : State) (e : Quad) : Bool := match tget s.str.cornice e with | some c => c.overlap | none => false

/-- R232, R234: the start of an operation: the line buffer's books, and in exchange mode the owned halo rows staged for
publication. -/
def State.convStart (s : State) (e : Quad) (i : Item) (o : COp) (st : Stripe) : Except Nat State :=
  let ov := s.overlaps e
  let g := s.eng e
  let s := s.setEng e (fun g =>
    { g with started := o.striped, striped := g.striped + bnat o.striped, used := o.books ov st
             upSlots := if o.striped && ! ov then o.down else 0, dnSlots := if o.striped && ! ov then o.up else 0
             st := .conv })
  if ! o.striped || ov then .ok s
  else
    let dn := if st.below.isSome then (List.range o.up).map (fun k => st.i1 - o.up + k) else []
    let up := if st.above.isSome then (List.range o.down).map (fun k => st.i0 + k) else []
    match s.planeRows e i o (dn ++ up) with
    | .error x => .error x
    | .ok (rows, pz, s) =>
      let mk := fun (down : Bool) (base : Nat) (l : List (Nat × List Byte)) =>
        (List.range l.length).map (fun k =>
          ({ down := down, n := base + k, bytes := (l.getD k (0, [])).2, poison := if pz = 0 then none else some pz } : HaloRow))
      let upBase := match st.above with | some a => (s.eng a).upPub | none => 0
      .ok (s.setEng e (fun h => { h with
        pubs := mk true g.dnPub (rows.take dn.length) ++ mk false upBase (rows.drop dn.length) }))

/-- STRIPED operations of an entry that an engine has completed. -/
def EngineSt.stripesDone (g : EngineSt) : Nat := g.striped - bnat g.started

/-- R232, R233: the halo rows that the operation needs have come. -/
def State.haloReady (s : State) (e : Quad) (o : COp) (st : Stripe) : Bool :=
  let g := s.eng e
  if ! o.striped then true
  else if s.overlaps e then
    ! o.follows || (let ok := fun (q : Option Quad) => match q with
        | some a => decide (g.striped - 1 ≤ (s.eng a).stripesDone)
        | none => true
      ok st.above && ok st.below)
  else
    (st.above.isNone || decide (o.up ≤ (g.slots.filter (fun r => r.down)).length))
      && (st.below.isNone || decide (o.down ≤ (g.slots.filter (fun r => ! r.down)).length))

/-- R231, R232, R233: the ledger after an operation has read its halo rows: every slot acknowledged, or in overlap-load
mode the counts of the rows read. -/
def State.haloAck (s : State) (e : Quad) (o : COp) (st : Stripe) : State :=
  if ! o.striped then s
  else if s.overlaps e then
    if ! o.follows then s
    else
      let s := match st.above with | some a => s.setEng a (fun g => { g with dnPub := o.up }) | none => s
      if st.below.isSome then s.setEng e (fun g => { g with upPub := o.down }) else s
  else
    let s := match st.above with | some a => s.setEng a (fun g => { g with dnAck := (g.dnAck + o.up) % 65536 }) | none => s
    let s := if st.below.isSome then s.setEng e (fun g => { g with upAck := (g.upAck + o.down) % 65536 }) else s
    s.setEng e (fun g => { g with slots := [] })

/-- R217, R219: the whole stripe of a CONV is computed and written. -/
def State.convRun (s : State) (e : Quad) (i : Item) (o : COp) (st : Stripe) (pc op : Nat) : State :=
  let back := s
  if st.o1 ≤ st.o0 then (s.endWait e).nextCnc e (some (pc + 64))
  else
    let ex := o.striped && ! s.overlaps e
    let lo : Int := (st.o0 * o.sv : Nat) + o.orgY
    let hi : Int := ((st.o1 - 1) * o.sv : Nat) + o.orgY + o.extV
    let all := (List.range o.h).filter (fun (r : Nat) => decide (lo ≤ (r : Int)) && decide ((r : Int) < hi))
    let own := if ex then all.filter (fun r => decide (st.i0 ≤ r) && decide (r < st.i1)) else all
    let g := s.eng e
    let above := (g.slots.filter (fun r => r.down))
    let below := (g.slots.filter (fun r => ! r.down))
    let halo := if ex then
        (List.range above.length).filterMap (fun k => (above[k]?).map (fun r => (st.i0 - o.up + k, r.bytes)))
          ++ (List.range below.length).filterMap (fun k => (below[k]?).map (fun r => (st.i1 + k, r.bytes)))
      else []
    let hp := (g.slots.filterMap (fun r => r.poison)).headD 0
    let accF := if o.fin = 2 then 6 else 7
    let pitch := o.ow * posBytes accF o.oc
    match s.planeRows e i o own, s.cRead e i o.wgtWin o.wgt o.coefBytes with
    | .ok (rows, p1, s), .ok (wgt, p2, _) =>
      (match (if o.acc then s.cRead e i o.auxWin (o.aux + st.o0 * pitch) ((st.o1 - st.o0) * pitch) else .ok ([], 0, s)) with
      | .ok (acc, p3, s) =>
        let (lb, s) := s.lineBuf e op
        let cells := (List.range (st.o1 - st.o0)).map (fun y => (List.range o.ow).map (fun x => (List.range o.oc).map (fun c =>
          o.convAt (rows ++ halo) wgt (acc.drop (y * pitch)) (st.o0 + y) x c)))
        let sats := (cells.map (fun r => (r.map (fun p => (p.map (·.2)).sum)).sum)).sum
        let (codes, m) := codesOf o.fout (cells.map (fun r => r.map (fun p => p.map (·.1))))
        let (bs, a) := o.outPlane st.idx st.o0 o.oh o.ow o.oc codes o.dst
        let pz := if lb ≠ 0 then lb else if p1 ≠ 0 then p1 else if p2 ≠ 0 then p2 else if p3 ≠ 0 then p3 else hp
        s.cncDone back e i o pc op bs a pz (sats + m) (fun s => s.haloAck e o st)
      | .error x => back.cncFault e op x)
    | .error x, _ => back.cncFault e op x
    | _, .error x => back.cncFault e op x

/-- CONV (R217 to R220, R229 to R234): the first command starts the operation and stages its halo rows; once the rows it
needs have come, its stripe is computed. -/
def execConv (e : Quad) (s : State) : Host.Outcome State Fault Refusal :=
  .next (s.engOp e 0x01 (fun s i o pc op =>
    let st := stripeAt s.str.cornice o e
    let go := fun (s : State) =>
      if s.haloReady e o st then s.convRun e i o st pc op else s.beginWait e .ledgerWait
    if (s.eng e).started then go s
    else if o.striped && ! (s.eng e).pubs.isEmpty then s.beginWait e .publishStall
    else match (s.endWait e).convStart e i o st with
      | .ok s => go s
      | .error x => s.cncFault e op x))

/-- RECODE (R201, R227): a plane copied into another layout and format, each value times SCALE. -/
def execRecode (e : Quad) (s : State) : Host.Outcome State Fault Refusal :=
  .next (s.engOp e 0x02 (fun s i o pc op =>
    match s.planeRows e i o (List.range o.h) with
    | .error x => s.cncFault e op x
    | .ok (rows, pz, s') =>
      let (lb, s') := s'.lineBuf e op
      let s' := s'.setEng e (fun g => { g with used := o.rb, st := .recode })
      let vals := (List.range o.h).map (fun (r : Nat) => (List.range o.w).map (fun (x : Nat) => (List.range o.c).map (fun c =>
        (o.elem rows (r : Int) (x : Int) c).mul (fpFP32.value o.scale))))
      let (codes, m) := codesOf o.fout vals
      let (bs, a) := o.outPlane 0 0 o.h o.w o.c codes o.dst
      s'.cncDone s e i o pc op bs a (if lb ≠ 0 then lb else pz) m id))

/-- R223, R224: the output of one box, whether it is empty, and its slot. -/
def COp.box (o : COp) (rows : List (Nat × List Byte)) (b : List Byte) : List (List (List Num)) × Bool × Nat :=
  let y0 := leAt b 0 2
  let x0 := leAt b 2 2
  let y1 := leAt b 4 2
  let x1 := leAt b 6 2
  let empty := decide (y1 ≤ y0) || decide (x1 ≤ x0)
  ((List.range o.oh).map (fun i => (List.range o.ow).map (fun j => (List.range o.c).map (fun c =>
    if empty then Num.zero else o.cropAt rows (cropCoord y0 y1 i o.oh) (cropCoord x0 x1 j o.ow) c))), empty, leAt b 8 2)

/-- The outputs of boxes land in list order. -/
def State.cropBoxes (s back : State) (e : Quad) (i : Item) (o : COp) (rows : List (Nat × List Byte)) (pz pc op : Nat) :
    List (List Byte) → State
  | [] => (s.consume i.id pz).nextCnc e (some (pc + 64))
  | b :: r =>
    let (vals, empty, k) := o.box rows b
    let (codes, m) := codesOf o.fout vals
    let (bs, a) := o.outPlane k 0 o.oh o.ow o.c codes
      (if o.outScree then o.dst else o.dst + k * o.oh * o.ow * posBytes o.fout o.c)
    match s.cWrite e i o.dstWin a bs pz with
    | .fault x => back.cncFault e op x
    | .wait s => s
    | .ok _ _ s =>
      let s := (s.satCount e m).setEng e (fun g => { g with emptyBox := satAdd g.emptyBox (bnat empty) 255 })
      State.cropBoxes s back e i o rows pz pc op r

/-- CROP (R223, R224). -/
def execCrop (e : Quad) (s : State) : Host.Outcome State Fault Refusal :=
  .next (s.engOp e 0x03 (fun s i o pc op =>
    match s.planeRows e i o (List.range o.h) with
    | .error x => s.cncFault e op x
    | .ok (rows, p1, s') =>
      match s'.cRead e i o.auxWin o.aux (16 * o.count) with
      | .error x => s.cncFault e op x
      | .ok (bx, p2, s') =>
        let (lb, s') := s'.lineBuf e op
        let s' := s'.setEng e (fun g => { g with used := 2 * o.rb, st := .crop })
        s'.cropBoxes s e i o rows (if lb ≠ 0 then lb else if p1 ≠ 0 then p1 else p2) pc op
          ((List.range o.count).map (fun k => sliceB bx (16 * k) 16))))

/-- The semaphore of a Cornice operation. -/
def COp.semIdx (o : COp) : Fin 16 := ⟨o.sem % 16, Nat.mod_lt _ (by decide)⟩

/-- CORNICE_WAIT (R227, R242). -/
def execCorniceWait (e : Quad) (s : State) : Host.Outcome State Fault Refusal :=
  .next (s.engOp e 0x05 (fun s _ o pc op =>
    let k := o.semIdx
    if o.count ≤ tget (s.cq e).sems k then
      (s.setCq e (fun c => { c with sems := updWith c.sems k (· - o.count) })).nextCnc e (some (pc + 64))
    else if 65535 < o.count && ! s.moreSignals e k.val then s.cncFault e op 4
    else s.setEng e (fun g => { g with st := .semWait })))

/-- CORNICE_SIGNAL (R227, R242). -/
def execCorniceSignal (e : Quad) (s : State) : Host.Outcome State Fault Refusal :=
  .next (s.engOp e 0x06 (fun s _ o pc op =>
    let k := o.semIdx
    if 65535 < tget (s.cq e).sems k + o.count then s.cncFault e op 3
    else (s.setCq e (fun c => { c with sems := updWith c.sems k (· + o.count) })).nextCnc e (some (pc + 64))))

/-- CORNICE_END (R227). -/
def execCorniceEnd (e : Quad) (s : State) : Host.Outcome State Fault Refusal :=
  .next (s.engOp e 0x7F (fun s _ _ _ _ => s.nextCnc e none))

/-- HALO_PUBLISH (R232): the oldest pending row of a direction lands when the consumer runs the same operation and has a
free slot; PUB increases. -/
def execHaloPublish (e : Quad) (down : Bool) (s : State) : Host.Outcome State Fault Refusal :=
  let g := s.eng e
  let peer := if down then (match tget s.str.cornice e with
      | some c => if h : c.neighbour < 16 then some (⟨c.neighbour, h⟩ : Quad) else none
      | none => none)
    else allQuads.find? (fun q => match tget s.str.cornice q with | some c => c.neighbour == e.val | none => false)
  .next (match g.pubs.find? (fun r => r.down == down), peer, (s.cq e).run with
    | some row, some q, some r =>
      let h := s.eng q
      let same := match (s.cq q).run with | some t => t.item == r.item | none => false
      let used := (h.slots.filter (fun x => x.down == down)).length
      let room := decide (used < if down then h.dnSlots else h.upSlots)
      s.when (same && h.started && decide (h.striped = g.striped) && room) (fun s =>
        let s := s.setEng e (fun g => { g with pubs := g.pubs.filter (· ≠ row) })
        let s := s.setEng q (fun h => { h with slots := h.slots ++ [row] })
        if down then s.setEng e (fun g => { g with dnPub := (g.dnPub + 1) % 65536 })
        else s.setEng q (fun h => { h with upPub := (h.upPub + 1) % 65536 }))
    | _, _, _ => s)

end Sys2Proof.Machine
end

