-- ==== Sys2Proof/Machine/StructOps.lean ====
section
/-! DEFINITION. The structure bitstream: stages A, B and C of R110, and the structure that its frames define
(R94 to R109, R272, R273, R346, R359). -/

namespace Sys2Proof.Machine

/-! ## Stage A (R95) -/

/-- R110, stage A: the ERR of the first 128 bytes of a source of `srcLen` bytes; 0 when they pass. -/
def State.stageA (s : State) (flash : Bool) (srcLen : Nat) (h : List Byte) : Nat :=
  let total := leAt h 0xC 4
  let frames := leAt h 0xA 2
  let kind := leAt h 6 1
  let target := leAt h 7 1
  let full := decide (kind = 1) && decide (target = 0xFF) && zeroB h 0x20 16
  let part := decide (kind = 2) && decide (target < 16) && decide (leAt h 0x40 2 = 2 ^ target) && s.committed
    && decide (leAt h 0x20 16 = s.str.id) && ! flash
  if leAt h 0 4 ≠ 0x31535A55 ∨ leAt h 4 2 ≠ 1 ∨ leAt h 8 2 ≠ 0x80 then 0x01
  else if leAt h 0x7C 4 ≠ crc32c (h.take 0x7C) then 0x02
  else if total % 16 ≠ 0 ∨ total < 512 ∨ 0x20000000 < total ∨ frames < 2 ∨ 4096 < frames ∨ srcLen < total then 0x03
  else if ! (full || part) ∨ leAt h 0x10 16 = 0 ∨ 1 < leAt h 0x3E 1 ∨ ! zeroB h 0x3F 1 ∨ ! zeroB h 0x4C 48 then 0x04
  else if leAt h 0x34 8 ≠ 0 ∧ leAt h 0x34 8 ≠ s.col.serial then 0x05
  else if (leAt h 0x3C 1 ≠ 0 ∧ leAt h 0x3C 1 ≠ (if s.col.grade2 then 2 else 1)) ∨ leAt h 0x3D 1 ≠ 0x10 then 0x06
  else if leAt h 0x3E 1 = 1 ∧ ! s.col.envExt then 0x07
  else 0

/-! ## Stage B (R97, R98) -/

/-- R110, stage B: the ERR of the staged file, or the anchor that accepts it. -/
def State.stageB (s : State) (file : List Byte) : Nat × Nat :=
  let n := leAt file 0xC 4 - 256
  match s.checkSig s.cairn.genInForce 2 0x47535A55 (leAt file 0x42 2) ((file.drop n).take 256) (file.take n) with
  | .accepted k => (0, k)
  | .badBlock => (0x08, 0)
  | .noAnchor => (0x09, 0)
  | .badSig => (0x0A, 0)

/-! ## Frames (R96, R99) -/

/-- One frame: CLASS, PART, SUB, INDEX and payload. -/
structure Frame where
  cls : Nat
  part : Nat
  sub : Nat
  idx : Nat
  at_ : Nat
  pl : List Byte

/-- A stage C failure: ERR, and the failing frame's INDEX, CLASS and payload offset. -/
structure WalkErr where
  err : Nat
  index : Nat
  cls : Nat
  off : Nat

/-- The frame of a class, PART and SUB among those walked. -/
def findFrame (fs : List Frame) (cls part sub : Nat) : Option Frame :=
  fs.find? (fun f => f.cls == cls && f.part == part && f.sub == sub)

/-- R99: the PART, SUB and LEN that a class allows. -/
def classOk (f : Frame) : Bool :=
  let n := f.pl.length
  let p := decide (f.part < 16)
  if f.cls = 0x01 then f.part = 0xFF && f.sub = 0 && n = 16
  else if f.cls = 0x02 then p && f.sub = 0 && n = 64
  else if f.cls = 0x03 then p && decide (f.sub < 16) && n = 16
  else if f.cls = 0x04 then (p || f.part = 0xFF) && f.sub = 0
  else if f.cls = 0x05 then p && decide (f.sub < 16) && n = 16
  else if f.cls = 0x06 then f.part = 0xFF && decide (f.sub < 8) && n = 16
  else if f.cls = 0x07 then p && f.sub = 0 && decide (32 ≤ n)
  else if f.cls = 0x08 then p && f.sub = 0 && n = 64
  else if f.cls = 0x10 then p && decide (f.sub < 16) && decide (n ≤ 0x100000)
  else if f.cls = 0x11 then p && decide (f.sub < 64)
  else if f.cls = 0x7F then f.part = 0xFF && f.sub = 0 && n = 16
  else false

/-- R101. -/
def partCfgOf (b : List Byte) : PartCfg :=
  { quads := leAt b 0 2, queues := leAt b 2 1, qdepth := leAt b 3 1, winBase := leAt b 4 4, winSize := leAt b 8 4,
    imageMib := leAt b 0xC 2, grain := leAt b 0xE 1, channels := leAt b 0x10 16,
    tokens := tab 8 (fun i => leAt b (0x20 + i.val) 1), linkShare := leAt b 0x28 1, slice := leAt b 0x29 1,
    sessFirst := leAt b 0x2A 2, sessCount := leAt b 0x2C 2 }

/-- R102. -/
def quadCfgOf (b : List Byte) : QuadCfg :=
  { offPermit := bitAt (leAt b 0 1) 0, tickServed := bitAt (leAt b 0 1) 1, clkgrp := leAt b 1 1,
    tileWKib := leAt b 2 2, qbufInKib := leAt b 4 2 }

/-- R100. -/
def deviceCfgOf (b : List Byte) : DeviceCfg :=
  { devIndex := leAt b 0 1, devCount := leAt b 1 1, topo := leAt b 2 1, torusW := leAt b 3 1, portEn := leAt b 4 1,
    trvEn := leAt b 5 1 = 1 }

/-- R104. -/
def corniceCfgOf (b : List Byte) : CorniceCfg :=
  { kh := leAt b 0 1 / 16, kw := leAt b 0 1 % 16, ch := leAt b 1 1, sv := leAt b 2 1 / 16, sh := leAt b 2 1 % 16,
    dv := leAt b 3 1 / 16, dh := leAt b 3 1 % 16, padT := leAt b 4 1, padB := leAt b 5 1, padL := leAt b 6 1,
    padR := leAt b 7 1, stripeRows := leAt b 8 2, overlap := leAt b 0xA 1 = 1, neighbour := leAt b 0xB 1 }

/-- R346. -/
def linkCfgOf (b : List Byte) : LinkCfg := { expDev := leAt b 0 1, expPort := leAt b 1 1, fibreM := leAt b 2 1 }

/-- R105: pass tables, then PHASE and TABLE of each session of the range. -/
def trvCfgOf (count : Nat) (b : List Byte) : TrvCfg :=
  let n := leAt b 0 1
  { tables := (List.range n).map (fun i =>
      { passes := leAt b (16 + 16 * i) 1, p1Adv := leAt b (17 + 16 * i) 1, p2Min := leAt b (18 + 16 * i) 1,
        p2Max := leAt b (19 + 16 * i) 1 })
    sess := (List.range count).map (fun i =>
      let v := leAt b (16 + 16 * n + i) 1
      (v % 16, v / 16 % 8)) }

/-- R103: the entries of a ROUTE payload, padding left out. -/
def routesOf (part : Nat) (b : List Byte) : List Route :=
  ((List.range (b.length / 4)).filter (fun i => leAt b (4 * i) 4 ≠ 0)).map (fun i =>
    { part := part, src := leAt b (4 * i) 1, dst := leAt b (4 * i + 1) 1, bw := leAt b (4 * i + 2) 1 })

/-- R359: the device index and port that port p of a device reaches. -/
def expectedPeer (d : DeviceCfg) (p : Nat) : Nat × Nat :=
  if d.topo = 1 then
    if p < 4 then ((d.devIndex + 1) % d.devCount, p + 4) else ((d.devIndex + d.devCount - 1) % d.devCount, p - 4)
  else
    let w := d.torusW
    let h := d.devCount / w
    let x := d.devIndex % w
    let y := d.devIndex / w
    let at_ := fun x y => y % h * w + x % w
    if p % 4 = 0 then (at_ (x + 1) y, p + 1)
    else if p % 4 = 1 then (at_ (x + w - 1) y, p - 1)
    else if p % 4 = 2 then (at_ x (y + 1), p + 1)
    else (at_ x (y + h - 1), p - 1)

/-- R359: the port groups of a topology. -/
def portGroups (topo : Nat) : List Nat :=
  if topo = 1 then [0x0F, 0xF0] else if topo = 2 then [0x11, 0x22, 0x44, 0x88] else []

/-- A 0 to 15 route endpoint, port, Traverse or DRAM controller. -/
def endpointOk (e : Nat) : Bool := decide (e < 16) || (decide (0x40 ≤ e) && decide (e < 0x48)) || e = 0x80 || e = 0xC0

/-- R100 to R107, R346, R359: the payload offset of the first field of a frame outside its range. -/
def fieldBad (hdr : List Byte) (fs : List Frame) (qcfg : Nat → Option QuadCfg) (f : Frame) : Option Nat :=
  let b := f.pl
  let g := fun o n => leAt b o n
  if f.cls = 0x01 then
    let d := deviceCfgOf b
    firstBad [(decide (d.devIndex < d.devCount), 0), (decide (1 ≤ d.devCount) && decide (d.devCount ≤ 32), 1),
      (decide (d.topo ≤ 2) && (d.topo ≠ 0 || d.devCount = 1), 2),
      (if d.topo = 2 then decide (2 ≤ d.torusW) && decide (d.torusW ≤ 16) && decide (d.devCount % d.torusW = 0)
          && decide (2 ≤ d.devCount / d.torusW) else d.torusW = 0, 3),
      ((d.topo ≠ 0 || d.portEn = 0) && (portGroups d.topo).all (fun m => decide (d.portEn &&& m ≠ 0)), 4),
      (decide (g 5 1 ≤ 1), 5), (g 6 2 = leAt hdr 0x40 2, 6), (zeroB b 8 8, 8)]
  else if f.cls = 0x02 then
    let c := partCfgOf b
    let n := (chanList c).length
    firstBad [(decide (1 ≤ c.queues) && decide (c.queues ≤ 8), 2), (decide (4 ≤ c.qdepth) && decide (c.qdepth ≤ 12), 3),
      (decide (1 ≤ c.winSize), 8), (decide (c.imageMib < c.winSize), 0xC), (decide (c.grain ≤ 4), 0xE),
      (zeroB b 0xF 1, 0xF), (decide (n ≠ 0), 0x10), (decide (c.winSize % n = 0), 8),
      (c.tokens.toList.all (fun t => decide (t ≤ 32)), 0x20), (decide (c.linkShare ≤ 64), 0x28),
      (decide (1 ≤ c.slice) && decide (c.slice ≤ 100), 0x29), (decide (c.sessFirst ≤ 4095), 0x2A),
      (decide (c.sessCount ≤ 4096 - c.sessFirst), 0x2C), (zeroB b 0x2E 18, 0x2E)]
  else if f.cls = 0x03 then
    firstBad [(decide (g 0 1 < 4), 0), (decide (g 1 1 ≤ 15), 1), (decide (g 2 2 ≤ 2048) && decide (g 2 2 % 64 = 0), 2),
      (decide (64 ≤ g 4 2) && decide (g 4 2 ≤ 1984) && decide (g 4 2 % 64 = 0), 4), (zeroB b 6 10, 6)]
  else if f.cls = 0x04 then
    firstBad ((List.range (b.length / 4)).map (fun i =>
      (g (4 * i) 4 = 0 || (endpointOk (g (4 * i) 1) && endpointOk (g (4 * i + 1) 1) && g (4 * i + 3) 1 = 0), 4 * i)))
  else if f.cls = 0x05 then
    let c := corniceCfgOf b
    let r := fun v lo hi => decide (lo ≤ v) && decide (v ≤ hi)
    firstBad [(r c.kh 1 9 && r c.kw 1 9, 0), (r c.ch 1 16, 1), (r c.sv 1 4 && r c.sh 1 4, 2), (r c.dv 1 4 && r c.dh 1 4, 3),
      (decide (c.padT ≤ 8), 4), (decide (c.padB ≤ 8), 5), (decide (c.padL ≤ 8), 6), (decide (c.padR ≤ 8), 7),
      (r c.stripeRows 1 1024, 8), (decide (g 0xA 1 ≤ 1), 0xA), (decide (c.neighbour < 16) || c.neighbour = 0xFF, 0xB),
      (zeroB b 0xC 4, 0xC)]
  else if f.cls = 0x06 then
    let d := match findFrame fs 0x01 0xFF 0 with | some v => deviceCfgOf v.pl | none => DeviceCfg.blank
    firstBad [((expectedPeer d f.sub).1 = g 0 1, 0), ((expectedPeer d f.sub).2 = g 1 1, 1),
      (decide (1 ≤ g 2 1) && decide (g 2 1 ≤ 100), 2), (zeroB b 3 13, 3)]
  else if f.cls = 0x07 then
    let n := g 0 1
    let tables := (List.range n).map (fun i =>
      let t := fun o => g (16 + 16 * i + o) 1
      ((t 0 = 1 || t 0 = 2) && t 1 = 10 && decide (30 ≤ t 2) && decide (t 2 ≤ 120) && decide (t 2 ≤ t 3)
        && decide (t 3 ≤ 120) && zeroB b (20 + 16 * i) 12, 16 + 16 * i))
    let cnt := match findFrame fs 0x02 f.part 0 with | some v => (partCfgOf v.pl).sessCount | none => 0
    let sess := (List.range cnt).map (fun i =>
      let v := g (16 + 16 * n + i) 1
      (decide (v < 128) && decide (v / 16 < n), 16 + 16 * n + i))
    let tail := 16 + 16 * n + cnt
    firstBad ([(decide (1 ≤ n) && decide (n ≤ 8), 0), (zeroB b 1 15, 1)] ++ tables ++ sess
      ++ [(zeroB b tail (b.length - tail), tail)])
  else if f.cls = 0x10 then
    let w := match qcfg f.sub with | some c => c.tileWKib * 1024 | none => 0
    let qin := fun (q : Quad) => match qcfg q.val with | some c => c.qbufInKib * 1024 | none => 0x200000
    match kernelBad w qin b with
    | some o => some o
    | none => cncBad w qin ((findFrame fs 0x05 f.part f.sub).map (fun c => corniceCfgOf c.pl)) b
  else if f.cls = 0x7F then
    firstBad [(g 0 2 = leAt hdr 0xA 2, 0), (zeroB b 2 2, 2), (g 4 4 = leAt hdr 0x44 4, 4), (zeroB b 8 8, 8)]
  else none

/-- R99: a frame that its class count or another frame's value does not allow (ERR 0x0D). -/
def countBad (hdr : List Byte) (fs : List Frame) (qcfg : Nat → Option QuadCfg) (f : Frame) : Bool :=
  let partial_ := decide (leAt hdr 6 1 = 2)
  let target := leAt hdr 7 1
  let inMask := f.part = 0xFF || bitAt (leAt hdr 0x40 2) f.part
  let pcfg := (findFrame fs 0x02 f.part 0).map (fun v => partCfgOf v.pl)
  ! inMask
    || (partial_ && (f.cls = 0x01 || f.cls = 0x06 || (f.cls ≠ 0x7F && f.part ≠ target)))
    || (f.cls = 0x06 && ! (match findFrame fs 0x01 0xFF 0 with
        | some v => bitAt (deviceCfgOf v.pl).portEn f.sub | none => false))
    || (f.cls = 0x07 && (match pcfg with
        | some c => c.sessCount = 0 || f.pl.length ≠ cdiv (16 + 16 * leAt f.pl 0 1 + c.sessCount) 16 * 16
        | none => true))
    || (f.cls = 0x11 && (match qcfg (f.sub / 4) with
        | some c => decide (c.tileWKib * 1024 < f.pl.length) | none => false))

/-- R99: at END, a required frame is missing. -/
def missingFrame (hdr : List Byte) (fs : List Frame) : Bool :=
  let has := fun c p u => (findFrame fs c p u).isSome
  let dev := (findFrame fs 0x01 0xFF 0).map (fun v => deviceCfgOf v.pl)
  let partOk := fun p =>
    has 0x02 p 0 && has 0x08 p 0 && (match findFrame fs 0x02 p 0 with
      | some v => (decide ((partCfgOf v.pl).sessCount = 0) || has 0x07 p 0)
          && (bitsOf 16 (partCfgOf v.pl).quads).all (fun q => has 0x03 p q)
      | none => false)
  ! (bitsOf 16 (leAt hdr 0x40 2)).all partOk
    || (leAt hdr 6 1 = 1 && (match dev with
        | some d => ! (bitsOf 8 d.portEn).all (fun p => has 0x06 0xFF p)
        | none => true))

/-- R96: frames in order of CLASS, PART and SUB; equal keys only for ROUTE. -/
def orderOk (prev : Option Frame) (f : Frame) : Bool :=
  match prev with
  | none => true
  | some v =>
    let k := fun (x : Frame) => x.cls * 2 ^ 24 + x.part * 2 ^ 16 + x.sub
    decide (k v < k f) || (decide (k v = k f) && f.cls = 0x04)

/-- R110, stage C, ERR 0x0B to 0x0E: the frames of a file from a byte offset on, or the first failure. `fuel` bounds
the frame count; `limit` is where the signature block begins. -/
def walkFrames (file : List Byte) (limit : Nat) (qcfg0 : Nat → Option QuadCfg) :
    Nat → Nat → Nat → List Frame → List Frame ⊕ WalkErr
  | 0, _, idx, _ => .inr { err := 0x0C, index := idx, cls := 0, off := 0 }
  | fuel + 1, off, idx, fs =>
    let h := (file.drop off).take 16
    let len := leAt h 4 4
    let cls := leAt h 0 1
    let bad := fun (e o : Nat) => (Sum.inr { err := e, index := idx, cls := cls, off := min o 255 } : List Frame ⊕ WalkErr)
    if limit < off + 16 then bad 0x0C 0
    else if limit < off + 16 + len then bad 0x0C 0
    else
      let pl := (file.drop (off + 16)).take len
      let f : Frame := { cls := cls, part := leAt h 2 1, sub := leAt h 0xA 2, idx := idx, at_ := off, pl := pl }
      let qcfg := fun q => match fs.find? (fun v => v.cls == 0x03 && v.sub == q) with
        | some v => some (quadCfgOf v.pl) | none => qcfg0 q
      let resident := match fs.reverse.find? (fun v => v.cls == 0x10 || v.cls == 0x11) with
        | some v => v.at_ | none => off
      if leAt h 0xC 4 ≠ crc32c (h.take 12 ++ pl) then bad 0x0B 0
      else if leAt h 8 2 ≠ idx ∨ ! orderOk fs.head? f then bad 0x0C 0
      else if cls = 0x7F ∧ (off + 16 + len ≠ limit ∨ idx + 1 ≠ leAt file 0xA 2 ∨ resident ≠ leAt file 0x44 4) then
        bad 0x0C 0
      else if cls ≠ 0x7F ∧ leAt file 0xA 2 ≤ idx + 1 then bad 0x0C 0
      else if len % 16 ≠ 0 ∨ ! classOk f ∨ countBad file fs qcfg f ∨ (cls = 0x7F ∧ missingFrame file fs) then bad 0x0D 0
      else if ! zeroB h 1 1 ∨ ! zeroB h 3 1 then bad 0x0E 0
      else match fieldBad file fs qcfg f with
        | some o => bad 0x0E o
        | none =>
          if cls = 0x7F then .inl (f :: fs).reverse
          else walkFrames file limit qcfg0 fuel (off + 16 + len) (idx + 1) (f :: fs)

/-! ## The structure that frames define -/

/-- R273: the lowest LBASE at which a share fits on every channel of a set, given the windows already placed. -/
def lowestLbase (placed : List (PartCfg × Nat)) (c : PartCfg) : Option Nat :=
  let sh := shareOf c
  let clash := fun b => placed.any (fun w =>
    decide (w.1.channels &&& c.channels ≠ 0) && decide (w.2 < b + sh) && decide (b < w.2 + shareOf w.1))
  let cands := (0 :: placed.map (fun w => w.2 + shareOf w.1)).filter (fun b => decide (b + sh ≤ shareTop) && ! clash b)
  cands.foldl (fun m b => match m with | some v => some (min v b) | none => some b) none

/-- R273: LBASE of each window of `todo`, in order, beside those already placed; none with the partition that does not
fit. -/
def placeWindows : List (Part × PartCfg) → List (PartCfg × Nat) → Vector Nat 16 → Vector Nat 16 ⊕ Part
  | [], _, lb => .inl lb
  | (p, c) :: r, placed, lb =>
    match lowestLbase placed c with
    | some b => placeWindows r ((c, b) :: placed) (upd lb p b)
    | none => .inr p

/-- R99: a partial bitstream replaces every resident and image frame of its target. -/
def Structure.without (t : Structure) (p : Part) : Structure :=
  let owned := fun (q : Nat) => match tget t.parts p with | some c => bitAt c.quads q | none => false
  { t with
    parts := upd t.parts p none
    quads := vmapIdx (fun q v => if owned q.val then none else v) t.quads
    routes := t.routes.filter (fun r => r.part ≠ p.val)
    cornice := vmapIdx (fun q v => if owned q.val then none else v) t.cornice
    trv := upd t.trv p none, banks := upd t.banks p 0
    kernels := vmapIdx (fun q v => if owned q.val then none else v) t.kernels
    tileInit := vmapIdx (fun i v => if owned (i.val / 4) then none else v) t.tileInit }

/-- The structure with one frame's contents. -/
def Structure.addFrame (t : Structure) (f : Frame) : Structure :=
  let q : Quad := ⟨f.sub % 16, Nat.mod_lt _ (by decide)⟩
  let p : Part := ⟨f.part % 16, Nat.mod_lt _ (by decide)⟩
  let count := match tget t.parts p with | some c => c.sessCount | none => 0
  if f.cls = 0x01 then { t with dev := deviceCfgOf f.pl }
  else if f.cls = 0x02 then { t with parts := upd t.parts p (some (partCfgOf f.pl)) }
  else if f.cls = 0x03 then { t with quads := upd t.quads q (some (quadCfgOf f.pl)) }
  else if f.cls = 0x04 then { t with routes := t.routes ++ routesOf f.part f.pl }
  else if f.cls = 0x05 then { t with cornice := upd t.cornice q (some (corniceCfgOf f.pl)) }
  else if f.cls = 0x06 then
    { t with links := upd t.links ⟨f.sub % 8, Nat.mod_lt _ (by decide)⟩ (some (linkCfgOf f.pl)) }
  else if f.cls = 0x07 then { t with trv := upd t.trv p (some (trvCfgOf count f.pl)) }
  else if f.cls = 0x08 then { t with banks := upd t.banks p (leNat f.pl) }
  else t

/-- The window offset at which the image area of a partition begins. -/
def imageBase (c : PartCfg) : Nat := (c.winSize - c.imageMib) * 2 ^ 20

/-- R107, R108: images are placed one after the other from the start of the image area, in frame order (log 21). -/
def Structure.addImages (t : Structure) (fs : List Frame) : Structure :=
  (fs.foldl (fun (acc : Structure × List Nat) f =>
    if f.cls = 0x10 ∨ f.cls = 0x11 then
      let p : Part := ⟨f.part % 16, Nat.mod_lt _ (by decide)⟩
      let used := acc.2.getD p.val 0
      let base := match tget t.parts p with | some c => imageBase c | none => 0
      let loc : ImageLoc := { off := base + used, len := f.pl.length }
      let u := acc.1
      ((if f.cls = 0x10 then { u with kernels := upd u.kernels ⟨f.sub % 16, Nat.mod_lt _ (by decide)⟩ (some loc) }
        else { u with tileInit := upd u.tileInit ⟨f.sub % 64, Nat.mod_lt _ (by decide)⟩ (some loc) }),
       acc.2.set p.val (used + f.pl.length))
    else acc) (t, List.replicate 16 0)).1

/-- The structure of a walked file over the committed one: identity, frames, LBASE and image places. -/
def State.buildStruct (s : State) (file : List Byte) (fs : List Frame) (anchor : Nat) (lb : Vector Nat 16) : Structure :=
  let full := decide (leAt file 6 1 = 1)
  let target : Part := ⟨leAt file 7 1 % 16, Nat.mod_lt _ (by decide)⟩
  let base := if full then
      { Structure.blank with id := leAt file 0x10 16, seq := leAt file 0x30 4, keyId := leAt file 0x42 2, anchor := anchor }
    else { s.str.without target with
      gen := (s.str.gen + 1) % 2 ^ 32, partSeq := upd s.str.partSeq target (leAt file 0x30 4) }
  { (fs.foldl Structure.addFrame base).addImages fs with lbase := lb }

/-! ## Rules of the whole structure (R103, R108), ERR 0x0F and 0x10 -/

/-- Two claims of pairs of partitions that a rule forbids. -/
def pairsClash (ps : List (Part × PartCfg)) (f : PartCfg → PartCfg → Bool) : List (Part × Part) :=
  ps.flatMap (fun a => (ps.filter (fun b => decide (a.1 < b.1) && f a.2 b.2)).map (fun b => (a.1, b.1)))

/-- Half-open ranges overlap. -/
def rangesMeet (a n b m : Nat) : Bool := decide (0 < n) && decide (0 < m) && decide (a < b + m) && decide (b < a + n)

/-- R103: the quad ends of a route under its PART. -/
def routeOk (t : Structure) (r : Route) : Bool :=
  let owns := fun q => decide (q < 16) && (if h : r.part < 16 then
      (match tget t.parts ⟨r.part, h⟩ with | some c => bitAt c.quads q | none => false) else false)
  if r.part = 0xFF then decide (0x40 ≤ r.src) && decide (0x40 ≤ r.dst)
  else (decide (0x40 ≤ r.src) && decide (0x40 ≤ r.dst)) || owns r.src || owns r.dst

/-- A committed structure holds a route between two endpoints. -/
def Structure.hasRoute (t : Structure) (src dst : Nat) : Bool := t.routes.any (fun r => r.src == src && r.dst == dst)

/-- R108, R110: the first rule of the whole structure that a walked file breaks. -/
def State.rulesBad (s : State) (file : List Byte) (fs : List Frame) (t : Structure) : Option WalkErr :=
  let partial_ := decide (leAt file 6 1 = 2)
  let target := leAt file 7 1
  let ps := allParts.filterMap (fun p => (tget t.parts p).map (fun c => (p, c)))
  let at_ := fun (e cls part sub : Nat) =>
    let i := match findFrame fs cls part sub with | some f => f.idx | none => fs.length - 1
    some ({ err := e, index := i, cls := cls, off := 0 } : WalkErr)
  let owns := fun (p q : Nat) => match findFrame fs 0x02 p 0 with | some f => bitAt (partCfgOf f.pl).quads q | none => false
  let clash := fun (l : List (Part × Part)) (cls : Nat) => match l with
    | [] => none
    | (_, b) :: _ => if partial_ then none else at_ 0x0F cls b.val 0
  let claim := fun (l : List (Part × Part)) (cls : Nat) => match l with
    | [] => none
    | _ :: _ => if partial_ then at_ 0x10 cls target 0 else none
  let quadClash := pairsClash ps (fun a b => decide (a.quads &&& b.quads ≠ 0))
  let winClash := pairsClash ps (fun a b => rangesMeet a.winBase a.winSize b.winBase b.winSize)
  let sessClash := pairsClash ps (fun a b => rangesMeet a.sessFirst a.sessCount b.sessFirst b.sessCount)
  let bankClash := ps.flatMap (fun a => (ps.filter (fun b =>
      decide (a.1 < b.1) && decide (tget t.banks a.1 &&& tget t.banks b.1 ≠ 0))).map (fun b => (a.1, b.1)))
  let perFrame := fs.findSome? (fun f =>
    let b := fun c => some ({ err := 0x0F, index := f.idx, cls := f.cls, off := c } : WalkErr)
    if (f.cls = 0x03 ∨ f.cls = 0x05 ∨ f.cls = 0x10) ∧ ! owns f.part f.sub then b 0
    else if f.cls = 0x11 ∧ ! owns f.part (f.sub / 4) then b 0
    else if f.cls = 0x04 ∧ ! (routesOf f.part f.pl).all (routeOk t) then b 0
    else if f.cls = 0x02 then
      let c := partCfgOf f.pl
      let img := (fs.filter (fun v => (v.cls = 0x10 ∨ v.cls = 0x11) ∧ v.part = f.part)).foldl
        (fun n v => n + v.pl.length) 0
      if 261120 < c.winBase + c.winSize then b 4
      else if c.imageMib < cdiv img (2 ^ 20) then b 0xC
      else if 0 < c.sessCount ∧ ! t.dev.trvEn then b 0x2C
      else none
    else if f.cls = 0x10 then
      let q : Quad := ⟨f.sub % 16, Nat.mod_lt _ (by decide)⟩
      let w := match tget t.quads q with | some c => c.tileWKib * 1024 | none => 0
      let qin := fun (r : Quad) => match tget t.quads r with | some c => c.qbufInKib * 1024 | none => 0
      if (kernelRoutes w qin q f.pl ++ cncRoutes w qin q f.pl).all (fun d => t.hasRoute q.val d) then none else b 0
    else none)
  let chains := (List.range 16).findSome? (fun p =>
    match (if h : p < 16 then tget t.parts ⟨p, h⟩ else none) with
    | some c => if chainRuleBad t.cornice c.quads t.routes p then at_ 0x0F 0x05 p 0 else none
    | none => none)
  let totals :=
    (List.finRange 8).findSome? (fun k =>
      if 32 < (ps.map (fun a => tget a.2.tokens k)).sum then at_ 0x0F 0x02 ((ps.map (·.1.val)).foldl max 0) 0 else none)
    <|> (if 64 < (ps.map (fun a => a.2.linkShare)).sum then at_ 0x0F 0x02 ((ps.map (·.1.val)).foldl max 0) 0 else none)
  let resid := if 48896 < leAt file 0x44 4 then at_ 0x0F 0x7F 0xFF 0 else none
  let failed := fs.findSome? (fun f =>
    if f.cls = 0x03 ∧ (s.quad ⟨f.sub % 16, Nat.mod_lt _ (by decide)⟩).failed then
      some ({ err := 0x10, index := f.idx, cls := f.cls, off := 0 } : WalkErr) else none)
  clash quadClash 0x02 <|> clash winClash 0x02 <|> clash bankClash 0x08 <|> totals <|> clash sessClash 0x02
    <|> perFrame <|> chains <|> resid
    <|> claim quadClash 0x02 <|> claim winClash 0x02 <|> claim bankClash 0x08 <|> claim sessClash 0x02 <|> failed

/-- R230: the stripes of some chain are too short (ERR 0x0E); named under the partition's first KERNEL frame. -/
def stripesBad (fs : List Frame) (t : Structure) : Option WalkErr :=
  allParts.findSome? (fun p => match tget t.parts p with
    | some c =>
      let ks := fs.filter (fun f => f.cls = 0x10 ∧ f.part = p.val)
      if chainBad t.cornice c.quads (ks.map (fun f => (f.sub, f.pl))) then
        ks.head?.map (fun f => { err := 0x0E, index := f.idx, cls := 0x10, off := 0 })
      else none
    | none => none)

/-- R110, stage C: the structure and images of a staged file, or the first failure. -/
def State.stageC (s : State) (file : List Byte) (anchor : Nat) :
    (Structure × List (Bool × Nat × List Byte)) ⊕ WalkErr :=
  let total := leAt file 0xC 4
  let full := decide (leAt file 6 1 = 1)
  let target : Part := ⟨leAt file 7 1 % 16, Nat.mod_lt _ (by decide)⟩
  let kept := if full then Structure.blank else s.str.without target
  let qcfg0 := fun q => if h : q < 16 then tget kept.quads ⟨q, h⟩ else none
  match walkFrames file (total - 256) qcfg0 4097 0x80 0 [] with
  | .inr e => .inr e
  | .inl fs =>
    let t0 := s.buildStruct file fs anchor kept.lbase
    match stripesBad fs t0 <|> s.rulesBad file fs t0 with
    | some e => .inr e
    | none =>
      let todo := allParts.filterMap (fun p =>
        if full || p = target then (tget t0.parts p).map (fun c => (p, c)) else none)
      let placed := allParts.filterMap (fun p =>
        if full || p = target then none else (tget kept.parts p).map (fun c => (c, tget kept.lbase p)))
      match placeWindows todo placed kept.lbase with
      | .inl lb =>
        .inl (s.buildStruct file fs anchor lb,
          (fs.filter (fun f => f.cls = 0x10 ∨ f.cls = 0x11)).map (fun f => (decide (f.cls = 0x10), f.sub, f.pl)))
      | .inr p =>
        let i := match findFrame fs 0x02 p.val 0 with | some f => f.idx | none => 0
        .inr { err := if full then 0x0F else 0x10, index := i, cls := 0x02, off := 4 }

/-- R112: the status that belongs to an ERR. -/
def loadStatus (err : Nat) : Status :=
  if err = 0 then stOk
  else if err ≤ 0x10 then stRefused 9
  else if err = 0x20 ∨ err = 0x21 then stRefused 0xA
  else if err = 0x27 then stRefused 0xB
  else if err = 0x25 then stTimeout 9
  else if err = 0x26 then stStopping 0
  else stPoisoned 9

end Sys2Proof.Machine
end

