-- ==== Sys2Proof/Machine/Traverse.lean ====
section
/-! DEFINITION. Traverse: the meanings of the session descriptors, the ticks, the detector, the gates, the late check and
the playout path (file 09). -/

namespace Sys2Proof.Machine

/-- SESSION_OPEN (R151, R156, R172, R181, R184): opens the session; in fill mode with the cursor at 0 (R189). -/
def execSessionOpen (id : Nat) (s : State) : Host.Outcome State Fault Refusal :=
  .next (s.withItem id (fun i =>
    match i.body, s.cfg i.part with
    | .sessionOpen codec cq lead ia oa addr slots seq rb rl, some c =>
      s.when (s.ready i && s.sessTurn i) (fun s =>
        match s.sessRefuse i true with
        | some st => s.finish id st
        | none =>
          if ! tenantRange c rb rl then s.finish id (stRefused 3)
          else
            let n := i.sessNo
            let e := match tget s.str.trv i.part with
              | some t => t.sess.getD (n - c.sessFirst) (0, 0)
              | none => (0, 0)
            let x : SessSt :=
              { part := i.part, codec := codec, cq := ⟨cq % 8, by omega⟩, lead := lead, phase := e.1, table := e.2
                inAlign := ia, newInAlign := none, outAddr := addr, outSlots := slots, resBase := rb, resLen := rl
                firstSeq := seq, openAt := s.now, ticks := none, tick0 := firstTick s.epochCyc e.1 s.now, hold := false
                gone := false, barge := false, holdReq := none, goneReq := false, goneSub := 0, bargeSeen := false
                closing := none, seqNext := seq, inHeld := [], delivered := 0, consumed := 0, inNext := 0, accum := 0
                accumGap := false, adv := 0, vads := [], ein := [], eout := [], voiced := 0, unvoiced := 0, subNext := 0
                steps := [], lastSeq := 0, cnt := rep 6 0, shut := false
                out := { cursor := 0, write := 0, seams := [], appendSeq := none, mode := .fill, tick := none
                         samples := [], quarters := 0, qflags := 0, pendSlot := none, frame := none, stage := []
                         late := none, fade := none, fadeFrom := 160, fillK := .comfort, lfsr := n, plan := none
                         rampAt := none, stop := none, align := oa, newAlign := none, ended := false, held := false } }
            let x := { x with adv := (s.passTable x).p2Min }
            (s.putSess n x).finish id stOk)
    | _, _ => s))

/-- A SESSION_CTRL of one OP: its refusals, and what Traverse applies (R157). -/
def State.sessCtrl (s : State) (id : Nat) (op : Nat) (f : State → Item → Int → Int → State) : State :=
  s.withItem id (fun i =>
    match i.body with
    | .sessionCtrl o ia oa =>
      s.when (decide (o = op) && s.ready i && s.sessTurn i) (fun s =>
        match s.sessRefuse i false with
        | some st => s.finish id st
        | none => f s i ia oa)
    | _ => s)

/-- SET_HOLD (R184): OP 1; the gate changes at the sweep's next visit. -/
def execSetHold (id : Nat) (s : State) : Host.Outcome State Fault Refusal :=
  .next (s.sessCtrl id 1 (fun s i _ _ =>
    (s.setSess i.sessNo (fun x => { x with holdReq := some true })).finish id stOk))

/-- CLEAR_HOLD (R184): OP 2. -/
def execClearHold (id : Nat) (s : State) : Host.Outcome State Fault Refusal :=
  .next (s.sessCtrl id 2 (fun s i _ _ =>
    (s.setSess i.sessNo (fun x => { x with holdReq := some false })).finish id stOk))

/-- SET_GONE (R184): OP 3. -/
def execSetGone (id : Nat) (s : State) : Host.Outcome State Fault Refusal :=
  .next (s.sessCtrl id 3 (fun s i _ _ =>
    (s.setSess i.sessNo (fun x => { x with goneReq := true })).finish id stOk))

/-- SET_ALIGNMENT (R183): OP 4: IN_ALIGN at the next inbound subframe, OUT_ALIGN at the next outbound tick. -/
def execSetAlignment (id : Nat) (s : State) : Host.Outcome State Fault Refusal :=
  .next (s.sessCtrl id 4 (fun s i ia oa =>
    (s.setSess i.sessNo (fun x =>
      { x with newInAlign := some ia
               out := if x.out.tick.isSome then { x.out with newAlign := some oa } else { x.out with align := oa } })).finish
      id stOk))

/-- SESSION_CLOSE (R184): OP 5 sets GONE at the sweep's next visit and completes when every step has. -/
def execSessionClose (id : Nat) (s : State) : Host.Outcome State Fault Refusal :=
  .next (s.sessCtrl id 5 (fun s i _ _ =>
    let s := s.setItem id (fun j => { j with begun := true })
    (s.setSess i.sessNo (fun x => { x with
      goneReq := ! x.gone, goneSub := 1, closing := some (some id) })).closeIfDone i.sessNo))

/-- R174: one inbound frame is offered: accepted into the ring when it is new and in time, else discarded. -/
def State.offerFrame (s : State) (n f : Nat) (samples : List Int) : State :=
  s.withSess n (fun x =>
    if x.inNext ≤ f && decide (f < x.inNext + 16) && ! x.inHeld.contains f then
      let s := s.memWrite (inSlot n f) (sampleBytes samples)
      s.setSess n (fun x => { x with delivered := x.delivered + 1
                                     inHeld := x.inHeld.filter (· < f) ++ [f] ++ x.inHeld.filter (f < ·) })
    else s.trvCount n 1 1)

/-- AUDIO_IN (R158, R173, R174). `bad`: the host read failed. -/
def execAudioIn (id : Nat) (bad : Bool) (s : State) : Host.Outcome State Fault Refusal :=
  .next (s.withItem id (fun i =>
    match i.body with
    | .audioIn frames first addr =>
      s.when (s.ready i && s.sessTurn i && (s.vf i.part).bme) (fun s =>
        match s.sessRefuse i false, s.sess i.sessNo with
        | some st, _ => s.finish id st
        | none, none => s
        | none, some x =>
          if x.gone then s.finish id (stGone 0)
          else if bad then s.finish id (stPoisoned 1)
          else
            let b := inBytes x.codec
            let s := s.each (List.range frames) (fun s k =>
              s.offerFrame i.sessNo ((first + k) % 2 ^ 32) (decodeFrame x.codec (s.hostRead (addr + k * b) b)))
            let got := match s.sess i.sessNo with | some y => y.delivered - x.delivered | none => 0
            s.finish id stOk got)
    | _ => s))

/-- AUDIO_OUT (R158, R180). `bad`: the host read failed. -/
def execAudioOut (id : Nat) (bad : Bool) (s : State) : Host.Outcome State Fault Refusal :=
  .next (s.withItem id (fun i =>
    match i.body with
    | .audioOut frames seams addr =>
      s.when (s.ready i && s.sessTurn i && (s.vf i.part).bme) (fun s =>
        match s.sessRefuse i false, s.sess i.sessNo with
        | some st, _ => s.finish id st
        | none, none => s
        | none, some x =>
          if x.gone then s.finish id (stGone 0)
          else if bad then s.finish id (stPoisoned 1)
          else
            let (kept, s) := s.append i.sessNo frames seams (s.hostRead addr (frames * 2 * frameLen x.codec))
            s.finish id stOk kept)
    | _ => s))

/-- TRAVERSE_EPOCH_START (R170). -/
def execTraverseEpochStart (s : State) : Host.Outcome State Fault Refusal :=
  .next (match s.trv.startAt with
    | some c => s.when (! s.trv.run && decide (epochEdge c ≤ s.now)) (fun s =>
        { s with trv := { s.trv with run := true, startAt := none, epoch := epochEdge c, ticks := 0 } })
    | none => s)

/-- TRAVERSE_TICK (R170 to R178): the tick of a phase, when it is due and next. -/
def execTraverseTick (phase : Fin 16) (s : State) : Host.Outcome State Fault Refusal :=
  let at_ := s.trv.epoch + 15625 * s.trv.ticks
  .next (s.when (s.trv.run && decide (s.trv.ticks % 16 = phase.val) && decide (at_ ≤ s.now)) (fun s =>
    let s := s.each (s.trv.sess.filter (fun e => e.2.phase == phase.val)) (fun s e =>
      s.sessTick ⟨e.1 % 4096, Nat.mod_lt _ (by decide)⟩ at_)
    { s with trv := { s.trv with ticks := s.trv.ticks + 1 } }))

/-- CONTINUITY_WAIT_EXPIRY (R178): 10 ms after its tick a step that still waits runs from the reset state, and so does a
served hand-off 10 ms after its arrival (log 59). -/
def execContinuityWaitExpiry (id : Nat) (s : State) : Host.Outcome State Fault Refusal :=
  .next (s.withItem id (fun i =>
    match i.stepRec with
    | some r => s.when (i.contWait && i.fin.isNone && s.past i.at_ (msCyc 10)) (fun s => s.breakCont i r.sess.val)
    | none => s.when (i.contWait && i.fin.isNone && s.past i.at_ (msCyc 10)) (fun s => s.breakServed i)))

/-- R176: the advance that a pass-2 step returns. -/
def State.setAdv (s : State) (n : Nat) (i : Item) (st : Status) : State :=
  s.withSess n (fun x =>
    let t := s.passTable x
    let a := match i.nextAdv with | some (_, v) => v * 10 | none => 0
    s.setSess n (fun x => { x with adv := if st.failed then t.p2Min else max t.p2Min (min a t.p2Max) }))

/-- R178, R179: the results of a step are written and its outcome is final: its slot header, the next advance, and the
steps that continue from it. R424 lets them precede the entry of an earlier step. -/
def State.stepOutcome (s : State) (i : Item) (r : StepRec) (st : Status) : State :=
  let n := r.sess.val
  let st := Status.worst st i.marks
  let hdr := leBytes 4 r.seq ++ leBytes 1 r.pass
    ++ leBytes 1 (r.flags + 8 * bnat (st.code == .degraded || i.marks.any (fun m => m.code == .degraded)))
    ++ leBytes 2 i.outLen ++ leBytes 4 r.frameFirst ++ leBytes 1 r.frameCount ++ leBytes 1 r.vad
    ++ leBytes 1 (if r.pass = 2 then (match i.nextAdv with | some (_, v) => v | none => 0) else 0) ++ leBytes 1 0
  let s := if i.firstOp.isSome then s.winWrite i.part r.slot hdr else s
  let h : StepHist := { seq := r.seq, pass := r.pass, prev := r.prev, status := some st, written := true }
  let s := s.setSess n (fun x => { x with steps := x.steps.map (fun g => if g.seq = r.seq then h else g) })
  let s := if r.pass = 2 then s.setAdv n i st else s
  let s := s.relink n h st
  s.setItem i.id (fun j => { j with wrote := true, fin := some st })

/-- R179, R424: the session header before the entry of a step; LAST_SEQ is that step. -/
def State.stepHeader (s : State) (r : StepRec) : State :=
  (s.setSess r.sess.val (fun x => { x with lastSeq := r.seq })).putHeader r.sess.val

/-- STEP_COMPLETE (R179, R424): a finished step's results are written; once every earlier step of its session has its
entry, and the ring is enabled and has room, the session header and its own entry follow. -/
def execStepComplete (id : Nat) (s : State) : Host.Outcome State Fault Refusal :=
  .next (s.withItem id (fun i =>
    match i.stepRec, i.fin with
    | some r, some st =>
      let n := r.sess.val
      match s.sessAny n with
      | none => s.when i.discard (fun s => { s with items := s.items.filter (fun j => j.id ≠ id) })
      | some x =>
        let dist := fun (q : Nat) => (q + 2 ^ 32 - x.firstSeq) % 2 ^ 32
        let s := if i.wrote then s else s.stepOutcome i r st
        s.when (! (s.stepsOf n).any (fun e => decide (dist e.2.seq < dist r.seq))) (fun s =>
          s.withItem id (fun j =>
            let free := fun (s : State) => (s.stepSlots i.part).closeIfDone n
            if j.discard then free { s.stepHeader r with items := s.items.filter (fun j => j.id ≠ id) }
            else if (s.vf i.part).bme && (s.queue i.part x.cq).en && s.cqRoom i.part x.cq then
              free ((s.stepHeader r).stepEntry j r x.cq (j.fin.getD st))
            else s))
    | _, _ => s))

/-- VAD_SUBFRAME (R186, R187): the next inbound subframe is classified, and may set or clear BARGE. -/
def execVadSubframe (n : Sess) (s : State) : Host.Outcome State Fault Refusal :=
  .next (match s.sess n.val with
    | none => s
    | some x =>
      let f := x.subNext / 4
      let j := x.subNext % 4
      let len := frameLen x.codec
      let q := len / 4
      let held := x.inHeld.contains f
      s.when (! x.gone && ! x.hold && (held || decide (f < x.inNext))) (fun s =>
        let (fr, s) := s.ringFrame (inSlot n.val f) len x.part
        let sub := ((fr.getD (List.replicate len 0)).drop (j * q)).take q
        let (e, s) := s.energy sub
        let ein := (e :: x.ein).take 128
        let align := x.newInAlign.getD x.inAlign
        let floor := max (-320) (ein.foldl min e)
        let onset := s.pcfg x.part 27 24
        let voiced := decide (onset ≤ ein.length)
          && (ein.take onset).all (fun v => decide (floor + 4 * (s.pcfg x.part 13 8 : Int) ≤ v))
        let shift := if x.codec = 0 then align * alignPll else (Int.tdiv align 2) * (2 * alignPll)
        let pos := (x.tick0 : Int) * 32 + (f * 8000000 : Nat) + (j * 2000000 : Nat) - shift
        let hit := match x.eout.find? (fun o => decide (o.1 ≤ pos) && decide (pos < o.1 + 2000000)) with
          | some (_, eo, reply) => reply && decide (eo - 4 * (s.pcfg x.part 21 16 : Int) ≤ e)
          | none => false
        let unv := if voiced then 0 else x.unvoiced + 1
        let set := voiced && hit && ! x.barge
        let clr := x.barge && decide (s.pcfg x.part 39 32 ≤ unv)
        let old := ((x.vads.find? (fun v => v.1 == f)).map (·.2)).getD 0
        let s := s.setSess n.val (fun x => { x with
          subNext := x.subNext + 1, ein := ein, inAlign := align, newInAlign := none, unvoiced := unv
          voiced := if voiced then x.voiced + 1 else 0, barge := (x.barge || set) && ! clr
          vads := ((f, old + bnat voiced * 2 ^ j) :: x.vads.filter (fun v => v.1 ≠ f)).take 16 })
        if set then s.trvCount n.val 4 1 else s))

/-- GATE_SWEEP_VISIT (R184, R185, R187): the sweep carries gate changes to the steps and to the playout path, and the
session header is rewritten after a change (R179). -/
def execGateSweepVisit (n : Sess) (s : State) : Host.Outcome State Fault Refusal :=
  .next (match s.sess n.val with
    | none => s
    | some x =>
      let goes := x.goneReq && ! x.gone
      let s := if goes then s.setGoneGate n.val x.goneSub else s
      let hold := if x.gone || goes then none else x.holdReq
      let s := s.setSess n.val (fun x => { x with holdReq := none })
      let s := match hold with
        | some true => if x.hold then s else s.setHoldGate n.val
        | some false => if x.hold then s.clearHoldGate n.val else s
        | none => s
      let quiet := x.gone || goes || (x.hold && hold ≠ some false) || hold == some true
      let s := if x.barge && ! x.bargeSeen && ! quiet then s.bargeSweep n.val else s
      let cleared := x.bargeSeen && ! x.barge
      let s := if cleared then s.setSess n.val (fun x => { x with bargeSeen := false }) else s
      let s := if goes || hold.isSome || cleared || (x.barge && ! x.bargeSeen) then s.putHeader n.val else s
      s.closeIfDone n.val)

/-- R188: the late check in play mode. -/
def State.lateCheck (s : State) (n : Nat) (x : SessSt) : State :=
  let o := x.out
  let len := frameLen x.codec
  match s.present n x o.cursor with
  | (some _, s) => s.setOut n (fun o => { o with plan := some .play })
  | (none, s) =>
    let rest := o.seams.contains o.cursor
    s.setOut n (fun o => { o with
      plan := some .fill, rampAt := some (len - rampLen x.codec false)
      late := if rest then none else some (o.backUp (s.backupMax x.part) o.cursor) })

/-- R189: the late check in fill mode. -/
def State.fillCheck (s : State) (n : Nat) (x : SessSt) : State :=
  let o := x.out
  match s.present n x o.cursor with
  | (none, s) => s.setOut n (fun o => { o with plan := some .fill })
  | (some _, s) =>
    let go := decide (cdiv x.lead 10 ≤ o.write - o.cursor) || o.seams.contains o.write
    s.setOut n (fun o => { o with plan := some (if go && ! x.barge then .crossfade else .fill) })

/-- LATE_CHECK (R188, R189): 2.5 ms before the next outbound tick. -/
def execLateCheck (n : Sess) (s : State) : Host.Outcome State Fault Refusal :=
  .next (match s.sess n.val with
    | none => s
    | some x =>
      let o := x.out
      s.when (o.plan.isNone && ! o.held && o.stop.isNone && ! o.ended && (s.part x.part).state == .running
          && o.newAlign.isNone && decide (x.outTick x.nextTick ≤ s.pll + 2000000)) (fun s =>
        if x.barge then s.setOut n.val (fun o => { o with plan := some .fill })
        else if o.mode = .play || o.mode = .crossfade then s.lateCheck n.val x
        else s.fillCheck n.val x))

/-- PLAYOUT_BLOCK_COMMIT (R181): the next 125 µs block is rendered, from 25 µs before its first sample. -/
def execPlayoutBlockCommit (n : Sess) (s : State) : Host.Outcome State Fault Refusal :=
  .next (s.withSess n.val (fun x =>
    let o := x.out
    let full := o.tick.isNone || decide (frameLen x.codec ≤ o.samples.length)
    let per := if x.codec = 0 then 2 else 1
    let start : Int := if full then x.outTick x.nextTick
      else x.outTick (o.tick.getD 0) + (o.samples.length / per * 100000 : Nat)
    s.when (! o.ended && s.start.trvLock && decide (start ≤ s.pll + 20000)) (fun s =>
      let s := if full then s.beginTick n.val x else s
      s.each (List.range per) (fun s _ =>
        match s.sessAny n.val with
        | some y => if y.out.ended then s else s.renderOne n.val
        | none => s))))

/-- R182: the samples of one quarter and the updated slot header go to the host playout ring. -/
def State.putQuarter (s : State) (x : SessSt) (tick qflags j : Nat) (samples : List Int) : State :=
  let q := frameLen x.codec / 4
  let a := x.outAddr + tick % x.outSlots * (16 + 2 * frameLen x.codec)
  let s := s.hostWrite x.part (a + 16 + j * q * 2) (sampleBytes ((samples.drop (j * q)).take q))
  s.hostWrite x.part a (leBytes 4 tick ++ leBytes 1 (j + 1) ++ leBytes 1 qflags ++ leBytes 2 0
    ++ leBytes 8 (x.outStamp tick))

/-- PLAYOUT_QUARTER_WRITE (R182): the oldest rendered quarter that is not yet written. -/
def execPlayoutQuarterWrite (n : Sess) (s : State) : Host.Outcome State Fault Refusal :=
  .next (s.withSess n.val (fun x =>
    let o := x.out
    let q := frameLen x.codec / 4
    match o.pendSlot with
    | some (t, fl, k, l) =>
      let s := s.putQuarter x t (fl % 2 ^ (2 * (k + 1))) k l
      let s := s.setOut n.val (fun o => { o with pendSlot := if k = 3 then none else some (t, fl, k + 1, l) })
      if k = 3 && x.shut && o.ended then s.dropSess n.val else s
    | none =>
      s.when (! o.ended && decide (o.quarters < 4) && decide ((o.quarters + 1) * q ≤ o.samples.length)) (fun s =>
        let s := s.putQuarter x (o.tick.getD 0) (o.qflags % 2 ^ (2 * (o.quarters + 1))) o.quarters o.samples
        s.setOut n.val (fun o => { o with quarters := o.quarters + 1 }))))

/-- SESSION_STATE_LOST (R192): GONE is set, unfinished steps report SESSION_GONE, SUB 2, and the error is logged. -/
def execSessionStateLost (n : Sess) (s : State) : Host.Outcome State Fault Refusal :=
  .next (match s.sess n.val with
    | none => s
    | some x =>
      let s := s.log 2 0x05 2 n.val (some x.part) (stGone 2).num
      (s.setGoneGate n.val 2).putHeader n.val)

end Sys2Proof.Machine
end

