-- ==== Sys2Proof/Machine/WholeOps.lean ====
section
/-! DEFINITION. What acts on the whole device: the orderly stop and the cut (R415, R416), the reset of every domain
outside Col, failed starts (R74), and the failure of a structure load (R111, R112). -/

namespace Sys2Proof.Machine

/-! ## The structure loader -/

/-- A load is in progress or staged (R113). -/
def LoaderSt.busy (l : LoaderSt) : Bool :=
  match l.state with
  | .idle | .committed | .failed | .released => false
  | _ => true

/-- STR_LOAD_STAT.STATE changes, and STR_LOAD_TIME records when. -/
def State.setLoader (s : State) (st : LoadState) : State := { s with loader := { s.loader with state := st, time := s.time } }

/-- R112: what the reply to a load carries: ERR, the failing frame's INDEX, and the STRUCT_ID once stage A has passed. -/
def State.loadFields (s : State) : List (Nat × List Byte) :=
  let l := s.loader
  [(0x08, leBytes 1 l.err), (0x0A, leBytes 2 (if 0x0B ≤ l.err ∧ l.err ≤ 0x10 then l.feIndex else 0)),
   (0x10, sliceB (l.staging.take 32) 0x10 16)]

/-- The reply to the load or the commit in execution (R112); a hint of an expected wait is a free value. -/
def State.loadReply (s : State) : State :=
  if s.loader.byHost then s.mbxDone (loadStatus s.loader.err) s.loadFields else s

/-- R110 to R112: a load ends with an ERR: it is recorded, logged and answered, and the staging slot is discarded. -/
def State.loadFail (s : State) (err : Nat) : State :=
  let s := ({ s with loader := { s.loader with err := err } } : State).setLoader .failed
  let s := s.log 1 0x03 1 (detailOf 0 (err + s.loader.feIndex * 256))
  let s := s.loadReply
  { s with loader := { s.loader with staged := none, staging := [], prepared := false } }

/-! ## The orderly stop (R415) -/

/-- The status that a stop gives what it ends: DEVICE_STOPPING, SUB 1 at a thermal shutdown (R414), 2 at a device-fatal
error (R430). -/
def StopCause.status : StopCause → Status
  | .thermal => stStopping 1
  | .fatal => stStopping 2
  | _ => stStopping 0

/-- The device runs: internal reset is not held, and no stop, failure or due start holds it. -/
def State.live (s : State) : Bool :=
  ! s.col.por && ! s.start.resetHeld && s.start.stop.isNone && s.start.failedAt.isNone && ! s.start.thermHold && ! s.start.due

/-- R87, R113: a Cairn program, a load and any other mailbox request in execution end with the stop. -/
def State.stopRequests (s : State) (st : Status) : State :=
  let s := match s.cairn.prog with
    | some pr => (s.progAbort 9).progReply pr.slot 9 st
    | none => s
  let s := if s.loader.busy then s.loadFail 0x26 else s
  s.mbxDone st

/-- R214, R240: the entries that run or wait stop; queued Spur commands and landed jobs are dropped. -/
def State.stopEntries (s : State) (st : Status) : State :=
  let s := s.each (s.items.filter (fun i => i.isEntry && i.fin.isNone)) (fun s i => s.stopEntry i st)
  let s := s.dropJobs (fun _ => true)
  s.each allParts (fun s p => (s.dropLanded p (fun _ => true)).setPart p (fun r => { r with sendRecs := [] }))

/-- R415, step 1: every open session's outbound stream ramps to silence; nothing further fires. -/
def State.stopSessions (s : State) : State :=
  s.each s.trv.sess (fun s e => s.setSess e.1 (fun x => { x with
    out := { (x.out.startRamp x.codec .silence) with held := true, plan := none, late := none, newAlign := none } }))

/-- R131, R138: the requests that wait to be taken, held or served are answered. -/
def State.stopWaits (s : State) (st : Status) : State :=
  s.each allParts (fun s p =>
    let r := s.part p
    let s := s.setPart p (fun r => { r with held := [], slotWait := [], arrivals := [] })
    s.each (r.slotWait.map (·.1) ++ r.held ++ r.arrivals) (fun s a => s.sendReply a st 0 [] none))

/-- R14, R415: one item's DEVICE_STOPPING outcome: its completion entry where the ring has room, its reply, or nothing
after a Function Level Reset. -/
def State.stopItem (s : State) (st : Status) (i : Item) : State :=
  let drop := fun (s : State) => ({ s with items := s.items.filter (fun j => j.id ≠ i.id) } : State)
  if i.discard then drop s
  else match i.kind with
    | .desc q .. => if s.cqRoom i.part q then s.descEntry i st else drop s
    | .step r =>
      match s.sessAny r.sess.val with
      | none => drop s
      | some x =>
        let s := if i.wrote then s else s.stepOutcome i r st
        if (s.queue i.part x.cq).en && s.cqRoom i.part x.cq then (s.stepHeader r).stepEntry i r x.cq st else drop s
    | .handoff .. => s.answerHandoff i st 0

/-- R415, step 2: sends in flight complete, items are written in order, and what is unsignalled is signalled. -/
def State.stopItems (s : State) (st : Status) : State :=
  let s := s.each s.sends (fun s r => s.sendDone r st 0 0 r.dstPart.val)
  let s := s.each s.items (fun s i => s.stopItem st i)
  s.each allParts (fun s p => s.each (List.finRange 8) (fun s q =>
    let r := s.queue p q
    if r.unsig = 0 then s else (s.setQueue p q (fun r => { r with unsig := 0 })).signalVf p r.vec))

/-- R332, R397: every ring goes to HOLD, and the KIND 2 snapshot is captured, unless calibration was in progress and none
has completed in this start. -/
def State.stopRings (s : State) (cause : StopCause) : State :=
  let busy := s.calBusy
  let s := { s with cal := { s.cal with full := none } }
  let s := s.each allPorts (fun s p => (s.setLink p (fun l => { l with slot := none })).setPort p (fun r => { r with
    cal := none, acq := [], rings := vmap (fun x => if x.mode = .track then x.enter .hold else x) r.rings }))
  if cause = .fatal ∨ (busy ∧ ! s.cal.fullDone) then s else s.captureStop

/-- R290: a stack drains its write queues, completes a band switch, writes its sentinels and enters self-refresh; Col
records it. A stack whose PLL is out of lock cannot. -/
def State.selfRefresh (s : State) (k : Stack) : State :=
  let x := s.stack k
  if x.pll && ! x.sr && x.lost.isNone then
    let band := match x.switching with | some (b, _) => b | none => x.band
    let s := s.each ((List.range 16).map (fun d => chanNo (16 * k.val + d))) (fun s c => s.setChan c (fun r =>
      { r with wrWait := 0, wrIssue := 0, rdOut := 0, drain := false, delay := s.delayEntry band.val c.val }))
    let s := s.setStack k (fun x => { x with
      band := band, switching := none, sentinel := some (s.col.serial, s.time), sentinelBad := false, sr := true, pll := false })
    { s with col := { s.col with srRec := upd s.col.srRec k (some { time := s.time, band := band.val }) } }
  else s

/-- R415, steps 1 to 3, as one step: firing stops, the links drain, and the stacks enter self-refresh. -/
def State.stopSteps (s : State) (cause : StopCause) : State :=
  let st := cause.status
  let s := (s.stopRequests st).stopEntries st
  let s := ((s.stopSessions).stopWaits st).stopItems st
  let s := s.stopRings cause
  if s.start.phase = .safe then s else s.each allStacks State.selfRefresh

/-- R63, R74, R414, R430: PHASE is FAILED after a failed start, a device-fatal error or a thermal shutdown, else
STOPPING. -/
def StopCause.phase : StopCause → Phase
  | .failedStart | .fatal | .thermal => .failed
  | _ => .stopping

/-- R34, R36, R39, R63, R74, R413, R430: an orderly stop begins, unless one already runs or nothing does. -/
def State.orderlyStop (s : State) (cause : StopCause) : State :=
  if s.live then
    let s := s.stopSteps cause
    let s := { s with start := { s.start with stop := some cause } }
    s.setPhase cause.phase
  else s

/-! ## The cut (R415, step 4; R416) -/

/-- LSR_ state that survives: the latches, the switch, the cartridge's contents, and the lasers as they stand. -/
def LaserBlk.kept (l : LaserBlk) : LaserBlk :=
  { LaserBlk.reset with
    trip := l.trip, intlk := l.intlk, seqErr := l.seqErr, clrRefused := l.clrRefused, tripTime := l.tripTime
    intlkLow := l.intlkLow, intlkRel := l.intlkRel, latchOpen := l.latchOpen, seatedAt := l.seatedAt, vddOn := l.vddOn
    vddOffAt := l.vddOffAt, lasers := l.lasers, eeprom := l.eeprom, sigOk := l.sigOk, elemSeq := l.elemSeq
    elemMin := l.elemMin, elemOut := l.elemOut }

/-- R293: the DMC_ state after a stop: the bytes with their poison and flaws, self-refresh and its sentinels, and the time
of the last scrub pass. -/
def DramSt.kept (d : DramSt) : DramSt :=
  { DramSt.reset with
    scrubTime := d.scrubTime, mem := d.mem, poison := d.poison, flaws := d.flaws
    stk := vmap (fun (x : StackSt) => { StackSt.reset with sr := x.sr, sentinel := x.sentinel, sentinelBad := x.sentinelBad }) d.stk }

/-- R443: the ring of the log, its counts of LSEQ and of entries lost, and the fatal record. -/
def RasSt.kept (r : RasSt) : RasSt :=
  { RasSt.reset with
    unread := r.unread, next := r.next, overwritten := r.overwritten, fatal := r.fatal, fatalValid := r.fatalValid }

/-- R421: THM_SHUT and its time, in Col, and the pin. -/
def ThmSt.kept (t : ThmSt) : ThmSt :=
  { ThmSt.reset with
    shKind := t.shKind, shSel := t.shSel, shRate := t.shRate, shTemp := t.shTemp, shTime := t.shTime, alert := t.alert }

/-- R60, R72, R138, R169, R293, R332, R363, R404, R421, R443: every domain outside Col is reset; what Col keeps, the
non-volatile stores and the environment stay. -/
def State.domainReset (s : State) : State :=
  let r := State.reset
  { s with
    start := { s.start with sysLock := false, trvLock := false }
    quads := r.quads
    cairn := { s.cairn with rdWord := 0, rdData := 0, rdClass := .blank, rdValid := false, rdRefused := false }
    lockLoss := 0, loader := r.loader, committed := false, str := r.str
    parts := vmap (fun (p : PartRt) => { PartRt.reset with qtime := p.qtime }) s.parts
    vfs := r.vfs, turns := r.turns, mbx := r.mbx, pfMsix := r.pfMsix, items := [], sends := [], dram := s.dram.kept
    ras := s.ras.kept, trv := r.trv, crest := r.crest, cornice := r.cornice, spur := r.spur, ports := r.ports
    links := r.links, linkHoldMs := r.linkHoldMs, replyMs := r.replyMs, pmsg := r.pmsg, laser := s.laser.kept
    cal := { CalSt.reset with sealed := s.cal.sealed, snap := s.cal.snap, flashAt := s.cal.flashAt }
    thm := s.thm.kept, bus := { s.bus with held := [], latch := [] } }

/-- R63, R66: every lit laser that is usable goes to idle bias. -/
def State.lasersIdle (s : State) : State :=
  let s := s.each allLasers (fun s n => if (s.las n).st.lit && s.usable n then s.laserTo n .idle (s.idleCode n) else s)
  { s with laser := { s.laser with warmAt := none, settled := false } }

/-- R415, step 4: the lasers go off, or at a restart to idle bias while the gate is open; every domain outside Col loses
its power and its state. -/
def State.cut (s : State) (restart : Bool) : State :=
  let lit := allLasers.any (fun n => (s.las n).st.lit && s.usable n)
  let s := if restart && s.gateOpen && lit then
      let s := s.lasersIdle
      { s with col := { s.col with idleHeld := true } }
    else s.lasersDark
  s.domainReset

/-- R61, R63: a start is due, with the KIND of the restart request that it follows, 0 for none: the start registers are
cleared; KIND 0b11 first clears ATTEMPTS, SAFE and CAUSE. -/
def State.startDue (s : State) (k : Fin 4) : State :=
  let s := { s with
    start := { s.start with
      due := true, reqKind := k, kind := 0, failedAt := none, begun := s.now, structNone := false, fwFallback := false
      optDown := false, notTaken := rep 5 false, skipped := rep 5 false, done := rep 5 false, reason := rep 5 0
      opticsDone := false, cause := if k = 3 then 0 else s.start.cause }
    col := { s.col with attempts := if k = 3 then 0 else s.col.attempts, safe := decide (k ≠ 3) && s.col.safe } }
  s.setPhase .rom

/-- What follows a stop: internal reset is held (R34, R35, R36, R39, R414), a start is due (R63), or a retry waits
(R74). -/
def State.stopEnd (s : State) (cause : StopCause) : State :=
  let held := ! s.pins.pwrGood || s.start.resetPend || s.start.uvHold || s.start.resetHeld || s.col.xtalBad
    || (match cause with | .pwrGood | .resetN | .crystal | .thermal => true | _ => false)
  let s := { s with start := { s.start with
    stop := none, resetPend := false, resetHeld := held, due := false, failedAt := none
    thermHold := s.start.thermHold || decide (cause = StopCause.thermal) } }
  let s := if held then s else match cause with
    | .restart k => s.startDue k
    | _ => { s with start := { s.start with failedAt := some s.now } }
  s.alertNow

/-- R416: a cut at once: no completion, no snapshot, and no stack recorded in self-refresh. -/
def State.cutNow (s : State) (cause : StopCause) : State :=
  let s := match s.cairn.prog with | some _ => s.progAbort 9 | none => s
  let s := { s with col := { s.col with srRec := rep 8 none } }
  ((s.cut false).setPhase cause.phase).stopEnd cause

/-! ## A failed start (R74) -/

/-- R74: MBX_START_PHASE.CAUSE. -/
def State.setCause (s : State) (c : Nat) : State := { s with start := { s.start with cause := c } }

/-- R74: a start fails: the cause is recorded and the orderly stop runs. -/
def State.failStart (s : State) (c : Nat) : State := (s.setCause c).orderlyStop .failedStart

/-- CLK_SYS_STAT.LOCK_LOSS_CNT. -/
def State.countLock (s : State) : State := { s with lockLoss := satAdd s.lockLoss 1 255 }

/-- R430: a device-fatal error while the system PLL is locked: cause 0x05 and the orderly stop; a stop in progress goes
on. -/
def State.deviceFatal (s : State) : State := if s.live then (s.setCause 5).orderlyStop .fatal else s

/-- R429: a detection that wrote a fatal record is device-fatal. -/
def State.fatalSince (s : State) (old : State) : State := if s.ras.fatal = old.ras.fatal then s else s.deviceFatal

end Sys2Proof.Machine
end

