-- ==== Sys2Proof/Machine/Dram.lean ====
section
/-! DEFINITION. The DRAM controller's events: refresh, write drain, bands, scrub, self-refresh exit and relocks (R276 to
R293). -/

namespace Sys2Proof.Machine

/-- The channels of a stack, ascending. -/
def stackChans (k : Stack) : List Chan := (List.range 16).map (fun d => chanNo (16 * k.val + d))
/-- The groups of a channel's die. -/
def chanGroups (c : Chan) : List Group := (List.range 4).map (fun i => grp (4 * c.val + i))
/-- The groups of a stack. -/
def stackGroups (k : Stack) : List Group := (stackChans k).flatMap chanGroups

/-! ## Refresh (R281, R282) -/

/-- R282: the owed count of a group changes by one, within −4 to 5. -/
def State.owe (s : State) (g : Group) (d : Int) : State :=
  { s with dram := { s.dram with owed := updWith s.dram.owed g (fun n => max (-4) (min 5 (n + d))) } }

/-- REFRESH_DUE (R281): a refresh of a group falls due. -/
def execRefreshDue (g : Group) (s : State) : Host.Outcome State Fault Refusal :=
  let k := stackOfGroup g
  .next (s.when (s.stackUp k) (fun s =>
    let s := s.owe g 1
    s.setStack k (fun x => { x with maxOwed := max x.maxOwed (tget s.dram.owed g).toNat })))

/-- R282: the channel of a group has no work of class 1 to 5. -/
def State.chanQuiet (s : State) (c : Chan) : Bool :=
  (s.spurQ c).isEmpty && (s.chan c).wrWait == 0 && (s.chan c).rdOut == 0

/-- GROUP_REFRESH (R282): a group that is not firing is refreshed; ahead of time only while its channel is quiet. -/
def execGroupRefresh (g : Group) (s : State) : Host.Outcome State Fault Refusal :=
  let n := tget s.dram.owed g
  .next (s.when (s.stackUp (stackOfGroup g) && (s.group g).fire.isNone && decide (-4 < n)
      && (decide (0 < n) || s.chanQuiet (chanOfGroup g))) (fun s => s.owe g (-1)))

/-! ## Write queues (R277, R279) -/

/-- WRITE_DRAIN_TIMEOUT (R279): the oldest waiting write of a channel has waited 20 µs: the channel enters drain mode. -/
def execWriteDrainTimeout (c : Chan) (s : State) : Host.Outcome State Fault Refusal :=
  .next (s.when (decide (0 < (s.chan c).wrWait) && s.past (s.chan c).wrOldest (usCyc 20)) (fun s =>
    s.setChan c (fun x => { x with drain := true })))

/-! ## Bands (R283 to R285) -/

/-- R284: the band that a temperature in °C selects from a band in use; `hyst` is 3, or 0 at a self-refresh exit. -/
def State.bandStep (s : State) (hyst : Int) (t : Int) : Nat → Nat → Nat
  | 0, b => b
  | n + 1, b =>
    if b < 4 ∧ (s.bandBound b : Int) ≤ t then s.bandStep hyst t n (b + 1)
    else if 0 < b ∧ t < (s.bandBound (b - 1) : Int) - hyst then s.bandStep hyst t n (b - 1)
    else b

/-- R284: the band of a measurement, from the band in use. -/
def State.bandFor (s : State) (b : Nat) (t : Int) : Nat := s.bandStep 3 t 4 b

/-- R291: the band of a measurement with no hysteresis. -/
def State.bandAt (s : State) (t : Int) : Fin 5 :=
  ⟨((List.range 4).filter (fun i => decide ((s.bandBound i : Int) ≤ t))).length % 5, Nat.mod_lt _ (by decide)⟩

/-- BAND_SWITCH (R284, R285): firmware requests the band that the stack's measurement selects, and writes its delays into
the shadow. -/
def execBandSwitch (k : Stack) (band : Fin 5) (s : State) : Host.Outcome State Fault Refusal :=
  let x := s.stack k
  .next (s.when (s.stackUp k && x.switching.isNone && s.start.stop.isNone && decide (x.band ≠ band)
      && decide (s.bandFor x.band.val x.temp = band.val)) (fun s =>
    let s := s.each (stackChans k) (fun s c => s.setChan c (fun r => { r with shadow := s.delayEntry band.val c.val }))
    s.setStack k (fun x => { x with switching := some (band, 0) })))

/-- BAND_SWITCH_WINDOW (R285): the window of the stack's next channel, once its fires and reads have ended: an all-bank
refresh, the shadow delays, and after the last channel the new band. -/
def execBandSwitchWindow (k : Stack) (s : State) : Host.Outcome State Fault Refusal :=
  .next (match (s.stack k).switching with
    | none => s
    | some (b, i) =>
      let c := chanNo (16 * k.val + i.val)
      s.when (s.stackUp k && (chanGroups c).all (fun g => (s.group g).fire.isNone) && (s.chan c).rdOut == 0) (fun s =>
        let s := s.each (chanGroups c) (fun s g => s.owe g (-1))
        let s := s.setChan c (fun r => { r with delay := r.shadow })
        s.setStack k (fun x =>
          if i.val + 1 < 16 then { x with switching := some (b, ⟨(i.val + 1) % 17, Nat.mod_lt _ (by decide)⟩) }
          else { x with switching := none, band := b })))

/-! ## Scrub (R289) -/

/-- R289: one column: corrected words are written back, an uncorrectable column takes the poison pattern, a poisoned
column stays. -/
def State.scrubCol (s : State) (loc : Nat) : State :=
  let fl := s.colFlaws loc
  if s.colPoison loc ≠ 0 then s
  else if flawed fl then ((s.ueFound loc 1 none none).setColPoison loc 0xB).clearFlaws loc
  else
    let n := (fl.filter (· == .ce)).length
    if n = 0 then s
    else (s.clearFlaws loc).setChan (chanOf loc) (fun c => { c with scrubFix := satAdd c.scrubFix n 0xFFFF })

/-- SCRUB_STEP (R289): the next 1 KiB of a channel, once its bank's group is not firing. -/
def execScrubStep (c : Chan) (s : State) : Host.Outcome State Fault Refusal :=
  let x := s.chan c
  let g := grp (4 * c.val + x.scrubPos % 128 / 32)
  .next (s.when (s.dram.scrubEn && s.stackUp (stackNo (c.val / 16)) && (s.group g).fire.isNone && ! x.scrubDone
      && s.start.stop.isNone) (fun s =>
    let base := c.val * 2 ^ 31 + x.scrubPos * 1024
    let old := s
    let s := s.each (List.range 32) (fun s i => s.scrubCol (base + 32 * i))
    let last := decide (x.scrubPos + 1 = 2 ^ 21)
    let s := s.setChan c (fun r => { r with scrubPos := if last then 0 else r.scrubPos + 1, scrubDone := last })
    let s := if s.dram.chans.toList.all (fun r => r.scrubDone) then
        { s with dram := { s.dram with scrubTime := s.time, chans := vmap (fun r => { r with scrubDone := false }) s.dram.chans } }
      else s
    s.fatalSince old))

/-! ## Self-refresh exit (R291) -/

/-- R291, steps 1 to 3 and 5: the stack's band and delays are loaded, its owed counts are 0, and its record is cleared;
`keep` is the band used when the sensor reads FAULT. -/
def State.stackBack (s : State) (k : Stack) (temp : Option Int) (keep : Fin 5) : State :=
  let b := match temp with | some t => s.bandAt (t / 16) | none => keep
  let s := s.each (stackChans k) (fun s c => s.setChan c (fun r => { r with delay := s.delayEntry b.val c.val }))
  let s := s.each (stackGroups k) (fun s g => { s with dram := { s.dram with owed := upd s.dram.owed g 0 } })
  let s := s.setStack k (fun x => { x with
    sr := false, pll := true, lost := none, band := b, temp := match temp with | some t => t / 16 | none => x.temp })
  { s with col := { s.col with srRec := upd s.col.srRec k none } }

/-- The band recorded at self-refresh entry. -/
def State.recBand (s : State) (k : Stack) : Fin 5 :=
  match tget s.col.srRec k with | some r => ⟨r.band % 5, Nat.mod_lt _ (by decide)⟩ | none => 0

/-- R291, step 4: the sentinels of a stack read as recorded. -/
def State.sentinelOk (s : State) (k : Stack) : Bool :=
  match tget s.col.srRec k, (s.stack k).sentinel with
  | some r, some (serial, t) => serial == s.col.serial && t == r.time && ! (s.stack k).sentinelBad
  | _, _ => false

/-- R291: one stack leaves self-refresh; `true` when its sentinels are right. -/
def State.stackExit (s : State) (k : Stack) (temp : Option Int) : State × Bool :=
  let ok := s.sentinelOk k
  let s := s.stackBack k temp (s.recBand k)
  if ok then (s, true) else (s.log 3 0x09 5 (detailOf k.val 0), false)

/-- SELF_REFRESH_EXIT (R291): in a warm start, a stack leaves self-refresh; a wrong sentinel ends the start with cause
0x03. -/
def execSelfRefreshExit (k : Stack) (temp : Option Int) (s : State) : Host.Outcome State Fault Refusal :=
  .next (s.when ((s.stack k).sr && s.start.phase == .bringUp && s.start.kind == 2 && s.start.stop.isNone) (fun s =>
    let (s, ok) := s.stackExit k temp
    if ok then s.logFlush else s.failStart 3))

/-! ## DRAM interface PLLs (R292) -/

/-- R292: a fire in progress on a group ends and is issued again once the stack is back. -/
def State.refire (s : State) (g : Group) : State :=
  match (s.group g).fire with
  | none => s
  | some f =>
    let c := chanOfGroup g
    let s := s.setGroup g (fun x => { x with fire := none, lastUse := s.now })
    let s := if (s.job f.job).isSome then s.setSpurQ c (.fire (g.val % 4) f.job :: s.spurQ c) else s
    s.settleLedger (stackOfGroup g)

/-- DRAM_PLL_LOCK_LOST (R292): the stack's dies enter self-refresh by themselves; accesses are held, fires end, and a band
switch is abandoned. -/
def execDramPllLockLost (k : Stack) (s : State) : Host.Outcome State Fault Refusal :=
  .next (s.when ((s.stack k).pll && (s.stack k).lost.isNone) (fun s =>
    let s := s.countLock.setStack k (fun x => { x with
      pll := false, lost := some 0, switching := none, relocks := satAdd x.relocks 1 255 })
    let s := s.log 0 0x09 3 (detailOf k.val 0)
    s.each (stackGroups k) State.refire))

/-- DRAM_PLL_RELOCK_DONE (R292): a relock attempt ends; when the PLL is locked the stack leaves self-refresh without the
sentinel comparison; the third failure is device-fatal. -/
def execDramPllRelockDone (k : Stack) (ok : Bool) (temp : Option Int) (s : State) : Host.Outcome State Fault Refusal :=
  .next (match (s.stack k).lost with
    | none => s
    | some n =>
      if ok then (s.stackBack k temp (s.stack k).band).logFlush
      else if n + 1 < 3 then s.setStack k (fun x => { x with lost := some (n + 1) })
      else
        let s := s.setStack k (fun x => { x with lost := some 3 })
        (s.log 3 0x09 4 (detailOf k.val 0)).deviceFatal)

end Sys2Proof.Machine
end

