-- ==== Sys2Proof/Machine/Host.lean ====
section
/-! DEFINITION. Rings, descriptors and completions, function resets, and BAR 2 (R143 to R169, R426). -/

namespace Sys2Proof.Machine

/-- R141: the virtual function of a partition exists. -/
def State.vfExists (s : State) (p : Part) : Bool := decide (p.val < s.numVfs)

/-- The device serves virtual functions: the phase is READY or READY_EMPTY and no stop runs (R65). -/
def State.vfUp (s : State) (p : Part) : Bool := s.vfExists p && s.isReady && s.start.stop.isNone

/-! ## Doorbells (R133, R145, R169) -/

/-- R145, R169: a doorbell: discarded and counted unless the partition runs; an absent queue or a value out of range is a
queue error; else `f` takes the index. -/
def State.doorbell (s : State) (p : Part) (q : Queue) (v : Nat) (f : QueueSt → Nat → QueueSt) : State :=
  if ! s.vfUp p then s
  else if (s.part p).state ≠ .running then s.discarded p 1
  else if s.queuesOf p ≤ q.val then s.queueError p
  else if s.ringSize p ≤ v then (s.setQueue p q (fun r => { r with dbErr := true })).queueError p
  else s.setQueue p q (fun r => f r v)

/-- SQ_DOORBELL (R145): a write of VFP_SQ_TAIL. -/
def execSqDoorbell (p : Part) (q : Queue) (val : W32) (s : State) : Host.Outcome State Fault Refusal :=
  .next (s.doorbell p q (fld val.toNat 11 0) (fun r v => { r with sqTail := v }))

/-- CQ_DOORBELL (R145): a write of VFP_CQ_HEAD. -/
def execCqDoorbell (p : Part) (q : Queue) (val : W32) (s : State) : Host.Outcome State Fault Refusal :=
  .next (s.doorbell p q (fld val.toNat 11 0) (fun r v => { r with cqHead := v }))

/-! ## VFP_Q_CTRL (R144, R149, R426) -/

/-- R144: a write of VFP_Q_CTRL: enabling an idle queue sets its heads and tails to 0 and its phase to 1; disabling it ends
an abandon run; COAL_TIME 0 is ignored. A queue not below QUEUES does not exist. -/
def State.qCtrlWrite (s : State) (p : Part) (q : Queue) (v : Nat) : State :=
  if ! s.vfUp p || (s.part p).state == .undefined || decide (s.queuesOf p ≤ q.val) then s
  else
    let idle := s.queueIdle p q
    s.setQueue p q (fun r =>
      let r := { r with
        coalTime := if fld v 31 24 = 0 then r.coalTime else fld v 31 24, coalCnt := fld v 23 16
        vec := ⟨fld v 11 8 % 16, Nat.mod_lt _ (by decide)⟩ }
      if bitAt v 0 then
        if r.en || ! idle then r
        else { r with en := true, sqHead := 0, sqTail := 0, cqHead := 0, cqTail := 0, phase := true, unsig := 0 }
      else { r with en := false, inRun := false })

/-- QUEUE_ENABLE (R144): a write of VFP_Q_CTRL with EN 1. -/
def execQueueEnable (p : Part) (q : Queue) (val : W32) (s : State) : Host.Outcome State Fault Refusal :=
  .next (s.when (bitAt val.toNat 0) (fun s => s.qCtrlWrite p q val.toNat))

/-- QUEUE_DISABLE (R169): a write of VFP_Q_CTRL with EN 0. -/
def execQueueDisable (p : Part) (q : Queue) (val : W32) (s : State) : Host.Outcome State Fault Refusal :=
  .next (s.when (! bitAt val.toNat 0) (fun s => s.qCtrlWrite p q val.toNat))

/-! ## Fetch (R146, R150, R168) -/

/-- R146: the ring served next: the first enabled ring with a descriptor, in ascending number after the last served. -/
def State.nextRing (s : State) (p : Part) : Option Queue :=
  ((List.range 8).map (fun i => (⟨((s.vf p).rr.val + 1 + i) % 8, Nat.mod_lt _ (by decide)⟩ : Queue))).find? (fun q =>
    let r := s.queue p q
    r.en && decide (r.sqHead ≠ r.sqTail) && decide (q.val < s.queuesOf p))

/-- R119, R146: a slot is free for a tenant descriptor. -/
def State.slotFor (s : State) (p : Part) : Bool :=
  decide (s.slotsUsed p < 64)
    && decide ((s.items.filter (fun i => i.isDescOf p && i.slot)).length < 64 - (s.vf p).stepReserve)

/-- R153: a RUN that names a quad the partition does not own, or an entry its images lack, is malformed. -/
def State.bodyOk (s : State) (p : Part) : Body → Bool
  | .run entry quads .. =>
    let own := s.ownQuads p
    allQuads.all (fun q => ! bitAt quads q.val || bitAt own q.val)
      && allQuads.any (fun q => bitAt own q.val && decide (entry < kEntries (s.kernelImg p q)))
  | _ => true

/-- A descriptor body that sends under a REPLY_TAG. -/
def sendsTag (v : Nat) : Body → Bool
  | .msgSend _ _ _ _ _ _ _ tag _ _ => tag == v
  | _ => false

/-- R154: whether a fence's condition holds. A MSG_SEND fetched before the fence and not yet handed on counts as a send
that awaits its reply (log 57). -/
def State.fenceHolds (s : State) (i : Item) : Bool :=
  match i.body with
  | .fence 0 qmask _ _ =>
    (List.finRange 8).all (fun q => ! bitAt qmask q.val || ! s.items.any (fun j => j.onRing i.part q && decide (j.id < i.id)))
  | .fence 1 _ _ v =>
    ! s.sends.any (fun r => r.part == i.part && r.tag == some v)
      && ! s.items.any (fun j => j.part == i.part && decide (j.id < i.id) && j.fin.isNone && sendsTag v j.body)
  | .fence _ _ _ v =>
    match s.sess i.sessNo with
    | none => true
    | some x =>
      let d := fun (n : Nat) => (n + 2 ^ 32 - x.firstSeq) % 2 ^ 32
      x.steps.any (fun h => h.written && decide (d v ≤ d h.seq) && ! (s.stepsOf i.sessNo).any (fun e => e.2.seq == h.seq))
  | _ => false

/-- R150 to R156, R426: what the fetch itself decides of a descriptor: it is flushed by an abandon run, malformed, or
refused for its completion ring; a NOP has begun; a fence notes whether its condition holds. -/
def State.fetched (s : State) (id : Nat) (q : Queue) (hdrOk : Bool) : State :=
  s.withItem id (fun i =>
    let r := s.queue i.part q
    let barrier := match i.kind with | .desc _ _ b _ _ _ _ => b | _ => false
    if r.inRun ∧ ! barrier then s.finish id stAbandoned
    else
      let s := if r.inRun then s.setQueue i.part q (fun r => { r with inRun := false }) else s
      if ! hdrOk || i.body == .malformed || ! s.bodyOk i.part i.body then s.finish id (stRefused 4)
      else match i.body with
        | .sessionOpen _ cq .. =>
          if (s.queue i.part ⟨cq % 8, Nat.mod_lt _ (by decide)⟩).en then s else s.finish id (stRefused 7)
        | .nop => s.setItem id (fun j => { j with begun := true })
        | .fence .. => if s.fenceHolds i then s.setItem id (fun j => { j with result := 1 }) else s
        | _ => s)

/-- DESCRIPTOR_FETCH (R146, R168): the descriptor at the head of the next ring takes a slot; a fetch that fails leaves a
POISONED, SUB 2 entry at its place and disables the queue. -/
def execDescriptorFetch (p : Part) (bad : Bool) (s : State) : Host.Outcome State Fault Refusal :=
  .next (s.when (s.vfUp p && (s.part p).state == .running && (s.vf p).bme && s.slotFor p) (fun s =>
    match s.nextRing p with
    | none => s
    | some q =>
      let r := s.queue p q
      let id := s.nextItem
      let s := s.setVf p (fun v => { v with rr := q })
      if bad then
        let s := s.addItem p (.desc q r.sqHead false false 0 0 .fetchFailed) true
        let s := s.finish id (stPoisoned 2)
        let s := s.setQueue p q (fun r => { r with fetchErr := true, en := false })
        (s.log 1 0x04 1 (detailOf q.val 0) (some p)).queueError p
      else
        let bs := s.hostRead (r.sqBase + 64 * r.sqHead) 64
        let h := descHdr bs
        let s := s.setQueue p q (fun r => { r with sqHead := (r.sqHead + 1) % s.ringSize p })
        let s := s.addItem p (.desc q r.sqHead h.barrier h.intr h.tag h.sess (descBody (s.queuesOf p) bs)) true
        s.fetched id q h.ok))

/-! ## Descriptors (R151 to R154) -/

/-- NOP (R151). -/
def execNop (id : Nat) (s : State) : Host.Outcome State Fault Refusal :=
  .next (s.withItem id (fun i => s.when (i.body == .nop && i.fin.isNone && s.mayStart i) (fun s => s.finish id stOk)))

/-- R152: the ranges of a COPY lie in the tenant part of the window. -/
def copyOk (c : PartCfg) (dir src dst len : Nat) : Bool :=
  (decide (dir = 0) || tenantRange c src len) && (decide (dir = 1) || tenantRange c dst len)

/-- COPY (R126, R152): the descriptor is checked and its first read is issued; `bad`: a host read of the source failed. -/
def execCopy (id : Nat) (bad : Bool) (s : State) : Host.Outcome State Fault Refusal :=
  .next (s.withItem id (fun i =>
    match i.body, s.cfg i.part with
    | .copy dir src dst len, some c =>
      s.when (s.ready i && (decide (dir = 2) || (s.vf i.part).bme)) (fun s =>
        if ! copyOk c dir src dst len then s.finish id (stRefused 3)
        else if dir = 0 ∧ bad then s.finish id (stPoisoned 1)
        else s.setItem id (fun j => { j with begun := true }))
    | _, _ => s))

/-- R287: bytes of a window with the poison of the column each lies in. -/
def State.winReadMarked (s : State) (p : Part) (o n : Nat) : List (Byte × Nat) × State :=
  (columns o n).foldl (fun (acc : List (Byte × Nat) × State) (col : Nat × Nat × Nat) =>
    let (bs, pz, t) := acc.2.winRead p (col.1 + col.2.1) col.2.2
    (acc.1 ++ bs.map (fun b => (b, pz)), t)) ([], s)

/-- R287, R288: bytes written to a window; each column takes the first poison among the bytes it receives. -/
def State.winWriteMarked (s : State) (p : Part) (o : Nat) (l : List (Byte × Nat)) : State :=
  s.each (columns o l.length) (fun s (col : Nat × Nat × Nat) =>
    let a := col.1 + col.2.1
    let part := (l.drop (a - o)).take col.2.2
    s.winWrite p a (part.map (·.1)) ((part.find? (fun b => b.2 ≠ 0)).map (·.2) |>.getD 0))

/-- COPY_DONE (R151, R152, R251): the bytes of a COPY that has begun are moved, the source read whole first; 128 bytes that
land on a job or send slot start what they record. -/
def execCopyDone (id : Nat) (s : State) : Host.Outcome State Fault Refusal :=
  .next (s.withItem id (fun i =>
    match i.body, s.cfg i.part with
    | .copy dir src dst len, some _ =>
      s.when (i.begun && i.fin.isNone && (decide (dir = 2) || (s.vf i.part).bme)) (fun s =>
        let (l, s') := if dir = 0 then ((s.hostRead src len).map (fun b => (b, 0)), s) else s.winReadMarked i.part src len
        let bs := l.map (·.1)
        let pz := ((l.find? (fun b => b.2 ≠ 0)).map (·.2)).getD 0
        if dir ≠ 1 ∧ s.landFull i.part dst bs then s
        else
          let s := s'
          let s := if dir = 1 then s.hostWrite i.part dst bs
            else (s.winWriteMarked i.part dst l).landing i.part dst bs none
          s.finish id (if pz = 0 then stOk else stPoisoned pz) len)
    | _, _ => s))

/-- RUN (R126, R153, R208, R436): the entry is placed on the quads that take part in it. -/
def execRun (id : Nat) (s : State) : Host.Outcome State Fault Refusal :=
  .next (s.withItem id (fun i =>
    match i.body, s.cfg i.part with
    | .run entry quads argLen arg out outMax _, some c =>
      s.when (s.ready i && decide (i.waitQ = 0) && decide (i.runQ = 0)) (fun s =>
        if ! (tenantRange c arg argLen && tenantRange c out outMax) then s.finish id (stRefused 3)
        else
          let named := if quads = 0 then c.quads else quads
          let s := s.placeEntry id i.part entry named named
          s.withItem id (fun j => if j.fin.isNone ∧ j.waitQ = 0 then s.markFirst id else s))
    | _, _ => s))

/-- RUN_LIMIT_EXPIRY (R153): a RUN reaches LIMIT_US after its first operation. -/
def execRunLimitExpiry (id : Nat) (s : State) : Host.Outcome State Fault Refusal :=
  .next (s.withItem id (fun i =>
    match i.body, i.firstOp with
    | .run .., some t => s.when (i.fin.isNone && decide (i.runQ ≠ 0) && s.past t i.limit) (fun s => s.askStop id (stTimeout 2))
    | _, _ => s))

/-- FENCE (R154): a fence starts; one whose condition held at its fetch completes with RESULT 1, another waits. -/
def execFence (id : Nat) (s : State) : Host.Outcome State Fault Refusal :=
  .next (s.withItem id (fun i =>
    match i.body with
    | .fence .. => s.when (s.ready i && decide (i.result = 1)) (fun s => s.finish id stOk 1)
    | _ => s))

/-- FENCE_SATISFIED (R154): the condition of a waiting fence holds. -/
def execFenceSatisfied (id : Nat) (s : State) : Host.Outcome State Fault Refusal :=
  .next (s.withItem id (fun i =>
    match i.body with
    | .fence .. => s.when (s.ready i && decide (i.result = 0) && s.fenceHolds i) (fun s => s.finish id stOk 0)
    | _ => s))

/-- FENCE_TIMEOUT (R154): a fence has waited LIMIT_MS since its fetch. -/
def execFenceTimeout (id : Nat) (s : State) : Host.Outcome State Fault Refusal :=
  .next (s.withItem id (fun i =>
    match i.body with
    | .fence _ _ ms _ => s.when (s.ready i && decide (i.result = 0) && ! s.fenceHolds i && s.past i.at_ (msCyc ms)) (fun s =>
        s.finish id (stTimeout 3))
    | _ => s))

/-! ## Completions (R147 to R149) -/

/-- COMPLETION_WRITE (R147, R165, R423): the record of a finished descriptor or hand-off is written once every earlier
record of its stream is, and its slot is released. -/
def execCompletionWrite (id : Nat) (s : State) : Host.Outcome State Fault Refusal :=
  .next (s.withItem id (fun i =>
    match i.fin, i.kind with
    | some st, .desc q .. =>
      if i.discard then ({ s with items := s.items.filter (fun j => j.id ≠ id) } : State).grantSlots i.part
      else s.when (! s.items.any (fun j => j.onRing i.part q && decide (j.id < id)) && (s.vf i.part).bme && s.cqRoom i.part q)
        (fun s => (s.descEntry i st).grantSlots i.part)
    | some st, .handoff .. => s.answerHandoff i st i.hint
    | _, _ => s))

/-- COALESCE_TIMEOUT (R149): COAL_TIME has passed since the oldest unsignalled entry. -/
def execCoalesceTimeout (p : Part) (q : Queue) (s : State) : Host.Outcome State Fault Refusal :=
  let r := s.queue p q
  .next (s.when (decide (0 < r.unsig) && s.past r.oldest (usCyc (10 * r.coalTime))) (fun s =>
    (s.setQueue p q (fun r => { r with unsig := 0 })).signalVf p r.vec))

/-! ## Function resets (R165, R166) -/

/-- VF_FLR (R165): a Function Level Reset of a partition's function: its queues and registers are reset, its sessions
close, and the records of its items and of its replies are discarded. -/
def execVfFlr (p : Part) (s : State) : Host.Outcome State Fault Refusal :=
  .next (s.when (s.vfExists p && ! s.col.por) (fun s =>
    let s := { s with
      items := s.items.map (fun (i : Item) => match i.kind with
        | .handoff .. => i
        | _ => if i.part = p then { i with discard := true } else i)
      sends := s.sends.map (fun (r : SendRec) => if r.part = p then { r with hostRec := none, evt := false, tag := none } else r) }
    let s := s.setVf p (fun _ => Vf.reset)
    s.each (s.trv.sess.filter (fun e => e.2.part == p && ! e.2.shut && e.2.closing.isNone)) (fun s e =>
      (s.setSess e.1 (fun x => { x with goneReq := ! x.gone, goneSub := 1, closing := some none })).closeIfDone e.1)))

/-- VF_BUS_MASTER_OFF (R165): the function may not write host memory; records, frames and messages wait. -/
def execVfBusMasterOff (p : Part) (_d3 : Bool) (s : State) : Host.Outcome State Fault Refusal :=
  .next (s.when (s.vfExists p) (fun s => s.setVf p (fun v => { v with bme := false })))

/-- VF_BUS_MASTER_ON (R165): what waited is written, in order. -/
def execVfBusMasterOn (p : Part) (s : State) : Host.Outcome State Fault Refusal :=
  .next (s.when (s.vfExists p) (fun s =>
    let w := (s.vf p).waiting
    let s := s.setVf p (fun v => { v with bme := true, waiting := [] })
    s.each w (fun s x => match x with
      | .bytes a bs => s.hostWritePf a bs
      | .msix v => s.signalVf p ⟨v % 16, Nat.mod_lt _ (by decide)⟩)))

/-- R166: the mailbox rings alone are reset. -/
def State.mbxReset (s : State) : State := { s with mbx := { MbxSt.reset with winBase := s.mbx.winBase } }

/-- PF_RESET (R166): a reset of physical function 0 acts as an accepted warm restart in READY or READY_EMPTY, and resets
the mailbox rings in any other phase. -/
def execPfReset (_kind : PfResetKind) (s : State) : Host.Outcome State Fault Refusal :=
  .next (if s.isReady && s.live then s.orderlyStop (.restart 1) else s.mbxReset)

/-! ## BAR 2 (R143, R275) -/

/-- R143, R275: one column of a BAR 2 access: none in the structure region or in unowned memory. -/
def State.bar2Col (s : State) (a : Nat) : Bool := decide (a < structBase) && (s.locOf a).isSome

/-- BAR2_ACCESS (R143, R275, R287). -/
def execBar2Access (write : Bool) (off : Fin 268435456) (data : List Byte) (len : Nat) (poison : Bool) (s : State) :
    Host.Outcome State Fault Refusal :=
  .next (s.when s.start.hostIf (fun s =>
    let a := s.mbx.winBase * 2 ^ 28 + off.val
    let n := if write then data.length else len
    let cols := columns a n
    let refused := cols.find? (fun (c : Nat × Nat × Nat) => decide (structBase ≤ c.1) || write && ! s.bar2Col c.1)
    let s := if write then
        s.each (cols.filter (fun c => s.bar2Col c.1)) (fun s (c : Nat × Nat × Nat) =>
          let o := c.1 + c.2.1
          s.memWrite o ((data.drop (o - a)).take c.2.2) (if poison then 1 else 0))
      else
        let (bs, pz, t) := cols.foldl (fun (acc : List Byte × Bool × State) (c : Nat × Nat × Nat) =>
          if acc.2.2.bar2Col c.1 then
            let (b, pz, t) := acc.2.2.memRead (c.1 + c.2.1) c.2.2
            (acc.1 ++ b, acc.2.1 || decide (pz ≠ 0), t)
          else (acc.1 ++ List.replicate c.2.2 0, acc.2.1, acc.2.2)) ([], false, s)
        { t with bus := { t.bus with bar2 := bs, bar2Poison := pz } }
    match refused with
    | some c => s.log 1 0x09 0xF1 (c.1 + c.2.1) none 0 true
    | none => s))

end Sys2Proof.Machine
end

