-- ==== Sys2Proof/Machine/Mailbox.lean ====
section
/-! DEFINITION. The mailbox: its doorbell and the requests that read records and keep the flash (R77, R162 to R164,
R441). -/

namespace Sys2Proof.Machine

/-! ## The Col and start registers (03, 04) -/

/-- COL_STATUS. -/
def State.colStatus (s : State) : Nat :=
  let c := s.col
  pack [(12, 12, bnat s.cal.sealed), (11, 11, bnat s.ret.sealed), (10, 10, bnat c.timeUntraced), (9, 9, bnat c.xtalFault),
    (8, 8, bnat c.pwrLost), (7, 7, bnat (tget c.uv 3)), (6, 6, bnat (tget c.uv 2)), (5, 5, bnat (tget c.uv 1)),
    (4, 4, bnat (tget c.uv 0)), (2, 1, c.smbAddr.val), (0, 0, bnat c.envExt)]

/-- COL_START. -/
def State.colStart (s : State) : Nat :=
  pack [(3, 3, bnat s.col.lastWarm), (2, 2, bnat s.col.safe), (1, 0, s.col.attempts.val)]

/-! ## Doorbells (R145, R162) -/

/-- A doorbell value is in range of the mailbox rings; else MBX_RING_STAT.DB_ERR is set. -/
def State.mbxBell (s : State) (v : Nat) (f : MbxSt → MbxSt) : State :=
  if v < s.mbxSize then { s with mbx := f s.mbx } else { s with mbx := { s.mbx with dbErr := true } }

/-- R162, R163: a new request tail: the request at the head is fetched; a fetch that fails disables the rings, and requests
of an unknown OPCODE are answered. -/
def State.mbxTail (s : State) (v : Nat) (bad : Bool) : State :=
  let s := s.mbxBell v (fun m => { m with reqTail := v })
  if bad && s.mbxHead.isSome then { s with mbx := { s.mbx with fetchErr := true, en := false } } else s.mbxUnknown 256

/-- MBX_DOORBELL (R162): a write of MBX_REQ_TAIL. -/
def execMbxDoorbell (val : W32) (bad : Bool) (s : State) : Host.Outcome State Fault Refusal :=
  .next (s.when s.served (fun s => s.mbxTail (fld val.toNat 7 0) bad))

/-! ## Records -/

/-- R441: the entries that ERRLOG_READ copies, at most `n`, and the state with the unread ones marked read. -/
def State.takeLog (s : State) (n : Nat) : List LogEnt × State :=
  if s.start.phase = .safe then
    let first := match s.ras.fatal with | some e => if s.ras.fatalValid then [e].take n else [] | none => []
    let k := n - first.length
    (first ++ s.ras.rom.take k, { s with ras := { s.ras with rom := s.ras.rom.drop k } })
  else (s.ras.unread.take n, { s with ras := { s.ras with unread := s.ras.unread.drop n } })

/-- ERRLOG_READ (R164, R441): the log lies in DRAM, so the request waits while a stack is away. -/
def execErrlogRead (s : State) : Host.Outcome State Fault Refusal :=
  .next (s.onRequest 0x0001 (fun req =>
    s.when (s.start.phase == .safe || s.dramUp) (fun s =>
      let (l, s) := s.takeLog (leAt req 0x18 4 / 32)
      (s.hostWritePf (leAt req 0x10 8) (l.flatMap LogEnt.bytes)).mbxAnswer req stOk [(8, leBytes 4 l.length)])))

/-- COL_READ (R164). -/
def execColRead (s : State) : Host.Outcome State Fault Refusal :=
  .next (s.onRequest 0x0002 (fun req =>
    s.mbxAnswer req stOk [(8, leBytes 4 s.colStatus), (0xC, leBytes 4 s.colStart), (0x10, leBytes 8 s.time),
      (0x18, leBytes 8 s.col.serial)]))

/-- CAIRN_ID_READ (R164): Cairn identity words 0 to 5. -/
def execCairnIdRead (s : State) : Host.Outcome State Fault Refusal :=
  .next (s.onRequest 0x0003 (fun req =>
    s.mbxAnswer req stOk [(8, (List.range 6).flatMap (fun i => leBytes 4 (s.cw i)))]))

/-! ## Flash (R67, R164) -/

/-- R164: base and size of a REGION. -/
def flashRegion (r : Nat) : Option (Nat × Nat) :=
  if r = 1 then some (fwSlotA, 0x400000)
  else if r = 2 then some (fwSlotB, 0x400000)
  else if r = 3 then some (defStructBase, 0x2000000)
  else none

/-- R164: a flash request with its range in the flash and its length: region 3 is not served in a safe start, and a range
outside its region, or off its multiple, is a bad parameter. -/
def State.flashRequest (s : State) (req : List Byte) (unit : Nat) (f : State → Nat → Nat → State) : State :=
  let o := leAt req 0xC 4
  let n := leAt req 0x18 4
  match flashRegion (leAt req 8 1) with
  | none => s.mbxAnswer req (stRefused 4)
  | some (base, size) =>
    if s.start.phase = .safe ∧ leAt req 8 1 = 3 then s.mbxAnswer req (stRefused 0xC)
    else if size < o + n ∨ o % unit ≠ 0 ∨ n % unit ≠ 0 then s.mbxAnswer req (stRefused 4)
    else f s (base + o) n

/-- FLASH_READ (R164). -/
def execFlashRead (s : State) : Host.Outcome State Fault Refusal :=
  .next (s.onRequest 0x0010 (fun req => s.flashRequest req 1 (fun s a n =>
    (s.hostWritePf (leAt req 0x10 8) (s.flashRead a n)).mbxAnswer req stOk [(8, leBytes 4 n)])))

/-- What a flash operation that did not finish, or did not verify, leaves in its range: free values (log 1). -/
def State.flashTorn (s : State) (a n : Nat) : State :=
  let (f, s) := s.draw
  { s with flash := spWriteD 0xFF s.flash a (leBytes n f) }

/-- FLASH_ERASE (R164): an erase that is unfinished after its time limit ends TIMEOUT, SUB 4. -/
def execFlashErase (ok : Bool) (s : State) : Host.Outcome State Fault Refusal :=
  .next (s.onRequest 0x0011 (fun req => s.flashRequest req 0x10000 (fun s a n =>
    if ok then (s.flashErase a n).mbxAnswer req stOk else (s.flashTorn a n).mbxAnswer req (stTimeout 4))))

/-- FLASH_PROGRAM (R164): the bytes are read from the host, programmed, and every page is read back; a page that differs,
or an operation that does not finish, ends TIMEOUT, SUB 4. -/
def execFlashProgram (ok bad : Bool) (s : State) : Host.Outcome State Fault Refusal :=
  .next (s.onRequest 0x0012 (fun req => s.flashRequest req 256 (fun s a n =>
    if bad then s.mbxAnswer req (stPoisoned 1)
    else
      let bs := s.hostRead (leAt req 0x10 8) n
      if ! ok then (s.flashTorn a n).mbxAnswer req (stTimeout 4)
      else
        let s := s.flashProgram a bs
        if s.flashRead a n = bs then s.mbxAnswer req stOk else s.mbxAnswer req (stTimeout 4))))

end Sys2Proof.Machine
end

