-- ==== Sys2Proof/Machine/Quad.lean ====
section
/-! DEFINITION. Quad clocks and power: demotion, wakes, pre-wakes, relocks and the host's policy (R48 to R60). -/

namespace Sys2Proof.Machine

/-- The state codes of CLK_QSTATE. -/
def QState.num : QState → Nat
  | .run => 0 | .idle => 1 | .nap => 2 | .retain => 3 | .off => 4

/-- The state of a code. -/
def QState.ofNum : Nat → QState
  | 0 => .run | 1 => .idle | 2 => .nap | 3 => .retain | _ => .off

/-- CLK_QPOL.FLOOR. -/
def QuadClk.floor (k : QuadClk) : Nat := fld k.pol.toNat 2 0

/-- R54, R59: the quad belongs to a partition and is not retired, so that a wake may be asked of it. -/
def State.wakeable (s : State) (q : Quad) : Bool :=
  (s.owner q).isSome && ! (s.quad q).failed && s.start.stop.isNone && s.start.phase != .safe

/-- An item has work placed on a quad. -/
def State.placedOn (s : State) (q : Quad) : Bool :=
  s.items.any (fun i => i.fin.isNone && (bitAt i.waitQ q.val || bitAt i.runQ q.val))

/-- R102: the quads that change power state with a quad, itself among them: those of its partition with its CLKGRP, in
ascending order. A retired quad changes state no more and stands alone (log 58). -/
def State.clkGroup (s : State) (q : Quad) : List Quad :=
  match s.owner q, s.quadCfg q with
  | some p, some c =>
    if (s.quad q).failed then [q]
    else allQuads.filter (fun r => r == q || (s.owner r == some p && ! (s.quad r).failed
      && (match s.quadCfg r with | some d => d.clkgrp == c.clkgrp | none => false)))
  | _, _ => [q]

/-- R102: the clock of the lowest-numbered quad of the group, whose CLK_QPOL governs the group. -/
def State.groupClk (s : State) (q : Quad) : QuadClk := s.quad ((s.clkGroup q).headD q)

/-- R52, R57: a wake of one quad: it joins a wake in progress, aborts an entry, or waits for an entry to Off that can no
longer be aborted. -/
def State.wakeOne (s : State) (q : Quad) : State :=
  let k := s.quad q
  if ! s.wakeable q || k.waking.isSome then s
  else match k.entering with
    | some t =>
      if k.target = .off ∧ s.past t 250 then s.setQ q (fun k => { k with wakeAfter := true })
      else
        let frm : QState := if k.target = .off then .retain else k.target
        s.setQ q (fun k => { k with entering := none, waking := some (s.now, frm), target := .run })
    | none => if k.st = .run then s else s.setQ q (fun k => { k with waking := some (s.now, k.st), target := .run })

/-- R57, R102: a wake request on any quad wakes its whole group. -/
def State.wake (s : State) (q : Quad) : State := s.each (s.clkGroup q) (fun s r => s.wakeOne r)

/-- R59: a pin that is honoured. -/
def State.pinned (s : State) (q : Quad) : Bool := (s.quad q).pin && s.wakeable q

/-- QUAD_WAKE_REQUEST (R57): placed work, a route write or firmware asks for a quad. -/
def execQuadWakeRequest (q : Quad) (src : WakeSrc) (s : State) : Host.Outcome State Fault Refusal :=
  .next (match src with
    | .demand => s.when (s.wakeable q && (s.placedOn q || (s.quad q).waitFrom.isSome)) (fun s =>
        let s := if s.quadUp q then s else s.setQ q (fun k => { k with waitFrom := some (k.waitFrom.getD s.now) })
        s.wake q)
    | .firmware => s.when (s.wakeable q) (fun s => (s.setQ q (fun k => { k with fwHold := true })).wake q))

/-- R50, CLK_QWAIT: what waited for a wake is served. -/
def State.wakeServed (s : State) (q : Quad) : State :=
  s.setQ q (fun k =>
    let k := match k.waitFrom with
      | some t => { k with waits := satAdd k.waits 1 0xFFFF, maxWait := min (max k.maxWait (s.now - t)) 0xFFFF, waitFrom := none }
      | none => k
    { k with idleAt := s.now, fwHold := false })

/-- The end of one quad's wake. -/
def State.wakeEnds (s : State) (q : Quad) : State :=
  match (s.quad q).waking with
  | some (_, frm) =>
    let off := frm == .off
    let s := s.setQ q (fun k => { k with st := .run, target := .run, waking := none, pll := true, reload := off })
    if off then s else s.wakeServed q
  | none => s

/-- QUAD_WAKE_DONE (R50, R51, R57, R102): the quad and its group are in Run with their PLLs locked; from Off they still
wait for their reload. -/
def execQuadWakeDone (q : Quad) (s : State) : Host.Outcome State Fault Refusal :=
  .next (s.when ((s.quad q).waking.isSome && (s.clkGroup q).all (fun r => (s.quad r).relocks.isNone)) (fun s =>
    s.each (s.clkGroup q) (fun s r => s.wakeEnds r)))

/-- R51, R107: the reload engine copies the KERNEL payload and the TILE_INIT payloads of a quad. -/
def State.reloadQuad (s : State) (p : Part) (q : Quad) : State :=
  let (img, s) := match tget s.str.kernels q with
    | some l => let (bs, _, s) := s.winRead p l.off l.len; (bs, s)
    | none => ([], s)
  let s := s.setCq q (fun c => { c with kernel := img })
  s.each (List.finRange 4) (fun s t =>
    match tget s.str.tileInit ⟨q.val * 4 + t.val, by omega⟩ with
    | some l =>
      let (bs, pz, s) := s.winRead p l.off l.len
      s.sramWrite q (some t) 0 (bs ++ List.replicate ((32 - bs.length % 32) % 32) 0) pz
    | none => s)

/-- QUAD_RELOAD_DONE (R51, R124): the reload of a quad of the partition whose turn it is completes. -/
def execQuadReloadDone (q : Quad) (s : State) : Host.Outcome State Fault Refusal :=
  .next (match s.owner q with
    | some p => s.when ((s.quad q).reload && s.turnHolder 128 == some p && s.dramUp) (fun s =>
        let s := (s.takeTurn 128 p).reloadQuad p q
        (s.setQ q (fun k => { k with reload := false })).wakeServed q)
    | none => s)

/-! ## Demotion -/

/-- R53: the thresholds of Idle, Nap, Retain and Off in ticks of 1.28 µs, each above the one before. -/
def QuadClk.thresholds (k : QuadClk) : List Nat :=
  let w := k.pol.toNat
  let a := fld w 15 8
  let up := fun (prev t : Nat) => if t ≤ prev then prev + 1 else t
  let b := up a (fld w 31 16)
  let c := up b (fld w 47 32)
  [a, b, c, up c (fld w 55 48 * 65536)]

/-- The structure marks a quad Off-permitted (R54, R102). -/
def State.offPermit (s : State) (q : Quad) : Bool := match s.quadCfg q with | some c => c.offPermit | none => false

/-- R54, R102: the group of a quad may enter Off. -/
def State.offAllowed (s : State) (q : Quad) : Bool :=
  match s.owner q with
  | none => true
  | some p =>
    let g := s.clkGroup q
    (s.groupClk q).floor == 4
      && g.all (fun r => ! s.placedOn r && (! s.trv.sess.any (fun e => e.2.part == p && ! e.2.shut) || s.offPermit r))
      && (decide (g.length ≤ 1) || g.all (fun r => s.offPermit r))

/-- R53: the crystal cycle from which the quad is idle; a pre-wake counts to the tick it served. -/
def QuadClk.idleFrom (k : QuadClk) : Nat := max k.idleAt (k.prewake.getD 0)

/-- R53, R55: the quad is idle. -/
def State.quadIdle (s : State) (q : Quad) : Bool :=
  let k := s.quad q
  (s.cq q).run.isNone && ! s.placedOn q && ! k.fwHold && ! s.pinned q && decide (k.idleFrom ≤ s.now)
    && k.entering.isNone && k.waking.isNone && ! k.reload && k.relocks.isNone && k.waitFrom.isNone && ! k.failed

/-- R53, R102: the crystal cycle from which the whole group of a quad is idle. -/
def State.groupIdleFrom (s : State) (q : Quad) : Nat :=
  ((s.clkGroup q).map (fun r => (s.quad r).idleFrom)).foldl max 0

/-- R53, R54: the deepest state that the group's idle time has reached, within its floor. -/
def State.demoteTo (s : State) (q : Quad) : Nat :=
  let k := s.groupClk q
  let t := s.now - s.groupIdleFrom q
  let reached := fun (i : Nat) => decide ((k.thresholds.getD (i - 1) 0) * 32 ≤ t) && decide (i ≤ k.floor)
    && (decide (i < 4) || s.offAllowed q)
  ((List.range 5).filter (fun i => decide (0 < i) && reached i)).foldl max 0

/-- QUAD_DEMOTE (R53 to R55, R102): a quad whose group is idle, and whose idle time has reached a deeper state, begins to
enter it with its group. -/
def execQuadDemote (q : Quad) (s : State) : Host.Outcome State Fault Refusal :=
  let d := s.demoteTo q
  let g := s.clkGroup q
  .next (s.when (s.wakeable q && g.all (fun r => s.quadIdle r) && decide ((s.quad q).st.num < d)) (fun s =>
    s.each g (fun s r => s.setQ r (fun k => { k with entering := some s.now, target := QState.ofNum d, prewake := none }))))

/-- R49, R51, R215: what a quad loses on reaching a state: its PLL from Retain on, its semaphores and rate from Nap on,
and its SRAM, line buffer and kernel in Off. -/
def State.quadLose (s : State) (q : Quad) (t : QState) : State :=
  let s := if 2 ≤ t.num then s.setCq q (fun c => { c with sems := rep 16 0, k := 0 }) else s
  if t = .off then
    ((s.clearQuadSram q).setCq q (fun c => { c with kernel := [] })).setEng q (fun g =>
      { g with flaw := none, resizing := false, upSlots := 0, dnSlots := 0 })
  else s

/-- QUAD_ENTRY_DONE (R52, R58): the entry is complete; a wake that waited for it, or a floor above it, follows at
once. -/
def execQuadEntryDone (q : Quad) (s : State) : Host.Outcome State Fault Refusal :=
  .next (s.when (s.quad q).entering.isSome (fun s =>
    let t := (s.quad q).target
    let g := s.clkGroup q
    let again := g.any (fun r => (s.quad r).wakeAfter) || decide ((s.groupClk q).floor < t.num)
    let s := s.each (g.filter (fun r => (s.quad r).entering.isSome)) (fun s r =>
      (s.setQ r (fun k => { k with
        st := t, entering := none, wakeAfter := false, pll := k.pll && decide (t.num < 3) })).quadLose r t)
    if again then s.wake q else s))

/-! ## Pre-wake (R56) -/

/-- R56: the next tick of a phase in which an open session of the partition ticks, as a crystal cycle. -/
def State.nextTickOf (s : State) (p : Part) : Option Nat :=
  let occupied := fun (ph : Nat) => s.trv.sess.any (fun e => e.2.part == p && e.2.phase == ph && ! e.2.shut)
  if s.trv.run then
    (((List.range 16).map (fun i => s.trv.ticks + i)).find? (fun n => occupied (n % 16))).map (fun n => s.trv.epoch + 15625 * n)
  else none

/-- QUAD_PREWAKE (R56): from PREWAKE_LEAD before the next tick that its partition's sessions occupy, a tick-served quad in
Nap or Retain wakes, and is held in Run until that tick. -/
def execQuadPrewake (q : Quad) (s : State) : Host.Outcome State Fault Refusal :=
  .next (match s.owner q with
    | some p =>
      let k := s.quad q
      let g := s.clkGroup q
      let pol := (s.groupClk q).pol.toNat
      let served := g.any (fun r => match s.quadCfg r with | some c => c.tickServed | none => false)
      match s.nextTickOf p with
      | some t =>
        let lead := fld pol 63 56 * 32
        s.when (s.wakeable q && bitAt pol 3 && served && (k.st == .nap || k.st == .retain) && k.waking.isNone
            && k.entering.isNone && decide ((t - lead) / 32 * 32 ≤ s.now) && decide (s.now < t)) (fun s =>
          (s.each g (fun s r => s.setQ r (fun k => { k with prewake := some t }))).wake q)
      | none => s
    | none => s)

/-! ## The host's policy (R58, R59) -/

/-- R53, R58: a policy word: fields outside their range and reserved bits keep their value. -/
def mergePol (old v : Nat) : Nat :=
  let keep := fun (hi lo : Nat) (ok : Nat → Bool) => if ok (fld v hi lo) then fld v hi lo else fld old hi lo
  let pos := fun (n : Nat) => decide (1 ≤ n)
  pack [(63, 56, fld v 63 56), (55, 48, keep 55 48 pos), (47, 32, keep 47 32 pos), (31, 16, keep 31 16 pos),
    (15, 8, fld v 15 8), (3, 3, fld v 3 3), (2, 0, keep 2 0 (fun n => decide (n ≤ 4)))]

/-- R58, R102: a write of CLK_QPOL; a floor that governs the quad and is shallower than its state wakes it. -/
def State.qpolWrite (s : State) (q : Quad) (v : Nat) : State :=
  let s := s.setQ q (fun k => { k with pol := BitVec.ofNat 64 (mergePol k.pol.toNat v) })
  if (s.groupClk q).floor < (s.quad q).st.num ∧ (s.quad q).entering.isNone then s.wake q else s

/-- R59: a write of CLK_QFORCE; a quad that is released starts its idle time. -/
def State.qforceWrite (s : State) (v : Nat) : State :=
  s.each allQuads (fun s q =>
    let b := bitAt v q.val
    let s := s.setQ q (fun k => { k with pin := b, idleAt := if k.pin && ! b then s.now else k.idleAt })
    if b then s.wake q else s)

/-- CLK_QPOL_WRITE (R58, R65). -/
def execClkQpolWrite (q : Quad) (val : W64) (s : State) : Host.Outcome State Fault Refusal :=
  .next (s.when s.served (fun s => s.qpolWrite q val.toNat))

/-- CLK_QFORCE_WRITE (R59, R65). -/
def execClkQforceWrite (val : W32) (s : State) : Host.Outcome State Fault Refusal :=
  .next (s.when s.served (fun s => s.qforceWrite val.toNat))

/-! ## Quad PLLs (R49) -/

/-- QUAD_PLL_LOCK_LOST (R49): the quad's clock stops, its rate falls to 0, its entry ends TIMEOUT, SUB 1, and the PLL is
relocked; a wake in progress counts as the first attempt. -/
def execQuadPllLockLost (q : Quad) (s : State) : Host.Outcome State Fault Refusal :=
  let k := s.quad q
  .next (s.when ((k.pll || k.waking.isSome) && k.relocks.isNone && ! k.failed) (fun s =>
    let s := s.countLock.log 0 0x01 1 (detailOf q.val 0)
    let s := s.setQ q (fun k => { k with pll := false, relocks := some (bnat (k.waking.isSome && ! k.pll)) })
    let run := (s.cq q).run
    let s := s.setCq q (fun c => { c with k := 0 })
    match run with
    | some r => s.askStop r.item (stTimeout 1)
    | none => s))

/-- R49, R436: a quad is retired: it reads as in Retain, and the items that need it complete TIMEOUT, SUB 1. -/
def State.retireQuad (s : State) (q : Quad) : State :=
  let s := s.setQ q (fun k => { k with
    failed := true, st := .retain, target := .retain, entering := none, waking := none, wakeAfter := false, reload := false
    relocks := none, pll := false, prewake := none, fwHold := false, waitFrom := none })
  let s := s.log 2 0x01 2 (detailOf q.val 0)
  s.each (s.items.filter (fun i => i.fin.isNone && bitAt i.waitQ q.val)) (fun s i =>
    if i.runQ = 0 then s.finish i.id (stTimeout 1) else s.askStop i.id (stTimeout 1))

/-- QUAD_PLL_RELOCK_DONE (R49): a relock attempt ends; the third that fails retires the quad. -/
def execQuadPllRelockDone (q : Quad) (ok : Bool) (s : State) : Host.Outcome State Fault Refusal :=
  .next (match (s.quad q).relocks with
    | none => s
    | some n =>
      if ok then s.setQ q (fun k => { k with relocks := none, pll := true, idleAt := s.now })
      else if n + 1 < 3 then s.setQ q (fun k => { k with relocks := some (n + 1) })
      else s.retireQuad q)

end Sys2Proof.Machine
end

