-- ==== Sys2Proof/Machine/Partition.lean ====
section
/-! DEFINITION. Live restructuring: the quiesce boundary and its hold (R129 to R133), zeroization (R134), the commit of a
structure (R113, R114, R169), and the limits of waits (R120, R124, R131). -/

namespace Sys2Proof.Machine

/-! ## The quiesce boundary (R129, R130, R133) -/

/-- VFP_STATUS.STATE changes, which is an event of the function. -/
def State.partState (s : State) (p : Part) (st : PState) : State :=
  if (s.part p).state = st then s
  else ((s.setPart p (fun r => { r with state := st })).setVf p (fun v => { v with evtState := true })).event p

/-- R130: an item that has no operation issued is not run. -/
def State.notStarted (s : State) (i : Item) : State :=
  if i.fin.isSome || i.firstOp.isSome then s
  else if i.runQ = 0 then s.finish i.id (stRestructured 1)
  else s.stopEntry i (stRestructured 1)

/-- R133: the inbound frames of a descriptor that is not run, and of a session's ring. -/
def Item.frames (i : Item) : Nat := match i.body with | .audioIn n _ _ => if i.fin.isNone then n else 0 | _ => 0

/-- R133: from the boundary on, a session plays comfort fill and its inbound frames are discarded. -/
def State.quiesceSess (s : State) (n : Nat) (x : SessSt) : State :=
  (s.discarded x.part x.inHeld.length).setSess n (fun x => { x with
    consumed := x.consumed + x.inHeld.length, inHeld := []
    out := { (x.out.startRamp x.codec .comfort) with plan := none, late := none } })

/-- R129, R136: the quiesce boundary of a partition; one that is not defined has nothing in flight. -/
def State.quiesce (s : State) (p : Part) : State :=
  let r := s.part p
  let s := s.setPart p (fun r => { r with
    qtime := s.time, boundary := s.now, drainNow := r.drainMs, holdNow := r.holdMs, zeroed := false
    holdEnded := decide (r.state = .undefined) })
  if r.state = .undefined then s.partState p .rebuilding
  else
    let s := s.partState p .draining
    let mine := s.items.filter (fun i => i.part == p)
    let s := s.discarded p ((mine.map Item.frames).sum)
    let s := s.each mine State.notStarted
    let s := s.each r.slotWait (fun s w => (s.freeCellOf p w.2).sendReply w.1 (stRestructured 1) 0 [] none)
    let s := s.setPart p (fun r => { r with slotWait := [] })
    s.each (s.trv.sess.filter (fun e => e.2.part == p && ! e.2.shut)) (fun s e => s.quiesceSess e.1 e.2)

/-- The completion ring that an item's record is due to. -/
def State.dueRing (s : State) (i : Item) : Option Queue :=
  match i.kind with
  | .desc q .. => some q
  | .step r => (s.sessAny r.sess.val).map (·.cq)
  | .handoff .. => none

/-- R130: a record is discarded and its slot released. -/
def State.dropRecord (s : State) (i : Item) : State :=
  ({ s with items := s.items.filter (fun j => j.id ≠ i.id) } : State).discarded i.part 1

/-- DRAIN_LIMIT_EXPIRY (R130): what still runs DRAIN_MS after the boundary is stopped; a record that waits for room on its
ring is discarded, and every later one due to that ring. -/
def execDrainLimitExpiry (p : Part) (s : State) : Host.Outcome State Fault Refusal :=
  let r := s.part p
  .next (s.when (r.state == .draining && s.past r.boundary (msCyc r.drainNow)) (fun s =>
    let mine := s.items.filter (fun i => i.part == p)
    let stuck := fun (i : Item) => match s.dueRing i with
      | some q => mine.any (fun j => s.dueRing j == some q && j.fin.isSome && ! s.cqRoom p q && decide (j.id ≤ i.id))
      | none => false
    s.each mine (fun s i =>
      if i.fin.isSome then (if stuck i then s.dropRecord i else s)
      else
        let s := s.askStop i.id (stRestructured 2)
        if stuck i && ! i.discard then (s.discarded p 1).setItem i.id (fun j => { j with discard := true }) else s)))

/-- R130: the end of one item that the quiesce hold has left: stopped if it still runs, its record written where there is
room, else discarded. -/
def State.lastRecord (s : State) (i : Item) : State :=
  let s := if i.fin.isSome then s else s.stopEntry i (stRestructured 2)
  s.withItem i.id (fun i =>
    let st := i.fin.getD (stRestructured 2)
    match s.dueRing i with
    | some q => if i.discard || s.cqRoom i.part q then s.stopItem st i else s.dropRecord i
    | none => s.stopItem st i)

/-- QUIESCE_HOLD_END (R130, R134): no item of the partition is left, or DRAIN_MS and 12 µs have passed. -/
def execQuiesceHoldEnd (p : Part) (s : State) : Host.Outcome State Fault Refusal :=
  let r := s.part p
  let left := s.items.any (fun i => i.part == p)
  .next (s.when (r.state == .draining && (! left || s.past r.boundary (msCyc r.drainNow + usCyc 12))) (fun s =>
    let s := s.each (s.items.filter (fun i => i.part == p)) State.lastRecord
    (s.setPart p (fun r => { r with holdEnded := true })).partState p .rebuilding))

/-! ## Zeroization (R113, R134) -/

/-- The partitions that a load restructures: its target, or every one that is or will be defined (R137). -/
def State.loadTargets (s : State) : List Part :=
  if s.loader.kind = 2 then [s.loader.target]
  else allParts.filter (fun p => (s.cfg p).isSome || (match s.loader.staged with
    | some (t, _) => (tget t.parts p).isSome
    | none => false))

/-- R134: the session memory of a range. -/
def State.clearSessions (s : State) (c : PartCfg) : State := s.clearRing (sessBase c.sessFirst) (c.sessCount * 0x8000)

/-- R134, R197: what the quads of a partition hold is cleared. -/
def State.clearQuads (s : State) (l : List Quad) : State :=
  s.each l (fun s q => ((s.clearQuadSram q).setCq q (fun c => { c with kernel := [] })).setEng q (fun g =>
    { g with flaw := none, pubs := [], slots := [] }))

/-- The fire groups of a partition's bank set. -/
def State.groupsOf (s : State) (p : Part) : List Group := (List.finRange 512).filter (fun g => bitAt (tget s.str.banks p) g.val)

/-- R134: one partition's old window, quads, groups and session memory are zeroized. -/
def State.zeroize (s : State) (p : Part) : State :=
  match s.cfg p with
  | some c =>
    let s := (s.clearWindow c (tget s.str.lbase p)).clearQuads (s.quadsOf p)
    let s := s.each (s.groupsOf p) (fun s g => s.setGroup g GroupSt.cleared)
    s.clearSessions c
  | none => s

/-- R113, R137: all DRAM outside the structure region and all SRAM are zeroized. -/
def State.zeroizeAll (s : State) : State :=
  let s := s.clearWindows.clearQuads allQuads
  let s := s.each (List.finRange 512) (fun s g => s.setGroup g GroupSt.cleared)
  s.clearRing (sessBase 0) (4096 * 0x8000)

/-- ZEROIZATION_DONE (R113, R134): once its hold has ended, what the partition owned is zeroized; at a full load, everything
once every hold has ended. -/
def execZeroizationDone (p : Part) (s : State) : Host.Outcome State Fault Refusal :=
  let ts := s.loadTargets
  .next (s.when (s.loader.state == .prepare && ! s.loader.prepared) (fun s =>
    if s.loader.kind = 2 then
      s.when (ts.contains p && (s.part p).holdEnded && ! (s.part p).zeroed) (fun s =>
        let s := (s.zeroize p).setPart p (fun r => { r with zeroed := true })
        { s with loader := { s.loader with prepared := true } })
    else s.when (ts.all (fun q => (s.part q).holdEnded)) (fun s =>
      let s := s.zeroizeAll
      let s := s.each ts (fun s q => s.setPart q (fun r => { r with zeroed := true }))
      { s with loader := { s.loader with prepared := true } })))

/-! ## The commit (R113 steps 4 to 7, R114, R169) -/

/-- R107, R113: the images of a structure are copied to each partition's image area. -/
def State.placeImages (s : State) (l : List (Bool × Nat × List Byte)) : State :=
  s.each l (fun s (e : Bool × Nat × List Byte) =>
    let loc := if e.1 then tget s.str.kernels ⟨e.2.1 % 16, Nat.mod_lt _ (by decide)⟩
      else tget s.str.tileInit ⟨e.2.1 % 64, Nat.mod_lt _ (by decide)⟩
    let q : Quad := if e.1 then ⟨e.2.1 % 16, Nat.mod_lt _ (by decide)⟩ else ⟨e.2.1 / 4 % 16, Nat.mod_lt _ (by decide)⟩
    match loc, s.owner q with
    | some x, some p => s.winWrite p x.off e.2.2
    | _, _ => s)

/-- R114: a quad is Off; a retired quad reads as in Retain (R49). -/
def State.quadOff (s : State) (q : Quad) : State :=
  let s := s.setQ q (fun k =>
    if k.failed then k
    else { QuadClk.reset with pol := k.pol, pin := k.pin, waits := k.waits, maxWait := k.maxWait, idleAt := s.now })
  let s := s.setCq q (fun c => { c with run := none, sems := rep 16 0, k := 0, kernel := [] })
  s.setEng q (fun g => { EngineSt.reset with
    stall := g.stall, eccCe := g.eccCe, eccUe := g.eccUe, faults := g.faults, emptyBox := g.emptyBox, fCause := g.fCause, fOp := g.fOp })

/-- R114, R131, R169: one partition takes the committed structure: its function, queues, sessions and quads are as after a
start, its held requests are answered, and it runs if the structure defines it. -/
def State.commitPart (s : State) (p : Part) (quads : List Quad) : State :=
  let r := s.part p
  let s := s.each r.held (fun s a =>
    (s.setPart p (fun r => { r with refused := satAdd r.refused 1 1023 })).sendReply a (stRefused 2) 0 [] none)
  let s := (s.dropJobs (fun j => j.part == p)).dropLanded p (fun _ => true)
  let s := { s with items := s.items.filter (fun i => i.part ≠ p), sends := s.sends.filter (fun x => x.part ≠ p) }
  let s := (s.endSessions p).setVf p (fun _ => Vf.reset)
  let s := s.setPart p (fun r => { r with
    held := [], slotWait := [], cells := [], sendRecs := [], served := [], boundary := 0, drainNow := 0, holdNow := 0, holdEnded := false, zeroed := false })
  let s := s.each quads State.quadOff
  s.partState p (if (s.cfg p).isSome then .running else .undefined)

/-- R331, R344, R347: the ports of a committed structure: each enabled one starts from DOWN, each other one is dark. -/
def State.commitPort (s : State) (p : Port) : State :=
  let en := bitAt s.str.dev.portEn p.val
  let s := s.linkDown p
  let s := s.portDark p (if en then (if (s.port p).pll then 2 else 1) else 0)
  let s := s.setLink p (fun l => { l with
    st := .down, outAt := if en then some s.now else none, held := false, replay := [], txq := [], rxPart := [] })
  if en then (s.setPort p (fun r => { r with tries := 0, lost := false })).portTry p
  else s.setPort p (fun r => { r with pll := false, tries := 0, lost := false, rings := vmap (fun x => x.enter .off) r.rings })

/-- R108, R109: the active identity as the active directory in DRAM records it (log 23). -/
def identityAt : Nat := 0x3FE0000000
def Structure.identity (t : Structure) : List Byte := leBytes 16 t.id ++ leBytes 4 t.gen

/-- R113, steps 5 and 6: the switch, for every partition or for the target alone: the new settings replace the old ones, the
retention copy is written and sealed, and the active directory updated. -/
def State.commitNow (s : State) (t : Structure) (images : List (Bool × Nat × List Byte)) (full : Bool) (target : Part) : State :=
  let old := fun (p : Part) => s.quadsOf p
  let ts := if full then allParts else [target]
  let olds := ts.map (fun p => (p, old p))
  let s := { s with str := t, committed := true }
  let s := s.placeImages images
  let s := s.each olds (fun s (e : Part × List Quad) => s.commitPart e.1 (e.2 ++ s.quadsOf e.1))
  let s := if full then
      let s := { s with
        mbx := MbxSt.reset, pfMsix := rep 32 MsixEnt.reset, start := { s.start with trvLock := true }
        trv := { s.trv with run := false, startAt := if t.dev.trvEn then some s.now else none, endpts := [], appends := [] } }
      (s.each allQuads State.quadOff).each allPorts State.commitPort
    else s
  let s := s.each allStacks State.allowances
  let s := { s with ret := { sealed := true, copy := some t } }
  let s := s.memWrite identityAt (t.identity ++ List.replicate 12 0)
  s.each (allQuads.filter (fun q => (s.quad q).pin && ts.contains ((s.owner q).getD 0) && (s.owner q).isSome)) State.wake

/-! ## Limits of waits -/

/-- HOLD_TIMEOUT (R131): held requests that have waited HOLD_MS are refused; the expected time to the commit is a free
value. -/
def execHoldTimeout (p : Part) (s : State) : Host.Outcome State Fault Refusal :=
  let r := s.part p
  let due := fun (a : Arrived) => s.past a.at_ (msCyc r.holdNow)
  .next (s.when (r.state == .draining || r.state == .rebuilding) (fun s =>
    let s := s.setPart p (fun r => { r with held := r.held.filter (fun a => ! due a) })
    s.each (r.held.filter due) (fun s a =>
      let (f, s) := s.draw
      (s.setPart p (fun r => { r with refused := satAdd r.refused 1 1023 })).sendReply a (stRefused 2) (f % 65536) [] none)))

/-- HANDOFF_SLOT_TIMEOUT (R120): hand-offs that have waited HOLD_MS for a slot are refused; the time to the next slot
release is a free value. -/
def execHandoffSlotTimeout (p : Part) (s : State) : Host.Outcome State Fault Refusal :=
  let r := s.part p
  let due := fun (w : Arrived × Nat) => s.past w.1.at_ (msCyc r.holdMs)
  .next (
    let s := s.setPart p (fun r => { r with slotWait := r.slotWait.filter (fun w => ! due w) })
    s.each (r.slotWait.filter due) (fun s w =>
      let (f, s) := s.draw
      let s := (s.freeCellOf p w.2).setPart p (fun r => { r with refused := satAdd r.refused 1 1023 })
      (s.sendReply w.1 (stRefused 1) (f % 65536) [] none).servedDecide p))

/-- TIME_SLICE_EXPIRY (R124): a turn of SLICE × 10 µs has passed; the next turn goes by the rules. -/
def execTimeSliceExpiry (r : Fin 129) (s : State) : Host.Outcome State Fault Refusal :=
  let t := tget s.turns r
  .next (match t.holder with
    | some p =>
      let slice := match s.cfg p with | some c => c.slice | none => 0
      s.when (s.past t.start (usCyc (10 * slice))) (fun s => { s with turns := upd s.turns r { t with holder := none } })
    | none => s)

end Sys2Proof.Machine
end

