-- ==== Sys2Proof/Machine/Loader.lean ====
section
/-! DEFINITION. Loading a structure through the mailbox (R110 to R117): the request, its stages, staging and its limits, the
preparation of a commit, and the switch. -/

namespace Sys2Proof.Machine

/-! ## Replies -/

/-- A load or commit that is not accepted: its ERR is recorded and answered; a load in progress or staged goes on (R111,
R112). The hint of an expected wait is a free value. -/
def State.loadRefuse (s : State) (req : List Byte) (err : Nat) : State :=
  let (f, s) := s.draw
  let s := { s with loader := { s.loader with err := err } }
  s.mbxAnswer req (loadStatus err) [(8, leBytes 1 err)] (if err = 0x27 then 0 else f % 65536)

/-- The size of the flash default region. -/
def flashDefaultLen : Nat := 0x2000000

/-- Bytes of the source of the load in progress. -/
def State.source (s : State) (n : Nat) : List Byte :=
  if s.loader.flash then s.flashRead defStructBase n else s.hostRead s.loader.addr n

/-! ## Stage A (R95, R110, R111) -/

/-- R110, R111, R116: the ERR of the header; what fails stage A in the flash default region is ERR 0x23, or 0x04 for a
partial bitstream. -/
def State.headerErr (s : State) (h : List Byte) : Nat :=
  let l := s.loader
  let e := s.stageA l.flash (if l.flash then flashDefaultLen else l.len) h
  if leAt h 6 1 = 2 ∧ s.start.phase = .readyEmpty ∧ ! l.flash then 0x20
  else if e = 0 then 0
  else if ! l.flash then e
  else if leAt h 6 1 = 2 ∧ e = 4 then 4 else 0x23

/-- A load begins: stage A runs on the first 128 bytes of its source. -/
def State.beginLoad (s : State) : State :=
  let s := { s with loader := { s.loader with
    err := 0, kind := 0, target := 0, feOff := 0, feClass := 0, feIndex := 0, bytes := 0, staging := [], staged := none
    prepared := false, reqAt := s.now } }
  s.setLoader .stageA

/-- Stage A ends: its header is kept, with what it says the load is. -/
def State.headerIn (s : State) (bad : Bool) : State :=
  if ! s.loader.flash && decide (s.loader.len < 128) then s.loadFail 3
  else if bad then s.loadFail (if s.loader.flash then 0x23 else 0x22)
  else
    let h := s.source 128
    let e := s.headerErr h
    if e ≠ 0 then s.loadFail e
    else
      let k := leAt h 6 1
      { s with loader := { s.loader with
        staging := h, kind := k, target := if k = 2 then ⟨leAt h 7 1 % 16, Nat.mod_lt _ (by decide)⟩ else 0 } }

/-- STRUCT_LOAD (R113): the request is accepted and stage A begins, which also reads the header. -/
def execStructLoad (bad : Bool) (s : State) : Host.Outcome State Fault Refusal :=
  .next (s.onRequest 0x0020 (fun req =>
    if s.start.phase = .safe then s.mbxAnswer req (stRefused 0xC)
    else if 1 < leAt req 8 1 ∨ 1 < leAt req 9 1 then s.mbxAnswer req (stRefused 4)
    else if s.loader.busy then s.loadRefuse req 0x21
    else
      let s := s.mbxStart req
      let s := { s with loader := { s.loader with
        byHost := true, flash := decide (leAt req 8 1 = 1), addr := leAt req 0x10 8, len := leAt req 0x18 4
        stageOnly := decide (leAt req 9 1 = 1) } }
      s.beginLoad.headerIn bad))

/-! ## Copy, stages B and C (R110) -/

/-- R113, step 4: the commit is prepared: the retention seal is cleared and the quiesce boundary passes. -/
def State.prepare (s : State) : State :=
  let s := { s with ret := { s.ret with sealed := false }, loader := { s.loader with prepared := false } }
  let s := s.setLoader .prepare
  s.each s.loadTargets State.quiesce

/-- Stage C has passed: the load is staged, or its commit is prepared. -/
def State.stagedNow (s : State) : State :=
  if s.loader.stageOnly then
    let s := s.setLoader .staged
    let s := s.loadReply
    { s with loader := { s.loader with stagedAt := s.now, byHost := false } }
  else s.prepare

/-- The anchor that accepts the staged file, and the ERR of stage B. -/
def State.stageBRun (s : State) : State :=
  let (e, _) := s.stageB s.loader.staging
  if e ≠ 0 then s.loadFail e else s.setLoader .stageC

/-- Stage C: the frames are walked and checked (R110). -/
def State.stageCRun (s : State) : (State × Bool) :=
  match s.stageC s.loader.staging (s.stageB s.loader.staging).2 with
  | .inl (t, l) => ({ s with loader := { s.loader with staged := some (t, l) } }, true)
  | .inr e =>
    (({ s with loader := { s.loader with feOff := min e.off 255, feClass := e.cls, feIndex := e.index } } : State).loadFail e.err, false)

/-- The copy of the whole file to the staging slot. -/
def State.copyIn (s : State) : State :=
  let n := leAt s.loader.staging 0xC 4
  { s with loader := { s.loader with staging := s.source n, bytes := n } }

/-- STRUCT_LOAD_STAGE_DONE (R110, R111, R113): a stage of the load ends; `bad`: the source of the copy could not be read,
or in a later stage the staging slot reads uncorrectable. -/
def execStructLoadStageDone (bad : Bool) (s : State) : Host.Outcome State Fault Refusal :=
  .next (s.when (s.isReady && s.start.stop.isNone) (fun s =>
    match s.loader.state with
    | .stageA => s.setLoader .copy
    | .copy => if bad then s.loadFail (if s.loader.flash then 0x23 else 0x22) else s.copyIn.setLoader .stageB
    | .stageB => if bad then s.loadFail 0x24 else s.stageBRun
    | .stageC => if bad then s.loadFail 0x24 else
        let (s, ok) := s.stageCRun
        if ok then s.stagedNow else s
    | .prepare => if bad then
        (({ s with loader := { s.loader with err := 0x24 } } : State).log 3 0x03 2 (detailOf 0 0x24)).deviceFatal else s
    | _ => s))

/-! ## Staged structures (R113) -/

/-- STRUCT_COMMIT (R113): the staged bitstream with a matching STRUCT_ID is committed. -/
def execStructCommit (s : State) : Host.Outcome State Fault Refusal :=
  .next (s.onRequest 0x0021 (fun req =>
    if s.start.phase = .safe then s.mbxAnswer req (stRefused 0xC)
    else if s.loader.state ≠ .staged then s.loadRefuse req 0x27
    else if sliceB req 0x10 16 ≠ sliceB s.loader.staging 0x10 16 then s.loadRefuse req 0x21
    else
      let s := s.mbxStart req
      ({ s with loader := { s.loader with err := 0, reqAt := s.now, byHost := true } } : State).prepare))

/-- R111, R113: the staged bitstream is released. -/
def State.release (s : State) : State :=
  let s := ({ s with loader := { s.loader with err := 0x27 } } : State).setLoader .released
  let s := s.log 1 0x03 1 (detailOf 0 0x27)
  { s with loader := { s.loader with staged := none, staging := [] } }

/-- STRUCT_ABORT (R113). -/
def execStructAbort (s : State) : Host.Outcome State Fault Refusal :=
  .next (s.onRequest 0x0022 (fun req =>
    if s.start.phase = .safe then s.mbxAnswer req (stRefused 0xC)
    else if s.loader.state ≠ .staged then s.loadRefuse req 0x27
    else s.release.mbxAnswer req stOk [(8, [0])]))

/-- STAGED_HOLD_EXPIRY (R113): the staged bitstream has waited 60 s. -/
def execStagedHoldExpiry (s : State) : Host.Outcome State Fault Refusal :=
  .next (s.when (s.loader.state == .staged && s.past s.loader.stagedAt (sCyc 60)) State.release)

/-- STRUCT_LOAD_TIMEOUT (R115): 15 s have passed since the request, before step 4. -/
def execStructLoadTimeout (s : State) : Host.Outcome State Fault Refusal :=
  let early := match s.loader.state with | .stageA | .copy | .stageB | .stageC => true | _ => false
  .next (s.when (early && s.isReady && s.past s.loader.reqAt (sCyc 15)) (fun s => s.loadFail 0x25))

/-! ## The switch (R113, steps 5 to 7) -/

/-- R113: the reply to the load leaves before the mailbox rings take their reset value (log 28). -/
def State.switchNow (s : State) (t : Structure) (images : List (Bool × Nat × List Byte)) : State :=
  let full := decide (s.loader.kind ≠ 2)
  let s := s.setLoader .committed
  let s := s.loadReply
  let s := { s with loader := { s.loader with staged := none, staging := [], prepared := false } }
  s.commitNow t images full s.loader.target

/-- STRUCT_SWITCH (R113, R114): a prepared load is switched in; the first structure of a run makes the device READY. -/
def execStructSwitch (s : State) : Host.Outcome State Fault Refusal :=
  .next (s.when (s.loader.state == .prepare && s.loader.prepared && s.start.stop.isNone) (fun s =>
    match s.loader.staged with
    | some (t, l) =>
      let s := s.switchNow t l
      if s.start.phase = .readyEmpty then s.setPhase .ready else s
    | none => s))

end Sys2Proof.Machine
end

