-- ==== Sys2Proof/Machine/Msg.lean ====
section
/-! DEFINITION. The message layer: sends by descriptors and kernels, hand-offs and replies, reply limits, and outbound
appends (R155, R353 to R356, R425). -/

namespace Sys2Proof.Machine

/-- The head of a partition's SESS, SEQ and TICK for a send of an item (R353): from a step, from the hand-off served, or
none. -/
def Item.msgKey (i : Item) : Bool × Bool × Nat × Nat :=
  match i.kind with
  | .step r => (true, true, r.sess.val + i.part.val * 4096, r.seq)
  | .handoff a _ => (a.msg.hdr.session, a.msg.hdr.tick, a.msg.hdr.sess, a.msg.hdr.seq)
  | _ => (false, false, 0, 0)

/-- MSG_SEND (R155): the payload is read and handed to the message layer. -/
def execMsgSend (id : Nat) (s : State) : Host.Outcome State Fault Refusal :=
  .next (s.withItem id (fun i =>
    match i.body, s.cfg i.part with
    | .msgSend dev part entry len src res resMax tag addr rf, some c =>
      s.when (s.ready i) (fun s =>
        let dst : Part := ⟨part % 16, Nat.mod_lt _ (by decide)⟩
        let d := if dev = 0xFF then s.dev.devIndex else dev
        if s.sends.any (fun r => r.part == i.part && r.tag == some tag) then s.finish id (stRefused 4)
        else if ! (tenantRange c src len && tenantRange c res resMax) then s.finish id (stRefused 3)
        else if ! s.canReach i.part d dst then s.finish id (stRefused 6)
        else if 64 ≤ s.awaiting i.part then s
        else
          let (bs, pz, s) := s.winRead i.part src len
          let h : MsgHdr :=
            { mtype := 1, session := false, tick := false, degraded := false, replyTrv := false, dstDev := d
              srcDev := s.dev.devIndex, srcPart := i.part, dstPart := dst, hops := 0, entry := entry, sess := 0
              status := 0, seq := 0, prev := 0, mid := 0, len := len, aux := resMax }
          let r : SendRec :=
            { mid := 0, part := i.part, tag := some tag, item := none, res := res, resMax := resMax, hostRec := some addr
              winRec := none, evt := bitAt rf 0, detach := true, signal := none, replyTrv := false, sess := 0, seq := 0
              port := none, dstDev := d, dstPart := dst, sentAt := none }
          (s.issueSend h bs (if pz = 0 then none else some pz) r).finish id (if pz = 0 then stOk else stPoisoned pz))
    | _, _ => s))

/-- R353: the checks of a send record's fields. -/
def State.sendRecOk (s : State) (p : Part) (bs : List Byte) : Bool :=
  match s.cfg p with
  | none => false
  | some c =>
    let dev := leAt bs 1 1
    let len := leAt bs 8 4
    let done := leAt bs 0x20 8
    decide (leAt bs 0 1 = 1) && (decide (dev ≤ 31) || decide (dev = 0xFF)) && decide (leAt bs 2 1 ≤ 15)
      && decide (leAt bs 3 1 < 8) && decide (leAt bs 6 1 < 16) && decide (leAt bs 7 1 < 16)
      && (! bitAt (leAt bs 3 1) 2 || bitAt c.quads (leAt bs 6 1))
      && decide (16 ≤ len) && decide (len ≤ 1048576) && decide (len % 16 = 0) && decide (leAt bs 0xC 4 ≤ 1048576)
      && tenantRange c (leAt bs 0x10 8) len && tenantRange c (leAt bs 0x18 8) (leAt bs 0xC 4)
      && (decide (done = 2 ^ 64 - 1) || tenantRange c done 16) && zeroB bs 0x2C 84

/-- SEND_RECORD (R353): the oldest landed send record is checked and sent, or fails. -/
def execSendRecord (p : Part) (s : State) : Host.Outcome State Fault Refusal :=
  .next (match (s.part p).sendRecs, s.cfg p with
    | (slot, bs, owner) :: rest, some c =>
      s.when (decide (s.awaiting p < 64)) (fun s =>
        let s := s.setPart p (fun r => { r with sendRecs := rest })
        let it := match owner with | some (id, _) => s.item id | none => none
        let fl := leAt bs 3 1
        let done := leAt bs 0x20 8
        let q : Quad := ⟨leAt bs 6 1 % 16, Nat.mod_lt _ (by decide)⟩
        let k : Fin 16 := ⟨leAt bs 7 1 % 16, Nat.mod_lt _ (by decide)⟩
        let d := if leAt bs 1 1 = 0xFF then s.dev.devIndex else leAt bs 1 1
        let dst : Part := ⟨leAt bs 2 1 % 16, Nat.mod_lt _ (by decide)⟩
        let key := match it with | some i => i.msgKey | none => (false, false, 0, 0)
        let r : SendRec :=
          { mid := s.nextMid, part := p, tag := none, item := it.map (·.id), res := leAt bs 0x18 8, resMax := leAt bs 0xC 4
            hostRec := none, winRec := if done = 2 ^ 64 - 1 ∨ ! tenantRange c done 16 then none else some done
            evt := false, detach := bitAt fl 1
            signal := if bitAt fl 2 && bitAt c.quads q.val && decide (leAt bs 6 1 < 16) && decide (leAt bs 7 1 < 16)
              then some (q, k) else none
            replyTrv := bitAt fl 0, sess := key.2.2.1, seq := key.2.2.2, port := none, dstDev := d, dstPart := dst
            sentAt := none }
        let fails := fun (s : State) (cause sub : Nat) =>
          (s.spurFault p cause owner slot).sendDone { r with detach := false } (stRefused sub) 0 0 dst.val
        if ! s.sendRecOk p bs then fails s 1 4
        else if ! s.canReach p d dst then fails s 5 6
        else
          let (pay, pz, s) := s.winRead p (leAt bs 0x10 8) (leAt bs 8 4)
          let s := match it with
            | some i => s.setItem i.id (fun i => { i with
                poison := if pz = 0 then i.poison else some (i.poison.getD pz)
                sends := if r.detach then i.sends - 1 else i.sends })
            | none => s
          let h : MsgHdr :=
            { mtype := 1, session := key.1, tick := key.2.1, degraded := false, replyTrv := r.replyTrv, dstDev := d
              srcDev := s.dev.devIndex, srcPart := p, dstPart := dst, hops := 0, entry := leAt bs 4 2, sess := r.sess
              status := 0, seq := r.seq, prev := if it.isSome then leAt bs 0x28 4 else 0, mid := 0, len := leAt bs 8 4
              aux := r.resMax }
          s.issueSend h pay (if pz = 0 then none else some pz) r)
    | _, _ => s)

/-- HANDOFF_ARRIVAL (R120, R131, R354): the oldest arrived request is taken. -/
def execHandoffArrival (p : Part) (s : State) : Host.Outcome State Fault Refusal :=
  .next (match (s.part p).arrivals with
    | a :: rest => (s.setPart p (fun r => { r with arrivals := rest })).takeRequest p a
    | [] => s)

/-- HANDOFF_REPLY (R132, R353, R355): the oldest arrived reply is used, or discarded and counted. -/
def execHandoffReply (p : Part) (s : State) : Host.Outcome State Fault Refusal :=
  .next (match (s.part p).replies with
    | [] => s
    | m :: rest =>
      let s := s.setPart p (fun r => { r with replies := rest })
      if (s.part p).state = .rebuilding then s.discarded p 1
      else match s.sends.find? (fun r => r.mid == m.hdr.mid && r.part == p) with
        | none => s.countLate p
        | some r =>
          let st := replyStatus (Status.ofNum m.hdr.status) m.hdr.degraded
          let pay := m.payload.take r.resMax
          if r.replyTrv && ! st.failed then
            let (a, ok) := appendOf m.payload
            let a := { a with poison := m.poison.isSome }
            let s := if ok then { s with trv := { s.trv with appends := s.trv.appends ++ [a] } }
              else s.trvCount a.sess 2 a.frames
            s.sendDone r st 0 (m.hdr.aux % 65536) m.hdr.srcPart.val
          else
            let s := if pay.isEmpty then s else s.winWrite p r.res pay (m.poison.getD 0)
            s.sendDone r st pay.length (m.hdr.aux % 65536) m.hdr.srcPart.val)

/-- REPLY_TIMEOUT (R355): REPLY_MS after its last flit, at the end of that Col tick, the request of a MID ends. -/
def execReplyTimeout (p : Part) (tag : Nat) (s : State) : Host.Outcome State Fault Refusal :=
  .next (match s.sends.find? (fun r => r.mid == tag && r.part == p) with
    | some r =>
      (match r.sentAt with
      | some t => s.when (decide (((t + msCyc s.replyMs) / 32 + 1) * 32 ≤ s.now)) (fun s =>
          (s.countTimeout p).sendDone r (stTimeout 5) 0 0 r.dstPart.val)
      | none => s)
    | none => s)

/-- OUTBOUND_APPEND (R356, R425): the k-th waiting append is applied once no waiting append of its session comes before
it, or is discarded. -/
def execOutboundAppend (k : Nat) (s : State) : Host.Outcome State Fault Refusal :=
  .next (match s.trv.appends[k]? with
    | none => s
    | some a =>
      let rest := s.trv.appends.take k ++ s.trv.appends.drop (k + 1)
      let gone := fun (s : State) =>
        { s with trv := { s.trv with appends := rest
                                     pcnt := updWith s.trv.pcnt a.part (fun v => updWith v 2 (fun c => satAdd c a.frames 1023)) } }
      match s.sess a.sess with
      | none => gone s
      | some x =>
        if x.part ≠ a.part then gone s
        else
          let dist := fun (q : Nat) => (q + 2 ^ 32 - x.firstSeq) % 2 ^ 32
          let before := (s.trv.appends.take k).any (fun b => b.sess == a.sess && decide (dist b.seq ≤ dist a.seq))
            || (s.trv.appends.drop (k + 1)).any (fun b => b.sess == a.sess && decide (dist b.seq < dist a.seq))
          s.when (! before) (fun s =>
            let s := { s with trv := { s.trv with appends := rest } }
            match x.out.appendSeq with
            | some q =>
              if dist a.seq < dist q then s.trvCount a.sess 2 a.frames
              else ((s.append a.sess a.frames a.seams a.data (if a.poison then 0xB else 0)).2).setOut a.sess
                (fun o => { o with appendSeq := some a.seq })
            | none => ((s.append a.sess a.frames a.seams a.data (if a.poison then 0xB else 0)).2).setOut a.sess
                (fun o => { o with appendSeq := some a.seq })))

end Sys2Proof.Machine
end

