-- ==== Sys2Proof/Machine/Optics.lean ====
section
/-! DEFINITION. The commands of the Chrodom physical layer (R308 to R331): loop frames, conversions, lane moves, frame
alignment, trackers, retrains and the link PLL. -/

namespace Sys2Proof.Machine

/-! ## Loop frames -/

/-- R316: a ring in TRACK that became unlocked leaves for HOLD; its position is out of service. In a full calibration it
fails instead (R389), and in an acquisition it did not lock. -/
def State.ringUnlock (s : State) (p : Port) (k : Fin 36) : State :=
  let rx := decide (18 ≤ k.val)
  let g : Pos := ⟨k.val % 18, Nat.mod_lt _ (by decide)⟩
  let s := s.setRing p k (fun x => { (x.enter .hold) with unlock := true })
  let s := s.setPort p (fun r => { r with cUnlocks := satAdd r.cUnlocks 1 0xFFFF })
  let s := s.log 0 0x0A 1 (detailOf p.val k.val)
  if (s.port p).cal.isSome && ! rx then s.calRingOff p g
  else match (s.port p).acq.find? (fun a => a.rx == rx && a.pos == g) with
    | some a => s.acqFail p a 2
    | none => s.posFault p rx g (if rx then 2 else 1)

/-- R392: at the frame at which a slot's position enters CAL, each end saves its ring; the transmitter sweeps, and the
receiver holds. -/
def State.slotEnter (s : State) (p : Port) : State :=
  match (s.link p).slot with
  | some x =>
    let rx := ! x.tx
    let here := s.pos p rx x.pos
    let due := here == .cal || (here == .warm && reached ((s.port p).dirFrame rx s.now) x.frame)
    if x.stage = 0 ∧ due then
      let s := s.setPos p rx x.pos .cal
      let y := s.ring p x.ring
      let x := { x with stage := if rx then 2 else 1, saved := (y.u, y.bias, y.target, y.mode) }
      let s := s.setLink p (fun l => { l with slot := some x })
      if rx then s.setRing p x.ring (fun y => y.enter .hold) else s.startAcq p false x.pos true
    else s
  | none => s

/-- R394: the transmitter's side of a rollback ends when its ring is locked. -/
def State.slotRested (s : State) (p : Port) : State :=
  match (s.link p).slot with
  | some x =>
    if x.stage = 4 ∧ x.tx = true ∧ (s.ring p x.ring).lock = true ∧ s.pos p false x.pos = .cal then
      (s.slotOver p).becomeWarm p false x.pos
    else s
  | none => s

/-- R329: a position of the transmit direction in RETRAIN is WARM once the peer's retrain must have ended (log 45). -/
def State.txRested (s : State) (p : Port) : State :=
  s.each ((s.port p).inState false .retrain) (fun s g =>
    if s.past (tget (tget (s.port p).tried 0) g).2 (usCyc 500) then s.becomeWarm p false g else s)

/-- R344, R347: a port with its PLL locked goes on when light and rings allow; it goes down when its lasers are lost. -/
def State.portFollow (s : State) (p : Port) : State :=
  let r := s.port p
  if ! r.txLight && decide (3 ≤ r.state) && decide (r.state < 7) then
    let s := s.portDark p 2
    match (s.link p).st with
    | .up => s.linkRetrain p
    | .sync | .miswired => s.linkDown p
    | _ => s
  else (s.portTry p).portUp p

/-- R376: the fibre-seat check, on each fresh sample of tap A. -/
def State.seatCheck (s : State) (p : Port) (tapFresh : Bool) : State :=
  if ! tapFresh then s
  else
    let s := s.setPort p (fun r => { r with seatLow := if r.tapDark then min 4 (r.seatLow + 1) else 0 })
    let die := p.val / 4
    if 9 ≤ s.aboveIdle ∧ (allPorts.filter (fun q => q.val / 4 = die)).all (fun q => decide (4 ≤ (s.port q).seatLow)) then
      let s := s.seatFault die
      s.each allPorts (fun s q => if q.val / 4 = die then s.setPort q (fun r => { r with seatLow := 0 }) else s)
    else s

/-- RING_FRAME (R308 to R320, R322, R376, R386 to R393): one loop frame of a port: its conversions; the calibration work;
the heater codes of the coming frame, from the intentions before this frame's update; then the update. -/
def execRingFrame (p : Port) (codes : List Nat) (s : State) : Host.Outcome State Fault Refusal :=
  .next (s.when (s.start.sysLock && ! s.start.resetHeld) (fun s =>
    let x := (s.port p).scan codes s.now
    let s := s.setPort p (fun _ => x.1)
    let s := (s.acqFrames p x.2.1).calFrame p x.2.1
    let s := s.setPort p (fun r => r.boundary.loops x.2.1)
    let s := s.each (List.finRange 36) (fun s k =>
      let y := s.ring p k
      if y.mode = .track ∧ 8 ≤ y.bad then s.ringUnlock p k else s)
    let s := ((s.slotEnter p).slotRested p).txRested p
    let s := ((s.portFollow p).seatRetry).seatCheck p x.2.2
    s.setPort p (fun r => { r with frame := r.frame + 1 })))

/-- R321: a write of OPH_ADC_REQ. -/
def State.adcRequest (s : State) (p : Port) (v : Nat) : State :=
  if fld v 5 0 < 40 then
    s.setPort p (fun r => { r with reqIn := fld v 5 0, reqGain := fld v 9 8, reqImm := bitAt v 10, reqPend := true
                                   res := r.res % 2 ^ 31 })
  else s

/-- ADC_REQUEST (R321, R65, R459). -/
def execAdcRequest (p : Port) (val : W32) (s : State) : Host.Outcome State Fault Refusal :=
  .next (s.when (s.served && s.isReady) (fun s => s.adcRequest p val.toNat))

/-! ## Lane moves (R325, R326, R329) -/

/-- R329: a receive position begins its retrain. -/
def State.rxRetrain (s : State) (p : Port) (g : Pos) : State :=
  (s.setPos p true g .retrain).setPort p (fun r => { r with
    cRetrains := satAdd r.cRetrains 1 0xFFFF
    trk := updWith r.trk g (fun t => { t with dsRec := [], retrains := satAdd t.retrains 1 0xFFFF, since := some s.now, pend := false }) })

/-- R325, R326: the old position of a completed move enters the state that its cause names. -/
def State.leavePos (s : State) (p : Port) (rx : Bool) (g : Pos) (cause : Nat) : State :=
  if rx && ((tget (s.port p).trk g).pend || decide (cause = 3)) then s.rxRetrain p g
  else if cause = 3 then
    (s.setPos p rx g .retrain).setPort p (fun r =>
      { r with tried := updWith r.tried (dirIdx rx) (fun t => upd t g (0, s.now)) })
  else if cause = 0 then (s.setPos p rx g .cal).slotEnter p
  else s.setFault p rx g

/-- R325: a move completes at this end: its lane rides the spare. -/
def State.moveDone (s : State) (p : Port) (rx : Bool) (m : LaneMove) : State :=
  let s := s.setPort p (fun r =>
    let r := (r.setLane rx m.lane m.dst).setPos rx m.dst .active
    { r with cMoves := satAdd r.cMoves 1 0xFFFF
             txMoves := if rx then r.txMoves else r.txMoves.filter (fun x => x.lane ≠ m.lane)
             rxMoves := if rx then r.rxMoves.filter (fun x => x.lane ≠ m.lane) else r.rxMoves })
  s.leavePos p rx m.frm m.cause

/-- LANE_MOVE_SWITCH (R325): the transmitter leaves the old position at frame N + 4 of an acknowledged move; the receiver
takes the lane from the spare at the first frame from N to N + 3 at which it is WARM, and else the direction is
retrained. -/
def execLaneMoveSwitch (p : Port) (rx : Bool) (s : State) : Host.Outcome State Fault Refusal :=
  let r := s.port p
  .next (if rx then
      match r.rxMoves.find? (fun m => reached (r.rxFrame s.now) m.n) with
      | some m =>
        if r.pos true m.dst = .warm then s.moveDone p true m
        else if reached (r.rxFrame s.now) ((m.n + 4) % 2 ^ 32) then s.dirRetrain p true
        else s
      | none => s
    else
      match r.txMoves.find? (fun m => m.acked && m.dst ≠ m.frm && reached (r.txFrame s.now) ((m.n + 4) % 2 ^ 32)) with
      | some m => s.moveDone p false m
      | none => s)

/-! ## Frame alignment (R323) -/

/-- R323: a training header passes its check. -/
def hdrOk (h : List Byte) : Bool := leAt h 0 4 == 0x5C3A96E1 && crc32c (h.take 12) == leAt h 12 4
/-- GRID, PORT, DEV, STATE and LANE of a training header. -/
def hdrField (h : List Byte) (hi lo : Nat) : Nat := fld (leAt h 4 4) (hi - 32) (lo - 32)

/-- R323, R329, R391, R393, R394: a receive position has become frame-aligned on these headers. -/
def State.aligned (s : State) (p : Port) (g : Pos) (h : List Byte) : State :=
  let lane := hdrField h 52 48
  let acq := (s.port p).acq.find? (fun a => a.rx && a.pos == g && a.idx == acqWait)
  match s.pos p true g with
  | .train =>
    let s := match acq with | some a => s.acqDone p a | none => s
    let s := if hl : lane < 16 then s.setPort p (fun r => (r.setLane true ⟨lane, hl⟩ g).setPos true g .active)
      else s.becomeWarm p true g
    s.portUp p
  | .retrain => s.setPort p (fun r => { (r.setPos true g .warm) with trk := updWith r.trk g (fun t => { t with since := none }) })
  | .fault => match acq with | some a => s.acqDone p a | none => s
  | .cal =>
    match acq, (s.link p).slot with
    | some a, _ => s.acqDone p a
    | none, some x => if x.stage = 4 ∧ x.tx = false ∧ x.pos = g then (s.slotOver p).becomeWarm p true g else s
    | none, none => s
  | _ => s

/-- FRAME_ALIGNED (R323): headers arrive on a receive position. Every good one reports the peer; one of another GRID means a
neighbouring wavelength; 8 good ones in a row align the position, whose ring is locked. -/
def execFrameAligned (p : Port) (g : Pos) (hdrs : List (List Byte)) (s : State) : Host.Outcome State Fault Refusal :=
  let good := hdrs.filter hdrOk
  .next (s.when (decide (3 ≤ (s.port p).state) && decide ((s.port p).state < 7)) (fun s =>
    match good.getLast? with
    | none => s
    | some h =>
      let s := s.setPort p (fun r => { r with
        peer := some (hdrField h 44 40, hdrField h 39 37)
        rxBase := (leAt h 8 4 + 2 ^ 32 - s.now * 35 / 64 % 2 ^ 32) % 2 ^ 32 })
      if good.any (fun h => hdrField h 36 32 ≠ g.val) then
        let s := s.setRing p (rxRing g) (fun x => { (x.enter .hold) with unlock := true })
        match (s.port p).acq.find? (fun a => a.rx && a.pos == g) with
        | some a => s.acqFail p a 2
        | none => s.posFault p true g 2
      else
        let last := hdrs.drop (hdrs.length - 8)
        if decide (8 ≤ hdrs.length) && last.all hdrOk && (s.ring p (rxRing g)).lock then s.aligned p g h else s))

/-! ## The phase tracker (R328, R329) -/

/-- TRACKER_DOUBLE_STEP (R328): the step is counted and recorded; a third within 781 ticks of the first of three makes a
retrain due. -/
def execTrackerDoubleStep (p : Port) (g : Pos) (s : State) : Host.Outcome State Fault Refusal :=
  let at_ := s.pos p true g
  .next (s.when (at_ == .active || at_ == .warm) (fun s =>
    let t := tget (s.port p).trk g
    let l := t.dsRec ++ [s.time]
    let due := decide (3 ≤ l.length) && decide (s.time - l.headD 0 ≤ 781)
    let s := s.setPort p (fun r => { r with trk := updWith r.trk g (fun t =>
      { t with double := satAdd t.double 1 0xFFFF, dsRec := if 3 ≤ l.length then l.drop 1 else l, pend := t.pend || (due && at_ == .active) }) })
    if ! due then s
    else if at_ = .warm then s.rxRetrain p g
    else if t.pend || (s.port p).rxMoves.any (fun m => m.frm == g) then s
    else s.posFault p true g 3))

/-- POSITION_RETRAIN_TIMEOUT (R329). -/
def execPositionRetrainTimeout (p : Port) (g : Pos) (s : State) : Host.Outcome State Fault Refusal :=
  .next (match (tget (s.port p).trk g).since with
    | some t => s.when (s.pos p true g == .retrain && s.past t (usCyc 500)) (fun s =>
        (s.setPort p (fun r => { r with trk := updWith r.trk g (fun t => { t with since := none }) })).setFault p true g)
    | none => s)

/-- DIRECTION_RETRAIN (R330): a move has no spare, and no rollback that could give one is still within its time. -/
def execDirectionRetrain (p : Port) (rx : Bool) (s : State) : Host.Outcome State Fault Refusal :=
  let r := s.port p
  let need := ! rx && r.txMoves.any (fun m => m.dst == m.frm) && (r.inState false .warm).isEmpty
  let lost := rx && r.rxMoves.any (fun m => r.pos true m.dst != .warm && reached (r.rxFrame s.now) ((m.n + 4) % 2 ^ 32))
  let wait := match (s.link p).slot with
    | some x => decide (x.stage = 4) && ! s.past x.backAt (msCyc 5)
    | none => false
  .next (s.when (decide (r.state = 4) && (need || lost) && ! wait) (fun s => s.dirRetrain p rx))

/-! ## The link PLL (R331) -/

/-- LINK_PLL_LOCKED (R331): the first lock of an enabled port; it proceeds to rings and training. -/
def execLinkPllLocked (p : Port) (s : State) : Host.Outcome State Fault Refusal :=
  let r := s.port p
  .next (s.when (decide (r.state = 1) && ! r.pll && ! r.lost) (fun s =>
    (s.setPort p (fun r => { r with pll := true, state := 2, txBase := s.now })).portTry p))

/-- LINK_PLL_LOCK_LOST (R331): both directions stop; positions go OFF and rings stay in their modes. -/
def execLinkPllLockLost (p : Port) (s : State) : Host.Outcome State Fault Refusal :=
  .next (s.when (s.port p).pll (fun s =>
    let s := s.portDark p 1
    let s := s.setPort p (fun r => { r with pll := false, tries := 0, lost := true })
    let s := s.setLink p (fun l => { l with locked := rep 16 false })
    match (s.link p).st with
    | .up => s.linkRetrain p
    | .sync | .miswired => s.linkDown p
    | _ => s))

/-- LINK_PLL_RELOCK_DONE (R331, R344): an attempt ends; after the third failure the port is FAILED until the next start. -/
def execLinkPllRelockDone (p : Port) (ok : Bool) (s : State) : Host.Outcome State Fault Refusal :=
  let r := s.port p
  .next (s.when (decide (r.state = 1) && ! r.pll && r.lost) (fun s =>
    let s := s.setPort p (fun r => { r with tries := r.tries + 1 })
    if ok then (s.setPort p (fun r => { r with pll := true, state := 2, lost := false })).portTry p
    else if 3 ≤ (s.port p).tries then
      let s := s.setPort p (fun r => { r with state := 7 })
      let s := s.linkLeave p .failed
      s.log 2 0x0A 3 (detailOf p.val 0)
    else s))

end Sys2Proof.Machine
end

