-- ==== Sys2Proof/Machine/Ras.lean ====
section
/-! DEFINITION. Device-fatal errors (R429, R430). -/

namespace Sys2Proof.Machine

/-- R430: the system PLL is lost: the fatal record, cause 0x05, and a cut at once, even while a stop runs. -/
def State.sysPllLost (s : State) : State :=
  if s.start.sysLock then
    ((s.countLock.log 3 0x01 3 (detailOf 0xFE 0)).setCause 5).cutNow .fatal
  else s

/-- R429, R430: the management watchdog expires once a start is ready. -/
def State.watchdogFatal (s : State) : State := if s.isReady then (s.log 3 0x0F 1 0).deviceFatal else s

/-- DEVICE_FATAL (R429, R430): the record, then the orderly stop, or a cut when the system PLL is lost. -/
def execDeviceFatal (c : FatalCause) (s : State) : Host.Outcome State Fault Refusal :=
  .next (match c with
    | .sysPll => s.sysPllLost
    | .trvPll => s.when s.start.trvLock (fun s =>
        let s := s.countLock.log 3 0x01 3 (detailOf 0xFF 0)
        ({ s with start := { s.start with trvLock := false } } : State).deviceFatal)
    | .mgmtUe => s.when (s.live && s.start.phase != .safe) (fun s => (s.log 3 0x0F 2 0).deviceFatal)
    | .mgmtWatchdog => s.watchdogFatal)

/-- MGMT_WATCHDOG_EXPIRY (R429). -/
def execMgmtWatchdogExpiry (s : State) : Host.Outcome State Fault Refusal := .next s.watchdogFatal

end Sys2Proof.Machine
end

