-- ==== Sys2Proof/Machine/RegMap.lean ====
section
/-! DEFINITION. The register map: the registers of the two spaces, their offsets and widths (R7, R456; 22). -/

namespace Sys2Proof.Machine

/-- The registers, in the order of the register map, each with its indexes. -/
inductive Reg
  | colId | colSerial | colTime | colStatus | colStart | colLife | clkPllStat | clkSysStat | clkQstate (q : Quad)
  | clkQpol (q : Quad) | clkQforce | clkQwait (q : Quad) | caiStatus | caiSweepTime | caiRdCtrl | caiRdData
  | caiRdStat | caiProgStat | caiProgTime | strLoadStat | strFrameErr | strBytes | strLoadTime
  | strActiveId (n : Fin 4) | strActiveGen | strActiveSeq | strActiveKey | strPartSeq (p : Part)
  | prtState (p : Part) | prtQctl (p : Part) | prtTokens (p : Part) | prtQtime (p : Part) | prtQcount (p : Part)
  | prtSliceWait (p : Part) | trvStatus | trvEpoch | trvPeriod | trvSessSel | trvSessStat | trvPcfg (p : Part)
  | trvPcnt (p : Part) | cstQstat (q : Quad) | cstCap (q : Quad) | cstPcfg (p : Part) | cstQcnt (q : Quad)
  | cstFault (q : Quad) | cncEstat (e : Quad) | cncLedger (e : Quad) | cncLb (e : Quad) | cncEcnt (e : Quad)
  | cncFault (e : Quad) | spuCfg | spuPool (k : Stack) | spuFiring (k : Stack) | spuGret (k : Stack)
  | spuMaskcnt (k : Stack) | spuPcnt (p : Part) | spuPstat (p : Part) | spuFault (p : Part) | spuMask (g : Group)
  | dmcCfg | dmcStack (k : Stack) | dmcScrubTime | dmcBound | dmcUeLast | dmcPwin (p : Part) | dmcChq (c : Chan)
  | dmcEcnt (c : Chan) | ophPort (p : Port) | ophPeer (p : Port) | ophLoopCfg (p : Port) | ophAdcCfg (p : Port)
  | ophAdcReq (p : Port) | ophAdcRes (p : Port) | ophCnt (p : Port) | ophGrid (p : Port) (d : Fin 2)
  | ophLmap (p : Port) (d : Fin 2) (w : Fin 2) | ophRingTrim (p : Port) (k : Fin 36)
  | ophRingCtl (p : Port) (k : Fin 36) | ophRingStat (p : Port) (k : Fin 36) | ophXt (p : Port) (k : Pos) (w : Fin 5)
  | ophAdcLast (p : Port) (i : Fin 40) | ophTrk (p : Port) (g : Pos) | chlCfg | chlLink (p : Port)
  | chlPeerSerial (p : Port) | chlCnt (p : Port) | chlFecCe (p : Port) | chlCred (p : Port) (v : Fin 4)
  | chlPmsg (q : Part) | lsrTrip | lsrTripClr | lsrTripTime | lsrGate | lsrCtg | lsrCtgSerial | lsrLaser (n : Fin 20)
  | calCfg | calStat | calSnap | calSeq | calCnt (p : Port) | calRtime (p : Port) (k : Fin 36) | thmCfg | thmStatus
  | thmReq | thmRes | thmResTime | thmShut | thmShutTime | thmCnt | thmDiode (n : Fin 4) | thmTherm (n : Fin 5)
  | rasStatus | rasCtrl | rasLog | rasCnt | rasFatal (w : Fin 4) | rasPfail (p : Part) | mbxStartPhase | mbxStartProg
  | mbxStartTime | mbxRestart | mbxStartReason | mbxReqBase | mbxRspBase | mbxRingCtrl | mbxRingStat | mbxReqTail
  | mbxRspHead | mbxWinBase | vfpStatus (p : Part) | vfpQtime (p : Part) | vfpSlotctl (p : Part)
  | vfpEvtCtrl (p : Part) | vfpEvtStat (p : Part) | vfpFailctl (p : Part) | vfpSqBase (p : Part) (q : Queue)
  | vfpCqBase (p : Part) (q : Queue) | vfpQCtrl (p : Part) (q : Queue) | vfpQStat (p : Part) (q : Queue)
  | vfpQDepth (p : Part) (q : Queue) | vfpSqTail (p : Part) (q : Queue) | vfpCqHead (p : Part) (q : Queue)
  deriving DecidableEq, Repr

/-- R7: the registers of 64 bits. -/
def Reg.wide : Reg → Bool
  | .colSerial | .colTime | .colLife | .clkQpol .. | .caiSweepTime | .caiProgTime | .strLoadTime
  | .prtTokens .. | .prtQtime .. | .trvEpoch | .trvSessStat | .trvPcfg .. | .trvPcnt .. | .cstQcnt ..
  | .cncLedger .. | .cncEcnt .. | .spuFiring .. | .spuGret .. | .spuPcnt .. | .dmcScrubTime | .dmcUeLast
  | .dmcPwin .. | .dmcEcnt .. | .ophLoopCfg .. | .ophCnt .. | .ophGrid .. | .ophLmap .. | .ophRingStat ..
  | .ophTrk .. | .chlPeerSerial .. | .chlCnt .. | .chlFecCe .. | .chlPmsg .. | .lsrTripTime | .lsrCtgSerial
  | .calCfg | .calSnap | .calSeq | .calCnt .. | .calRtime .. | .thmCfg | .thmStatus | .thmRes | .thmResTime
  | .thmShut | .thmShutTime | .thmCnt | .rasLog | .rasCnt | .rasFatal .. | .rasPfail .. | .mbxStartTime
  | .mbxReqBase | .mbxRspBase | .vfpQtime .. | .vfpSqBase .. | .vfpCqBase .. => true
  | _ => false

/-- A register without an index at `base`. -/
def at1 (off base : Nat) (r : Reg) : Option Reg := if off = base then some r else none

/-- An indexed register: index i at `base + stride × i`, for i below n. -/
def atN (n base stride : Nat) (off : Nat) (f : Fin n → Reg) : Option Reg :=
  if h : base ≤ off ∧ (off - base) % stride = 0 ∧ (off - base) / stride < n then some (f ⟨_, h.2.2⟩) else none

/-- A register of a group: group i at `base + stride × i`, for i below n; `f` reads the rest of the offset. -/
def atG (n base stride : Nat) (off : Nat) (f : Fin n → Nat → Option Reg) : Option Reg :=
  if h : base ≤ off ∧ (off - base) / stride < n then f ⟨_, h.2⟩ ((off - base) % stride) else none

/-- The first of a list of alternatives. -/
def firstReg : List (Option Reg) → Option Reg
  | [] => none
  | some r :: _ => some r
  | none :: t => firstReg t

/-- The COL_ block. -/
def colReg (off : Nat) : Option Reg :=
  firstReg [
    at1 off 0x0 .colId, at1 off 0x8 .colSerial, at1 off 0x10 .colTime, at1 off 0x18 .colStatus,
    at1 off 0x1C .colStart, at1 off 0x20 .colLife]

/-- The CLK_ block. -/
def clkReg (off : Nat) : Option Reg :=
  firstReg [
    at1 off 0x0 .clkPllStat, at1 off 0x4 .clkSysStat, atN 16 0x100 0x4 off .clkQstate, atN 16 0x200 0x8 off .clkQpol,
    at1 off 0x300 .clkQforce, atN 16 0x400 0x4 off .clkQwait]

/-- The CAI_ block. -/
def caiReg (off : Nat) : Option Reg :=
  firstReg [
    at1 off 0x0 .caiStatus, at1 off 0x8 .caiSweepTime, at1 off 0x10 .caiRdCtrl, at1 off 0x14 .caiRdData,
    at1 off 0x18 .caiRdStat, at1 off 0x20 .caiProgStat, at1 off 0x28 .caiProgTime]

/-- The STR_ block. -/
def strReg (off : Nat) : Option Reg :=
  firstReg [
    at1 off 0x0 .strLoadStat, at1 off 0x4 .strFrameErr, at1 off 0x8 .strBytes, at1 off 0x10 .strLoadTime,
    atN 4 0x20 0x4 off .strActiveId, at1 off 0x30 .strActiveGen, at1 off 0x34 .strActiveSeq,
    at1 off 0x38 .strActiveKey, atN 16 0x40 0x4 off .strPartSeq]

/-- The PRT_ block. -/
def prtReg (off : Nat) : Option Reg :=
  firstReg [
    atN 16 0x0 0x40 off .prtState, atN 16 0x4 0x40 off .prtQctl, atN 16 0x8 0x40 off .prtTokens,
    atN 16 0x10 0x40 off .prtQtime, atN 16 0x18 0x40 off .prtQcount, atN 16 0x1C 0x40 off .prtSliceWait]

/-- The TRV_ block. -/
def trvReg (off : Nat) : Option Reg :=
  firstReg [
    at1 off 0x0 .trvStatus, at1 off 0x8 .trvEpoch, at1 off 0x10 .trvPeriod, at1 off 0x20 .trvSessSel,
    at1 off 0x28 .trvSessStat, atN 16 0x100 0x8 off .trvPcfg, atN 16 0x200 0x8 off .trvPcnt]

/-- The CST_ block. -/
def cstReg (off : Nat) : Option Reg :=
  firstReg [
    atN 16 0x0 0x4 off .cstQstat, atN 16 0x40 0x4 off .cstCap, atN 16 0x100 0x4 off .cstPcfg,
    atN 16 0x200 0x8 off .cstQcnt, atN 16 0x300 0x4 off .cstFault]

/-- The CNC_ block. -/
def cncReg (off : Nat) : Option Reg :=
  firstReg [
    atN 16 0x0 0x4 off .cncEstat, atN 16 0x100 0x8 off .cncLedger, atN 16 0x200 0x4 off .cncLb,
    atN 16 0x300 0x8 off .cncEcnt, atN 16 0x400 0x4 off .cncFault]

/-- The SPU_ block. -/
def spuReg (off : Nat) : Option Reg :=
  firstReg [
    at1 off 0x0 .spuCfg, atN 8 0x10 0x4 off .spuPool, atN 8 0x40 0x8 off .spuFiring, atN 8 0x80 0x8 off .spuGret,
    atN 8 0xC0 0x4 off .spuMaskcnt, atN 16 0x100 0x8 off .spuPcnt, atN 16 0x180 0x4 off .spuPstat,
    atN 16 0x1C0 0x4 off .spuFault, atN 512 0x1000 0x4 off .spuMask]

/-- The DMC_ block. -/
def dmcReg (off : Nat) : Option Reg :=
  firstReg [
    at1 off 0x0 .dmcCfg, atN 8 0x10 0x4 off .dmcStack, at1 off 0x40 .dmcScrubTime, at1 off 0x48 .dmcBound,
    at1 off 0x50 .dmcUeLast, atN 16 0x100 0x8 off .dmcPwin, atN 128 0x400 0x4 off .dmcChq,
    atN 128 0x800 0x8 off .dmcEcnt]

/-- The CHL_ block. -/
def chlReg (off : Nat) : Option Reg :=
  firstReg [
    at1 off 0x0 .chlCfg, atN 8 0x100 0x40 off .chlLink, atN 8 0x108 0x40 off .chlPeerSerial,
    atN 8 0x110 0x40 off .chlCnt, atN 8 0x118 0x40 off .chlFecCe,
    atG 8 0x120 0x40 off (fun i o => atN 4 0 0x4 o (.chlCred i)), atN 16 0x1000 0x8 off .chlPmsg]

/-- The LSR_ block. -/
def lsrReg (off : Nat) : Option Reg :=
  firstReg [
    at1 off 0x0 .lsrTrip, at1 off 0x4 .lsrTripClr, at1 off 0x8 .lsrTripTime, at1 off 0x10 .lsrGate,
    at1 off 0x18 .lsrCtg, at1 off 0x20 .lsrCtgSerial, atN 20 0x100 0x4 off .lsrLaser]

/-- The CAL_ block. -/
def calReg (off : Nat) : Option Reg :=
  firstReg [
    at1 off 0x0 .calCfg, at1 off 0x8 .calStat, at1 off 0x10 .calSnap, at1 off 0x18 .calSeq,
    atN 8 0x100 0x8 off .calCnt, atG 8 0x1000 0x200 off (fun i o => atN 36 0 0x8 o (.calRtime i))]

/-- The THM_ block. -/
def thmReg (off : Nat) : Option Reg :=
  firstReg [
    at1 off 0x0 .thmCfg, at1 off 0x8 .thmStatus, at1 off 0x10 .thmReq, at1 off 0x18 .thmRes,
    at1 off 0x20 .thmResTime, at1 off 0x28 .thmShut, at1 off 0x30 .thmShutTime, at1 off 0x38 .thmCnt,
    atN 4 0x40 0x4 off .thmDiode, atN 5 0x50 0x4 off .thmTherm]

/-- The RAS_ block. -/
def rasReg (off : Nat) : Option Reg :=
  firstReg [
    at1 off 0x0 .rasStatus, at1 off 0x4 .rasCtrl, at1 off 0x8 .rasLog, at1 off 0x10 .rasCnt,
    atN 4 0x20 0x8 off .rasFatal, atN 16 0x100 0x8 off .rasPfail]

/-- The MBX_ block. -/
def mbxReg (off : Nat) : Option Reg :=
  firstReg [
    at1 off 0x0 .mbxStartPhase, at1 off 0x4 .mbxStartProg, at1 off 0x8 .mbxStartTime, at1 off 0x10 .mbxRestart,
    at1 off 0x14 .mbxStartReason, at1 off 0x20 .mbxReqBase, at1 off 0x28 .mbxRspBase, at1 off 0x30 .mbxRingCtrl,
    at1 off 0x34 .mbxRingStat, at1 off 0x38 .mbxReqTail, at1 off 0x3C .mbxRspHead, at1 off 0x40 .mbxWinBase]

/-- The OPH_ group of a port. -/
def ophReg (p : Port) (off : Nat) : Option Reg :=
  firstReg [
    at1 off 0x0 (.ophPort p), at1 off 0x8 (.ophPeer p), at1 off 0x10 (.ophLoopCfg p), at1 off 0x18 (.ophAdcCfg p),
    at1 off 0x1C (.ophAdcReq p), at1 off 0x20 (.ophAdcRes p), at1 off 0x28 (.ophCnt p),
    atN 2 0x40 0x8 off (.ophGrid p), atG 2 0x50 0x10 off (fun i o => atN 2 0 0x8 o (.ophLmap p i)),
    atN 36 0x100 0x4 off (.ophRingTrim p), atN 36 0x200 0x4 off (.ophRingCtl p),
    atN 36 0x400 0x8 off (.ophRingStat p), atG 18 0x600 0x20 off (fun i o => atN 5 0 0x4 o (.ophXt p i)),
    atN 40 0x900 0x4 off (.ophAdcLast p), atN 18 0xA00 0x8 off (.ophTrk p)]

/-- The partition space of a virtual function. -/
def vfpReg (p : Part) (off : Nat) : Option Reg :=
  firstReg [
    at1 off 0x0 (.vfpStatus p), at1 off 0x8 (.vfpQtime p), at1 off 0x10 (.vfpSlotctl p),
    at1 off 0x14 (.vfpEvtCtrl p), at1 off 0x18 (.vfpEvtStat p), at1 off 0x20 (.vfpFailctl p),
    atN 8 0x100 0x40 off (.vfpSqBase p), atN 8 0x108 0x40 off (.vfpCqBase p), atN 8 0x110 0x40 off (.vfpQCtrl p),
    atN 8 0x114 0x40 off (.vfpQStat p), atN 8 0x118 0x40 off (.vfpQDepth p), atN 8 0x1000 0x8 off (.vfpSqTail p),
    atN 8 0x1004 0x8 off (.vfpCqHead p)]

/-- R456: the register at an offset of a space; none where no register lies. -/
def regAt : Space → Nat → Option Reg
  | .vf p, off => vfpReg p off
  | .pf, off =>
    let o := off % 0x10000
    match off / 0x10000 with
    | 0 => colReg o
    | 1 => clkReg o
    | 2 => caiReg o
    | 3 => strReg o
    | 4 => prtReg o
    | 5 => trvReg o
    | 6 => cstReg o
    | 7 => cncReg o
    | 8 => spuReg o
    | 9 => dmcReg o
    | 10 => atG 8 0 0x1000 o ophReg
    | 11 => chlReg o
    | 12 => lsrReg o
    | 13 => calReg o
    | 14 => thmReg o
    | 15 => rasReg o
    | 16 => mbxReg o
    | _ => none

end Sys2Proof.Machine
end

