-- ==== Sys2Proof/Machine/Thermal.lean ====
section
/-! DEFINITION. Sensor readings and what they decide (R407 to R418): throttling, the restore timer, lapses and shutdown;
and the thermal requests. -/

namespace Sys2Proof.Machine

/-! ## Lapses (R409) -/

/-- R409: ring oscillator n of the logic die is overdue: its quad is not in Off and it has had no reading for LAPSE_MS.
A sensor with no reading yet counts from the beginning of the start. -/
def State.overdue (s : State) (n : Nat) : Bool :=
  if h : n < 64 then
    let q : Quad := ⟨n / 4, by omega⟩
    (s.quad q).st != .off && s.past (match (s.sens ⟨n, by omega⟩).last with | some (_, t) => t | none => s.start.begun)
      (msCyc s.thm.lapseMs)
  else false

/-- THERMAL_LAPSE (R409): a sensor has had no reading for LAPSE_MS. -/
def execThermalLapse (n : Nat) (s : State) : Host.Outcome State Fault Refusal :=
  .next (s.when (s.overdue n && ! s.thm.lapse && s.start.stop.isNone) (fun s =>
    let s := { s with thm := { s.thm with lapse := true, cLapses := satAdd s.thm.cLapses 1 0xFFFF } }
    (s.log 1 0x0E 1 (detailOf 0 n)).alertNow))

/-! ## One reading -/

/-- THM_RES: the host's pending request for this sensor is answered (R407). -/
def State.hostReading (s : State) (sel : Nat) (temp : Int) (fault : Bool) : State :=
  if s.thm.busy ∧ s.thm.reqSel = sel then
    { s with thm := { s.thm with
      busy := false, resValid := true, resFault := fault, resSel := sel, resTemp := temp, resTime := s.time } }
  else s

/-- R408: the reading becomes the sensor's latest; a FAULT clears its rate history. -/
def State.keepReading (s : State) (sel : Fin 113) (temp : Int) (fault : Bool) : State :=
  { s with thm := { s.thm with sens := updWith s.thm.sens sel (fun x =>
    if fault then { x with fault := true, prev := none }
    else { last := some (temp, s.now), fault := false, prev := if x.fault then none else x.last }) } }

/-- R412, step 1: the reading lowers L_T by one step. -/
def State.throttle (s : State) (sel : Fin 113) (temp : Int) : State :=
  let t := s.thm
  let lim : Int := (if isStackSens sel.val then t.stackC else t.throttleC) * 16
  let fresh := match t.fallAt with | some a => s.past a (usCyc 50) | none => true
  if isJunction sel.val && (isRo sel.val || isStackSens sel.val) && decide (lim ≤ temp) && fresh && decide (0 < t.limT) then
    { s with thm := { t with limT := t.limT - 1, fallAt := some s.now, stackFall := isStackSens sel.val } }
  else s

/-- R412, step 2: every latest junction reading is below its threshold less HYST_C. -/
def State.cool (s : State) : Bool :=
  allSens.all (fun i =>
    if isJunction i.val then
      match (s.sens i).temp with
      | some t => decide (t < (((if isStackSens i.val then s.thm.stackC else s.thm.throttleC) : Int) - s.thm.hystC) * 16)
      | none => true
    else true)

/-- R412, step 2: the restore timer runs, or stops and is set to 0. -/
def State.restoreTimer (s : State) : State :=
  { s with thm := { s.thm with restore := if s.cool then some (s.thm.restore.getD s.now) else none } }

/-- R413: the rate as an exact quotient: the rise in 1/16 °C times 25,000, over the crystal cycles between the readings;
0 when they are less than 100 µs or more than 5 ms apart. -/
def SensSt.rate (x : SensSt) : Int × Nat :=
  match x.last, x.prev with
  | some (t, a), some (u, b) => if b + 2500 ≤ a ∧ a ≤ b + 125000 then ((t - u) * 25000, a - b) else (0, 1)
  | _, _ => (0, 1)

/-- R413: 0 no shutdown, 1 an orderly stop, 2 a cut at once. -/
def shutKind (temp num : Int) (den : Nat) : Nat :=
  if 8 * (den : Int) ≤ num ∧ 1888 * (den : Int) ≤ temp * den + 2 * num then 2
  else if 1888 ≤ temp then 1
  else 0

/-- R414: a shutdown: THM_SHUT, the fatal record and cause 0x08; then the stop, or the cut. A stop in progress goes on as
the stop of a shutdown, or ends in the cut. -/
def State.shutdown (s : State) (sel : Nat) (temp num : Int) (den kind : Nat) : State :=
  let s := { s with thm := { s.thm with
    shKind := kind, shSel := sel, shRate := roundOpen 0x1900 num den, shTemp := temp, shTime := s.time } }
  let s := s.setCause 8
  let s := s.log 3 0x0E 2 (detailOf 0 (pack [(63, 62, kind), (46, 40, sel), (31, 16, unsgn 16 s.thm.shRate), (15, 0, unsgn 16 temp)]))
  if kind = 2 then s.cutNow .thermal
  else if s.start.stop.isSome then
    ({ s with start := { s.start with stop := some .thermal } } : State).setPhase .failed
  else s.orderlyStop .thermal

/-- DMC_STACK.TEMP: a stack's reading in whole °C (R284). -/
def State.stackReading (s : State) (sel : Nat) (temp : Int) : State :=
  if 105 ≤ sel then s.setStack (stackNo (sel - 105)) (fun k => { k with temp := temp / 16 }) else s

/-- R421: in a safe start only the sensors that the boot ROM requests, and the one that the host requests, are read. -/
def State.unread (s : State) (sel : Fin 113) : Bool :=
  s.start.phase == .safe && decide (64 ≤ sel.val) && (decide (sel.val < 92) || decide (96 ≤ sel.val))
    && ! (s.thm.busy && decide (s.thm.reqSel = sel.val))

/-- R366, R405 to R417: one converted reading and everything it decides. A reading of a stack in self-refresh is a FAULT. -/
def State.reading (s : State) (sel : Fin 113) (temp : Int) (fault : Bool) : State :=
  if s.start.resetHeld ∨ s.col.por ∨ s.start.thermHold ∨ s.unread sel then s
  else
    let fault := fault || (decide (105 ≤ sel.val) && (s.stack (stackNo (sel.val - 105))).sr)
    let s := (s.hostReading sel.val temp fault).keepReading sel temp fault
    if fault then s.alertNow
    else
      let s := s.stackReading sel.val temp
      let s := if sel.val = 104 then
          let s := { s with laser := { s.laser with temp := temp } }
          if 70 * 16 < temp then s.lasersDark else s
        else s
      let s := if s.start.phase = .safe then s else
        let s := s.throttle sel temp
        s.restoreTimer
      let s := if s.thm.lapse ∧ ! (List.range 64).any s.overdue then { s with thm := { s.thm with lapse := false } } else s
      let (num, den) := (s.sens sel).rate
      let k := if isRo sel.val then shutKind temp num den else 0
      let s := if k ≠ 0 ∧ (s.live ∨ s.start.stop.isSome) then s.shutdown sel.val temp num den k else s
      s.alertNow

/-- SENSOR_READING (R412). -/
def execSensorReading (r : Reading) (s : State) : Host.Outcome State Fault Refusal :=
  .next (s.reading r.sel r.temp r.fault)

/-! ## Requests -/

/-- R407: a write of THM_REQ starts, or replaces, the host's request; a selector above 112 is ignored. -/
def State.thmReqWrite (s : State) (v : Nat) : State :=
  let sel := fld v 6 0
  if sel ≤ 112 then { s with thm := { s.thm with reqSel := sel, busy := true, resValid := false } } else s

/-- THM_REQUEST (R407, R65). -/
def execThmRequest (val : W32) (s : State) : Host.Outcome State Fault Refusal :=
  .next (s.when s.served (fun s => s.thmReqWrite val.toNat))

/-- R419: the 8 bytes of one sensor's entry. -/
def State.thmEntry (s : State) (r : Reading) : List Byte :=
  leBytes 2 (unsgn 16 r.temp) ++ leBytes 1 (bnat r.fault) ++ leBytes 1 r.sel.val ++ leBytes 4 s.time

/-- THM_READ_ALL (R419): every sensor is measured, and 113 entries are written in selector order. -/
def execThmReadAll (readings : List Reading) (s : State) : Host.Outcome State Fault Refusal :=
  .next (s.onRequest 0x0100 (fun req =>
    let a := leAt req 0x10 8
    if s.start.phase == .safe then s.mbxAnswer req (stRefused 0xC)
    else if a % 8 ≠ 0 then s.mbxAnswer req (stRefused 4)
    else
      let rs := allSens.map (fun i => match readings.find? (fun r => r.sel == i) with
        | some r => { r with fault := r.fault || (decide (105 ≤ i.val) && (s.stack (stackNo (i.val - 105))).sr) }
        | none => { sel := i, temp := 0, fault := true })
      let bytes := rs.flatMap s.thmEntry
      let s := (s.mbxStart req).each rs (fun s r => s.reading r.sel r.temp r.fault)
      if s.mbx.busy.isSome then (s.hostWritePf a bytes).mbxDone stOk [(8, leBytes 4 113)] else s))

/-! ## The limit (R411, R412) -/

/-- LIMIT_STEP_DOWN (R411): L falls by one step toward the minimum of R410, at most one in 50 µs. -/
def execLimitStepDown (s : State) : Host.Outcome State Fault Refusal :=
  let due := match s.thm.downAt with | some t => s.past t (usCyc 50) | none => true
  .next (s.when (decide (s.limGoal < s.thm.lim) && due) (fun s =>
    let s := s.setLimit (s.thm.lim - 1)
    { s with thm := { s.thm with downAt := some s.now, cDown := satAdd s.thm.cDown 1 0xFFFF } }))

/-- R412, step 3: the restore timer has reached 10 ms: L_T rises by one step and the timer starts again. -/
def State.restoreStep (s : State) : State :=
  match s.thm.restore with
  | some t => if s.past t (msCyc 10) ∧ s.thm.limT < 16 then
      { s with thm := { s.thm with limT := s.thm.limT + 1, restore := some s.now } } else s
  | none => s

/-- LIMIT_STEP_UP (R411, R412): L_T is restored by a step when its timer says so, and L rises by one step toward the
minimum of R410, at most one in 10 ms. -/
def execLimitStepUp (s : State) : Host.Outcome State Fault Refusal :=
  let s := s.restoreStep
  let due := match s.thm.upAt with | some t => s.past t (msCyc 10) | none => true
  let s := s.when (decide (s.thm.lim < s.limGoal) && due) (fun s =>
    let s := s.setLimit (s.thm.lim + 1)
    { s with thm := { s.thm with upAt := some s.now, cUp := satAdd s.thm.cUp 1 0xFFFF } })
  .next s.alertNow

end Sys2Proof.Machine
end

