-- ==== Sys2Proof/Machine/RegRead.lean ====
section
/-! DEFINITION. What every register reads (R8, R458): the fields of each owning chapter, packed. WO and RSV fields read 0. -/

namespace Sys2Proof.Machine

/-! ## Field codes -/

/-- MBX_START_PHASE.PHASE. -/
def Phase.num : Phase → Nat
  | .rom => 1 | .firmware => 2 | .cairn => 3 | .bringUp => 4 | .commit => 5 | .ready => 6 | .readyEmpty => 7
  | .stopping => 8 | .safe => 0xE | .failed => 0xF

/-- STR_LOAD_STAT.STATE. -/
def LoadState.num : LoadState → Nat
  | .idle => 0 | .stageA => 1 | .copy => 2 | .stageB => 3 | .stageC => 4 | .staged => 5 | .prepare => 6
  | .switch => 7 | .committed => 8 | .failed => 9 | .released => 0xA

/-- PRT_STATE.STATE. -/
def PState.num : PState → Nat
  | .undefined => 0 | .running => 1 | .draining => 2 | .rebuilding => 3

/-- CAI_RD_STAT.CLASS. -/
def CairnClass.num : CairnClass → Nat
  | .blank => 0 | .final => 1 | .weak => 2

/-- CNC_ESTAT.STATE. -/
def CncState.num : CncState → Nat
  | .idle => 0 | .conv => 1 | .crop => 2 | .recode => 3 | .semWait => 4 | .ledgerWait => 5 | .publishStall => 6

/-- OPH_RING_CTL.MODE. -/
def RingMode.num : RingMode → Nat
  | .off => 0 | .hold => 1 | .track => 2

/-- The codes of R324. -/
def GState.num : GState → Nat
  | .off => 0 | .active => 1 | .warm => 2 | .cal => 3 | .fault => 4 | .retrain => 5 | .train => 6

/-- CHL_LINK.STATE. -/
def LinkState.num : LinkState → Nat
  | .down => 0 | .sync => 2 | .up => 3 | .retrain => 4 | .miswired => 5 | .failed => 7

/-- LSR_LASER.STATE. -/
def LaserState.num : LaserState → Nat
  | .off => 0 | .idle => 1 | .ramp => 2 | .run => 3 | .tuning => 4 | .cold => 5 | .out => 6

/-- One bit per entry of a table, at the index of the entry. -/
def fieldsOf {α : Type} {n : Nat} (v : Vector α n) (w : Nat) (f : α → Nat) : Nat :=
  ((List.finRange n).map (fun i => f (tget v i) % 2 ^ w * 2 ^ (w * i.val))).sum

/-! ## Col, clocks, Cairn, the loader -/

/-- MBX_START_PROG. -/
def State.startProg (s : State) : Nat :=
  let b := fun (v : Vector Bool 5) => vmask id v
  pack [(26, 26, bnat s.start.structNone), (25, 25, bnat s.start.fwFallback), (24, 24, bnat s.start.optDown),
    (20, 16, b s.start.notTaken), (12, 8, b s.start.skipped), (4, 0, b s.start.done)]

/-- CLK_QSTATE. -/
def State.qstate (s : State) (q : Quad) : Nat :=
  let k := s.quad q
  pack [(10, 10, bnat k.failed), (9, 9, bnat (match s.quadCfg q with | some c => c.offPermit | none => false)),
    (8, 8, bnat (s.pinned q)), (6, 4, k.target.num), (2, 0, k.st.num)]

/-- CAI_STATUS. -/
def State.caiStatus (s : State) : Nat :=
  let c := s.cairn
  pack [(31, 24, c.weakCnt), (17, 16, c.spareLeft), (15, 12, c.genConsumed), (11, 8, c.genInForce), (3, 3, bnat c.vppPresent),
    (2, 2, bnat s.col.cairnProgSince), (1, 1, bnat c.factoryOk), (0, 0, bnat c.sweepDone)]

/-- STR_LOAD_STAT. -/
def State.loadStat (s : State) : Nat :=
  let l := s.loader
  pack [(23, 16, l.err), (12, 12, bnat l.flash), (11, 8, l.target.val), (5, 4, l.kind), (3, 0, l.state.num)]

/-! ## Partitions, Traverse, compute -/

/-- PRT_STATE. -/
def State.prtState (s : State) (p : Part) : Nat :=
  pack [(22, 16, (s.part p).held.length), (14, 8, s.slotsUsed p), (3, 0, (s.part p).state.num)]

/-- TRV_SESS_STAT: the session of TRV_SESS_SEL, 0 when it is not open. -/
def State.sessStat (s : State) : Nat :=
  match s.sess s.trv.sel.val with
  | none => 0
  | some x =>
    pack [(63, 40, x.tickNow), (39, 32, (x.out.write + 2 ^ 32 - x.out.cursor) % 2 ^ 32), (31, 24, x.inHeld.length),
      (23, 20, x.part.val), (17, 16, x.codec), (14, 12, x.table), (11, 8, x.phase), (6, 4, x.out.mode.num),
      (3, 3, bnat x.barge), (2, 2, bnat x.gone), (1, 1, bnat x.hold), (0, 0, 1)]

/-- CST_QSTAT. -/
def State.cstQstat (s : State) (q : Quad) : Nat :=
  let c := s.cq q
  let busy := match c.run with | some r => vmask (fun t => t.pc.isSome) r.tiles | none => 0
  pack [(23, 16, c.last), (15, 12, (match s.owner q with | some p => p.val | none => 0)), (8, 4, c.k), (3, 0, busy)]

/-- CNC_ESTAT. -/
def State.cncEstat (s : State) (e : Quad) : Nat :=
  let g := s.eng e
  pack [(31, 24, g.entry), (23, 20, (match s.owner e with | some p => p.val | none => 0)), (15, 4, g.op), (3, 0, g.st.num)]

/-- Bit 4d + g per group of a stack. -/
def State.groupMask (s : State) (k : Stack) (f : Group → Bool) : Nat :=
  maskOf 64 (fun i => f (grp (64 * k.val + i)))

/-- SPU_MASKCNT. -/
def State.maskCnt (s : State) (k : Stack) : Nat :=
  let l := s.ledger k
  pack [(31, 24, l.residue), (23, 16, l.test),
    (11, 0, ((List.range 64).map (fun i => popN 32 (tget s.spur.masks (grp (64 * k.val + i))))).sum)]

/-- SPU_PSTAT: fires that hold a token of the partition, and jobs started and unfinished. -/
def State.spuPstat (s : State) (p : Part) : Nat :=
  let fires := (s.spur.groups.toList.filter (fun g => match g.fire with | some f => f.part == some p | none => false)).length
  pack [(25, 16, fires), (6, 0, (s.jobsOf p).length)]

/-- SPU_FAULT. -/
def SpurPart.fault (r : SpurPart) : Nat :=
  pack [(31, 28, r.fCause), (12, 12, bnat r.fHost), (11, 8, r.fQuad), (4, 0, r.fSlot)]

/-! ## DRAM -/

/-- DMC_STACK. -/
def State.dmcStack (s : State) (k : Stack) : Nat :=
  let x := s.stack k
  pack [(31, 31, bnat x.sr), (30, 30, bnat x.switching.isSome), (29, 27, x.band.val), (23, 16, unsgn 8 x.temp),
    (15, 8, x.relocks), (7, 4, x.maxOwed)]

/-- DMC_PWIN, 0 for a partition that is not defined. -/
def State.dmcPwin (s : State) (p : Part) : Nat :=
  match s.cfg p with
  | some c => pack [(42, 40, c.grain), (39, 32, (chanList c).length), (26, 16, shareOf c), (10, 0, tget s.str.lbase p)]
  | none => 0

/-- DMC_CHQ. -/
def State.dmcChq (s : State) (c : Chan) : Nat :=
  let x := s.chan c
  pack [(31, 31, bnat x.drain), (22, 16, x.rdOut), (14, 8, x.wrWait + x.wrIssue), (5, 0, (tget s.spur.queues c).length)]

/-! ## Optics -/

/-- OPH_PORT. -/
def PortSt.status (r : PortSt) : Nat :=
  pack [(17, 16, r.tries), (11, 10, (r.inState true .warm).length), (9, 8, (r.inState false .warm).length),
    (6, 6, bnat r.rxLight), (5, 5, bnat r.txLight), (4, 4, bnat r.pll), (2, 0, r.state)]

/-- OPH_RING_STAT. -/
def RingSt.stat (x : RingSt) : Nat :=
  pack [(53, 32, x.u), (19, 19, bnat x.noLight), (18, 18, bnat x.clamp), (17, 17, bnat x.unlock), (16, 16, bnat x.lock),
    (15, 14, x.mode.num), (13, 0, x.heater)]

/-- OPH_XT: two entries of a row of the shadow. -/
def PortSt.xtWord (r : PortSt) (k : Pos) (w : Fin 5) : Nat :=
  let at_ := fun (i : Nat) => unsgn 16 ((tget r.xt k).toList.getD i 0)
  pack [(31, 16, if w.val = 4 then 0 else at_ (2 * w.val + 1)), (15, 0, at_ (2 * w.val))]

/-- CHL_LINK. -/
def LinkSt.status (l : LinkSt) : Nat :=
  pack [(23, 21, l.peerPort), (20, 16, l.peerDev), (11, 8, l.mis), (4, 4, bnat l.lead), (2, 0, l.st.num)]

/-- CHL_CRED: both DL classes of a virtual channel. -/
def LinkSt.credWord (l : LinkSt) (v : Fin 4) : Nat :=
  let both := fun (t : Vector Nat 8) => t.toList.getD (2 * v.val) 0 + t.toList.getD (2 * v.val + 1) 0
  pack [(31, 16, both l.occ), (15, 0, both l.cred)]

/-- CHL_PMSG. -/
def State.pmsgWord (s : State) (p : Part) : Nat :=
  let m := tget s.pmsg p
  pack [(63, 48, m.late), (47, 32, m.timeouts), (15, 8, (s.part p).cells.length),
    (6, 0, (s.sends.filter (fun r => r.part == p)).length)]

/-- LSR_TRIP. -/
def State.lsrTrip (s : State) : Nat :=
  let l := s.laser
  pack [(9, 9, bnat l.seqErr), (8, 8, bnat l.clrRefused), (3, 3, bnat l.intlkLow), (2, 2, bnat (! s.pins.tripN)),
    (1, 1, bnat l.intlk), (0, 0, bnat l.trip)]

/-- LSR_GATE; CLAMP shows R32, R35 and R39. -/
def State.lsrGate (s : State) : Nat :=
  let l := s.laser
  let clamp := ! s.pins.pwrGood || s.start.resetHeld || s.start.uvHold || s.col.xtalBad
  pack [(6, 6, bnat s.gateOpen), (5, 5, bnat l.policyOff), (4, 4, bnat l.seat1), (3, 3, bnat l.seat0), (2, 2, bnat l.latchOpen),
    (1, 1, bnat l.intlkLow), (0, 0, bnat clamp)]

/-- LSR_LASER. -/
def LaserSt.word (x : LaserSt) : Nat :=
  pack [(31, 28, x.st.num), (27, 27, bnat x.oc), (26, 26, bnat x.open_), (25, 25, bnat x.short), (24, 20, x.cover), (11, 0, x.bias)]

/-- CAL_STAT; FULL_STEP is the earliest step that a port is in (log 49). -/
def State.calStat (s : State) : Nat :=
  let c := s.cal
  let steps := allPorts.filterMap (fun p => (s.port p).cal.map (·.step))
  let step := match steps with | [] => 0 | a :: r => r.foldl min a
  pack [(27, 27, bnat c.flashBusy), (26, 26, bnat (allPorts.any (fun p => (s.link p).slot.isSome))), (25, 24, c.restored),
    (23, 16, c.portsOk), (15, 8, c.portsFail), (3, 0, if c.full.isSome then step else 0)]

/-! ## Thermal, errors, the mailbox -/

/-- THM_CFG. -/
def ThmSt.cfgWord (t : ThmSt) : Nat :=
  pack [(56, 56, bnat t.envUse), (55, 48, t.lapseMs), (44, 40, t.tripStep), (36, 32, t.hostLimit), (31, 24, t.alertC),
    (23, 16, t.stackC), (11, 8, t.hystC), (7, 0, t.throttleC)]

/-- THM_STATUS; REASON names every part of the minimum of R410 that is below 16. -/
def State.thmStatus (s : State) : Nat :=
  let t := s.thm
  let (hot, sel) := s.hottest.getD (0, 0)
  pack [(63, 48, unsgn 16 hot), (46, 40, sel), (36, 32, t.lim), (8, 8, bnat (decide (t.limT < 16) && ! t.stackFall)),
    (9, 9, bnat (decide (t.limT < 16) && t.stackFall)), (10, 10, bnat (decide (t.hostLimit < 16))),
    (11, 11, bnat (decide (s.limTrip < 16))), (12, 12, bnat (decide (s.limLapse < 16))), (1, 1, bnat t.lapse), (0, 0, bnat t.alert)]

/-- The unread entries that ERRLOG_READ would copy, without the fatal record. -/
def State.unreadLog (s : State) : List LogEnt := if s.start.phase = .safe then s.ras.rom else s.ras.unread

/-- RAS_STATUS. -/
def State.rasStatus (s : State) : Nat :=
  pack [(28, 16, s.unreadLog.length), (3, 3, bnat s.ras.fatalValid), (1, 0, s.unreadLog.foldl (fun m e => max m e.cls.val) 0)]

/-- RAS_FATAL: 8 bytes of the last class 3 entry. -/
def RasSt.fatalWord (r : RasSt) (w : Fin 4) : Nat :=
  match r.fatal with
  | some e => leAt e.bytes (8 * w.val) 8
  | none => 0

/-- MBX_RING_STAT. -/
def MbxSt.stat (m : MbxSt) : Nat :=
  pack [(19, 19, bnat m.fetchErr), (18, 18, bnat m.dbErr), (17, 17, bnat m.busy.isNone), (15, 8, m.rspTail), (7, 0, m.reqHead)]

/-! ## The partition space -/

/-- VFP_Q_CTRL. -/
def QueueSt.ctrl (r : QueueSt) : Nat :=
  pack [(31, 24, r.coalTime), (23, 16, r.coalCnt), (11, 8, r.vec.val), (0, 0, bnat r.en)]

/-- VFP_Q_STAT. -/
def State.qStat (s : State) (p : Part) (q : Queue) : Nat :=
  let r := s.queue p q
  pack [(31, 31, bnat r.fetchErr), (30, 30, bnat r.dbErr), (29, 29, bnat (r.en && ! s.cqRoom p q)),
    (28, 28, bnat (s.queueIdle p q)), (27, 16, r.cqTail), (11, 0, r.sqHead)]

/-- VFP_Q_DEPTH. -/
def State.qDepth (s : State) (p : Part) (q : Queue) : Nat :=
  match s.cfg p with
  | some c => pack [(4, 4, bnat (decide (q.val < c.queues))), (3, 0, c.qdepth)]
  | none => 0

/-- The value of a virtual function's register while its partition is defined. -/
def State.vfpValue (s : State) : Reg → Nat
  | .vfpStatus p => pack [(14, 8, s.slotsUsed p), (7, 4, (s.part p).state.num), (3, 0, p.val)]
  | .vfpQtime p => (s.part p).qtime
  | .vfpSlotctl p => (s.vf p).stepReserve
  | .vfpEvtCtrl p => pack [(8, 8, bnat (s.vf p).evtEn), (3, 0, (s.vf p).evtVec.val)]
  | .vfpEvtStat p => pack [(2, 2, bnat (s.vf p).evtState), (1, 1, bnat (s.vf p).evtQerr), (0, 0, bnat (s.vf p).evtReply)]
  | .vfpFailctl p => pack [(15, 8, vmask (fun (r : QueueSt) => r.inRun) (s.vf p).q), (7, 0, vmask (fun (r : QueueSt) => r.abandon) (s.vf p).q)]
  | .vfpSqBase p q => (s.queue p q).sqBase
  | .vfpCqBase p q => (s.queue p q).cqBase
  | .vfpQCtrl p q => (s.queue p q).ctrl
  | .vfpQStat p q => s.qStat p q
  | .vfpQDepth p q => s.qDepth p q
  | _ => 0

/-! ## Every register -/

/-- The value of a register (R8, R458): its fields as the owning chapter gives them. -/
def State.regValue (s : State) : Reg → Nat
  | .colId => if s.col.grade2 then 0x64002100 else 0x64001100
  | .colSerial => s.col.serial
  | .colTime => s.time
  | .colStatus => s.colStatus
  | .colStart => s.colStart
  | .colLife => s.col.life
  | .clkPllStat => pack [(31, 24, vmask (fun (r : PortSt) => r.pll) s.ports), (23, 16, vmask (fun (k : StackSt) => k.pll) s.dram.stk),
      (15, 0, vmask (fun (k : QuadClk) => k.pll) s.quads)]
  | .clkSysStat => pack [(15, 8, s.lockLoss), (1, 1, bnat s.start.trvLock), (0, 0, bnat s.start.sysLock)]
  | .clkQstate q => s.qstate q
  | .clkQpol q => (s.quad q).pol.toNat
  | .clkQforce => vmask (fun (k : QuadClk) => k.pin) s.quads
  | .clkQwait q => pack [(31, 16, (s.quad q).maxWait), (15, 0, (s.quad q).waits)]
  | .caiStatus => s.caiStatus
  | .caiSweepTime => s.cairn.sweepTime
  | .caiRdCtrl => s.cairn.rdWord
  | .caiRdData => s.cairn.rdData
  | .caiRdStat => pack [(4, 4, bnat s.cairn.rdValid), (3, 3, bnat s.cairn.rdRefused), (1, 0, s.cairn.rdClass.num)]
  | .caiProgStat => pack [(23, 20, s.cairn.progResult), (18, 8, s.cairn.progWords), (7, 4, s.cairn.progSlot), (3, 0, s.cairn.progState)]
  | .caiProgTime => s.cairn.progTime
  | .strLoadStat => s.loadStat
  | .strFrameErr => pack [(31, 24, s.loader.feOff), (23, 16, s.loader.feClass), (15, 0, s.loader.feIndex)]
  | .strBytes => s.loader.bytes
  | .strLoadTime => s.loader.time
  | .strActiveId n => if s.committed then fld s.str.id (32 * n.val + 31) (32 * n.val) else 0
  | .strActiveGen => if s.committed then s.str.gen else 0
  | .strActiveSeq => if s.committed then s.str.seq else 0
  | .strActiveKey => if s.committed then pack [(31, 31, 1), (18, 16, s.str.anchor), (15, 0, s.str.keyId)] else 0
  | .strPartSeq p => if s.committed then tget s.str.partSeq p else 0
  | .prtState p => s.prtState p
  | .prtQctl p => pack [(25, 16, (s.part p).holdMs), (9, 0, (s.part p).drainMs)]
  | .prtTokens p => fieldsOf (tget s.spur.parts p).allow 8 id
  | .prtQtime p => (s.part p).qtime
  | .prtQcount p => pack [(29, 20, (s.part p).discarded), (19, 10, (s.part p).refused), (9, 0, (s.part p).restruct)]
  | .prtSliceWait p => (s.part p).sliceWait
  | .trvStatus => pack [(28, 16, (s.trv.sess.filter (fun e => ! e.2.shut)).length), (0, 0, bnat s.trv.run)]
  | .trvEpoch => s.trv.epoch / 32
  | .trvPeriod => (s.trv.ticks - 1) / 16 % 2 ^ 32
  | .trvSessSel => s.trv.sel.val
  | .trvSessStat => s.sessStat
  | .trvPcfg p => (tget s.trv.pcfg p).toNat
  | .trvPcnt p => fieldsOf (tget s.trv.pcnt p) 10 id
  | .cstQstat q => s.cstQstat q
  | .cstCap q => (s.cq q).cap
  | .cstPcfg p => tget s.crest.stepLimit p
  | .cstQcnt q =>
    let c := s.cq q
    pack [(63, 48, c.sat), (47, 32, c.eccCe), (31, 24, c.eccUe), (23, 16, c.faults), (15, 0, c.entries)]
  | .cstFault q => pack [(31, 28, (s.cq q).fCause), (27, 26, (s.cq q).fTile), (15, 0, (s.cq q).fOp)]
  | .cncEstat e => s.cncEstat e
  | .cncLedger e => pack [(63, 48, (s.eng e).upAck), (47, 32, (s.eng e).upPub), (31, 16, (s.eng e).dnAck), (15, 0, (s.eng e).dnPub)]
  | .cncLb e =>
    pack [(31, 31, bnat (s.eng e).resizing), (27, 24, (s.eng e).upSlots), (23, 20, (s.eng e).dnSlots), (8, 0, (262144 - (s.eng e).used) / 1024)]
  | .cncEcnt e =>
    let g := s.eng e
    pack [(63, 32, g.stall), (31, 24, g.eccCe), (23, 16, g.eccUe), (15, 8, g.faults), (7, 0, g.emptyBox)]
  | .cncFault e => pack [(31, 28, (s.eng e).fCause), (11, 0, (s.eng e).fOp)]
  | .spuCfg => pack [(27, 16, s.spur.testPeriod), (15, 8, s.spur.testIdle), (0, 0, bnat s.spur.testEn)]
  | .spuPool k => pack [(25, 24, s.spur.width), (23, 16, (s.ledger k).target), (15, 8, (s.ledger k).free), (7, 0, (s.ledger k).held)]
  | .spuFiring k => s.groupMask k (fun g => (s.group g).fire.isSome)
  | .spuGret k => s.groupMask k (fun g => tget s.spur.retired g)
  | .spuMaskcnt k => s.maskCnt k
  | .spuPcnt p =>
    let r := tget s.spur.parts p
    pack [(63, 48, r.sat), (47, 40, r.faults), (39, 24, r.degraded), (23, 0, r.jobs)]
  | .spuPstat p => s.spuPstat p
  | .spuFault p => (tget s.spur.parts p).fault
  | .spuMask g => tget s.spur.masks g
  | .dmcCfg => pack [(24, 24, bnat s.dram.scrubEn), (23, 16, s.dram.scrubHours), (13, 8, s.dram.lowWm), (5, 0, s.dram.highWm)]
  | .dmcStack k => s.dmcStack k
  | .dmcScrubTime => s.dram.scrubTime
  | .dmcBound => pack [(31, 24, s.bandBound 3), (23, 16, s.bandBound 2), (15, 8, s.bandBound 1), (7, 0, s.bandBound 0)]
  | .dmcUeLast => match s.dram.ueLast with | some (c, a) => pack [(63, 63, 1), (55, 48, c), (37, 0, a)] | none => 0
  | .dmcPwin p => s.dmcPwin p
  | .dmcChq c => s.dmcChq c
  | .dmcEcnt c =>
    let x := s.chan c
    pack [(63, 48, x.scrubFix), (47, 32, x.poisonRd), (31, 24, x.ue), (23, 0, x.ce)]
  | .ophPort p => (s.port p).status
  | .ophPeer p => match (s.port p).peer with | some (d, n) => pack [(8, 8, 1), (7, 5, n), (4, 0, d)] | none => 0
  | .ophLoopCfg p =>
    let r := s.port p
    pack [(63, 63, bnat r.xtLoad), (47, 40, r.stepMax), (37, 32, r.dither), (31, 16, r.kiRx), (15, 0, r.kiTx)]
  | .ophAdcCfg p =>
    let r := s.port p
    pack [(12, 12, bnat r.filt), (9, 8, r.gainTap), (5, 4, r.gainRx), (1, 0, r.gainTx)]
  | .ophAdcReq p => pack [(10, 10, bnat (s.port p).reqImm), (9, 8, (s.port p).reqGain), (5, 0, (s.port p).reqIn)]
  | .ophAdcRes p => (s.port p).res
  | .ophCnt p =>
    let r := s.port p
    pack [(63, 48, r.cSkip), (47, 32, r.cUnlocks), (31, 16, r.cMoves), (15, 0, r.cRetrains)]
  | .ophGrid p d => fieldsOf (tget (s.port p).grid d) 3 GState.num
  | .ophLmap p d w =>
    let l := (tget (s.port p).lmap d).toList
    ((List.range 8).map (fun b => match l[8 * w.val + b]? with | some g => g.val * 2 ^ (8 * b) | none => 0)).sum
  | .ophRingTrim p k => (tget (s.port p).rings k).bias
  | .ophRingCtl p k => pack [(31, 16, (tget (s.port p).rings k).target), (1, 0, (tget (s.port p).rings k).mode.num)]
  | .ophRingStat p k => (tget (s.port p).rings k).stat
  | .ophXt p k w => (s.port p).xtWord k w
  | .ophAdcLast p i => tget (s.port p).last i
  | .ophTrk p g =>
    let t := tget (s.port p).trk g
    pack [(47, 32, t.retrains), (31, 16, t.double), (7, 6, t.dsRec.length), (5, 0, t.phase)]
  | .chlCfg => pack [(25, 16, s.linkHoldMs), (13, 0, s.replyMs)]
  | .chlLink p => (s.link p).status
  | .chlPeerSerial p => (s.link p).peerSerial
  | .chlCnt p =>
    let l := s.link p
    pack [(63, 48, l.retrains), (47, 32, l.replays), (31, 16, l.crcErr), (15, 0, l.fecUe)]
  | .chlFecCe p => (s.link p).fecCe
  | .chlCred p v => (s.link p).credWord v
  | .chlPmsg p => s.pmsgWord p
  | .lsrTrip => s.lsrTrip
  | .lsrTripTime => s.laser.tripTime
  | .lsrGate => s.lsrGate
  | .lsrCtg => pack [(31, 16, unsgn 16 s.laser.temp), (11, 8, s.laser.auth), (2, 2, bnat s.laser.vddOn), (1, 0, s.laser.ctgState)]
  | .lsrCtgSerial => s.laser.serial
  | .lsrLaser n => (s.las n).word
  | .calCfg => pack [(42, 32, s.cal.flashMin), (31, 31, bnat s.cal.bgEn), (24, 16, s.cal.limitMs), (15, 0, s.cal.gapMs)]
  | .calStat => s.calStat
  | .calSnap => s.cal.snapTime
  | .calSeq => pack [(63, 32, s.snapSeq 3), (31, 0, s.snapSeq 2)]
  | .calCnt p => fieldsOf (tget s.cal.cnt p) 16 id
  | .calRtime p k => (tget (s.port p).rings k).rtime
  | .thmCfg => s.thm.cfgWord
  | .thmStatus => s.thmStatus
  | .thmReq => pack [(31, 31, bnat s.thm.busy), (6, 0, s.thm.reqSel)]
  | .thmRes => pack [(63, 63, bnat s.thm.resValid), (62, 62, bnat s.thm.resFault), (46, 40, s.thm.resSel), (15, 0, unsgn 16 s.thm.resTemp)]
  | .thmResTime => s.thm.resTime
  | .thmShut => pack [(63, 62, s.thm.shKind), (46, 40, s.thm.shSel), (31, 16, unsgn 16 s.thm.shRate), (15, 0, unsgn 16 s.thm.shTemp)]
  | .thmShutTime => s.thm.shTime
  | .thmCnt => pack [(63, 48, s.thm.cDown), (47, 32, s.thm.cUp), (31, 16, s.thm.cLapses), (15, 0, s.thm.cAlerts)]
  | .thmDiode n => tget s.thm.eta n
  | .thmTherm n => pack [(31, 16, tget s.thm.res25 n), (15, 0, tget s.thm.beta n)]
  | .rasStatus => s.rasStatus
  | .rasCtrl => pack [(12, 8, s.ras.vec.val), (5, 4, s.ras.minClass), (0, 0, bnat s.ras.en)]
  | .rasLog => pack [(63, 32, s.ras.next), (31, 16, s.ras.overwritten)]
  | .rasCnt => fieldsOf s.ras.cnt 16 id
  | .rasFatal w => s.ras.fatalWord w
  | .rasPfail p => fieldsOf (tget s.ras.pfail p) 16 id
  | .mbxStartPhase => pack [(15, 8, s.start.cause), (6, 6, bnat s.start.refused), (5, 4, s.start.kind.val), (3, 0, s.start.phase.num)]
  | .mbxStartProg => s.startProg
  | .mbxStartTime => s.start.time
  | .mbxStartReason => fieldsOf s.start.reason 4 id
  | .mbxReqBase => s.mbx.reqBase
  | .mbxRspBase => s.mbx.rspBase
  | .mbxRingCtrl => pack [(12, 8, s.mbx.vec.val), (7, 4, s.mbx.log2), (0, 0, bnat s.mbx.en)]
  | .mbxRingStat => s.mbx.stat
  | .mbxWinBase => s.mbx.winBase
  | .lsrTripClr | .mbxRestart | .mbxReqTail | .mbxRspHead => 0
  | r@(.vfpStatus p) | r@(.vfpQtime p) | r@(.vfpSlotctl p) | r@(.vfpEvtCtrl p) | r@(.vfpEvtStat p) | r@(.vfpFailctl p)
  | r@(.vfpSqBase p _) | r@(.vfpCqBase p _) | r@(.vfpQCtrl p _) | r@(.vfpQStat p _) | r@(.vfpQDepth p _)
  | r@(.vfpSqTail p _) | r@(.vfpCqHead p _) => if (s.part p).state = .undefined then 0 else s.vfpValue r

end Sys2Proof.Machine
end

