-- ==== Sys2Proof/Machine/Start.lean ====
section
/-! DEFINITION. The always-on island and the start: power, reset and crystal events (R31 to R39, R43 to R47, R460), the
sequence of a start (R61 to R77), and the restart that the host may request (R63). -/

namespace Sys2Proof.Machine

/-! ## Col power-on reset (R26, R43, R47, R460) -/

/-- COL_POWER_ON_RESET_EXIT (R26, R31, R47, R460): the life tag is drawn, the serial copied from Cairn and the straps
sampled; a PWR_GOOD found high counts as risen once it has been held for 200 ns. -/
def execColPowerOnResetExit (pwrGood resetN tripN envSel smb1 smb0 : Bool) (s : State) : Host.Outcome State Fault Refusal :=
  .next (s.when s.col.por (fun s =>
    let (f, s) := s.draw
    let s := { s with
      col := { s.col with
        por := false, cyc := 0, life := f % (2 ^ 64 - 1) + 1, serial := s.cairnSerial, envExt := pwrGood && envSel
        smbAddr := ⟨(2 * bnat smb1 + bnat smb0) % 4, Nat.mod_lt _ (by decide)⟩ }
      pins := { s.pins with
        pwrGood := pwrGood, resetN := resetN, tripN := true, tripRel := none, pgRise := if pwrGood then some 5 else none }
      laser := { s.laser with vddOn := true, seatedAt := if s.laser.intlkLow || s.laser.latchOpen then none else some 0 } }
    if tripN then s else s.tripAssert))

/-- VDD_COL_LOSS (R43): every Col record and the retention SRAM are lost, and Col is held in power-on reset. What stays is
non-volatile or lies outside the device. -/
def execVddColLoss (s : State) : Host.Outcome State Fault Refusal :=
  let s := s.progAbort 9
  let r := State.reset
  .next { r with
    col := { r.col with grade2 := s.col.grade2 }
    cairn := { r.cairn with words := s.cairn.words, weak := s.cairn.weak }
    laser := { r.laser with
      intlkLow := s.laser.intlkLow, intlkRel := 0, latchOpen := s.laser.latchOpen, eeprom := s.laser.eeprom
      sigOk := s.laser.sigOk, elemSeq := s.laser.elemSeq, elemMin := s.laser.elemMin, elemOut := s.laser.elemOut }
    dram := { r.dram with mem := s.dram.mem, poison := s.dram.poison, flaws := s.dram.flaws }
    numVfs := s.numVfs, flash := s.flash, hostMem := s.hostMem, irqs := s.irqs, nextItem := s.nextItem
    pending := s.pending, free := s.free }

/-! ## Power, reset and crystal (R31 to R39) -/

/-- R74: cause 0x06 or 0x07 of a start that ends so. -/
def State.startEnded (s : State) (c : Nat) : State := if s.starting then s.setCause c else s

/-- R37: Col records that the stacks and the optics may have lost power. -/
def State.powerLost (s : State) : State := { s with col := { s.col with pwrLossRec := true, pwrLost := true } }

/-- Internal reset is held from now on, where no stop runs: a retry or a start that is due does not follow. -/
def State.holdReset (s : State) : State :=
  { s with start := { s.start with resetHeld := true, due := false, failedAt := none } }

/-- R31, R39, R414: an edge of PWR_GOOD or RESET_N ends a thermal hold, and a crystal fault once the crystal measures within
2 %. -/
def State.edge (s : State) (xtalOk : Bool) : State :=
  ({ s with
    start := { s.start with thermHold := false }
    col := { s.col with xtalBad := s.col.xtalBad && ! xtalOk } } : State).alertNow

/-- PWR_GOOD_RISE (R25, R31, R35, R39). -/
def execPwrGoodRise (envSel xtalOk : Bool) (s : State) : Host.Outcome State Fault Refusal :=
  .next (s.when (! s.col.por && ! s.pins.pwrGood) (fun s =>
    ({ s with
      pins := { s.pins with pwrGood := true, pgRise := some s.now }
      col := { s.col with envExt := envSel }
      start := { s.start with uvHold := false } } : State).edge xtalOk))

/-- PWR_GOOD_FALL (R32, R34, R37): the orderly stop runs; one that already runs goes on. -/
def execPwrGoodFall (s : State) : Host.Outcome State Fault Refusal :=
  .next (s.when (! s.col.por && s.pins.pwrGood) (fun s =>
    let s := ({ s with pins := { s.pins with pwrGood := false, pgRise := none } } : State).powerLost
    let s := (s.startEnded 6).lasersDark
    if s.start.stop.isSome then s
    else if s.live then s.orderlyStop .pwrGood
    else s.holdReset))

/-- RESET_N_FALL (R36): a reset entry while PWR_GOOD is high; during another stop it follows that stop, except during the
stop of R34. -/
def execResetNFall (s : State) : Host.Outcome State Fault Refusal :=
  .next (s.when (! s.col.por && s.pins.resetN) (fun s =>
    let s := { s with pins := { s.pins with resetN := false } }
    if ! s.pins.pwrGood then s
    else match s.start.stop with
      | some c => if c = .pwrGood then s else { s with start := { s.start with resetPend := true } }
      | none =>
        let s := s.startEnded 6
        if s.live then s.orderlyStop .resetN else s.holdReset))

/-- RESET_N_RISE (R31, R36, R39). -/
def execResetNRise (xtalOk : Bool) (s : State) : Host.Outcome State Fault Refusal :=
  .next (s.when (! s.col.por && ! s.pins.resetN) (fun s =>
    ({ s with pins := { s.pins with resetN := true } } : State).edge xtalOk))

/-- R31, R35, R39, R414: internal reset may be released. -/
def State.mayRelease (s : State) : Bool :=
  ! s.col.por && s.start.resetHeld && s.pins.pwrGood && s.pins.resetN && s.start.stop.isNone && ! s.start.uvHold
    && ! s.col.xtalBad && ! s.start.thermHold
    && (match s.pins.pgRise with | some t => s.past t (msCyc 1) | none => false)

/-- INTERNAL_RESET_RELEASE (R31, R61): a start begins; the host interface is not yet enabled (R65). -/
def execInternalResetRelease (s : State) : Host.Outcome State Fault Refusal :=
  .next (s.when s.mayRelease (fun s =>
    ({ s with start := { s.start with resetHeld := false, hostIf := false } } : State).startDue 0))

/-- The place of a rail among COL_STATUS.UV_CORE to UV_OPT. -/
def railIdx : Rail → Fin 4
  | .core => 0 | .spur => 1 | .vddq => 2 | .opt => 3

/-- R35: the monitors act while PWR_GOOD is high and the device runs, and during every stop. -/
def State.monitors (s : State) : Bool :=
  ! s.col.por && (s.start.stop.isSome
    || (s.pins.pwrGood && ! s.start.resetHeld && s.start.failedAt.isNone && ! s.start.thermHold))

/-- COL_STATUS[10:4] as the log entries of block 0x00 report it (R440). -/
def State.colUnit (s : State) : Nat := fld s.colStatus 10 4

/-- UNDERVOLTAGE_TRIP (R35, R37): a cut at once; reset is held until PWR_GOOD next rises. -/
def execUndervoltageTrip (rail : Rail) (s : State) : Host.Outcome State Fault Refusal :=
  .next (s.when s.monitors (fun s =>
    let s := (s.startEnded 6).powerLost
    let s := { s with col := { s.col with uv := upd s.col.uv (railIdx rail) true } }
    let s := s.log 3 0x00 2 (detailOf s.colUnit 0)
    let s := { s with start := { s.start with uvHold := true, resetHeld := true } }
    s.cutNow .pwrGood))

/-- CRYSTAL_FAULT (R39, R46): the drivers go off at once, the fault is recorded, and the orderly stop runs. -/
def execCrystalFault (s : State) : Host.Outcome State Fault Refusal :=
  .next (s.when (! s.col.por && ! s.col.xtalBad) (fun s =>
    let s := (s.startEnded 7).lasersDark
    let s := { s with col := { s.col with xtalFault := true, timeUntraced := true, xtalBad := true, xtalSinceReady := true } }
    let s := s.log 3 0x00 1 (detailOf s.colUnit 0)
    if s.start.stop.isSome then s
    else if s.live then s.orderlyStop .crystal
    else s.holdReset))

/-- ORDERLY_STOP_DONE (R415): step 4 of the stop, and what follows it. -/
def execOrderlyStopDone (s : State) : Host.Outcome State Fault Refusal :=
  .next (match s.start.stop with
    | some c => (s.cut (match c with | .restart _ => true | _ => false)).stopEnd c
    | none => s)

/-! ## The kind of a start (R61, R62, R73) -/

/-- R62: 1 cold, 2 warm, 3 safe. -/
def State.kindOf (s : State) : Fin 4 :=
  if s.col.attempts = 3 then 3
  else if s.col.attempts ≠ 0 then 1
  else if s.col.pwrLossRec || s.col.xtalSinceReady then 1
  else if s.start.reqKind = 2 ∨ s.start.reqKind = 3 then 1
  else if s.col.srRec.toList.all Option.isSome then 2 else 1

/-- START_BEGIN (R61, R62, R64 step 1, R65, R73, R76): the kind is chosen, ATTEMPTS is incremented, the system PLL locks and
the host interface is enabled. A cold start empties the error log (R438); only a warm start keeps DMC_SCRUB_TIME (R293). -/
def execStartBegin (s : State) : Host.Outcome State Fault Refusal :=
  .next (s.when (s.start.due && s.start.stop.isNone && ! s.col.por) (fun s =>
    let k := s.kindOf
    let s := { s with
      start := { s.start with due := false, kind := k, sysLock := true, hostIf := true }
      col := { s.col with
        attempts := if h : s.col.attempts.val < 3 then ⟨s.col.attempts.val + 1, by omega⟩ else s.col.attempts
        safe := decide (k = 3), lastWarm := decide (k = 2) }
      thm := { s.thm with envUse := s.col.envExt }
      spur := { s.spur with width := if s.col.envExt then 2 else 1 } }
    let s := if k = 1 then
        { s with ras := { s.ras with unread := [], waiting := [], next := 0, overwritten := 0 } }
      else s
    let s := if k = 2 then s else { s with dram := { s.dram with scrubTime := 0 } }
    s.setPhase (if k = 3 then .safe else .firmware)))

/-! ## Steps of a start (R64, R66 to R71) -/

/-- R70: a warm start takes or does not take the skip of step i. -/
def State.skip (s : State) (i : Fin 5) : State :=
  { s with start := { s.start with skipped := upd s.start.skipped i true, done := upd s.start.done i true } }
def State.notSkipped (s : State) (i : Fin 5) (code : Nat) : State :=
  if s.start.kind = 2 then
    { s with start := { s.start with notTaken := upd s.start.notTaken i true, reason := upd s.start.reason i code } }
  else s
def State.stepDone (s : State) (i : Fin 5) : State := { s with start := { s.start with done := upd s.start.done i true } }

/-! ### Firmware (R68, R461) -/

/-- R461: the SEQ of a slot whose header passes. -/
def State.fwHeader (s : State) (slot : Nat) : Option Nat :=
  let h := s.flashRead slot 64
  let n := leAt h 0xC 4
  if leAt h 0 4 = 0x31574659 ∧ leAt h 4 2 = 1 ∧ leAt h 0x3C 4 = crc32c (h.take 60) ∧ n % 16 = 0 ∧ 16 ≤ n ∧ n ≤ 4193984
      ∧ leAt h 0x10 1 = 0x10 ∧ s.minFwSeq s.gensNow ≤ leAt h 8 4 then some (leAt h 8 4) else none

/-- R461: the signature of a slot's image verifies. -/
def State.fwVerify (s : State) (slot : Nat) : Bool :=
  let n := 64 + leAt (s.flashRead slot 64) 0xC 4
  let msg := s.flashRead slot n
  match s.checkSig s.gensNow 1 0x47574659 (leAt msg 6 2) (s.flashRead (slot + n) 256) msg with
  | .accepted _ => true
  | _ => false

/-- R461: the slots whose headers pass, the higher SEQ first, slot A when both are equal. -/
def State.fwSlots (s : State) : List (Nat × Nat) :=
  match s.fwHeader fwSlotA, s.fwHeader fwSlotB with
  | some a, some b => if a < b then [(fwSlotB, b), (fwSlotA, a)] else [(fwSlotA, a), (fwSlotB, b)]
  | some a, none => [(fwSlotA, a)]
  | none, some b => [(fwSlotB, b)]
  | none, none => []

/-- R68, R74: firmware is loaded, or the start fails with cause 0x01. The Cairn sweep follows unless a warm start skips
it (R69). -/
def State.stepFirmware (s : State) : State :=
  match s.fwSlots.find? (fun e => s.fwVerify e.1) with
  | none => s.failStart 1
  | some e =>
    let s := { s with start := { s.start with fwFallback := decide (s.fwSlots.head? ≠ some e) } }
    if s.start.kind = 2 ∧ ! s.col.cairnProgSince then (s.skip 0).setPhase .bringUp
    else (s.notSkipped 0 2).setPhase .cairn

/-! ### The Cairn sweep (R91) -/

/-- R74, R91: the sweep; without a usable factory generation the start fails with cause 0x02. -/
def State.stepCairn (s : State) : State :=
  let (s, ok) := s.sweep
  if ok then (s.stepDone 0).setPhase .bringUp else s.failStart 2

/-! ### DRAM (step 4a, R69, R71, R264, R291) -/

/-- R264, R268: the defect map in force is applied: its banks are masked, and a group with more than 4 of them is retired;
then the banks that failed the start's sweep of self-tests. -/
def State.applyDefects (s : State) (tests : List (Group × Nat)) : State :=
  let recs := s.recsOf s.cairn.genInForce
  let masks : Vector Nat 512 := tab 512 (fun g => s.defectWord recs g.val % 2 ^ 32)
  let s := { s with spur := { s.spur with
    masks := masks, retired := vmap (fun m => decide (4 < popN 32 m)) masks
    groups := vmap (fun (g : GroupSt) => { g with lastTest := s.now }) s.spur.groups } }
  s.each tests (fun s e => s.maskBanks e.1 e.2 true)

/-- Step 4a of a cold start: every stack is initialised in its band and every column filled with zeros; a sensor that reads
FAULT leaves the band open (log 1). -/
def State.dramCold (s : State) (temps : Vector (Option Int) 8) : State :=
  let s := s.eccFill
  s.each allStacks (fun s k =>
    let (f, s) := s.draw
    let s := s.stackBack k (tget temps k) ⟨f % 5, Nat.mod_lt _ (by decide)⟩
    s.setStack k (fun x => { x with sentinel := none, sentinelBad := false }))

/-- R291: the stacks that are still in self-refresh leave it; `false` when a sentinel is wrong. -/
def State.dramWarm (s : State) (temps : Vector (Option Int) 8) : State × Bool :=
  (allStacks.filter (fun k => (s.stack k).sr)).foldl (fun (acc : State × Bool) k =>
    let (t, ok) := acc.1.stackExit k (tget temps k)
    (t, acc.2 && ok)) (s, true)

/-- R64, R74: DRAM is initialised or leaves self-refresh; a stack that fails ends the start with cause 0x03. -/
def State.stepDram (s : State) (fails : Nat) (temps : Vector (Option Int) 8) (tests : List (Group × Nat)) : State :=
  let warm := decide (s.start.kind = 2)
  let (s, ok) := if fails % 256 ≠ 0 then (s, false) else if warm then s.dramWarm temps else (s.dramCold temps, true)
  if ok then
    let s := (s.applyDefects tests).logFlush
    if warm then s.skip 1 else s.stepDone 1
  else s.failStart 3

/-! ### Optics (step 4b, R66, R69, R370, R375) -/

/-- R69: the code of the first condition that a snapshot fails; 0 when it passes the restore test. -/
def State.snapTest (s : State) (b : List Byte) : Nat :=
  let t := leAt b 0x18 8
  let far := fun (die : Nat) =>
    match s.dieTemp die with
    | some v => decide (80 < (v - sgn 16 (leAt b (0x20 + 2 * die) 2)).natAbs)
    | none => true
  if ! snapValid b ∨ leAt b 8 8 ≠ s.col.serial then 5
  else if leAt b 0x28 8 ≠ s.col.life ∨ s.time < t ∨ 67500000000 < s.time - t then 6
  else if far 0 || far 1 then 7
  else 0

/-- R69: the flash slot with the higher sequence number among the valid ones. -/
def State.bestSnap (s : State) : Option Nat :=
  match snapValid (s.snapAt 2), snapValid (s.snapAt 3) with
  | true, true => if s.snapSeq 2 < s.snapSeq 3 then some 3 else some 2
  | true, false => some 2
  | false, true => some 3
  | false, false => none

/-- R69: the retention snapshot is tried first, then the better flash slot: the one to restore, or the code of the first
failing condition. -/
def State.snapChoice (s : State) : Nat ⊕ Nat :=
  let r := s.snapTest (s.snapAt 1)
  if r = 0 then .inl 1
  else match s.bestSnap with
    | none => .inr r
    | some src =>
      let q := s.snapTest (s.snapAt src)
      if q = 0 then .inl src else .inr (if r = 5 then q else r)

/-- Step 4b ends without light (R66). -/
def State.noLight (s : State) : State :=
  let s := { s with start := { s.start with optDown := true, opticsDone := true } }
  (s.notSkipped 2 4).notSkipped 3 0xB

/-- R401: the photonic-die temperatures measured in the start stand for every temperature point. -/
def State.dieTemps (s : State) (d0 d1 : Option Int) : State :=
  s.each allPorts (fun s p =>
    match (if p.val < 4 then d0 else d1) with
    | some t => s.setPort p (fun r => { r with tp := rep 2 (some (t, s.now)) })
    | none => s)

/-- R69: laser warm-up is skipped: the lasers go from idle bias to RUN, and a snapshot is restored or full calibration
runs. -/
def State.opticsKept (s : State) : State :=
  let s := (s.warmTo .run).skip 2
  let s := { s with laser := { s.laser with warmAt := none, settled := true } }
  match s.snapChoice with
  | .inl src =>
    let s := (s.restoreSnap (s.snapAt src) src).skip 3
    { s with start := { s.start with opticsDone := true } }
  | .inr code => (s.notSkipped 3 code).fullStart 255 false

/-- R66, R69, R370: the cartridge is authenticated; without light the step ends, else warm-up begins or is skipped. -/
def State.stepOptics (s : State) (seat : SeatInput) (d0 d1 : Option Int) : State :=
  let s := (s.authenticate seat true).dieTemps d0 d1
  let s := { s with laser := { s.laser with policyOff := false } }
  if s.laser.auth ≠ 1 || ! s.gateOpen then s.noLight
  else if s.start.kind = 2 ∧ s.col.idleHeld ∧ s.laser.serial = s.col.readySerial then s.opticsKept
  else
    let s := s.notSkipped 2 (if s.laser.serial ≠ s.col.readySerial then 1 else 4)
    (s.notSkipped 3 0xB).warmUp

/-! ### The structure (step 5, R69, R71, R116, R117) -/

/-- Step 5: the default structure is read from flash, verified and staged; a failure is logged and leaves none (R64). -/
def State.defaultLoad (s : State) : State :=
  let s := { s with loader := { s.loader with byHost := false, flash := true, addr := 0, len := 0, stageOnly := false } }
  let s := s.beginLoad.headerIn false
  if s.loader.busy then
    let s := s.copyIn
    let (e, _) := s.stageB s.loader.staging
    if e ≠ 0 then s.loadFail e else (s.setLoader .stageC).stageCRun.1
  else s

/-- R69, R117: 0 when the retention copy is sealed, its anchor is not revoked, and its identity is the active directory's;
else the reason code. -/
def State.retReason (s : State) : Nat × State :=
  match s.ret.sealed, s.ret.copy with
  | true, some t =>
    if s.revoked s.cairn.genInForce t.anchor then (8, { s with ret := { s.ret with sealed := false } })
    else
      let (bs, pz, s) := s.memRead identityAt 20
      if pz ≠ 0 ∨ bs ≠ t.identity then (9, s) else (0, s)
  | _, _ => (8, s)

/-- Step 5 ends: a structure is staged, or none is. -/
def State.staged (s : State) : State :=
  match s.loader.staged with
  | some _ => s.stepDone 4
  | none => { s with start := { s.start with structNone := true } }

/-- R69, R71: a warm start restores the retention copy, or runs the ECC fill and loads the default structure. -/
def State.stepStructure (s : State) : State :=
  if s.start.kind = 2 then
    let old := s
    let (r, s) := s.retReason
    let s := s.fatalSince old
    if s.start.stop.isSome then s
    else match r, s.ret.copy with
    | 0, some t => ({ s with loader := { s.loader with staged := some (t, []), kind := 1, byHost := false } } : State).skip 4
    | _, _ => ((s.notSkipped 4 r).eccFill).defaultLoad.staged
  else s.defaultLoad.staged

/-! ### The commit of a start (step 6, R64) -/

/-- R64: step 6 begins once steps 4a, 4b and 5 have ended with a structure staged. The retention copy is sealed when the
start is ready. -/
def State.stepsCheck (s : State) : State :=
  if s.start.phase = .bringUp && s.start.stop.isNone && tget s.start.done 1 && s.start.opticsDone && tget s.start.done 4 then
    match s.loader.staged with
    | some (t, l) =>
      let s := (s.setPhase .commit).setLoader .committed
      let s := { s with loader := { s.loader with staged := none, staging := [], reqAt := s.now } }
      let s := s.commitNow t l true 0
      { s with ret := { s.ret with sealed := false } }
    | none => s
  else s

/-- START_STEP_DONE (R64, R69 to R71): one step of the start completes, with what the device measured in it. -/
def execStartStepDone (st : StartStep) (s : State) : Host.Outcome State Fault Refusal :=
  let up := s.start.phase == .bringUp
  .next (s.when s.start.stop.isNone (fun s => State.stepsCheck (match st with
    | .firmware => s.when (s.start.phase == .firmware) State.stepFirmware
    | .cairnSweep => s.when (s.start.phase == .cairn) State.stepCairn
    | .dram fails temps tests => s.when (up && ! tget s.start.done 1) (fun s => s.stepDram fails temps tests)
    | .optics seat d0 d1 =>
      s.when (up && ! s.start.opticsDone && s.laser.warmAt.isNone && s.cal.full.isNone) (fun s => s.stepOptics seat d0 d1)
    | .structureFetch => s.when (up && tget s.start.done 1 && ! tget s.start.done 4 && ! s.start.structNone) State.stepStructure)))

/-! ## Ready (R64, R72, R347) -/

/-- R347: the first alignment of the enabled ports no longer holds step 6. -/
def State.portsWaited (s : State) : Bool :=
  s.start.kind == 2 || s.past s.loader.reqAt (msCyc 150)
    || allPorts.all (fun p => ! bitAt s.str.dev.portEn p.val || (s.link p).st == .up)

/-- R62, R72, R73: the start reaches READY or READY_EMPTY. -/
def State.nowReady (s : State) (ph : Phase) : State :=
  let cold := s.start.kind == 1 && tget s.start.done 1 && tget s.start.done 2
  let s := { s with col := { s.col with
    attempts := 0, xtalSinceReady := false, readySerial := s.laser.serial, idleHeld := false
    pwrLossRec := s.col.pwrLossRec && ! cold } }
  s.setPhase ph

/-- START_READY (R64, R72): step 6 commits, or without a structure every step has ended. -/
def execStartReady (s : State) : Host.Outcome State Fault Refusal :=
  .next (s.when s.start.stop.isNone (fun s =>
    let s := s.stepsCheck
    if s.start.phase = .commit ∧ s.portsWaited then
      ({ s with ret := { s.ret with sealed := s.ret.copy.isSome } } : State).nowReady .ready
    else if s.start.phase = .bringUp ∧ s.start.structNone ∧ s.start.opticsDone ∧ tget s.start.done 1 then s.nowReady .readyEmpty
    else s))

/-- START_WATCHDOG_EXPIRY (R74, R75): 10 s after a cold or warm start began. -/
def execStartWatchdogExpiry (s : State) : Host.Outcome State Fault Refusal :=
  .next (s.when (s.starting && s.past s.start.begun (sCyc 10)) (fun s => s.failStart 4))

/-- START_RETRY (R74): 100 ms after the stop of a failed start. -/
def execStartRetry (s : State) : Host.Outcome State Fault Refusal :=
  .next (match s.start.failedAt with
    | some t => s.when (s.past t (msCyc 100) && ! s.start.resetHeld && s.start.stop.isNone) (fun s => s.startDue 0)
    | none => s)

/-! ## The limits of the optics step (R66) -/

/-- OPTICS_DEADLINE (R66): 8 s after the start began, the optics step ends where it stands. -/
def execOpticsDeadline (s : State) : Host.Outcome State Fault Refusal :=
  .next (s.when (s.start.phase == .bringUp && ! s.start.opticsDone && s.past s.start.begun (sCyc 8)) (fun s =>
    let left := allPorts.filter (fun p => ! bitAt s.cal.portsOk p.val)
    let s := s.each left (fun s p => s.setPort p (fun r =>
      { r with cal := none, acq := [], rings := vmap (fun x => x.enter .off) r.rings }))
    let s := { s with cal := { s.cal with
      full := none, portsFail := maskOf 8 (fun i => bitAt s.cal.portsFail i || left.any (fun p => p.val == i)) } }
    let s := s.lasersIdle
    ({ s with start := { s.start with optDown := true, opticsDone := true } } : State).stepsCheck))

/-- OPTICS_RESUME (R66): once ready, with the gate open, the optics that a start left out are completed. -/
def execOpticsResume (ctg : SeatInput) (s : State) : Host.Outcome State Fault Refusal :=
  .next (s.when (s.isReady && s.start.stop.isNone && s.start.optDown && s.gateOpen && s.laser.warmAt.isNone && s.cal.full.isNone)
    (fun s =>
      let s := if s.laser.auth = 1 then s else s.authenticate ctg false
      if s.laser.auth ≠ 1 then s
      else if ! s.allRun then s.warmUp
      else if s.portsLeft ≠ 0 then s.fullStart s.portsLeft false else s))

/-! ## MBX_RESTART (R63) -/

/-- R63: a write of MBX_RESTART: accepted, or refused with RESTART_REFUSED set. -/
def State.restartWrite (s : State) (v : Nat) : State :=
  let k : Fin 4 := ⟨fld v 1 0 % 4, Nat.mod_lt _ (by decide)⟩
  let kindOk := (s.isReady && (k == 1 || k == 2)) || (s.start.phase == .safe && k == 3)
  if decide (fld v 31 16 = 0x5A17) && kindOk && s.live then s.orderlyStop (.restart k)
  else { s with start := { s.start with refused := true } }

/-- RESTART_WARM, RESTART_COLD, CLEAR_AND_RESTART (R63): writes of MBX_RESTART, served whenever the host interface is
enabled (R65). -/
def execRestartWarm (val : W32) (s : State) : Host.Outcome State Fault Refusal :=
  .next (s.when s.start.hostIf (fun s => s.restartWrite val.toNat))
def execRestartCold (val : W32) (s : State) : Host.Outcome State Fault Refusal :=
  .next (s.when s.start.hostIf (fun s => s.restartWrite val.toNat))
def execClearAndRestart (val : W32) (s : State) : Host.Outcome State Fault Refusal :=
  .next (s.when s.start.hostIf (fun s => s.restartWrite val.toNat))

end Sys2Proof.Machine
end

