-- ==== Sys2Proof/Machine/Regs.lean ====
section
/-! DEFINITION. Host accesses of the registers: which are served (R65, R169, R456, R459), what a write and an RC read do
(R4, R8, R9), 64-bit registers by halves (R7), and the MSI-X tables (R142, R149). -/

namespace Sys2Proof.Machine

/-! ## What is served -/

/-- How an access of a space is answered: no function receives it, it reads 0 and writes nothing, it reads what a safe start
shows and writes nothing, or it is served. -/
inductive Gate
  | absent | zero | frozen | serve
  deriving DecidableEq, Repr

/-- The block of an offset of the management space. -/
def blockOf (off : Nat) : Nat := off / 0x10000

/-- R65: a register of the COL_ block or a start register. -/
def alwaysServed (off : Nat) : Bool := decide (blockOf off = 0) || (decide (0x100000 ≤ off) && decide (off < 0x100018))

/-- R459: the blocks that a safe start does not serve. -/
def frozenBlock (off : Nat) : Bool := [3, 4, 5, 6, 7, 9, 8, 10, 11, 13].contains (blockOf off)

/-- R65, R141, R169, R459: how an access is answered. Before the host interface is enabled, and where no function exists, no
access arrives (log 50). -/
def State.gate (s : State) (sp : Space) (off : Nat) : Gate :=
  if s.col.por || ! s.start.hostIf then .absent
  else match sp with
    | .vf p => if ! s.vfExists p then .absent else if s.isReady then .serve else .zero
    | .pf =>
      if alwaysServed off || s.isReady then .serve
      else if s.start.phase = .safe then (if frozenBlock off then .frozen else .serve)
      else .zero

/-- R459: what the blocks that a safe start does not serve read: reset values, with what is kept across every start. -/
def State.frozen (s : State) : State :=
  { State.reset with
    cairn := s.cairn
    parts := vmap (fun (p : PartRt) => { PartRt.reset with qtime := p.qtime }) s.parts
    spur := { SpurSt.reset with width := if s.col.envExt then 2 else 1 } }

/-! ## Writes (R4, R8) -/

/-- A field's new value when it is in range, else its old one (R4). -/
def within (lo hi old v : Nat) : Nat := if lo ≤ v ∧ v ≤ hi then v else old

/-- R4: TRV_PCFG: fields outside their range keep their value; reserved bits read 0. -/
def mergePcfg (old v : Nat) : Nat :=
  let f := fun (hi lo a b : Nat) => (hi, lo, within a b (fld old hi lo) (fld v hi lo))
  pack [f 46 40 40 90, f 39 32 8 255, f 27 24 1 8, f 21 16 0 40, f 13 8 3 30, f 5 0 0 32]

/-- THM_CFG (R409 to R412, R417): ENV_EXT_USE 1 is ignored while COL_STATUS.ENV_EXT is 0 (R411), and sets W (R259). -/
def State.thmCfgWrite (s : State) (v : Nat) : State :=
  let t := s.thm
  let use := if bitAt v 56 && ! s.col.envExt then t.envUse else bitAt v 56
  { s with
    thm := { t with
      envUse := use, lapseMs := within 1 100 t.lapseMs (fld v 55 48), tripStep := within 0 16 t.tripStep (fld v 44 40)
      hostLimit := within 0 16 t.hostLimit (fld v 36 32), alertC := within 70 117 t.alertC (fld v 31 24)
      stackC := within 60 105 t.stackC (fld v 23 16), hystC := within 1 15 t.hystC (fld v 11 8)
      throttleC := within 70 112 t.throttleC (fld v 7 0) }
    spur := { s.spur with width := if use then 2 else 1 } }

/-- DMC_CFG (R279, R289): a write that would make LOW_WM greater than HIGH_WM − 8 is ignored. -/
def State.dmcCfgWrite (s : State) (v : Nat) : State :=
  let d := s.dram
  let hi := within 8 63 d.highWm (fld v 5 0)
  if hi < fld v 13 8 + 8 then s
  else { s with dram := { d with
    scrubEn := bitAt v 24, scrubHours := within 1 168 d.scrubHours (fld v 23 16), lowWm := fld v 13 8, highWm := hi } }

/-- MBX_RING_CTRL (R144, R162): enabling idle rings sets their heads and tails to 0 and the reply phase to 1. -/
def State.ringCtrlWrite (s : State) (v : Nat) : State :=
  let m := { s.mbx with vec := ⟨fld v 12 8 % 32, Nat.mod_lt _ (by decide)⟩, log2 := within 4 8 s.mbx.log2 (fld v 7 4) }
  let m : MbxSt :=
    if ! bitAt v 0 then { m with en := false }
    else if m.en || m.busy.isSome then m
    else { m with en := true, reqHead := 0, reqTail := 0, rspHead := 0, rspTail := 0, phase := true }
  { s with mbx := m }

/-- W1C: the bits of COL_STATUS, MBX_START_PHASE, LSR_TRIP and RAS_STATUS (R8). -/
def Col.w1c (c : Col) (v : Nat) : Col :=
  { c with
    timeUntraced := c.timeUntraced && ! bitAt v 10, xtalFault := c.xtalFault && ! bitAt v 9, pwrLost := c.pwrLost && ! bitAt v 8
    uv := vmapIdx (fun i b => b && ! bitAt v (4 + i.val)) c.uv }

/-- A write of a register of a virtual function whose partition is defined. -/
def State.vfpWrite (s : State) (r : Reg) (v : Nat) : State :=
  match r with
  | .vfpSlotctl p => s.setVf p (fun f => { f with stepReserve := within 0 48 f.stepReserve (fld v 5 0) })
  | .vfpEvtCtrl p => s.setVf p (fun f => { f with evtEn := bitAt v 8, evtVec := ⟨fld v 3 0 % 16, Nat.mod_lt _ (by decide)⟩ })
  | .vfpEvtStat p => s.setVf p (fun f => { f with
      evtState := f.evtState && ! bitAt v 2, evtQerr := f.evtQerr && ! bitAt v 1, evtReply := f.evtReply && ! bitAt v 0 })
  | .vfpFailctl p => s.setVf p (fun f => { f with q := vmapIdx (fun q (x : QueueSt) => { x with abandon := bitAt v q.val }) f.q })
  | .vfpSqBase p q => s.setQueue p q (fun x => if x.en then x else { x with sqBase := fld v 63 12 * 4096 })
  | .vfpCqBase p q => s.setQueue p q (fun x => if x.en then x else { x with cqBase := fld v 63 12 * 4096 })
  | .vfpQCtrl p q => s.qCtrlWrite p q v
  | .vfpQStat p q => s.setQueue p q (fun x => { x with fetchErr := x.fetchErr && ! bitAt v 31, dbErr := x.dbErr && ! bitAt v 30 })
  | _ => s

/-- A host write of a whole register (R4, R8): the fields with a code that a write acts on; RO and RC fields, and registers of
such fields alone, are not changed. -/
def State.regWrite (s : State) (r : Reg) (v : Nat) : State :=
  match r with
  | .colStatus => { s with col := s.col.w1c v }
  | .clkQpol q => s.qpolWrite q v
  | .clkQforce => s.qforceWrite v
  | .caiRdCtrl => s.cairnReadOp v
  | .prtQctl p => s.setPart p (fun x => { x with holdMs := within 0 1000 x.holdMs (fld v 25 16), drainMs := within 1 1000 x.drainMs (fld v 9 0) })
  | .trvSessSel => { s with trv := { s.trv with sel := ⟨fld v 11 0 % 4096, Nat.mod_lt _ (by decide)⟩ } }
  | .trvPcfg p => { s with trv := { s.trv with pcfg := updWith s.trv.pcfg p (fun w => BitVec.ofNat 64 (mergePcfg w.toNat v)) } }
  | .cstPcfg p => { s with crest := { s.crest with stepLimit := updWith s.crest.stepLimit p (fun n => within 1 1000 n (fld v 9 0)) } }
  | .spuCfg => { s with spur := { s.spur with
      testPeriod := within 1 3600 s.spur.testPeriod (fld v 27 16), testIdle := within 1 255 s.spur.testIdle (fld v 15 8), testEn := bitAt v 0 } }
  | .dmcCfg => s.dmcCfgWrite v
  | .ophAdcReq p => s.adcRequest p v
  | .chlCfg => { s with linkHoldMs := within 1 1000 s.linkHoldMs (fld v 25 16), replyMs := within 1 10000 s.replyMs (fld v 13 0) }
  | .lsrTrip => { s with laser := { s.laser with
      seqErr := s.laser.seqErr && ! bitAt v 9, clrRefused := s.laser.clrRefused && ! bitAt v 8 } }
  | .lsrTripClr => s.tripClrWrite v
  | .calCfg => { s with cal := { s.cal with
      flashMin := within 10 1440 s.cal.flashMin (fld v 42 32), bgEn := bitAt v 31
      limitMs := within 20 500 s.cal.limitMs (fld v 24 16), gapMs := within 100 60000 s.cal.gapMs (fld v 15 0) } }
  | .thmCfg => s.thmCfgWrite v
  | .thmReq => s.thmReqWrite v
  | .thmDiode n => { s with thm := { s.thm with eta := updWith s.thm.eta n (fun x => within 0x399A 0x4666 x (fld v 15 0)) } }
  | .thmTherm n => { s with thm := { s.thm with
      res25 := updWith s.thm.res25 n (fun x => within 1000 65535 x (fld v 31 16)), beta := updWith s.thm.beta n (fun x => within 2000 5000 x (fld v 15 0)) } }
  | .rasStatus => { s with ras := { s.ras with fatalValid := s.ras.fatalValid && ! bitAt v 3 } }
  | .rasCtrl => { s with ras := { s.ras with vec := ⟨fld v 12 8 % 32, Nat.mod_lt _ (by decide)⟩, minClass := fld v 5 4, en := bitAt v 0 } }
  | .mbxStartPhase => { s with start := { s.start with refused := s.start.refused && ! bitAt v 6 } }
  | .mbxRestart => s.restartWrite v
  | .mbxReqBase => if s.mbx.en then s else { s with mbx := { s.mbx with reqBase := fld v 63 12 * 4096 } }
  | .mbxRspBase => if s.mbx.en then s else { s with mbx := { s.mbx with rspBase := fld v 63 12 * 4096 } }
  | .mbxRingCtrl => s.ringCtrlWrite v
  | .mbxRingStat => { s with mbx := { s.mbx with fetchErr := s.mbx.fetchErr && ! bitAt v 19, dbErr := s.mbx.dbErr && ! bitAt v 18 } }
  | .mbxReqTail => s.mbxTail (fld v 7 0) false
  | .mbxRspHead => (s.mbxBell (fld v 7 0) (fun m => { m with rspHead := fld v 7 0 })).mbxUnknown 256
  | .mbxWinBase => { s with mbx := { s.mbx with winBase := fld v 9 0 } }
  | .vfpSqTail p q => s.doorbell p q (fld v 11 0) (fun r t => { r with sqTail := t })
  | .vfpCqHead p q => s.doorbell p q (fld v 11 0) (fun r t => { r with cqHead := t })
  | .vfpSlotctl p | .vfpEvtCtrl p | .vfpEvtStat p | .vfpFailctl p | .vfpSqBase p _ | .vfpCqBase p _ | .vfpQCtrl p _ | .vfpQStat p _ =>
    if (s.part p).state = .undefined then s else s.vfpWrite r v
  | _ => s

/-! ## RC reads (R8) -/

/-- R8: a read clears the RC fields of the part it returned; `lo` and `hi` say which halves those are. Most counters of a
64-bit register clear together at its high half, OPH_TRK at its low half, RAS_LOG and RAS_CNT each half by itself. -/
def State.regClear (s : State) (r : Reg) (lo hi : Bool) : State :=
  match r with
  | .clkSysStat => { s with lockLoss := 0 }
  | .clkQwait q => s.setQ q (fun k => { k with waits := 0, maxWait := 0 })
  | .prtQcount p => s.setPart p (fun x => { x with discarded := 0, refused := 0, restruct := 0 })
  | .prtSliceWait p => s.setPart p (fun x => { x with sliceWait := 0 })
  | .dmcStack k => s.setStack k (fun x => { x with relocks := 0, maxOwed := 0 })
  | .trvPcnt p => s.when hi (fun s => { s with trv := { s.trv with pcnt := upd s.trv.pcnt p (rep 6 0) } })
  | .cstQcnt q => s.when hi (fun s => s.setCq q (fun c => { c with sat := 0, eccCe := 0, eccUe := 0, faults := 0, entries := 0 }))
  | .cncEcnt e => s.when hi (fun s => s.setEng e (fun g => { g with stall := 0, eccCe := 0, eccUe := 0, faults := 0, emptyBox := 0 }))
  | .spuPcnt p => s.when hi (fun s => s.setSpurPart p (fun x => { x with sat := 0, faults := 0, degraded := 0, jobs := 0 }))
  | .dmcEcnt c => s.when hi (fun s => s.setChan c (fun x => { x with scrubFix := 0, poisonRd := 0, ue := 0, ce := 0 }))
  | .ophCnt p => s.when hi (fun s => s.setPort p (fun x => { x with cSkip := 0, cUnlocks := 0, cMoves := 0, cRetrains := 0 }))
  | .ophTrk p g => s.when lo (fun s => s.setPort p (fun x => { x with trk := updWith x.trk g (fun t => { t with double := 0, retrains := 0 }) }))
  | .chlCnt p => s.when hi (fun s => s.setLink p (fun l => { l with retrains := 0, replays := 0, crcErr := 0, fecUe := 0 }))
  | .chlFecCe p => s.when hi (fun s => s.setLink p (fun l => { l with fecCe := 0 }))
  | .chlPmsg p => s.when hi (fun s => { s with pmsg := upd s.pmsg p { late := 0, timeouts := 0 } })
  | .calCnt p => s.when hi (fun s => { s with cal := { s.cal with cnt := upd s.cal.cnt p (rep 4 0) } })
  | .thmCnt => s.when hi (fun s => { s with thm := { s.thm with cDown := 0, cUp := 0, cLapses := 0, cAlerts := 0 } })
  | .rasLog => s.when lo (fun s => { s with ras := { s.ras with overwritten := 0 } })
  | .rasCnt =>
    let c := fun (i : Fin 4) (n : Nat) => if (if i.val < 2 then lo else hi) then 0 else n
    { s with ras := { s.ras with cnt := vmapIdx c s.ras.cnt } }
  | .rasPfail p => s.when hi (fun s => { s with ras := { s.ras with pfail := upd s.ras.pfail p (rep 4 0) } })
  | _ => s

/-! ## 64-bit registers by halves (R7) -/

/-- The key of a register's halves. -/
def busKey (sp : Space) (off : Nat) : Nat :=
  (match sp with | .pf => 0 | .vf p => p.val + 1) * 2 ^ 21 + off

/-- An access: the register whose bytes it reaches, and whether it is the high half; none for a wrong width or alignment
(R7), or where no register lies (R456). -/
def locate (sp : Space) (off : Nat) (wide : Bool) : Option (Reg × Bool) :=
  if wide then
    match regAt sp off with
    | some r => if r.wide ∧ off % 8 = 0 then some (r, false) else none
    | none => none
  else match regAt sp off with
    | some r => some (r, false)
    | none => if off < 4 then none else match regAt sp (off - 4) with
      | some r => if r.wide then some (r, true) else none
      | none => none

/-- R7: a write that arrives at a register: a low half is held, a high half commits both. -/
def State.busWrite (s : State) (sp : Space) (off : Nat) (wide : Bool) (v : Nat) : State :=
  match locate sp off wide with
  | none => s
  | some (r, high) =>
    let key := busKey sp (if high then off - 4 else off)
    if ! r.wide then s.regWrite r (v % 2 ^ 32)
    else if wide then s.regWrite r (v % 2 ^ 64)
    else if ! high then { s with bus := { s.bus with held := spSet none s.bus.held key (some (v % 2 ^ 32)) } }
    else
      let low := match spGet none s.bus.held key with | some h => h | none => s.regValue r % 2 ^ 32
      let s := { s with bus := { s.bus with held := spSet none s.bus.held key none } }
      s.regWrite r (low + v % 2 ^ 32 * 2 ^ 32)

/-- R7, R8: a read of a register, whose values `seen` shows: its value is returned, a low half latches the high half, and RC
fields clear. -/
def State.busRead (s : State) (seen : State) (sp : Space) (off : Nat) (wide : Bool) : State :=
  let ret := fun (s : State) (n : Nat) => ({ s with bus := { s.bus with rdata := n } } : State)
  match locate sp off wide with
  | none => ret s 0
  | some (r, high) =>
    let key := busKey sp (if high then off - 4 else off)
    let val := seen.regValue r
    if ! r.wide then (ret s (val % 2 ^ 32)).regClear r true true
    else if wide then (ret s (val % 2 ^ 64)).regClear r true true
    else if ! high then
      (ret { s with bus := { s.bus with latch := spSet none s.bus.latch key (some (val / 2 ^ 32 % 2 ^ 32)) } } (val % 2 ^ 32)).regClear r true false
    else
      let n := match spGet none s.bus.latch key with | some h => h | none => val / 2 ^ 32 % 2 ^ 32
      (ret { s with bus := { s.bus with latch := spSet none s.bus.latch key none } } n).regClear r false true

/-! ## MSI-X tables (R142, R149): served as the PCIe Base Specification requires (log 13) -/

/-- The table entry and the word within it that an offset of an MSI-X table of `n` entries at `base` reaches. -/
def msixSlot (n base off : Nat) : Option (Fin n × Nat) :=
  if h : base ≤ off ∧ (off - base) / 16 < n then some (⟨_, h.2⟩, (off - base) % 16 / 4) else none

/-- One 32-bit word of an entry: address low and high, data, and vector control. -/
def MsixEnt.word (e : MsixEnt) : Nat → Nat
  | 0 => e.addr % 2 ^ 32
  | 1 => e.addr / 2 ^ 32 % 2 ^ 32
  | 2 => e.data
  | _ => bnat e.masked
def MsixEnt.setWord (e : MsixEnt) (v : Nat) : Nat → MsixEnt
  | 0 => { e with addr := e.addr / 2 ^ 32 * 2 ^ 32 + v / 4 * 4 % 2 ^ 32 }
  | 1 => { e with addr := e.addr % 2 ^ 32 + v % 2 ^ 32 * 2 ^ 32 }
  | 2 => { e with data := v % 2 ^ 32 }
  | _ => { e with masked := bitAt v 0 }

/-- Bases of the tables and pending bit arrays of a space. -/
def msixBase : Space → Nat × Nat
  | .pf => (0x108000, 0x109000)
  | .vf _ => (0x2000, 0x3000)

/-- An offset of an MSI-X table or pending bit array. -/
def isMsix (sp : Space) (off : Nat) : Bool :=
  let (t, b) := msixBase sp
  let n := match sp with | .pf => 512 | .vf _ => 256
  (decide (t ≤ off) && decide (off < t + n)) || (decide (b ≤ off) && decide (off < b + 8))

/-- A read of one word of the tables or arrays. -/
def State.msixRead (s : State) (sp : Space) (off : Nat) : Nat :=
  let (t, b) := msixBase sp
  let pba := fun (m : Nat) => if off = b then m % 2 ^ 32 else 0
  match sp with
  | .pf => match msixSlot 32 t off with
    | some (i, w) => (tget s.pfMsix i).word w
    | none => pba (vmask (fun (e : MsixEnt) => e.pend) s.pfMsix)
  | .vf p => match msixSlot 16 t off with
    | some (i, w) => (tget (s.vf p).msix i).word w
    | none => pba (vmask (fun (e : MsixEnt) => e.pend) (s.vf p).msix)

/-- R149: a pending vector that is no longer masked signals once. -/
def State.msixFlush (s : State) (sp : Space) : State :=
  match sp with
  | .pf => s.each (List.finRange 32) (fun s i =>
      let e := tget s.pfMsix i
      if e.pend && ! e.masked then ({ s with pfMsix := upd s.pfMsix i { e with pend := false } } : State).signalPf i else s)
  | .vf p => s.each (List.finRange 16) (fun s i =>
      let e := tget (s.vf p).msix i
      if e.pend && ! e.masked then (s.setVf p (fun f => { f with msix := upd f.msix i { e with pend := false } })).signalVf p i else s)

/-- A write of one word of the tables; the pending bit array is not written. -/
def State.msixWrite (s : State) (sp : Space) (off v : Nat) : State :=
  let t := (msixBase sp).1
  let s := match sp with
    | .pf => match msixSlot 32 t off with
      | some (i, w) => { s with pfMsix := updWith s.pfMsix i (fun e => e.setWord v w) }
      | none => s
    | .vf p => match msixSlot 16 t off with
      | some (i, w) => s.setVf p (fun f => { f with msix := updWith f.msix i (fun e => e.setWord v w) })
      | none => s
  s.msixFlush sp

/-! ## Accesses -/

/-- The MSI-X tables of virtual functions are served whatever the phase (R169), those of the physical function as R65 and
R459 state. -/
def State.msixServed (s : State) (sp : Space) (off : Nat) : Bool :=
  match sp with
  | .vf _ => s.gate sp off != .absent
  | .pf => s.gate sp off == .serve

/-- A host write of `wide` width at an offset of a space. -/
def State.hostRegWrite (s : State) (sp : Space) (off : Nat) (wide : Bool) (v : Nat) : State :=
  if s.gate sp off = .absent ∨ off % 4 ≠ 0 ∨ (wide ∧ off % 8 ≠ 0) then s
  else if isMsix sp off then
    if s.msixServed sp off then
      let s := s.msixWrite sp off (v % 2 ^ 32)
      if wide then s.msixWrite sp (off + 4) (v / 2 ^ 32 % 2 ^ 32) else s
    else s
  else if s.gate sp off = .serve then s.busWrite sp off wide v else s

/-- A host read of `wide` width at an offset of a space. -/
def State.hostRegRead (s : State) (sp : Space) (off : Nat) (wide : Bool) : State :=
  let ret := fun (n : Nat) => ({ s with bus := { s.bus with rdata := n } } : State)
  match s.gate sp off with
  | .absent => s
  | g =>
    if off % 4 ≠ 0 ∨ (wide ∧ off % 8 ≠ 0) then ret 0
    else if isMsix sp off then
      if s.msixServed sp off then
        ret (s.msixRead sp off + (if wide then s.msixRead sp (off + 4) * 2 ^ 32 else 0))
      else ret 0
    else match g with
      | .serve => s.busRead s sp off wide
      | .frozen => { s with bus := { s.bus with rdata := (s.busRead s.frozen sp off wide).bus.rdata } }
      | _ => ret 0

/-- REGISTER_WRITE (R4, R7, R8). -/
def execRegisterWrite (sp : Space) (off : Nat) (wide : Bool) (val : W64) (s : State) : Host.Outcome State Fault Refusal :=
  .next (s.hostRegWrite sp off wide val.toNat)

/-- LOW_HALF_WRITE (R7): a 32-bit write at the offset of a 64-bit register. -/
def execLowHalfWrite (sp : Space) (off : Nat) (val : W32) (s : State) : Host.Outcome State Fault Refusal :=
  .next (s.hostRegWrite sp off false val.toNat)

/-- HIGH_HALF_WRITE (R7): a 32-bit write of the high half of the 64-bit register at `off`. -/
def execHighHalfWrite (sp : Space) (off : Nat) (val : W32) (s : State) : Host.Outcome State Fault Refusal :=
  .next (s.hostRegWrite sp (off + 4) false val.toNat)

/-- RC_READ (R7, R8): a read; RC fields clear. -/
def execRcRead (sp : Space) (off : Nat) (wide : Bool) (s : State) : Host.Outcome State Fault Refusal :=
  .next (s.hostRegRead sp off wide)

/-- LOW_HALF_READ (R7): a 32-bit read at the offset of a 64-bit register. -/
def execLowHalfRead (sp : Space) (off : Nat) (s : State) : Host.Outcome State Fault Refusal :=
  .next (s.hostRegRead sp off false)

end Sys2Proof.Machine
end

