-- ==== Sys2Proof/Machine/Dispatch.lean ====
section
/-! DEFINITION. Dispatch: one arm per command, each one call of its meaning. -/

namespace Sys2Proof.Machine

def exec (i : Instr) (s : State) : Host.Outcome State Fault Refusal :=
  match i with
  | .registerWrite sp off wide val => Sys2Proof.Machine.execRegisterWrite sp off wide val s
  | .lowHalfWrite sp off val => Sys2Proof.Machine.execLowHalfWrite sp off val s
  | .highHalfWrite sp off val => Sys2Proof.Machine.execHighHalfWrite sp off val s
  | .rcRead sp off wide => Sys2Proof.Machine.execRcRead sp off wide s
  | .colPowerOnResetExit pwrGood resetN tripN envSel smb1 smb0 => Sys2Proof.Machine.execColPowerOnResetExit pwrGood resetN tripN envSel smb1 smb0 s
  | .vddColLoss => Sys2Proof.Machine.execVddColLoss s
  | .pwrGoodRise envSel xtalOk => Sys2Proof.Machine.execPwrGoodRise envSel xtalOk s
  | .pwrGoodFall => Sys2Proof.Machine.execPwrGoodFall s
  | .resetNFall => Sys2Proof.Machine.execResetNFall s
  | .resetNRise xtalOk => Sys2Proof.Machine.execResetNRise xtalOk s
  | .internalResetRelease => Sys2Proof.Machine.execInternalResetRelease s
  | .undervoltageTrip rail => Sys2Proof.Machine.execUndervoltageTrip rail s
  | .crystalFault => Sys2Proof.Machine.execCrystalFault s
  | .tripNAssert => Sys2Proof.Machine.execTripNAssert s
  | .orderlyStopDone => Sys2Proof.Machine.execOrderlyStopDone s
  | .startBegin => Sys2Proof.Machine.execStartBegin s
  | .startStepDone st => Sys2Proof.Machine.execStartStepDone st s
  | .startReady => Sys2Proof.Machine.execStartReady s
  | .startWatchdogExpiry => Sys2Proof.Machine.execStartWatchdogExpiry s
  | .startRetry => Sys2Proof.Machine.execStartRetry s
  | .opticsDeadline => Sys2Proof.Machine.execOpticsDeadline s
  | .opticsResume ctg => Sys2Proof.Machine.execOpticsResume ctg s
  | .restartWarm val => Sys2Proof.Machine.execRestartWarm val s
  | .restartCold val => Sys2Proof.Machine.execRestartCold val s
  | .clearAndRestart val => Sys2Proof.Machine.execClearAndRestart val s
  | .quadPllLockLost q => Sys2Proof.Machine.execQuadPllLockLost q s
  | .quadPllRelockDone q ok => Sys2Proof.Machine.execQuadPllRelockDone q ok s
  | .quadDemote q => Sys2Proof.Machine.execQuadDemote q s
  | .quadEntryDone q => Sys2Proof.Machine.execQuadEntryDone q s
  | .quadWakeRequest q src => Sys2Proof.Machine.execQuadWakeRequest q src s
  | .quadPrewake q => Sys2Proof.Machine.execQuadPrewake q s
  | .quadWakeDone q => Sys2Proof.Machine.execQuadWakeDone q s
  | .quadReloadDone q => Sys2Proof.Machine.execQuadReloadDone q s
  | .clkQpolWrite q val => Sys2Proof.Machine.execClkQpolWrite q val s
  | .clkQforceWrite val => Sys2Proof.Machine.execClkQforceWrite val s
  | .cairnRead val => Sys2Proof.Machine.execCairnRead val s
  | .cairnProgram vppMv hot bad pkg => Sys2Proof.Machine.execCairnProgram vppMv hot bad pkg s
  | .cairnProgramDone res => Sys2Proof.Machine.execCairnProgramDone res s
  | .structLoad bad => Sys2Proof.Machine.execStructLoad bad s
  | .structLoadStageDone bad => Sys2Proof.Machine.execStructLoadStageDone bad s
  | .structCommit => Sys2Proof.Machine.execStructCommit s
  | .structAbort => Sys2Proof.Machine.execStructAbort s
  | .stagedHoldExpiry => Sys2Proof.Machine.execStagedHoldExpiry s
  | .structLoadTimeout => Sys2Proof.Machine.execStructLoadTimeout s
  | .quiesceHoldEnd p => Sys2Proof.Machine.execQuiesceHoldEnd p s
  | .drainLimitExpiry p => Sys2Proof.Machine.execDrainLimitExpiry p s
  | .zeroizationDone p => Sys2Proof.Machine.execZeroizationDone p s
  | .structSwitch => Sys2Proof.Machine.execStructSwitch s
  | .holdTimeout p => Sys2Proof.Machine.execHoldTimeout p s
  | .handoffSlotTimeout p => Sys2Proof.Machine.execHandoffSlotTimeout p s
  | .timeSliceExpiry r => Sys2Proof.Machine.execTimeSliceExpiry r s
  | .sqDoorbell p q val => Sys2Proof.Machine.execSqDoorbell p q val s
  | .cqDoorbell p q val => Sys2Proof.Machine.execCqDoorbell p q val s
  | .queueEnable p q val => Sys2Proof.Machine.execQueueEnable p q val s
  | .queueDisable p q val => Sys2Proof.Machine.execQueueDisable p q val s
  | .descriptorFetch p bad => Sys2Proof.Machine.execDescriptorFetch p bad s
  | .nop id => Sys2Proof.Machine.execNop id s
  | .copy id bad => Sys2Proof.Machine.execCopy id bad s
  | .copyDone id => Sys2Proof.Machine.execCopyDone id s
  | .run id => Sys2Proof.Machine.execRun id s
  | .runLimitExpiry id => Sys2Proof.Machine.execRunLimitExpiry id s
  | .fence id => Sys2Proof.Machine.execFence id s
  | .fenceSatisfied id => Sys2Proof.Machine.execFenceSatisfied id s
  | .fenceTimeout id => Sys2Proof.Machine.execFenceTimeout id s
  | .msgSend id => Sys2Proof.Machine.execMsgSend id s
  | .sessionOpen id => Sys2Proof.Machine.execSessionOpen id s
  | .setHold id => Sys2Proof.Machine.execSetHold id s
  | .clearHold id => Sys2Proof.Machine.execClearHold id s
  | .setGone id => Sys2Proof.Machine.execSetGone id s
  | .setAlignment id => Sys2Proof.Machine.execSetAlignment id s
  | .sessionClose id => Sys2Proof.Machine.execSessionClose id s
  | .audioIn id bad => Sys2Proof.Machine.execAudioIn id bad s
  | .audioOut id bad => Sys2Proof.Machine.execAudioOut id bad s
  | .completionWrite id => Sys2Proof.Machine.execCompletionWrite id s
  | .coalesceTimeout p q => Sys2Proof.Machine.execCoalesceTimeout p q s
  | .vfFlr p => Sys2Proof.Machine.execVfFlr p s
  | .vfBusMasterOff p d3 => Sys2Proof.Machine.execVfBusMasterOff p d3 s
  | .pfReset kind => Sys2Proof.Machine.execPfReset kind s
  | .bar2Access write off data len poison => Sys2Proof.Machine.execBar2Access write off data len poison s
  | .mbxDoorbell val bad => Sys2Proof.Machine.execMbxDoorbell val bad s
  | .errlogRead => Sys2Proof.Machine.execErrlogRead s
  | .colRead => Sys2Proof.Machine.execColRead s
  | .cairnIdRead => Sys2Proof.Machine.execCairnIdRead s
  | .flashRead => Sys2Proof.Machine.execFlashRead s
  | .flashErase ok => Sys2Proof.Machine.execFlashErase ok s
  | .flashProgram ok bad => Sys2Proof.Machine.execFlashProgram ok bad s
  | .linkSwap => Sys2Proof.Machine.execLinkSwap s
  | .ctgInfo => Sys2Proof.Machine.execCtgInfo s
  | .ctgHours => Sys2Proof.Machine.execCtgHours s
  | .laserPolicy => Sys2Proof.Machine.execLaserPolicy s
  | .calFull => Sys2Proof.Machine.execCalFull s
  | .calSnapshot => Sys2Proof.Machine.execCalSnapshot s
  | .calExport => Sys2Proof.Machine.execCalExport s
  | .calImport bad => Sys2Proof.Machine.execCalImport bad s
  | .thmReadAll readings => Sys2Proof.Machine.execThmReadAll readings s
  | .traverseEpochStart => Sys2Proof.Machine.execTraverseEpochStart s
  | .traverseTick phase => Sys2Proof.Machine.execTraverseTick phase s
  | .continuityWaitExpiry id => Sys2Proof.Machine.execContinuityWaitExpiry id s
  | .stepComplete id => Sys2Proof.Machine.execStepComplete id s
  | .vadSubframe n => Sys2Proof.Machine.execVadSubframe n s
  | .gateSweepVisit n => Sys2Proof.Machine.execGateSweepVisit n s
  | .lateCheck n => Sys2Proof.Machine.execLateCheck n s
  | .playoutBlockCommit n => Sys2Proof.Machine.execPlayoutBlockCommit n s
  | .playoutQuarterWrite n => Sys2Proof.Machine.execPlayoutQuarterWrite n s
  | .outboundAppend k => Sys2Proof.Machine.execOutboundAppend k s
  | .sessionStateLost n => Sys2Proof.Machine.execSessionStateLost n s
  | .entryStart q => Sys2Proof.Machine.execEntryStart q s
  | .entryFinish id => Sys2Proof.Machine.execEntryFinish id s
  | .entryStop id => Sys2Proof.Machine.execEntryStop id s
  | .stepLimitExpiry id => Sys2Proof.Machine.execStepLimitExpiry id s
  | .slewGrant => Sys2Proof.Machine.execSlewGrant s
  | .crestNop q t => Sys2Proof.Machine.execCrestNop q t s
  | .matmul q t => Sys2Proof.Machine.execMatmul q t s
  | .eltwise q t => Sys2Proof.Machine.execEltwise q t s
  | .convert q t => Sys2Proof.Machine.execConvert q t s
  | .move q t => Sys2Proof.Machine.execMove q t s
  | .crestWait q t => Sys2Proof.Machine.execCrestWait q t s
  | .crestSignal q t => Sys2Proof.Machine.execCrestSignal q t s
  | .result q t => Sys2Proof.Machine.execResult q t s
  | .crestEnd q t => Sys2Proof.Machine.execCrestEnd q t s
  | .corniceNop e => Sys2Proof.Machine.execCorniceNop e s
  | .conv e => Sys2Proof.Machine.execConv e s
  | .recode e => Sys2Proof.Machine.execRecode e s
  | .crop e => Sys2Proof.Machine.execCrop e s
  | .corniceWait e => Sys2Proof.Machine.execCorniceWait e s
  | .corniceSignal e => Sys2Proof.Machine.execCorniceSignal e s
  | .corniceEnd e => Sys2Proof.Machine.execCorniceEnd e s
  | .haloPublish e down => Sys2Proof.Machine.execHaloPublish e down s
  | .spurJobLand p slot => Sys2Proof.Machine.execSpurJobLand p slot s
  | .matvec job => Sys2Proof.Machine.execMatvec job s
  | .gather job => Sys2Proof.Machine.execGather job s
  | .scan job => Sys2Proof.Machine.execScan job s
  | .spurClear c => Sys2Proof.Machine.execSpurClear c s
  | .spurLoad c => Sys2Proof.Machine.execSpurLoad c s
  | .spurFire g => Sys2Proof.Machine.execSpurFire g s
  | .spurFireEnd g badBanks => Sys2Proof.Machine.execSpurFireEnd g badBanks s
  | .spurDrain c => Sys2Proof.Machine.execSpurDrain c s
  | .spurJobDone p => Sys2Proof.Machine.execSpurJobDone p s
  | .spurSelftest g fails => Sys2Proof.Machine.execSpurSelftest g fails s
  | .spurGroupGate g => Sys2Proof.Machine.execSpurGroupGate g s
  | .refreshDue g => Sys2Proof.Machine.execRefreshDue g s
  | .groupRefresh g => Sys2Proof.Machine.execGroupRefresh g s
  | .writeDrainTimeout c => Sys2Proof.Machine.execWriteDrainTimeout c s
  | .bandSwitch k band => Sys2Proof.Machine.execBandSwitch k band s
  | .bandSwitchWindow k => Sys2Proof.Machine.execBandSwitchWindow k s
  | .scrubStep c => Sys2Proof.Machine.execScrubStep c s
  | .selfRefreshExit k temp => Sys2Proof.Machine.execSelfRefreshExit k temp s
  | .dramPllLockLost k => Sys2Proof.Machine.execDramPllLockLost k s
  | .dramPllRelockDone k ok temp => Sys2Proof.Machine.execDramPllRelockDone k ok temp s
  | .ringFrame p codes => Sys2Proof.Machine.execRingFrame p codes s
  | .adcRequest p val => Sys2Proof.Machine.execAdcRequest p val s
  | .laneMoveSwitch p rx => Sys2Proof.Machine.execLaneMoveSwitch p rx s
  | .frameAligned p g hdrs => Sys2Proof.Machine.execFrameAligned p g hdrs s
  | .trackerDoubleStep p g => Sys2Proof.Machine.execTrackerDoubleStep p g s
  | .positionRetrainTimeout p g => Sys2Proof.Machine.execPositionRetrainTimeout p g s
  | .directionRetrain p rx => Sys2Proof.Machine.execDirectionRetrain p rx s
  | .linkPllLockLost p => Sys2Proof.Machine.execLinkPllLockLost p s
  | .linkPllRelockDone p ok => Sys2Proof.Machine.execLinkPllRelockDone p ok s
  | .flitReceive p flit ok ce => Sys2Proof.Machine.execFlitReceive p flit ok ce s
  | .laneLockLost p l => Sys2Proof.Machine.execLaneLockLost p l s
  | .nakReceive p ack => Sys2Proof.Machine.execNakReceive p ack s
  | .replayTimeout p => Sys2Proof.Machine.execReplayTimeout p s
  | .csync p ack freed => Sys2Proof.Machine.execCsync p ack freed s
  | .hello p h => Sys2Proof.Machine.execHello p h s
  | .moveAck p lane n => Sys2Proof.Machine.execMoveAck p lane n s
  | .moveAckDeadline p => Sys2Proof.Machine.execMoveAckDeadline p s
  | .moveCancel p lane n => Sys2Proof.Machine.execMoveCancel p lane n s
  | .moveReq p frm cause => Sys2Proof.Machine.execMoveReq p frm cause s
  | .calAnnounce p dir pos frame => Sys2Proof.Machine.execCalAnnounce p dir pos frame s
  | .swapReq p => Sys2Proof.Machine.execSwapReq p s
  | .swapGrant p fs serial => Sys2Proof.Machine.execSwapGrant p fs serial s
  | .roleSwapFrame p => Sys2Proof.Machine.execRoleSwapFrame p s
  | .linkHoldExpiry p => Sys2Proof.Machine.execLinkHoldExpiry p s
  | .sendRecord p => Sys2Proof.Machine.execSendRecord p s
  | .handoffArrival p => Sys2Proof.Machine.execHandoffArrival p s
  | .handoffReply p => Sys2Proof.Machine.execHandoffReply p s
  | .replyTimeout p tag => Sys2Proof.Machine.execReplyTimeout p tag s
  | .intlkFall => Sys2Proof.Machine.execIntlkFall s
  | .latchOpen => Sys2Proof.Machine.execLatchOpen s
  | .cartridgeSeated ctg => Sys2Proof.Machine.execCartridgeSeated ctg s
  | .driverFault n kind => Sys2Proof.Machine.execDriverFault n kind s
  | .tripClearArm val => Sys2Proof.Machine.execTripClearArm val s
  | .tripClear val => Sys2Proof.Machine.execTripClear val s
  | .tripClearSeqExpiry => Sys2Proof.Machine.execTripClearSeqExpiry s
  | .laserWarmupSettled ok => Sys2Proof.Machine.execLaserWarmupSettled ok s
  | .laserOut n => Sys2Proof.Machine.execLaserOut n s
  | .spareTuned n => Sys2Proof.Machine.execSpareTuned n s
  | .usageRecordWrite => Sys2Proof.Machine.execUsageRecordWrite s
  | .ctgVddTrip => Sys2Proof.Machine.execCtgVddTrip s
  | .ctgVddReclose => Sys2Proof.Machine.execCtgVddReclose s
  | .calStepLimit p => Sys2Proof.Machine.execCalStepLimit p s
  | .calFullTimeout => Sys2Proof.Machine.execCalFullTimeout s
  | .acquisitionRetry p g => Sys2Proof.Machine.execAcquisitionRetry p g s
  | .calSlotStart p => Sys2Proof.Machine.execCalSlotStart p s
  | .calRxStart p => Sys2Proof.Machine.execCalRxStart p s
  | .calRxDone p result => Sys2Proof.Machine.execCalRxDone p result s
  | .calAbort p cause => Sys2Proof.Machine.execCalAbort p cause s
  | .slotLimitExpiry p => Sys2Proof.Machine.execSlotLimitExpiry p s
  | .rollbackTimeout p => Sys2Proof.Machine.execRollbackTimeout p s
  | .snapshotCapture => Sys2Proof.Machine.execSnapshotCapture s
  | .snapshotFlashWrite ok => Sys2Proof.Machine.execSnapshotFlashWrite ok s
  | .thmRequest val => Sys2Proof.Machine.execThmRequest val s
  | .sensorReading r => Sys2Proof.Machine.execSensorReading r s
  | .thermalLapse n => Sys2Proof.Machine.execThermalLapse n s
  | .limitStepDown => Sys2Proof.Machine.execLimitStepDown s
  | .limitStepUp => Sys2Proof.Machine.execLimitStepUp s
  | .deviceFatal c => Sys2Proof.Machine.execDeviceFatal c s
  | .mgmtWatchdogExpiry => Sys2Proof.Machine.execMgmtWatchdogExpiry s
  | .lowHalfRead sp off => Sys2Proof.Machine.execLowHalfRead sp off s
  | .tripNRelease => Sys2Proof.Machine.execTripNRelease s
  | .intlkNRise => Sys2Proof.Machine.execIntlkNRise s
  | .latchClosed => Sys2Proof.Machine.execLatchClosed s
  | .overcurrentRetry n => Sys2Proof.Machine.execOvercurrentRetry n s
  | .vppOtpFall => Sys2Proof.Machine.execVppOtpFall s
  | .vfBusMasterOn p => Sys2Proof.Machine.execVfBusMasterOn p s
  | .laneLocked p l => Sys2Proof.Machine.execLaneLocked p l s
  | .linkPllLocked p => Sys2Proof.Machine.execLinkPllLocked p s
  | .laneMoveMessage p lane frm dst cause n => Sys2Proof.Machine.execLaneMoveMessage p lane frm dst cause n s

end Sys2Proof.Machine
end

