-- ==== Sys2Proof/Machine/Tick.lean ====
section
/-! DEFINITION. What one crystal cycle does when no command waits: the count of crystal cycles (R45), the ramp of the lasers
(R375), and the write queues (R276, R277, R279). Every other effect of time has a command of its own. -/

namespace Sys2Proof.Machine

/-- R375: 1 ms of the ramp: 0.2 mA, which is 4 codes, from 20 ms after the warm-up began, up to the RUN code. -/
def State.rampLaser (s : State) (n : Fin 20) : State :=
  let x := s.las n
  if s.usable n && (x.st == .idle || x.st == .ramp) then
    let b := min (s.runOf n) (x.bias + 4)
    s.laserTo n (if b = s.runOf n then .run else .ramp) b
  else s

/-- R375: the lasers ramp in a warm-up, at each whole millisecond from 20 ms on. -/
def State.rampTick (s : State) : State :=
  match s.laser.warmAt with
  | some t =>
    if s.gateOpen && s.past t (msCyc 20) && decide ((s.now - t) % msCyc 1 = 0) then s.each allLasers State.rampLaser else s
  | none => s

/-- R276, R277, R279: a channel whose queue holds writes while no read waits is in drain mode, and issues the oldest; the
write issued before it has landed. The rate is log 52. -/
def ChanSt.drainTick (c : ChanSt) (up : Bool) : ChanSt :=
  if up then
    if c.wrWait = 0 then { c with wrIssue := 0, drain := false }
    else { c with wrWait := c.wrWait - 1, wrIssue := 1, drain := true }
  else c

/-- Every channel's write queue, while its stack is up. -/
def State.drainChans (s : State) : State :=
  { s with dram := { s.dram with
      chans := vmapIdx (fun c x => x.drainTick (s.stackUp (stackNo (c.val / 16)))) s.dram.chans } }

/-- One crystal cycle passes; Col in power-on reset counts none. -/
def tick (s : State) : State :=
  if s.col.por then s
  else
    let s := { s with col := { s.col with cyc := s.col.cyc + 1 } }
    s.rampTick.drainChans

end Sys2Proof.Machine
end

