-- ==== Sys2Proof/Safety.lean ====
section
/-! DEFINITION. What claims are stated in: which parts of the state a command may change, the invariant every step keeps,
and what a safe run is. -/

namespace Sys2Proof.Machine

/-! ## Frames -/

/-- The parts of State, one name per field. -/
inductive Slice
  | pins | col | start | quads | cairn | lockLoss | loader | committed | str | ret | parts | numVfs | vfs
  | turns | mbx | pfMsix | irqs | items | nextItem | sends | nextMid | dram | ras | trv | crest | cornice
  | spur | ports | links | linkHoldMs | replyMs | pmsg | laser | cal | thm | flash | hostMem | bus | pending
  | free
  deriving DecidableEq, Repr

/-- Two states agree on one part. -/
def Slice.same (x : Slice) (s t : State) : Prop :=
  match x with
  | .pins => t.pins = s.pins
  | .col => t.col = s.col
  | .start => t.start = s.start
  | .quads => t.quads = s.quads
  | .cairn => t.cairn = s.cairn
  | .lockLoss => t.lockLoss = s.lockLoss
  | .loader => t.loader = s.loader
  | .committed => t.committed = s.committed
  | .str => t.str = s.str
  | .ret => t.ret = s.ret
  | .parts => t.parts = s.parts
  | .numVfs => t.numVfs = s.numVfs
  | .vfs => t.vfs = s.vfs
  | .turns => t.turns = s.turns
  | .mbx => t.mbx = s.mbx
  | .pfMsix => t.pfMsix = s.pfMsix
  | .irqs => t.irqs = s.irqs
  | .items => t.items = s.items
  | .nextItem => t.nextItem = s.nextItem
  | .sends => t.sends = s.sends
  | .nextMid => t.nextMid = s.nextMid
  | .dram => t.dram = s.dram
  | .ras => t.ras = s.ras
  | .trv => t.trv = s.trv
  | .crest => t.crest = s.crest
  | .cornice => t.cornice = s.cornice
  | .spur => t.spur = s.spur
  | .ports => t.ports = s.ports
  | .links => t.links = s.links
  | .linkHoldMs => t.linkHoldMs = s.linkHoldMs
  | .replyMs => t.replyMs = s.replyMs
  | .pmsg => t.pmsg = s.pmsg
  | .laser => t.laser = s.laser
  | .cal => t.cal = s.cal
  | .thm => t.thm = s.thm
  | .flash => t.flash = s.flash
  | .hostMem => t.hostMem = s.hostMem
  | .bus => t.bus = s.bus
  | .pending => t.pending = s.pending
  | .free => t.free = s.free

/-- Every part of the state outside the list is unchanged. -/
structure Only (l : List Slice) (s t : State) : Prop where
  out : ∀ x, x ∉ l → x.same s t

/-- The parts, in three lists. -/
def slicesA : List Slice :=
  [.pins, .col, .start, .quads, .cairn, .lockLoss, .loader, .committed, .str, .ret, .parts, .numVfs, .vfs, .turns]
def slicesB : List Slice :=
  [.mbx, .pfMsix, .irqs, .items, .nextItem, .sends, .nextMid, .dram, .ras, .trv, .crest, .cornice, .spur, .ports]
def slicesC : List Slice :=
  [.links, .linkHoldMs, .replyMs, .pmsg, .laser, .cal, .thm, .flash, .hostMem, .bus, .pending, .free]

/-- Every part but those of the list. -/
def slicesBut (l : List Slice) : List Slice := (slicesA ++ slicesB ++ slicesC).filter (fun x => ! l.contains x)

/-! ## Canonical memories -/

/-- Every sparse memory is in its canonical form: keys rising, no entry equal to what an unlisted key reads as. -/
structure Canon (s : State) : Prop where
  words : spWf 0 s.cairn.words = true
  weak : spWf false s.cairn.weak = true
  mem : spWf 0 s.dram.mem = true
  poison : spWf 0 s.dram.poison = true
  flaws : spWf Flaw.none s.dram.flaws = true
  sram : spWf 0 s.crest.sram = true
  qbuf : spWf 0 s.crest.qbuf = true
  sramPoison : spWf 0 s.crest.sramPoison = true
  qbufPoison : spWf 0 s.crest.qbufPoison = true
  sramFlaws : spWf Flaw.none s.crest.sramFlaws = true
  qbufFlaws : spWf Flaw.none s.crest.qbufFlaws = true
  eeprom : spWf 0xFF s.laser.eeprom = true
  held : spWf none s.bus.held = true
  latch : spWf none s.bus.latch = true
  flash : spWf 0xFF s.flash = true
  hostMem : spWf 0 s.hostMem = true

/-! ## The one-time-programmable store (R79) -/

/-- R79: between two stores no bit of a Cairn word went from 1 to 0. -/
def OtpGrows (m m' : Sparse Nat) : Prop :=
  ∀ w b, bitAt (spGet 0 m w) b = true → bitAt (spGet 0 m' w) b = true

/-! ## Balances (R175, R262) -/

/-- R175: the inbound books of every session balance: the frames accepted are the frames consumed and the frames buffered, and the
buffered frames stand in the ring in rising order. -/
structure Books (s : State) : Prop where
  balance : ∀ e, e ∈ s.trv.sess → e.2.consumed + e.2.inHeld.length = e.2.delivered
  rising : ∀ e, e ∈ s.trv.sess → e.2.inHeld.Pairwise (· < ·)

/-- R262: the tokens of every stack are free, held or retired, 32 in all. -/
def Tokens (s : State) : Prop :=
  ∀ k, (tget s.spur.ledgers k).free + (tget s.spur.ledgers k).held + (tget s.spur.ledgers k).retired = 32

/-! ## Requests of the mailbox (R162, R163) -/

/-- The request at the head of the request ring has an OPCODE and is the only one that waits. -/
structure Asked (s : State) (op : Nat) (req : List Byte) : Prop where
  head : s.mbxHead = some req
  code : leAt req 0 2 = op
  last : s.mbx.reqTail = (s.mbx.reqHead + 1) % s.mbxSize

/-- A request has its reply: its STATUS, the TAG and the OPCODE of the request and the result fields stand in the slot at the
reply tail, which has moved on, and no request is in execution or waits. -/
structure Answered (s t : State) (req : List Byte) (st : Status) (res : List (Nat × List Byte)) : Prop where
  head : t.mbx.reqHead = s.mbx.reqTail
  tail : t.mbx.rspTail = (s.mbx.rspTail + 1) % s.mbxSize
  busy : t.mbx.busy = none
  reply : t.hostRead (s.mbx.rspBase + 64 * s.mbx.rspTail) 6 = leBytes 2 st.num ++ sliceB req 2 2 ++ sliceB req 0 2
  fields : ∀ f, f ∈ res → t.hostRead (s.mbx.rspBase + 64 * s.mbx.rspTail + f.1) f.2.length = f.2

/-- A request has been taken and is in execution since now. -/
structure Taken (s t : State) (req : List Byte) : Prop where
  head : t.mbx.reqHead = s.mbx.reqTail
  busy : t.mbx.busy = some (req, s.now)
  tail : t.mbx.rspTail = s.mbx.rspTail

/-! ## Items (R161) -/

/-- The item of a name has finished with a status and a RESULT; its record is not yet written. -/
def Ended (t : State) (id : Nat) (st : Status) (result : Nat) : Prop :=
  ∃ i, t.item id = some i ∧ i.fin = some st ∧ i.result = result

/-! ## Safe runs -/

/-- `k` steps from a state meet no fault and no refusal. -/
def SafeRun (k : Nat) (s : State) : Prop := ∃ t, Host.Core.run Sys2Proof.core k s = .next t

/-- The parts of the state that a command may change: those its rules name, and those that what it sets off reaches (a log
entry, an interrupt, a completion, an orderly stop). The queue of commands is in no list: no command changes it. -/
def touches (i : Instr) : List Slice :=
  match i with
  | .registerWrite _ _ _ _ => slicesBut [.pins, .lockLoss, .committed, .str, .ret, .numVfs, .turns, .nextMid, .pmsg, .flash, .pending]
  | .lowHalfWrite _ _ _ => slicesBut [.pins, .lockLoss, .committed, .str, .ret, .numVfs, .turns, .nextMid, .pmsg, .flash, .pending]
  | .highHalfWrite _ _ _ => slicesBut [.pins, .lockLoss, .committed, .str, .ret, .numVfs, .turns, .nextMid, .pmsg, .flash, .pending]
  | .rcRead _ _ _ => slicesBut [.pins, .col, .start, .cairn, .loader, .committed, .str, .ret, .numVfs, .vfs, .turns, .mbx, .pfMsix, .irqs, .items, .nextItem, .sends, .nextMid, .linkHoldMs, .replyMs, .laser, .flash, .hostMem, .pending, .free]
  | .colPowerOnResetExit _ _ _ _ _ _ => [.pins, .col, .pfMsix, .irqs, .ras, .laser, .thm, .free]
  | .vddColLoss => slicesBut [.pending]
  | .pwrGoodRise _ _ => [.pins, .col, .start, .thm]
  | .pwrGoodFall => slicesBut [.lockLoss, .committed, .str, .ret, .numVfs, .turns, .nextMid, .linkHoldMs, .replyMs, .pmsg, .thm, .flash, .bus, .pending]
  | .resetNFall => slicesBut [.lockLoss, .committed, .str, .ret, .numVfs, .turns, .nextMid, .linkHoldMs, .replyMs, .pmsg, .laser, .thm, .flash, .bus, .pending]
  | .resetNRise _ => [.pins, .col, .start, .thm]
  | .internalResetRelease => [.col, .start]
  | .undervoltageTrip _ => slicesBut [.pending]
  | .crystalFault => slicesBut [.pins, .lockLoss, .committed, .str, .ret, .numVfs, .turns, .nextMid, .linkHoldMs, .replyMs, .pmsg, .thm, .flash, .bus, .pending]
  | .tripNAssert => [.pins, .col, .pfMsix, .irqs, .ras, .laser, .thm]
  | .orderlyStopDone => slicesBut [.pending]
  | .startBegin => [.col, .start, .dram, .ras, .spur, .thm]
  | .startStepDone _ => slicesBut [.pins, .lockLoss, .numVfs, .turns, .nextMid, .linkHoldMs, .replyMs, .thm, .flash, .bus, .pending]
  | .startReady => slicesBut [.pins, .cairn, .lockLoss, .numVfs, .turns, .nextItem, .nextMid, .linkHoldMs, .replyMs, .pmsg, .laser, .thm, .flash, .bus, .pending, .free]
  | .startWatchdogExpiry => slicesBut [.pins, .lockLoss, .committed, .str, .ret, .numVfs, .turns, .nextMid, .linkHoldMs, .replyMs, .pmsg, .laser, .thm, .flash, .bus, .pending]
  | .startRetry => [.col, .start]
  | .opticsDeadline => slicesBut [.pins, .col, .cairn, .lockLoss, .numVfs, .turns, .nextItem, .nextMid, .linkHoldMs, .replyMs, .pmsg, .thm, .flash, .bus, .pending, .free]
  | .opticsResume _ => slicesBut [.pins, .col, .start, .quads, .cairn, .lockLoss, .loader, .committed, .str, .ret, .numVfs, .turns, .nextItem, .nextMid, .trv, .cornice, .spur, .linkHoldMs, .replyMs, .thm, .flash, .bus, .pending, .free]
  | .restartWarm _ => slicesBut [.pins, .lockLoss, .committed, .str, .ret, .numVfs, .turns, .nextMid, .linkHoldMs, .replyMs, .pmsg, .laser, .thm, .flash, .bus, .pending]
  | .restartCold _ => slicesBut [.pins, .lockLoss, .committed, .str, .ret, .numVfs, .turns, .nextMid, .linkHoldMs, .replyMs, .pmsg, .laser, .thm, .flash, .bus, .pending]
  | .clearAndRestart _ => slicesBut [.pins, .lockLoss, .committed, .str, .ret, .numVfs, .turns, .nextMid, .linkHoldMs, .replyMs, .pmsg, .laser, .thm, .flash, .bus, .pending]
  | .quadPllLockLost _ => [.quads, .lockLoss, .pfMsix, .irqs, .items, .ras, .crest]
  | .quadPllRelockDone _ _ => [.quads, .pfMsix, .irqs, .items, .ras]
  | .quadDemote _ => [.quads]
  | .quadEntryDone _ => [.quads, .crest, .cornice]
  | .quadWakeRequest _ _ => [.quads]
  | .quadPrewake _ => [.quads]
  | .quadWakeDone _ => [.quads]
  | .quadReloadDone _ => [.quads, .parts, .turns, .pfMsix, .irqs, .dram, .ras, .crest]
  | .clkQpolWrite _ _ => [.quads]
  | .clkQforceWrite _ => [.quads]
  | .cairnRead _ => [.cairn]
  | .cairnProgram _ _ _ _ => [.col, .cairn, .mbx, .pfMsix, .irqs, .hostMem]
  | .cairnProgramDone _ => [.cairn, .mbx, .pfMsix, .irqs, .hostMem, .free]
  | .structLoad _ => [.loader, .mbx, .pfMsix, .irqs, .ras, .hostMem, .free]
  | .structLoadStageDone _ => slicesBut [.pins, .lockLoss, .committed, .str, .numVfs, .turns, .nextMid, .linkHoldMs, .replyMs, .pmsg, .laser, .thm, .flash, .bus, .pending]
  | .structCommit => slicesBut [.pins, .col, .start, .cairn, .lockLoss, .committed, .str, .numVfs, .turns, .nextItem, .nextMid, .dram, .ras, .ports, .linkHoldMs, .replyMs, .pmsg, .laser, .cal, .thm, .flash, .bus, .pending]
  | .structAbort => [.loader, .mbx, .pfMsix, .irqs, .ras, .hostMem, .free]
  | .stagedHoldExpiry => [.loader, .pfMsix, .irqs, .ras]
  | .structLoadTimeout => [.loader, .mbx, .pfMsix, .irqs, .ras, .hostMem]
  | .quiesceHoldEnd _ => slicesBut [.pins, .col, .start, .cairn, .lockLoss, .loader, .committed, .str, .ret, .numVfs, .turns, .mbx, .nextMid, .ports, .linkHoldMs, .replyMs, .pmsg, .laser, .cal, .thm, .flash, .bus, .pending, .free]
  | .drainLimitExpiry _ => [.parts, .items]
  | .zeroizationDone _ => [.loader, .parts, .dram, .crest, .cornice, .spur]
  | .structSwitch => slicesBut [.pins, .col, .cairn, .lockLoss, .numVfs, .turns, .nextItem, .nextMid, .linkHoldMs, .replyMs, .pmsg, .laser, .thm, .flash, .bus, .pending, .free]
  | .holdTimeout _ => [.parts, .sends, .links, .free]
  | .handoffSlotTimeout _ => [.parts, .items, .sends, .links, .free]
  | .timeSliceExpiry _ => [.turns]
  | .sqDoorbell _ _ _ => [.parts, .vfs, .irqs]
  | .cqDoorbell _ _ _ => [.parts, .vfs, .irqs]
  | .queueEnable _ _ _ => [.vfs]
  | .queueDisable _ _ _ => [.vfs]
  | .descriptorFetch _ _ => [.vfs, .pfMsix, .irqs, .items, .nextItem, .ras]
  | .nop _ => [.items]
  | .copy _ _ => [.items]
  | .copyDone _ => [.parts, .vfs, .pfMsix, .irqs, .items, .dram, .ras, .spur, .hostMem]
  | .run _ => [.items]
  | .runLimitExpiry _ => [.items]
  | .fence _ => [.items]
  | .fenceSatisfied _ => [.items]
  | .fenceTimeout _ => [.items]
  | .msgSend _ => [.parts, .vfs, .pfMsix, .irqs, .items, .sends, .nextMid, .dram, .ras, .crest, .links, .hostMem]
  | .sessionOpen _ => [.items, .trv]
  | .setHold _ => [.items, .trv]
  | .clearHold _ => [.items, .trv]
  | .setGone _ => [.items, .trv]
  | .setAlignment _ => [.items, .trv]
  | .sessionClose _ => [.items, .trv]
  | .audioIn _ _ => [.pfMsix, .irqs, .items, .dram, .ras, .trv]
  | .audioOut _ _ => [.pfMsix, .irqs, .items, .dram, .ras, .trv]
  | .completionWrite _ => [.parts, .vfs, .irqs, .items, .nextItem, .sends, .ras, .links, .hostMem]
  | .coalesceTimeout _ _ => [.vfs, .irqs]
  | .vfFlr _ => [.vfs, .items, .sends, .trv]
  | .vfBusMasterOff _ _ => [.vfs]
  | .pfReset _ => slicesBut [.pins, .lockLoss, .committed, .str, .ret, .numVfs, .turns, .nextMid, .linkHoldMs, .replyMs, .pmsg, .laser, .thm, .flash, .bus, .pending]
  | .bar2Access _ _ _ _ _ => [.pfMsix, .irqs, .dram, .ras, .bus]
  | .mbxDoorbell _ _ => [.mbx, .pfMsix, .irqs, .hostMem]
  | .errlogRead => [.mbx, .pfMsix, .irqs, .ras, .hostMem]
  | .colRead => [.mbx, .pfMsix, .irqs, .hostMem]
  | .cairnIdRead => [.mbx, .pfMsix, .irqs, .hostMem]
  | .flashRead => [.mbx, .pfMsix, .irqs, .hostMem]
  | .flashErase _ => [.mbx, .pfMsix, .irqs, .flash, .hostMem, .free]
  | .flashProgram _ _ => [.mbx, .pfMsix, .irqs, .flash, .hostMem, .free]
  | .linkSwap => [.mbx, .pfMsix, .irqs, .sends, .links, .hostMem]
  | .ctgInfo => [.mbx, .pfMsix, .irqs, .hostMem]
  | .ctgHours => [.mbx, .pfMsix, .irqs, .hostMem]
  | .laserPolicy => [.col, .mbx, .pfMsix, .irqs, .laser, .hostMem]
  | .calFull => slicesBut [.pins, .col, .quads, .cairn, .lockLoss, .loader, .committed, .str, .ret, .numVfs, .turns, .nextItem, .nextMid, .trv, .cornice, .spur, .linkHoldMs, .replyMs, .laser, .thm, .flash, .bus, .pending]
  | .calSnapshot => [.mbx, .pfMsix, .irqs, .cal, .hostMem, .free]
  | .calExport => [.mbx, .pfMsix, .irqs, .hostMem]
  | .calImport _ => [.mbx, .pfMsix, .irqs, .cal, .hostMem, .free]
  | .thmReadAll _ => slicesBut [.pending]
  | .traverseEpochStart => [.trv]
  | .traverseTick _ => [.pfMsix, .irqs, .items, .nextItem, .dram, .ras, .trv]
  | .continuityWaitExpiry _ => [.items, .trv]
  | .stepComplete _ => [.parts, .vfs, .pfMsix, .irqs, .items, .dram, .ras, .trv, .hostMem]
  | .vadSubframe _ => [.pfMsix, .irqs, .dram, .ras, .trv, .free]
  | .gateSweepVisit _ => [.pfMsix, .irqs, .items, .dram, .ras, .trv]
  | .lateCheck _ => [.pfMsix, .irqs, .dram, .ras, .trv]
  | .playoutBlockCommit _ => [.pfMsix, .irqs, .dram, .ras, .trv, .free]
  | .playoutQuarterWrite _ => [.vfs, .trv, .hostMem]
  | .outboundAppend _ => [.pfMsix, .irqs, .dram, .ras, .trv]
  | .sessionStateLost _ => [.pfMsix, .irqs, .items, .dram, .ras, .trv]
  | .entryStart _ => [.items, .crest, .cornice]
  | .entryFinish _ => [.quads, .items, .trv, .crest, .cornice]
  | .entryStop _ => [.quads, .parts, .items, .sends, .trv, .crest, .cornice, .spur]
  | .stepLimitExpiry _ => [.items]
  | .slewGrant => [.crest]
  | .crestNop _ _ => [.items, .crest]
  | .matmul _ _ => [.quads, .pfMsix, .irqs, .items, .dram, .ras, .trv, .crest]
  | .eltwise _ _ => [.quads, .pfMsix, .irqs, .items, .dram, .ras, .trv, .crest]
  | .convert _ _ => [.quads, .pfMsix, .irqs, .items, .dram, .ras, .trv, .crest]
  | .move _ _ => [.quads, .parts, .pfMsix, .irqs, .items, .dram, .ras, .trv, .crest, .spur]
  | .crestWait _ _ => [.pfMsix, .irqs, .items, .ras, .crest]
  | .crestSignal _ _ => [.pfMsix, .irqs, .items, .ras, .crest]
  | .result _ _ => [.items, .crest]
  | .crestEnd _ _ => [.items, .crest]
  | .corniceNop _ => [.items, .crest, .cornice]
  | .conv _ => [.quads, .pfMsix, .irqs, .items, .dram, .ras, .trv, .crest, .cornice]
  | .recode _ => [.quads, .pfMsix, .irqs, .items, .dram, .ras, .trv, .crest, .cornice]
  | .crop _ => [.quads, .pfMsix, .irqs, .items, .dram, .ras, .trv, .crest, .cornice]
  | .corniceWait _ => [.pfMsix, .irqs, .items, .ras, .crest, .cornice]
  | .corniceSignal _ => [.pfMsix, .irqs, .items, .ras, .crest, .cornice]
  | .corniceEnd _ => [.items, .crest, .cornice]
  | .haloPublish _ _ => [.cornice]
  | .spurJobLand _ _ => [.pfMsix, .irqs, .dram, .ras, .spur]
  | .matvec _ => [.quads, .pfMsix, .irqs, .dram, .ras, .crest, .spur, .free]
  | .gather _ => [.quads, .pfMsix, .irqs, .dram, .ras, .crest, .spur, .free]
  | .scan _ => [.quads, .pfMsix, .irqs, .dram, .ras, .crest, .spur, .free]
  | .spurClear _ => [.parts, .turns, .spur]
  | .spurLoad _ => [.parts, .turns, .spur]
  | .spurFire _ => [.parts, .turns, .pfMsix, .irqs, .dram, .ras, .spur]
  | .spurFireEnd _ _ => [.pfMsix, .irqs, .dram, .ras, .spur]
  | .spurDrain _ => [.quads, .parts, .turns, .pfMsix, .irqs, .dram, .ras, .crest, .spur, .free]
  | .spurJobDone _ => [.quads, .pfMsix, .irqs, .items, .dram, .ras, .crest, .spur, .free]
  | .spurSelftest _ _ => [.pfMsix, .irqs, .ras, .spur]
  | .spurGroupGate _ => [.spur]
  | .refreshDue _ => [.dram]
  | .groupRefresh _ => [.dram]
  | .writeDrainTimeout _ => [.dram]
  | .bandSwitch _ _ => [.dram]
  | .bandSwitchWindow _ => [.dram]
  | .scrubStep _ => slicesBut [.pins, .lockLoss, .committed, .str, .ret, .numVfs, .turns, .nextMid, .linkHoldMs, .replyMs, .pmsg, .laser, .thm, .flash, .bus, .pending]
  | .selfRefreshExit _ _ => slicesBut [.pins, .lockLoss, .committed, .str, .ret, .numVfs, .turns, .nextMid, .linkHoldMs, .replyMs, .pmsg, .laser, .thm, .flash, .bus, .pending]
  | .dramPllLockLost _ => [.lockLoss, .pfMsix, .irqs, .dram, .ras, .spur]
  | .dramPllRelockDone _ _ _ => slicesBut [.pins, .lockLoss, .committed, .str, .ret, .numVfs, .turns, .nextMid, .linkHoldMs, .replyMs, .pmsg, .laser, .thm, .flash, .bus, .pending]
  | .ringFrame _ _ => [.col, .start, .mbx, .pfMsix, .irqs, .sends, .ras, .ports, .links, .laser, .cal, .hostMem, .free]
  | .adcRequest _ _ => [.ports]
  | .laneMoveSwitch _ _ => [.mbx, .pfMsix, .irqs, .ras, .ports, .links, .cal, .hostMem]
  | .frameAligned _ _ _ => [.pfMsix, .irqs, .sends, .ras, .ports, .links, .cal]
  | .trackerDoubleStep _ _ => [.pfMsix, .irqs, .sends, .ras, .ports, .links, .cal]
  | .positionRetrainTimeout _ _ => [.pfMsix, .irqs, .ras, .ports]
  | .directionRetrain _ _ => [.mbx, .pfMsix, .irqs, .ras, .ports, .links, .cal, .hostMem]
  | .linkPllLockLost _ => [.mbx, .pfMsix, .irqs, .ras, .ports, .links, .cal, .hostMem]
  | .linkPllRelockDone _ _ => [.mbx, .pfMsix, .irqs, .ras, .ports, .links, .cal, .hostMem]
  | .flitReceive _ _ _ _ => [.parts, .mbx, .pfMsix, .irqs, .sends, .ras, .ports, .links, .cal, .hostMem]
  | .laneLockLost _ _ => [.mbx, .pfMsix, .irqs, .ras, .ports, .links, .cal, .hostMem]
  | .nakReceive _ _ => [.mbx, .pfMsix, .irqs, .ras, .ports, .links, .cal, .hostMem]
  | .replayTimeout _ => [.mbx, .pfMsix, .irqs, .ras, .ports, .links, .cal, .hostMem]
  | .csync _ _ _ => [.mbx, .pfMsix, .irqs, .sends, .ras, .ports, .links, .cal, .hostMem]
  | .hello _ _ => [.pfMsix, .irqs, .sends, .ras, .links]
  | .moveAck _ _ _ => [.ports]
  | .moveAckDeadline _ => [.pfMsix, .irqs, .sends, .ras, .ports, .links, .cal]
  | .moveCancel _ _ _ => [.ports]
  | .moveReq _ _ _ => [.pfMsix, .irqs, .sends, .ras, .ports, .links, .cal]
  | .calAnnounce _ _ _ _ => [.links]
  | .swapReq _ => [.sends, .links]
  | .swapGrant _ _ _ => [.mbx, .pfMsix, .irqs, .links, .hostMem]
  | .roleSwapFrame _ => [.mbx, .pfMsix, .irqs, .sends, .ports, .links, .hostMem]
  | .linkHoldExpiry _ => slicesBut [.pins, .col, .start, .quads, .cairn, .lockLoss, .loader, .committed, .str, .ret, .numVfs, .turns, .nextItem, .nextMid, .trv, .cornice, .spur, .linkHoldMs, .replyMs, .laser, .thm, .flash, .bus, .pending, .free]
  | .sendRecord _ => [.parts, .vfs, .pfMsix, .irqs, .items, .sends, .nextMid, .dram, .ras, .crest, .spur, .links, .hostMem]
  | .handoffArrival _ => [.parts, .pfMsix, .irqs, .items, .nextItem, .sends, .dram, .ras, .links, .free]
  | .handoffReply _ => [.parts, .vfs, .pfMsix, .irqs, .items, .sends, .dram, .ras, .trv, .crest, .pmsg, .hostMem]
  | .replyTimeout _ _ => [.vfs, .pfMsix, .irqs, .items, .sends, .dram, .ras, .crest, .pmsg, .hostMem]
  | .intlkFall => [.col, .pfMsix, .irqs, .ras, .laser, .thm]
  | .latchOpen => [.col, .laser]
  | .cartridgeSeated _ => [.pfMsix, .irqs, .ras, .laser]
  | .driverFault _ _ => [.col, .laser]
  | .tripClearArm _ => [.laser, .thm]
  | .tripClear _ => [.laser, .thm]
  | .tripClearSeqExpiry => [.laser]
  | .laserWarmupSettled _ => slicesBut [.pins, .col, .quads, .cairn, .lockLoss, .loader, .committed, .str, .ret, .numVfs, .turns, .nextItem, .nextMid, .trv, .cornice, .spur, .linkHoldMs, .replyMs, .thm, .flash, .bus, .pending, .free]
  | .laserOut _ => [.pfMsix, .irqs, .sends, .ras, .ports, .links, .laser, .cal]
  | .spareTuned _ => [.ports, .laser]
  | .usageRecordWrite => [.pfMsix, .irqs, .ras, .laser, .free]
  | .ctgVddTrip => [.laser]
  | .ctgVddReclose => [.laser]
  | .calStepLimit _ => [.start, .mbx, .pfMsix, .irqs, .ras, .ports, .cal, .hostMem]
  | .calFullTimeout => [.mbx, .pfMsix, .irqs, .ports, .cal, .hostMem]
  | .acquisitionRetry _ _ => [.ports]
  | .calSlotStart _ => [.pfMsix, .irqs, .sends, .ras, .ports, .links, .cal]
  | .calRxStart _ => [.ports]
  | .calRxDone _ _ => [.pfMsix, .irqs, .sends, .ras, .ports, .links, .cal]
  | .calAbort _ _ => [.pfMsix, .irqs, .ras, .ports, .links, .cal]
  | .slotLimitExpiry _ => [.pfMsix, .irqs, .sends, .ras, .ports, .links, .cal]
  | .rollbackTimeout _ => [.pfMsix, .irqs, .ras, .ports, .links]
  | .snapshotCapture => [.cal]
  | .snapshotFlashWrite _ => [.pfMsix, .irqs, .ras, .cal, .flash, .free]
  | .thmRequest _ => [.thm]
  | .sensorReading _ => slicesBut [.pending]
  | .thermalLapse _ => [.pfMsix, .irqs, .ras, .thm]
  | .limitStepDown => [.crest, .spur, .thm]
  | .limitStepUp => [.crest, .spur, .thm]
  | .deviceFatal _ => slicesBut [.pending]
  | .mgmtWatchdogExpiry => slicesBut [.pins, .lockLoss, .committed, .str, .ret, .numVfs, .turns, .nextMid, .linkHoldMs, .replyMs, .pmsg, .laser, .thm, .flash, .bus, .pending]
  | .lowHalfRead _ _ => slicesBut [.pins, .col, .start, .cairn, .loader, .committed, .str, .ret, .numVfs, .vfs, .turns, .mbx, .pfMsix, .irqs, .items, .nextItem, .sends, .nextMid, .linkHoldMs, .replyMs, .laser, .flash, .hostMem, .pending, .free]
  | .tripNRelease => [.pins]
  | .intlkNRise => [.laser]
  | .latchClosed => [.laser]
  | .overcurrentRetry _ => [.laser]
  | .vppOtpFall => [.cairn, .mbx, .pfMsix, .irqs, .hostMem, .free]
  | .vfBusMasterOn _ => [.vfs, .irqs, .hostMem]
  | .laneLocked _ _ => [.sends, .links]
  | .linkPllLocked _ => [.ports]
  | .laneMoveMessage _ _ _ _ _ _ => [.sends, .ports, .links]

end Sys2Proof.Machine
end

