-- ==== Sys2Proof/Certificates/Slice0/Obligations.lean ====
section
/-! DEFINITION. The statements for the provers. Each result statement concludes that the command answers a next state, under conditions
on the state and the operands alone, and says what that state holds; what it leaves unchanged is CommandsTouchOnly. -/

open Sys2Proof Sys2Proof.Machine

/-- The command at the front of the queue is executed on the state with the queue's rest. -/
def Obligations.StepRunsTheFront : Prop :=
  ∀ (c : Instr) (l : List Instr) (s : State), s.pending = c :: l → step s = exec c { s with pending := l }

/-- R45: with no command in the queue one crystal cycle passes (log 2), which Col counts unless it is in power-on reset; nothing but
the write queues and the ramp of the lasers changes with it. -/
def Obligations.IdleTicks : Prop :=
  (∀ s : State, s.pending = [] → s.col.por = true → step s = .next s)
  ∧ ∀ s : State, s.pending = [] → s.col.por = false →
    ∃ t, step s = .next t ∧ t.col = { s.col with cyc := s.col.cyc + 1 } ∧ Only [.col, .dram, .laser] s t

/-- The reset values that the chapters state: Col is in power-on reset with PWR_LOST set (R46), the phase is ROM (R61), no
partition is defined and PRT_QCTL reads its defaults (R136), the queues are disabled with COAL_TIME 5 (R144), the write
watermarks are 16 and 48 (R277), every ledger holds 32 free tokens (R262), CAL_CFG, CHL_CFG and THM_CFG read their defaults, and no
Chrodom link is up. -/
def Obligations.ResetValues : Prop :=
  State.reset.col.por = true ∧ State.reset.col.cyc = 0 ∧ State.reset.col.pwrLost = true ∧ State.reset.start.phase = .rom
  ∧ State.reset.start.resetHeld = true ∧ State.reset.committed = false ∧ State.reset.items = [] ∧ State.reset.pending = []
  ∧ (∀ p, (State.reset.part p).state = .undefined ∧ (State.reset.part p).holdMs = 10 ∧ (State.reset.part p).drainMs = 20)
  ∧ (∀ p q, (State.reset.queue p q).en = false ∧ (State.reset.queue p q).coalTime = 5 ∧ (State.reset.queue p q).vec.val = q.val)
  ∧ State.reset.dram.lowWm = 16 ∧ State.reset.dram.highWm = 48
  ∧ (∀ k, (tget State.reset.spur.ledgers k).free = 32 ∧ (tget State.reset.spur.ledgers k).target = 32)
  ∧ State.reset.cal.gapMs = 2000 ∧ State.reset.cal.limitMs = 100 ∧ State.reset.cal.flashMin = 60
  ∧ State.reset.linkHoldMs = 50 ∧ State.reset.replyMs = 200 ∧ (∀ p, (State.reset.link p).st = .down ∧ (State.reset.port p).state = 0)
  ∧ State.reset.thm.throttleC = 100 ∧ State.reset.thm.alertC = 105 ∧ State.reset.thm.lim = 16
  ∧ (∀ n, (State.reset.las n).st.lit = false)

/-- Every memory is canonical after reset. -/
def Obligations.ResetIsCanonical : Prop := Canon State.reset

/-- Every command answers a next state: none faults and none is refused. -/
def Obligations.CommandsComplete : Prop := ∀ (c : Instr) (s : State), ∃ t, exec c s = .next t

/-- No run from any state, of any length, meets a fault or a refusal. -/
def Obligations.RunsAreSafe : Prop := ∀ (k : Nat) (s : State), SafeRun k s

/-- The frame of every command: the parts of the state that `touches` does not list for it are unchanged, the queue of commands
among them. -/
def Obligations.CommandsTouchOnly : Prop := ∀ (c : Instr) (s t : State), exec c s = .next t → Only (touches c) s t

/-- Every step keeps every memory canonical: addresses rising, and no entry equal to what an unlisted address reads as. -/
def Obligations.StepsKeepCanon : Prop := ∀ s t : State, Canon s → step s = .next t → Canon t

/-- R79: no step returns a programmed bit of Cairn to 0. -/
def Obligations.CairnBitsStay : Prop :=
  ∀ s t : State, Canon s → step s = .next t → OtpGrows s.cairn.words t.cairn.words

/-- R45: the Col timestamp is 0 when Col leaves power-on reset, advances by one every 1.28 µs (32 crystal cycles of 40 ns, modulo
its 64 bits) after that, is changed by no command but the loss of VDD_COL, and is reset by that. -/
def Obligations.TimestampCounts : Prop :=
  (∀ (s : State) (a b c d e f : Bool), s.col.por = true →
    ∃ t, exec (.colPowerOnResetExit a b c d e f) s = .next t ∧ t.col.por = false ∧ t.time = 0)
  ∧ (∀ s : State, s.col.por = false → (tick^[32] s).time = (s.time + 1) % 2 ^ 64)
  ∧ (∀ (s t : State) (c : Instr), s.col.por = false → c ≠ .vddColLoss → exec c s = .next t → t.time = s.time)
  ∧ (∀ s : State, ∃ t, exec .vddColLoss s = .next t ∧ t.col.por = true ∧ t.time = 0)

/-- R26: the SMBus address is sampled when Col leaves power-on reset, is 0x58 + 2 × SMB_ADDR1 + SMB_ADDR0, and does not change until
VDD_COL is removed: neither a command nor the passing of time changes it. -/
def Obligations.SmbusAddress : Prop :=
  (∀ (s : State) (pg rn tn env smb1 smb0 : Bool), s.col.por = true →
    ∃ t, exec (.colPowerOnResetExit pg rn tn env smb1 smb0) s = .next t
      ∧ 0x58 + t.col.smbAddr.val = 0x58 + 2 * bnat smb1 + bnat smb0)
  ∧ (∀ (s t : State) (c : Instr), s.col.por = false → c ≠ .vddColLoss → exec c s = .next t →
      t.col.smbAddr = s.col.smbAddr ∧ t.col.por = false)
  ∧ ∀ s : State, (tick s).col.smbAddr = s.col.smbAddr

/-- R175: every step keeps the inbound books of every session in balance. -/
def Obligations.InboundBooksBalance : Prop := ∀ s t : State, Books s → step s = .next t → Books t

/-- R262: every step keeps free + held + retired = 32 in every ledger. -/
def Obligations.LedgersHold : Prop := ∀ s t : State, Tokens s → step s = .next t → Tokens t

/-- R175, R262: no session is open after reset, and every ledger holds its 32 tokens. -/
def Obligations.ResetBalances : Prop := Books State.reset ∧ Tokens State.reset

/-- R26, R31, R43, R47, R460: Col's power-on reset ends with a life tag that is not 0, the serial from Cairn and the pins as they
are sampled; the loss of VDD_COL clears the retention SRAM and the error log and holds Col in that reset, the stored bytes of the
stacks, of the flash and of the host's memory staying. R31, R35, R39, R414: PWR_GOOD or RESET_N rising ends a thermal hold, and
internal reset is released once every condition of R31 holds, a start then being due in phase ROM. -/
def Obligations.ColPowerAndReset : Prop :=
  (∀ (s : State) (a b c d e f : Bool), s.col.por = true →
    ∃ t, exec (.colPowerOnResetExit a b c d e f) s = .next t ∧ t.col.por = false ∧ 1 ≤ t.col.life ∧ t.col.life < 2 ^ 64
      ∧ t.col.serial = s.cairnSerial ∧ t.col.cyc = 0 ∧ t.pins.pwrGood = a ∧ t.pins.resetN = b ∧ t.pins.tripN = c)
  ∧ (∀ s : State, ∃ t, exec .vddColLoss s = .next t ∧ t.col.por = true ∧ t.ret = State.reset.ret ∧ t.ras = State.reset.ras
      ∧ t.start = State.reset.start ∧ t.dram.mem = s.dram.mem ∧ t.dram.poison = s.dram.poison ∧ t.flash = s.flash ∧ t.hostMem = s.hostMem)
  ∧ (∀ (s : State) (env ok : Bool), s.col.por = false → s.pins.pwrGood = false →
    ∃ t, exec (.pwrGoodRise env ok) s = .next t ∧ t.pins.pwrGood = true ∧ t.pins.pgRise = some s.now ∧ t.col.envExt = env
      ∧ t.start.uvHold = false ∧ t.start.thermHold = false ∧ t.start.resetHeld = s.start.resetHeld)
  ∧ (∀ (s : State) (ok : Bool), s.col.por = false → s.pins.resetN = false →
    ∃ t, exec (.resetNRise ok) s = .next t ∧ t.pins.resetN = true ∧ t.start.thermHold = false
      ∧ t.col.xtalBad = (s.col.xtalBad && ! ok) ∧ t.start.resetHeld = s.start.resetHeld)
  ∧ (∀ (s : State) (a : Nat), s.col.por = false → s.start.resetHeld = true → s.pins.pwrGood = true → s.pins.resetN = true →
      s.start.stop = none → s.start.uvHold = false → s.col.xtalBad = false → s.start.thermHold = false → s.pins.pgRise = some a →
      a + msCyc 1 ≤ s.now →
    ∃ t, exec .internalResetRelease s = .next t ∧ t.start.resetHeld = false ∧ t.start.due = true ∧ t.start.phase = .rom
      ∧ t.start.hostIf = false ∧ t.start.begun = s.now ∧ t.col.attempts = s.col.attempts)

/-- R32, R34 to R37, R39, R415: PWR_GOOD falling, RESET_N falling and a crystal fault each begin the orderly stop of a running
device; an undervoltage trip cuts its power at once and holds reset; and the end of an orderly stop takes the structure and every
item away. -/
def Obligations.PowerLossAndStops : Prop :=
  (∀ s : State, s.col.por = false → s.pins.pwrGood = true → s.live = true →
    ∃ t, exec .pwrGoodFall s = .next t ∧ t.pins.pwrGood = false ∧ t.start.stop = some .pwrGood ∧ t.start.phase = .stopping
      ∧ t.col.pwrLost = true ∧ t.col.pwrLossRec = true)
  ∧ (∀ s : State, s.pins.resetN = true → s.pins.pwrGood = true → s.live = true →
    ∃ t, exec .resetNFall s = .next t ∧ t.pins.resetN = false ∧ t.start.stop = some .resetN ∧ t.start.phase = .stopping)
  ∧ (∀ (s : State) (r : Rail), s.pins.pwrGood = true → s.live = true →
    ∃ t, exec (.undervoltageTrip r) s = .next t ∧ tget t.col.uv (railIdx r) = true ∧ t.start.uvHold = true ∧ t.start.resetHeld = true
      ∧ t.start.stop = none ∧ t.committed = false ∧ t.items = [] ∧ t.col.srRec = rep 8 none)
  ∧ (∀ s : State, s.col.xtalBad = false → s.live = true →
    ∃ t, exec .crystalFault s = .next t ∧ t.start.stop = some .crystal ∧ t.start.phase = .stopping ∧ t.col.xtalFault = true
      ∧ t.col.xtalBad = true ∧ t.col.timeUntraced = true)
  ∧ (∀ (s : State) (c : StopCause), s.start.stop = some c →
    ∃ t, exec .orderlyStopDone s = .next t ∧ t.start.stop = none ∧ t.committed = false ∧ t.items = [] ∧ t.sends = [])

/-- R61 to R68, R72 to R75: a start chooses its kind, counts the attempt and enables the host interface; firmware that does not
verify fails it with cause 0x01 and firmware that does takes it on to the Cairn sweep; at READY the attempts are cleared; the
watchdog fails a start of 10 s with cause 0x04; and 100 ms after a failed start's stop a new start is due. -/
def Obligations.StartSequence : Prop :=
  (∀ s : State, s.start.due = true → s.start.stop = none → s.col.por = false →
    ∃ t, exec .startBegin s = .next t ∧ t.start.kind = s.kindOf ∧ t.start.hostIf = true ∧ t.start.sysLock = true ∧ t.start.due = false
      ∧ t.start.phase = (if s.kindOf = 3 then .safe else .firmware) ∧ t.col.attempts.val = min 3 (s.col.attempts.val + 1)
      ∧ (s.kindOf = 1 → t.ras.unread = []))
  ∧ (∀ s : State, s.start.phase = .firmware → s.live = true → (∀ e, e ∈ s.fwSlots → s.fwVerify e.1 = false) →
    ∃ t, exec (.startStepDone .firmware) s = .next t ∧ t.start.cause = 1 ∧ t.start.phase = .failed ∧ t.start.stop = some .failedStart)
  ∧ (∀ (s : State) (e : Nat × Nat), s.start.phase = .firmware → s.start.stop = none → s.start.kind ≠ 2 →
      s.fwSlots.head? = some e → s.fwVerify e.1 = true →
    ∃ t, exec (.startStepDone .firmware) s = .next t ∧ t.start.phase = .cairn ∧ t.start.fwFallback = false)
  ∧ (∀ s : State, s.start.phase = .commit → s.start.stop = none → s.start.kind = 2 →
    ∃ t, exec .startReady s = .next t ∧ t.start.phase = .ready ∧ t.col.attempts = 0 ∧ t.ret.sealed = s.ret.copy.isSome
      ∧ t.col.readySerial = s.laser.serial)
  ∧ (∀ s : State, s.starting = true → s.live = true → s.start.begun + sCyc 10 ≤ s.now →
    ∃ t, exec .startWatchdogExpiry s = .next t ∧ t.start.cause = 4 ∧ t.start.phase = .failed ∧ t.start.stop = some .failedStart)
  ∧ (∀ (s : State) (a : Nat), s.start.failedAt = some a → a + msCyc 100 ≤ s.now → s.start.resetHeld = false → s.start.stop = none →
    ∃ t, exec .startRetry s = .next t ∧ t.start.due = true ∧ t.start.phase = .rom ∧ t.start.reqKind = 0 ∧ t.start.failedAt = none
      ∧ t.start.cause = s.start.cause)

/-- R63, R66: the optics step ends where it stands 8 s after the start began, and is taken up again once the device is ready with
the gate open; a write of MBX_RESTART begins the restart's orderly stop in the phases that take its KIND, and otherwise sets
RESTART_REFUSED. -/
def Obligations.OpticsLimitsAndRestart : Prop :=
  (∀ s : State, s.start.phase = .bringUp → s.start.opticsDone = false → s.start.begun + sCyc 8 ≤ s.now → tget s.start.done 1 = false →
    ∃ t, exec .opticsDeadline s = .next t ∧ t.start.optDown = true ∧ t.start.opticsDone = true ∧ t.cal.full = none
      ∧ t.laser.warmAt = none)
  ∧ (∀ (s : State) (c : SeatInput), s.isReady = true → s.start.stop = none → s.start.optDown = true → s.gateOpen = true →
      s.laser.warmAt = none → s.cal.full = none → s.laser.auth = 1 → s.allRun = false → s.laser.policy = 2 →
    ∃ t, exec (.opticsResume c) s = .next t ∧ t.laser.warmAt = some s.now ∧ t.laser.settled = false)
  ∧ (∀ (s : State) (v : W32), s.start.hostIf = true → s.live = true → s.isReady = true → fld v.toNat 31 16 = 0x5A17 → fld v.toNat 1 0 = 1 →
    ∃ t, exec (.restartWarm v) s = .next t ∧ t.start.stop = some (.restart 1) ∧ t.start.phase = .stopping)
  ∧ (∀ (s : State) (v : W32), s.start.hostIf = true → s.live = true → s.isReady = true → fld v.toNat 31 16 = 0x5A17 → fld v.toNat 1 0 = 2 →
    ∃ t, exec (.restartCold v) s = .next t ∧ t.start.stop = some (.restart 2) ∧ t.start.phase = .stopping)
  ∧ (∀ (s : State) (v : W32), s.start.hostIf = true → s.live = true → s.start.phase = .safe → fld v.toNat 31 16 = 0x5A17 →
      fld v.toNat 1 0 = 3 →
    ∃ t, exec (.clearAndRestart v) s = .next t ∧ t.start.stop = some (.restart 3) ∧ t.start.phase = .stopping)
  ∧ (∀ (s : State) (v : W32), s.start.hostIf = true → fld v.toNat 31 16 ≠ 0x5A17 →
    ∃ t, exec (.restartWarm v) s = .next t ∧ t.start.refused = true ∧ t.start.stop = s.start.stop ∧ Only [.start] s t)

/-- R57, R102: a wake request by placed work, a route write or firmware wakes the quad and every quad of its clock group: each
that is at rest in a state below Run begins a wake from that state, and no quad outside the group changes. -/
def Obligations.WakeRequestWakesTheGroup : Prop :=
  (∀ (s : State) (q : Quad), s.wakeable q = true →
    ∃ t, exec (.quadWakeRequest q .firmware) s = .next t ∧ (t.quad q).fwHold = true
      ∧ (∀ r, r ∈ s.clkGroup q → s.wakeable r = true → (s.quad r).waking = none → (s.quad r).entering = none → (s.quad r).st ≠ .run →
          (t.quad r).waking = some (s.now, (s.quad r).st) ∧ (t.quad r).target = .run)
      ∧ (∀ r, r ≠ q → r ∉ s.clkGroup q → t.quad r = s.quad r))
  ∧ (∀ (s : State) (q : Quad), s.wakeable q = true → s.placedOn q = true →
    ∃ t, exec (.quadWakeRequest q .demand) s = .next t
      ∧ (∀ r, r ∈ s.clkGroup q → s.wakeable r = true → (s.quad r).waking = none → (s.quad r).entering = none → (s.quad r).st ≠ .run →
          (t.quad r).waking = some (s.now, (s.quad r).st) ∧ (t.quad r).target = .run)
      ∧ (∀ r, r ≠ q → r ∉ s.clkGroup q → t.quad r = s.quad r))

/-- R50, R51, R57, R102: the end of a wake puts every waking quad of the group in Run with its PLL on; one that wakes from Off
still waits for its reload. -/
def Obligations.WakeDoneEntersRun : Prop :=
  ∀ (s : State) (q : Quad), (s.quad q).waking ≠ none → (∀ r, r ∈ s.clkGroup q → (s.quad r).relocks = none) →
    ∃ t, exec (.quadWakeDone q) s = .next t
      ∧ (∀ r, r ∈ s.clkGroup q → ∀ since old, (s.quad r).waking = some (since, old) →
          (t.quad r).st = .run ∧ (t.quad r).waking = none ∧ (t.quad r).pll = true ∧ (t.quad r).reload = (old == .off))
      ∧ (∀ r, r ∉ s.clkGroup q → t.quad r = s.quad r)

/-- R53, R54, R102: a group that is idle, and whose idle time has reached a deeper state, begins to enter it together. -/
def Obligations.DemotionBeginsTheEntry : Prop :=
  ∀ (s : State) (q : Quad), s.wakeable q = true → (∀ r, r ∈ s.clkGroup q → s.quadIdle r = true) →
    (s.quad q).st.num < s.demoteTo q →
    ∃ t, exec (.quadDemote q) s = .next t
      ∧ (∀ r, r ∈ s.clkGroup q → (t.quad r).entering = some s.now ∧ (t.quad r).target = QState.ofNum (s.demoteTo q)
          ∧ (t.quad r).st = (s.quad r).st)
      ∧ (∀ r, r ∉ s.clkGroup q → t.quad r = s.quad r) ∧ Only [.quads] s t

/-- R49, R51, R52, R215: at the end of an entry each entering quad of the group is in the state it entered; from Retain on its
PLL is off, and from Nap on its semaphores are 0. -/
def Obligations.EntryDoneReachesTheState : Prop :=
  ∀ (s : State) (q : Quad), (s.quad q).entering ≠ none →
    ∃ t, exec (.quadEntryDone q) s = .next t
      ∧ (∀ r, r ∈ s.clkGroup q → (s.quad r).entering ≠ none →
          (t.quad r).st = (s.quad q).target ∧ (t.quad r).entering = none
          ∧ ((s.quad q).target.num < 3 → (t.quad r).pll = (s.quad r).pll) ∧ (3 ≤ (s.quad q).target.num → (t.quad r).pll = false)
          ∧ (2 ≤ (s.quad q).target.num → (t.cq r).sems = rep 16 0))

/-- R49: a quad PLL that loses lock stops the quad's clock, is counted, its issue rate falls to 0 and relocking begins; a relock
that succeeds gives the clock back, one that fails is tried again, and the third failure retires the quad in Retain. -/
def Obligations.QuadPllRelock : Prop :=
  (∀ (s : State) (q : Quad), ((s.quad q).pll = true ∨ (s.quad q).waking ≠ none) → (s.quad q).relocks = none → (s.quad q).failed = false →
    ∃ t, exec (.quadPllLockLost q) s = .next t ∧ (t.quad q).pll = false ∧ (t.quad q).relocks ≠ none ∧ (t.cq q).k = 0
      ∧ t.lockLoss = min (s.lockLoss + 1) 255 ∧ (∀ r, r ≠ q → t.quad r = s.quad r))
  ∧ (∀ (s : State) (q : Quad) (n : Nat), (s.quad q).relocks = some n →
    ∃ t, exec (.quadPllRelockDone q true) s = .next t ∧ (t.quad q).pll = true ∧ (t.quad q).relocks = none
      ∧ (t.quad q).idleAt = s.now ∧ (∀ r, r ≠ q → t.quad r = s.quad r) ∧ Only [.quads] s t)
  ∧ (∀ (s : State) (q : Quad) (n : Nat), (s.quad q).relocks = some n → n < 2 →
    ∃ t, exec (.quadPllRelockDone q false) s = .next t ∧ (t.quad q).relocks = some (n + 1) ∧ (t.quad q).failed = (s.quad q).failed)
  ∧ (∀ (s : State) (q : Quad) (n : Nat), (s.quad q).relocks = some n → 2 ≤ n →
    ∃ t, exec (.quadPllRelockDone q false) s = .next t ∧ (t.quad q).failed = true ∧ (t.quad q).st = .retain
      ∧ (t.quad q).relocks = none ∧ (t.quad q).pll = false)

/-- R51, R53, R56, R58, R59, R107: what the host writes of a quad's power policy takes effect field by field, a field out of range
keeping its value; a pre-wake holds the group for the tick it serves; and a reload copies the quad's kernel and ends. -/
def Obligations.QuadPolicyPrewakeReload : Prop :=
  (∀ (s : State) (q : Quad) (v : W64), s.served = true →
    ∃ t, exec (.clkQpolWrite q v) s = .next t
      ∧ (t.quad q).floor = (if fld v.toNat 2 0 ≤ 4 then fld v.toNat 2 0 else (s.quad q).floor)
      ∧ bitAt (t.quad q).pol.toNat 3 = bitAt v.toNat 3 ∧ fld (t.quad q).pol.toNat 15 8 = fld v.toNat 15 8
      ∧ (∀ r, r ≠ q → (t.quad r).pol = (s.quad r).pol) ∧ Only [.quads] s t)
  ∧ (∀ (s : State) (v : W32), s.served = true →
    ∃ t, exec (.clkQforceWrite v) s = .next t ∧ (∀ q, (t.quad q).pin = bitAt v.toNat q.val) ∧ Only [.quads] s t)
  ∧ (∀ (s : State) (q : Quad) (p : Part) (n : Nat), s.owner q = some p → s.wakeable q = true → s.nextTickOf p = some n →
      bitAt (s.groupClk q).pol.toNat 3 = true → (∃ c, s.quadCfg q = some c ∧ c.tickServed = true) →
      ((s.quad q).st = .nap ∨ (s.quad q).st = .retain) → (s.quad q).waking = none → (s.quad q).entering = none →
      (n - fld (s.groupClk q).pol.toNat 63 56 * 32) / 32 * 32 ≤ s.now → s.now < n →
    ∃ t, exec (.quadPrewake q) s = .next t ∧ (t.quad q).prewake = some n
      ∧ (t.quad q).waking = some (s.now, (s.quad q).st) ∧ (t.quad q).target = .run ∧ Only [.quads] s t)
  ∧ (∀ (s : State) (q : Quad) (p : Part), s.owner q = some p → (s.quad q).reload = true → s.turnHolder 128 = some p →
      s.dramUp = true →
    ∃ t, exec (.quadReloadDone q) s = .next t ∧ (t.quad q).reload = false ∧ (t.quad q).fwHold = false
      ∧ (tget s.str.kernels q = none → (t.cq q).kernel = [])
      ∧ (∀ l, tget s.str.kernels q = some l → (t.cq q).kernel = ((s.takeTurn 128 p).winRead p l.off l.len).1)
      ∧ (∀ r, r ≠ q → t.quad r = s.quad r))

/-- R279, R281, R282, R284, R285: a refresh that falls due adds one to what its group is owed and one that is done takes one away,
within −4 to 5; a write that has waited 20 µs puts its channel in drain mode; and a band switch loads its delays into every
channel's shadow at once and into the channels one window after the other, the band changing with the last. -/
def Obligations.RefreshDrainAndBand : Prop :=
  (∀ (s : State) (g : Group), s.stackUp (stackOfGroup g) = true →
    ∃ t, exec (.refreshDue g) s = .next t ∧ tget t.dram.owed g = max (-4) (min 5 (tget s.dram.owed g + 1))
      ∧ (∀ h, h ≠ g → tget t.dram.owed h = tget s.dram.owed h)
      ∧ (t.stack (stackOfGroup g)).maxOwed = max (s.stack (stackOfGroup g)).maxOwed (tget t.dram.owed g).toNat ∧ Only [.dram] s t)
  ∧ (∀ (s : State) (g : Group), s.stackUp (stackOfGroup g) = true → (s.group g).fire = none → -4 < tget s.dram.owed g →
      (0 < tget s.dram.owed g ∨ s.chanQuiet (chanOfGroup g) = true) →
    ∃ t, exec (.groupRefresh g) s = .next t ∧ tget t.dram.owed g = max (-4) (min 5 (tget s.dram.owed g - 1))
      ∧ (∀ h, h ≠ g → tget t.dram.owed h = tget s.dram.owed h) ∧ Only [.dram] s t)
  ∧ (∀ (s : State) (c : Chan), 0 < (s.chan c).wrWait → (s.chan c).wrOldest + usCyc 20 ≤ s.now →
    ∃ t, exec (.writeDrainTimeout c) s = .next t ∧ (t.chan c).drain = true ∧ (∀ d, d ≠ c → t.chan d = s.chan d) ∧ Only [.dram] s t)
  ∧ (∀ (s : State) (k : Stack) (b : Fin 5), s.stackUp k = true → (s.stack k).switching = none → s.start.stop = none →
      (s.stack k).band ≠ b → s.bandFor (s.stack k).band.val (s.stack k).temp = b.val →
    ∃ t, exec (.bandSwitch k b) s = .next t ∧ (t.stack k).switching = some (b, 0) ∧ (t.stack k).band = (s.stack k).band
      ∧ (∀ c, c ∈ stackChans k → (t.chan c).shadow = s.delayEntry b.val c.val) ∧ (∀ c, (t.chan c).delay = (s.chan c).delay)
      ∧ Only [.dram] s t)
  ∧ (∀ (s : State) (k : Stack) (b : Fin 5) (i : Fin 17), (s.stack k).switching = some (b, i) → s.stackUp k = true →
      (∀ g, g ∈ chanGroups (chanNo (16 * k.val + i.val)) → (s.group g).fire = none) → (s.chan (chanNo (16 * k.val + i.val))).rdOut = 0 →
    ∃ t, exec (.bandSwitchWindow k) s = .next t
      ∧ (t.chan (chanNo (16 * k.val + i.val))).delay = (s.chan (chanNo (16 * k.val + i.val))).shadow
      ∧ (i.val < 15 → (t.stack k).switching.map (fun x => (x.1, x.2.val)) = some (b, i.val + 1) ∧ (t.stack k).band = (s.stack k).band)
      ∧ (15 ≤ i.val → (t.stack k).switching = none ∧ (t.stack k).band = b) ∧ Only [.dram] s t)

/-- R289 to R292: scrubbing advances by the column block it has gone over, a pass without uncorrectable words changing no stored
byte; a stack that leaves self-refresh has its PLL, the band of its measurement and no owed refreshes, and a wrong sentinel
fails the start with cause 0x03; a DRAM PLL that loses lock ends the fires of the stack, and is relocked up to three times
before the device-fatal stop of cause 0x05. -/
def Obligations.ScrubSelfRefreshRelock : Prop :=
  (∀ (s : State) (c : Chan), Canon s → s.dram.scrubEn = true → s.stackUp (stackNo (c.val / 16)) = true → s.start.stop = none →
      (s.group (grp (4 * c.val + (s.chan c).scrubPos % 128 / 32))).fire = none → (s.chan c).scrubDone = false →
      (∀ i, i < 32 → flawed (s.colFlaws (c.val * 2 ^ 31 + (s.chan c).scrubPos * 1024 + 32 * i)) = false) →
    ∃ t, exec (.scrubStep c) s = .next t
      ∧ (t.chan c).scrubPos = (if (s.chan c).scrubPos + 1 = 2 ^ 21 then 0 else (s.chan c).scrubPos + 1)
      ∧ t.dram.mem = s.dram.mem ∧ t.dram.poison = s.dram.poison ∧ Only [.dram] s t)
  ∧ (∀ (s : State) (k : Stack) (temp : Option Int), (s.stack k).sr = true → s.start.phase = .bringUp → s.start.kind = 2 →
      s.start.stop = none → s.sentinelOk k = true →
    ∃ t, exec (.selfRefreshExit k temp) s = .next t ∧ (t.stack k).sr = false ∧ (t.stack k).pll = true ∧ (t.stack k).lost = none
      ∧ (∀ x, temp = some x → (t.stack k).band = s.bandAt (x / 16)) ∧ tget t.col.srRec k = none
      ∧ (∀ g, g ∈ stackGroups k → tget t.dram.owed g = 0))
  ∧ (∀ (s : State) (k : Stack) (temp : Option Int), (s.stack k).sr = true → s.start.phase = .bringUp → s.start.kind = 2 →
      s.start.stop = none → s.live = true → s.sentinelOk k = false →
    ∃ t, exec (.selfRefreshExit k temp) s = .next t ∧ t.start.cause = 3 ∧ t.start.stop = some .failedStart ∧ t.start.phase = .failed)
  ∧ (∀ (s : State) (k : Stack), (s.stack k).pll = true → (s.stack k).lost = none →
    ∃ t, exec (.dramPllLockLost k) s = .next t ∧ (t.stack k).pll = false ∧ (t.stack k).lost = some 0 ∧ (t.stack k).switching = none
      ∧ t.lockLoss = min (s.lockLoss + 1) 255 ∧ (∀ g, g ∈ stackGroups k → (t.group g).fire = none))
  ∧ (∀ (s : State) (k : Stack) (n : Nat) (temp : Option Int), (s.stack k).lost = some n →
    ∃ t, exec (.dramPllRelockDone k true temp) s = .next t ∧ (t.stack k).pll = true ∧ (t.stack k).lost = none
      ∧ (t.stack k).band = (match temp with | some x => s.bandAt (x / 16) | none => (s.stack k).band))
  ∧ (∀ (s : State) (k : Stack) (n : Nat) (temp : Option Int), (s.stack k).lost = some n → n < 2 →
    ∃ t, exec (.dramPllRelockDone k false temp) s = .next t ∧ (t.stack k).lost = some (n + 1) ∧ Only [.dram] s t)
  ∧ (∀ (s : State) (k : Stack) (n : Nat) (temp : Option Int), (s.stack k).lost = some n → 2 ≤ n → s.live = true →
    ∃ t, exec (.dramPllRelockDone k false temp) s = .next t ∧ t.start.cause = 5 ∧ t.start.stop = some .fatal ∧ t.start.phase = .failed)

/-- R376 to R378: what trips the lasers leaves every driver off (or out of service, or never lit) and latches what the manual
latches; the levels that hold the drivers off follow their pins; nothing relights by itself. -/
def Obligations.TripsAndInterlocks : Prop :=
  (∀ s : State, s.col.por = false →
    ∃ t, exec .tripNAssert s = .next t ∧ t.pins.tripN = false ∧ t.laser.trip = true ∧ t.laser.tripTime = s.time ∧ t.gateOpen = false
      ∧ (∀ n, (t.las n).st = .off ∨ (t.las n).st = .out ∨ (t.las n).st = .cold))
  ∧ (∀ s : State, s.col.por = false → s.pins.tripN = false →
    ∃ t, exec .tripNRelease s = .next t ∧ t.pins.tripN = true ∧ t.pins.tripRel = some s.now ∧ Only [.pins] s t)
  ∧ (∀ s : State, s.col.por = false → s.laser.intlkLow = false →
    ∃ t, exec .intlkFall s = .next t ∧ t.laser.intlkLow = true ∧ t.laser.auth = 0 ∧ t.laser.trip = s.laser.trip
      ∧ t.laser.intlk = (s.laser.intlk || s.laser.vddOn) ∧ t.gateOpen = false
      ∧ (∀ n, (t.las n).st = .off ∨ (t.las n).st = .out ∨ (t.las n).st = .cold))
  ∧ (∀ s : State, s.col.por = false → s.laser.intlkLow = true →
    ∃ t, exec .intlkNRise s = .next t ∧ t.laser.intlkLow = false ∧ t.laser.intlkRel = s.now
      ∧ t.laser.seatedAt = (if s.laser.latchOpen then none else some s.now) ∧ t.laser.lasers = s.laser.lasers ∧ Only [.laser] s t)
  ∧ (∀ s : State, s.col.por = false →
    ∃ t, exec .latchOpen s = .next t ∧ t.laser.latchOpen = true ∧ t.laser.auth = 0 ∧ t.laser.trip = s.laser.trip
      ∧ t.laser.intlk = s.laser.intlk ∧ t.gateOpen = false
      ∧ (∀ n, (t.las n).st = .off ∨ (t.las n).st = .out ∨ (t.las n).st = .cold))
  ∧ (∀ s : State, s.col.por = false → s.laser.latchOpen = true →
    ∃ t, exec .latchClosed s = .next t ∧ t.laser.latchOpen = false
      ∧ t.laser.seatedAt = (if s.laser.intlkLow then none else some (max s.laser.intlkRel (s.now - msCyc 100)))
      ∧ t.laser.lasers = s.laser.lasers ∧ Only [.laser] s t)

/-- R378: a latch clears only by the two writes in order, the second within 1 ms of the first, and only while what set it has been
gone for 1 ms; anything else breaks the sequence, is recorded, and clears nothing. -/
def Obligations.TripClearSequence : Prop :=
  (∀ (s : State) (v : W32), s.served = true → s.laser.armed = none → fld v.toNat 31 16 = 0xC1EA → fld v.toNat 1 0 = 0 →
    ∃ t, exec (.tripClearArm v) s = .next t ∧ t.laser.armed = some s.now ∧ t.laser.trip = s.laser.trip ∧ t.laser.intlk = s.laser.intlk
      ∧ Only [.laser] s t)
  ∧ (∀ (s : State) (v : W32), s.served = true → s.laser.armed = none → fld v.toNat 31 16 ≠ 0xC1EA →
    ∃ t, exec (.tripClearArm v) s = .next t ∧ t.laser.armed = none ∧ t.laser.seqErr = true ∧ t.laser.trip = s.laser.trip
      ∧ t.laser.intlk = s.laser.intlk ∧ Only [.laser] s t)
  ∧ (∀ (s : State) (v : W32) (a : Nat), s.served = true → s.laser.armed = some a → fld v.toNat 31 16 = 0x5AFE → s.now ≤ a + msCyc 1 →
      bitAt v.toNat 0 = true → s.pins.tripN = true → (∀ r, s.pins.tripRel = some r → r + msCyc 1 ≤ s.now) →
    ∃ t, exec (.tripClear v) s = .next t ∧ t.laser.trip = false ∧ t.laser.armed = none)
  ∧ (∀ (s : State) (v : W32) (a : Nat), s.served = true → s.laser.armed = some a → fld v.toNat 31 16 = 0x5AFE → s.now ≤ a + msCyc 1 →
      bitAt v.toNat 0 = true → s.laser.trip = true → s.pins.tripN = false →
    ∃ t, exec (.tripClear v) s = .next t ∧ t.laser.trip = true ∧ t.laser.clrRefused = true ∧ t.laser.armed = none)
  ∧ (∀ (s : State) (v : W32) (a : Nat), s.served = true → s.laser.armed = some a → fld v.toNat 31 16 = 0x5AFE → s.now ≤ a + msCyc 1 →
      bitAt v.toNat 1 = true → s.laser.intlkLow = false → s.laser.intlkRel + msCyc 1 ≤ s.now →
    ∃ t, exec (.tripClear v) s = .next t ∧ t.laser.intlk = false ∧ t.laser.armed = none)
  ∧ (∀ (s : State) (a : Nat), s.laser.armed = some a → a + msCyc 1 ≤ s.now →
    ∃ t, exec .tripClearSeqExpiry s = .next t ∧ t.laser.armed = none ∧ t.laser.seqErr = true ∧ t.laser.trip = s.laser.trip
      ∧ t.laser.intlk = s.laser.intlk ∧ Only [.laser] s t)

/-- R367, R370, R372: a cartridge seated for 100 ms is authenticated, and AUTH names the first step that fails; a usage record that
is due is written with the next sequence number, or refused when it would go back; and CTG_VDD trips and recloses. -/
def Obligations.CartridgeSupplyAndRecord : Prop :=
  (∀ (s : State) (c : SeatInput) (a : Nat), s.laser.seatedAt = some a → s.fwRuns = true → a + msCyc 100 ≤ s.now →
    ∃ t, exec (.cartridgeSeated c) s = .next t ∧ t.laser.seatedAt = none
      ∧ t.laser.auth = (({ s with laser := { s.laser with seatedAt := none, ctgState := 1 } } : State).readCartridge c).authResult c)
  ∧ (∀ s : State, s.fwRuns = true → s.start.stop = none → s.laser.auth = 1 → s.laser.recDue = true →
      s.laser.elemSeq ≤ s.laser.recSeq → (∀ n, tget s.laser.elemMin n ≤ s.litMin n) → s.laser.elemOut = 0 →
    ∃ t, exec .usageRecordWrite s = .next t ∧ t.laser.recDue = false ∧ t.laser.recSeq = s.laser.recSeq + 1
      ∧ t.laser.elemSeq = s.laser.recSeq + 1 ∧ (∀ n, tget t.laser.elemMin n = s.litMin n) ∧ t.laser.elemOut = s.outMask
      ∧ t.laser.lasers = s.laser.lasers)
  ∧ (∀ s : State, s.fwRuns = true → s.start.stop = none → s.laser.auth = 1 → s.laser.recDue = true → s.laser.recSeq < s.laser.elemSeq →
    ∃ t, exec .usageRecordWrite s = .next t ∧ t.laser.recDue = false ∧ t.laser.recSeq = s.laser.recSeq
      ∧ t.laser.eeprom = s.laser.eeprom)
  ∧ (∀ s : State, s.laser.vddOn = true →
    ∃ t, exec .ctgVddTrip s = .next t ∧ t.laser.vddOn = false ∧ t.laser.vddOffAt = some s.now ∧ Only [.laser] s t)
  ∧ (∀ (s : State) (a : Nat), s.laser.vddOffAt = some a → a + msCyc 100 ≤ s.now →
    ∃ t, exec .ctgVddReclose s = .next t ∧ t.laser.vddOn = true ∧ t.laser.vddOffAt = none ∧ Only [.laser] s t)

/-- R374, R375, R379: a driver fault switches its own driver off and sets its flag, the others going on; an overcurrent flag is
cleared for a retry after 100 ms; a settled warm-up brings the warming lasers to RUN, one that fails leaves them at idle bias; a
laser out of service is OUT and its record due; and a tuned spare is in RUN. -/
def Obligations.DriversAndSpares : Prop :=
  (∀ (s : State) (n : Fin 20) (k : DriverFaultKind), (s.las n).st.lit = true → (s.las n).st ≠ .out →
    ∃ t, exec (.driverFault n k) s = .next t ∧ (t.las n).st = .off ∧ (t.las n).bias = 0
      ∧ (k = .overcurrent → (t.las n).oc = true ∧ (t.las n).ocAt = some s.now ∧ (t.las n).ocPrev = (s.las n).ocAt)
      ∧ (k = .open_ → (t.las n).open_ = true) ∧ (k = .short → (t.las n).short = true) ∧ (∀ m, m ≠ n → t.las m = s.las m))
  ∧ (∀ (s : State) (n : Fin 20) (a : Nat), (s.las n).ocAt = some a → (s.las n).oc = true → (s.las n).st ≠ .out → a + msCyc 100 ≤ s.now →
    ∃ t, exec (.overcurrentRetry n) s = .next t ∧ (t.las n).oc = false ∧ (∀ m, m ≠ n → t.las m = s.las m) ∧ Only [.laser] s t)
  ∧ (∀ (s : State) (a : Nat), s.laser.warmAt = some a →
    ∃ t, exec (.laserWarmupSettled true) s = .next t ∧ t.laser.settled = true ∧ t.laser.warmAt = none
      ∧ (∀ n, (s.las n).st = .idle ∨ (s.las n).st = .ramp → (t.las n).st = .run))
  ∧ (∀ (s : State) (a : Nat), s.laser.warmAt = some a → a + sCyc 5 ≤ s.now →
    ∃ t, exec (.laserWarmupSettled false) s = .next t ∧ t.laser.warmAt = none ∧ (∀ n, (s.las n).st = .ramp → (t.las n).st = .idle)
      ∧ (s.starting = true → t.start.optDown = true))
  ∧ (∀ (s : State) (n : Fin 20), s.fwRuns = true → (s.las n).st ≠ .out → ((s.las n).open_ = true ∨ (s.las n).short = true ∨ s.lowRatio n = true) →
    ∃ t, exec (.laserOut n) s = .next t ∧ (t.las n).st = .out ∧ t.laser.recDue = true)
  ∧ (∀ (s : State) (n : Fin 20) (a : Nat), (s.las n).litAt = some a → (s.las n).st = .tuning → a + sCyc 2 ≤ s.now →
    ∃ t, exec (.spareTuned n) s = .next t ∧ (t.las n).st = .run ∧ (∀ m, m ≠ n → t.las m = s.las m))

/-- R405 to R414, R417: a sensor overdue lowers the limit through the lapse and asserts the alert; a reading becomes its sensor's
latest, lowers L_T by one step when it has reached its threshold, and begins the shutdown of cause 0x08 at 118 °C. -/
def Obligations.ReadingsLapsesShutdown : Prop :=
  (∀ (s : State) (n : Nat), s.overdue n = true → s.thm.lapse = false → s.start.stop = none →
    ∃ t, exec (.thermalLapse n) s = .next t ∧ t.thm.lapse = true ∧ t.thm.alert = true
      ∧ t.thm.cLapses = min (s.thm.cLapses + 1) 0xFFFF ∧ t.limGoal ≤ 4 ∧ t.thm.sens = s.thm.sens)
  ∧ (∀ (s : State) (r : Reading), s.start.resetHeld = false → s.col.por = false → s.start.thermHold = false → s.unread r.sel = false →
      r.fault = true →
    ∃ t, exec (.sensorReading r) s = .next t ∧ (s.sens r.sel).last = (t.sens r.sel).last ∧ (t.sens r.sel).fault = true
      ∧ (∀ i, i ≠ r.sel → t.sens i = s.sens i) ∧ t.thm.limT = s.thm.limT)
  ∧ (∀ (s : State) (r : Reading), s.start.resetHeld = false → s.col.por = false → s.start.thermHold = false → s.unread r.sel = false →
      r.fault = false → (105 ≤ r.sel.val → (s.stack (stackNo (r.sel.val - 105))).sr = false) → (96 ≤ r.sel.val ∨ r.temp < 1888) →
      ((s.sens r.sel).last = none ∨ (s.sens r.sel).fault = true) →
    ∃ t, exec (.sensorReading r) s = .next t ∧ (t.sens r.sel).last = some (r.temp, s.now) ∧ (t.sens r.sel).fault = false
      ∧ (∀ i, i ≠ r.sel → t.sens i = s.sens i))
  ∧ (∀ (s : State) (r : Reading), s.start.resetHeld = false → s.col.por = false → s.start.thermHold = false → s.start.phase ≠ .safe →
      r.fault = false → r.sel.val < 96 → (s.thm.throttleC : Int) * 16 ≤ r.temp → r.temp < 1888 →
      ((s.sens r.sel).last = none ∨ (s.sens r.sel).fault = true) → 0 < s.thm.limT → s.thm.fallAt = none →
    ∃ t, exec (.sensorReading r) s = .next t ∧ t.thm.limT = s.thm.limT - 1 ∧ t.thm.fallAt = some s.now)
  ∧ (∀ (s : State) (r : Reading), s.live = true → s.unread r.sel = false → r.fault = false → r.sel.val < 96 → 1888 ≤ r.temp →
      ((s.sens r.sel).last = none ∨ (s.sens r.sel).fault = true) →
    ∃ t, exec (.sensorReading r) s = .next t ∧ t.start.cause = 8 ∧ t.start.stop = some .thermal ∧ t.start.phase = .failed
      ∧ t.thm.shKind = 1 ∧ t.thm.shSel = r.sel.val ∧ t.thm.shTemp = r.temp)

/-- R407, R410, R411, R412: a request names its sensor and waits; the limit moves one step at a time toward the least of what holds
it down, and every quad's cap and every stack's token target move with it. -/
def Obligations.ThermalRequestAndLimit : Prop :=
  (∀ (s : State) (v : W32), s.served = true → fld v.toNat 6 0 ≤ 112 →
    ∃ t, exec (.thmRequest v) s = .next t ∧ t.thm.reqSel = fld v.toNat 6 0 ∧ t.thm.busy = true ∧ t.thm.resValid = false ∧ Only [.thm] s t)
  ∧ (∀ s : State, s.limGoal < s.thm.lim → (∀ a, s.thm.downAt = some a → a + usCyc 50 ≤ s.now) →
    ∃ t, exec .limitStepDown s = .next t ∧ t.thm.lim = s.thm.lim - 1 ∧ t.thm.downAt = some s.now
      ∧ (∀ q, (t.cq q).cap = s.thm.lim - 1) ∧ (∀ k, (t.ledger k).target = 2 * (s.thm.lim - 1)) ∧ Only [.crest, .spur, .thm] s t)
  ∧ (∀ s : State, s.thm.restore = none → s.thm.lim < s.limGoal → (∀ a, s.thm.upAt = some a → a + msCyc 10 ≤ s.now) →
    ∃ t, exec .limitStepUp s = .next t ∧ t.thm.lim = s.thm.lim + 1 ∧ t.thm.upAt = some s.now
      ∧ (∀ q, (t.cq q).cap = s.thm.lim + 1) ∧ (∀ k, (t.ledger k).target = 2 * (s.thm.lim + 1)) ∧ Only [.crest, .spur, .thm] s t)
  ∧ (∀ (s : State) (a : Nat), s.thm.restore = some a → a + msCyc 10 ≤ s.now → s.thm.limT < 16 →
    ∃ t, exec .limitStepUp s = .next t ∧ t.thm.limT = s.thm.limT + 1 ∧ t.thm.restore = some s.now)

/-- R429, R430: each device-fatal cause records CAUSE 0x05 and, while the system PLL is locked, begins the orderly stop; the loss of
the system PLL cuts the power of every domain at once. -/
def Obligations.DeviceFatalStops : Prop :=
  (∀ s : State, s.start.sysLock = true →
    ∃ t, exec (.deviceFatal .sysPll) s = .next t ∧ t.start.cause = 5 ∧ t.start.phase = .failed ∧ t.start.stop = none
      ∧ t.committed = false ∧ t.items = [])
  ∧ (∀ s : State, s.start.trvLock = true → s.live = true →
    ∃ t, exec (.deviceFatal .trvPll) s = .next t ∧ t.start.cause = 5 ∧ t.start.stop = some .fatal ∧ t.start.phase = .failed
      ∧ t.start.trvLock = false ∧ t.lockLoss = min (s.lockLoss + 1) 255)
  ∧ (∀ s : State, s.live = true → s.start.phase ≠ .safe →
    ∃ t, exec (.deviceFatal .mgmtUe) s = .next t ∧ t.start.cause = 5 ∧ t.start.stop = some .fatal ∧ t.start.phase = .failed)
  ∧ (∀ s : State, s.live = true → s.isReady = true →
    ∃ t, exec (.deviceFatal .mgmtWatchdog) s = .next t ∧ t.start.cause = 5 ∧ t.start.stop = some .fatal ∧ t.start.phase = .failed)
  ∧ (∀ s : State, s.live = true → s.isReady = true →
    ∃ t, exec .mgmtWatchdogExpiry s = .next t ∧ t.start.cause = 5 ∧ t.start.stop = some .fatal ∧ t.start.phase = .failed)

/-- R145, R162, R163: a mailbox doorbell in range sets the request tail, one out of range sets DB_ERR, and a request that cannot be
fetched disables the rings. R164, R441: the requests for records are answered OK with the records, the entries read leaving the
log. -/
def Obligations.MailboxRecords : Prop :=
  (∀ (s : State) (v : W32) (req : List Byte), s.served = true → fld v.toNat 7 0 < s.mbxSize →
      ({ s with mbx := { s.mbx with reqTail := fld v.toNat 7 0 } } : State).mbxHead = some req → mbxOpcodes.contains (leAt req 0 2) = true →
    ∃ t, exec (.mbxDoorbell v false) s = .next t ∧ t.mbx.reqTail = fld v.toNat 7 0 ∧ t.mbx.reqHead = s.mbx.reqHead ∧ Only [.mbx] s t)
  ∧ (∀ (s : State) (v : W32) (req : List Byte), s.served = true → fld v.toNat 7 0 < s.mbxSize →
      ({ s with mbx := { s.mbx with reqTail := fld v.toNat 7 0 } } : State).mbxHead = some req →
    ∃ t, exec (.mbxDoorbell v true) s = .next t ∧ t.mbx.fetchErr = true ∧ t.mbx.en = false ∧ Only [.mbx] s t)
  ∧ (∀ (s : State) (v : W32) (bad : Bool), s.served = true → s.mbxSize ≤ fld v.toNat 7 0 → s.mbxHead = none →
    ∃ t, exec (.mbxDoorbell v bad) s = .next t ∧ t.mbx.dbErr = true ∧ t.mbx.reqTail = s.mbx.reqTail ∧ Only [.mbx] s t)
  ∧ (∀ (s : State) (req : List Byte), Canon s → Asked s 0x0001 req → s.start.phase ≠ .safe → s.dramUp = true →
    ∃ t, exec .errlogRead s = .next t
      ∧ Answered s t req stOk [(8, leBytes 4 (min (leAt req 0x18 4 / 32) s.ras.unread.length))]
      ∧ t.ras.unread = s.ras.unread.drop (leAt req 0x18 4 / 32))
  ∧ (∀ (s : State) (req : List Byte), Canon s → Asked s 0x0002 req →
    ∃ t, exec .colRead s = .next t ∧ Answered s t req stOk
      [(8, leBytes 4 s.colStatus), (0xC, leBytes 4 s.colStart), (0x10, leBytes 8 s.time), (0x18, leBytes 8 s.col.serial)])
  ∧ (∀ (s : State) (req : List Byte), Canon s → Asked s 0x0003 req →
    ∃ t, exec .cairnIdRead s = .next t ∧ Answered s t req stOk
      [(8, leBytes 4 (s.cw 0) ++ leBytes 4 (s.cw 1) ++ leBytes 4 (s.cw 2) ++ leBytes 4 (s.cw 3) ++ leBytes 4 (s.cw 4) ++ leBytes 4 (s.cw 5))])

/-- R67, R164: a flash request in the range of its region is answered OK once it is done: the bytes read are in host memory, the
range erased, or the bytes programmed; an operation that does not finish ends TIMEOUT, SUB 4; and a request outside its region
is refused. -/
def Obligations.FlashRequests : Prop :=
  (∀ (s : State) (req : List Byte) (base size : Nat), Canon s → Asked s 0x0010 req → flashRegion (leAt req 8 1) = some (base, size) →
      (s.start.phase ≠ .safe ∨ leAt req 8 1 ≠ 3) → leAt req 0xC 4 + leAt req 0x18 4 ≤ size →
    ∃ t, exec .flashRead s = .next t ∧ Answered s t req stOk [(8, leBytes 4 (leAt req 0x18 4))] ∧ t.flash = s.flash
      ∧ (leAt req 0x10 8 + leAt req 0x18 4 ≤ s.mbx.rspBase + 64 * s.mbx.rspTail ∨ s.mbx.rspBase + 64 * s.mbx.rspTail + 64 ≤ leAt req 0x10 8 →
          t.hostRead (leAt req 0x10 8) (leAt req 0x18 4) = s.flashRead (base + leAt req 0xC 4) (leAt req 0x18 4)))
  ∧ (∀ (s : State) (req : List Byte) (base size : Nat), Canon s → Asked s 0x0011 req → flashRegion (leAt req 8 1) = some (base, size) →
      (s.start.phase ≠ .safe ∨ leAt req 8 1 ≠ 3) → leAt req 0xC 4 + leAt req 0x18 4 ≤ size → leAt req 0xC 4 % 0x10000 = 0 →
      leAt req 0x18 4 % 0x10000 = 0 →
    (∃ t, exec (.flashErase true) s = .next t ∧ Answered s t req stOk []
      ∧ t.flash = (s.flashErase (base + leAt req 0xC 4) (leAt req 0x18 4)).flash)
    ∧ ∃ t, exec (.flashErase false) s = .next t ∧ Answered s t req (stTimeout 4) [])
  ∧ (∀ (s : State) (req : List Byte) (base size : Nat), Canon s → Asked s 0x0012 req → flashRegion (leAt req 8 1) = some (base, size) →
      (s.start.phase ≠ .safe ∨ leAt req 8 1 ≠ 3) → leAt req 0xC 4 + leAt req 0x18 4 ≤ size → leAt req 0xC 4 % 256 = 0 →
      leAt req 0x18 4 % 256 = 0 →
      (s.flashProgram (base + leAt req 0xC 4) (s.hostRead (leAt req 0x10 8) (leAt req 0x18 4))).flashRead (base + leAt req 0xC 4)
        (leAt req 0x18 4) = s.hostRead (leAt req 0x10 8) (leAt req 0x18 4) →
    ∃ t, exec (.flashProgram true false) s = .next t ∧ Answered s t req stOk []
      ∧ t.flashRead (base + leAt req 0xC 4) (leAt req 0x18 4) = s.hostRead (leAt req 0x10 8) (leAt req 0x18 4))
  ∧ (∀ (s : State) (req : List Byte) (base size : Nat), Canon s → Asked s 0x0010 req → flashRegion (leAt req 8 1) = some (base, size) →
      (s.start.phase ≠ .safe ∨ leAt req 8 1 ≠ 3) → size < leAt req 0xC 4 + leAt req 0x18 4 →
    ∃ t, exec .flashRead s = .next t ∧ Answered s t req (stRefused 4) [] ∧ t.flash = s.flash)

/-- R350, R376, R380, R397, R402, R419: the requests to the optics, the links and the sensors are answered OK with what they ask
for. -/
def Obligations.OpticsAndLinkRequests : Prop :=
  (∀ (s : State) (req : List Byte) (p : Port), Asked s 0x40 req → s.start.phase = .ready → leAt req 8 1 = p.val → (s.link p).st = .up →
      (s.link p).swap = .none →
    ∃ t, exec .linkSwap s = .next t ∧ Taken s t req ∧ (t.link p).swap = .asked true false)
  ∧ (∀ (s : State) (req : List Byte), Canon s → Asked s 0x300 req → s.start.phase ≠ .safe →
    ∃ t, exec .ctgInfo s = .next t ∧ Answered s t req stOk [(8, leBytes 1 s.laser.ctgState), (9, leBytes 1 s.laser.auth),
      (0xC, leBytes 4 s.outMask), (0x10, leBytes 8 s.laser.serial), (0x18, leBytes 4 s.laser.recSeq)])
  ∧ (∀ (s : State) (req : List Byte), Canon s → Asked s 0x301 req → s.start.phase ≠ .safe → leAt req 0x10 8 % 16 = 0 →
    ∃ t, exec .ctgHours s = .next t ∧ Answered s t req stOk [(8, leBytes 1 20)]
      ∧ (leAt req 0x10 8 + 80 ≤ s.mbx.rspBase + 64 * s.mbx.rspTail ∨ s.mbx.rspBase + 64 * s.mbx.rspTail + 64 ≤ leAt req 0x10 8 →
          t.hostRead (leAt req 0x10 8) 80 = allLasers.flatMap (fun n => leBytes 4 (s.litMin n))))
  ∧ (∀ (s : State) (req : List Byte), Canon s → Asked s 0x302 req → s.start.phase ≠ .safe → leAt req 8 1 = 0 →
    ∃ t, exec .laserPolicy s = .next t ∧ Answered s t req stOk [(8, leBytes 1 0)] ∧ t.laser.policy = 0 ∧ t.laser.policyOff = true
      ∧ ∀ n, (t.las n).st.lit = true → (t.las n).st = .out)
  ∧ (∀ (s : State) (req : List Byte), Canon s → Asked s 0x201 req → s.isReady = true → s.calBusy = false →
    ∃ t, exec .calSnapshot s = .next t ∧ t.cal = (s.capture 3).cal ∧ t.cal.sealed = true
      ∧ Answered s t req stOk [(8, leBytes 4 (t.snapSeq 1)), (0x10, leBytes 8 t.cal.snapTime)])
  ∧ (∀ (s : State) (req : List Byte), Canon s → Asked s 0x202 req → s.isReady = true → 2 ≤ leAt req 8 1 → leAt req 8 1 ≤ 3 →
      snapLen ≤ leAt req 0x18 4 →
    ∃ t, exec .calExport s = .next t ∧ Answered s t req stOk
      [(8, leBytes 4 snapLen), (0xC, leBytes 4 (s.snapCheck (s.snapAt (leAt req 8 1))))])
  ∧ (∀ (s : State) (req : List Byte), Canon s → Asked s 0x203 req → s.isReady = true → leAt req 0x18 4 = snapLen → s.cal.full = none →
      s.snapCheck (s.hostRead (leAt req 0x10 8) snapLen) = 0 →
    ∃ t, exec (.calImport false) s = .next t ∧ Answered s t req stOk [(8, leBytes 4 0)] ∧ t.cal.sealed = true
      ∧ t.cal.snap = s.hostRead (leAt req 0x10 8) snapLen)
  ∧ (∀ (s : State) (req : List Byte) (rs : List Reading), Canon s → Asked s 0x0100 req → s.start.phase ≠ .safe → leAt req 0x10 8 % 8 = 0 →
      (∀ r, r ∈ rs → r.fault = true ∨ 96 ≤ r.sel.val) →
    ∃ t, exec (.thmReadAll rs) s = .next t ∧ Answered s t req stOk [(8, leBytes 4 113)])

/-- R81, R85 to R87, R92: a Cairn read gives the word and its class, or 0 and REFUSED in the slot being programmed; a request whose
checks pass begins to program the lowest blank field slot, one that fails a check is refused with its RESULT; a program that
is done commits with RESULT 1, and the loss of VPP_OTP ends it with RESULT 8. -/
def Obligations.CairnCommands : Prop :=
  (∀ (s : State) (v : W32), s.served = true → s.cairn.prog = none →
    ∃ t, exec (.cairnRead v) s = .next t ∧ t.cairn.rdWord = fld v.toNat 12 0 ∧ t.cairn.rdData = s.cw (fld v.toNat 12 0)
      ∧ t.cairn.rdClass = s.cwClass (fld v.toNat 12 0) ∧ t.cairn.rdValid = true ∧ t.cairn.rdRefused = false ∧ t.cairn.words = s.cairn.words)
  ∧ (∀ (s : State) (v : W32) (pr : CairnProg), s.served = true → s.cairn.prog = some pr → genBase pr.slot ≤ fld v.toNat 12 0 →
      fld v.toNat 12 0 < genBase pr.slot + 1024 →
    ∃ t, exec (.cairnRead v) s = .next t ∧ t.cairn.rdData = 0 ∧ t.cairn.rdRefused = true)
  ∧ (∀ (s : State) (req : List Byte) (mv : Nat) (hot : Int) (pkg : SettingsPkg), Asked s 0x0030 req → s.start.phase ≠ .safe →
      s.progCheck mv hot pkg = 0 →
    ∃ t, exec (.cairnProgram mv hot false pkg) s = .next t ∧ Taken s t req ∧ t.col.cairnProgSince = true ∧ t.cairn.progState = 3
      ∧ t.cairn.prog.isSome = true ∧ (s.slotBlank 1 = true → t.cairn.progSlot = 1) ∧ t.cairn.words = s.cairn.words)
  ∧ (∀ (s : State) (req : List Byte) (mv : Nat) (hot : Int) (pkg : SettingsPkg), Canon s → Asked s 0x0030 req → s.start.phase ≠ .safe →
      s.progCheck mv hot pkg ≠ 0 →
    ∃ t, exec (.cairnProgram mv hot false pkg) s = .next t
      ∧ Answered s t req (stRefused 8) [(8, [BitVec.ofNat 8 (s.progCheck mv hot pkg)])] ∧ t.cairn.prog = s.cairn.prog
      ∧ t.cairn.words = s.cairn.words)
  ∧ (∀ (s : State) (req : List Byte) (a : Nat) (pr : CairnProg), Canon s → s.cairn.prog = some pr → s.mbx.busy = some (req, a) →
      s.mbx.reqHead = s.mbx.reqTail →
    ∃ t, exec (.cairnProgramDone (.done true)) s = .next t ∧ t.cairn.prog = none ∧ t.cairn.progResult = 1 ∧ t.cairn.progState = 5
      ∧ t.cairn.progWords = 1024 ∧ Answered s t req stOk [(8, [1]), (9, [BitVec.ofNat 8 pr.slot])])
  ∧ (∀ (s : State) (req : List Byte) (a : Nat) (pr : CairnProg), Canon s → s.cairn.prog = some pr → s.mbx.busy = some (req, a) →
      s.mbx.reqHead = s.mbx.reqTail →
    ∃ t, exec .vppOtpFall s = .next t ∧ t.cairn.prog = none ∧ t.cairn.progResult = 8 ∧ t.cairn.progState = 6
      ∧ Answered s t req (stTimeout 8) [(8, [8]), (9, [BitVec.ofNat 8 pr.slot])])

/-- R110 to R115: a load is accepted and its header read; a copy that is done is followed by stage B, and a source that cannot be
read fails the load with ERR 0x22; the staged structure is prepared by its commit, and released by an abort or after 60 s; a
load that has run for 15 s fails with ERR 0x25. -/
def Obligations.StructureLoad : Prop :=
  (∀ (s : State) (req : List Byte), Asked s 0x0020 req → s.start.phase ≠ .safe → leAt req 8 1 = 0 → leAt req 9 1 ≤ 1 →
      s.loader.busy = false → 128 ≤ leAt req 0x18 4 → leAt (s.hostRead (leAt req 0x10 8) 128) 6 1 ≠ 2 →
      s.stageA false (leAt req 0x18 4) (s.hostRead (leAt req 0x10 8) 128) = 0 →
    ∃ t, exec (.structLoad false) s = .next t ∧ Taken s t req ∧ t.loader.state = .stageA ∧ t.loader.err = 0
      ∧ t.loader.staging = s.hostRead (leAt req 0x10 8) 128 ∧ t.loader.stageOnly = decide (leAt req 9 1 = 1) ∧ t.loader.reqAt = s.now)
  ∧ (∀ (s : State) (req : List Byte), Canon s → Asked s 0x0020 req → s.start.phase ≠ .safe → leAt req 8 1 ≤ 1 → leAt req 9 1 ≤ 1 →
      s.loader.busy = true →
    ∃ t, exec (.structLoad false) s = .next t ∧ Answered s t req (loadStatus 0x21) [(8, leBytes 1 0x21)] ∧ t.loader.err = 0x21
      ∧ t.loader.state = s.loader.state ∧ t.loader.staging = s.loader.staging)
  ∧ (∀ (s : State) (bad : Bool), s.isReady = true → s.start.stop = none → s.loader.state = .stageA →
    ∃ t, exec (.structLoadStageDone bad) s = .next t ∧ t.loader.state = .copy ∧ t.loader.staging = s.loader.staging)
  ∧ (∀ s : State, s.isReady = true → s.start.stop = none → s.loader.state = .copy →
    ∃ t, exec (.structLoadStageDone false) s = .next t ∧ t.loader.state = .stageB ∧ t.loader.bytes = leAt s.loader.staging 0xC 4
      ∧ t.loader.staging = s.source (leAt s.loader.staging 0xC 4))
  ∧ (∀ s : State, s.isReady = true → s.start.stop = none → s.loader.state = .copy → s.loader.flash = false →
    ∃ t, exec (.structLoadStageDone true) s = .next t ∧ t.loader.state = .failed ∧ t.loader.err = 0x22 ∧ t.loader.staging = [])
  ∧ (∀ (s : State) (req : List Byte), Asked s 0x0021 req → s.start.phase ≠ .safe → s.loader.state = .staged →
      sliceB req 0x10 16 = sliceB s.loader.staging 0x10 16 →
    ∃ t, exec .structCommit s = .next t ∧ Taken s t req ∧ t.loader.state = .prepare ∧ t.loader.err = 0 ∧ t.ret.sealed = false)
  ∧ (∀ (s : State) (req : List Byte), Canon s → Asked s 0x0022 req → s.start.phase ≠ .safe → s.loader.state = .staged →
    ∃ t, exec .structAbort s = .next t ∧ Answered s t req stOk [(8, [0])] ∧ t.loader.state = .released ∧ t.loader.staged = none)
  ∧ (∀ s : State, s.loader.state = .staged → s.loader.stagedAt + sCyc 60 ≤ s.now →
    ∃ t, exec .stagedHoldExpiry s = .next t ∧ t.loader.state = .released ∧ t.loader.err = 0x27 ∧ t.loader.staged = none)
  ∧ (∀ s : State, (s.loader.state = .stageA ∨ s.loader.state = .copy ∨ s.loader.state = .stageB ∨ s.loader.state = .stageC) →
      s.isReady = true → s.loader.reqAt + sCyc 15 ≤ s.now →
    ∃ t, exec .structLoadTimeout s = .next t ∧ t.loader.state = .failed ∧ t.loader.err = 0x25 ∧ t.loader.staged = none)

/-- R113, R114, R120, R124, R129 to R131, R134: the quiesce hold of a partition with nothing in flight ends with it REBUILDING, what
it owned is zeroized once the hold has ended, and the prepared structure is switched in and kept in the retention copy; what
runs at the drain limit is asked to stop; and waits that are over end. -/
def Obligations.Restructuring : Prop :=
  (∀ (s : State) (p : Part), (s.part p).state = .draining → (∀ i, i ∈ s.items → i.part ≠ p) →
    ∃ t, exec (.quiesceHoldEnd p) s = .next t ∧ (t.part p).state = .rebuilding ∧ (t.part p).holdEnded = true ∧ t.items = s.items)
  ∧ (∀ (s : State) (p : Part), (s.part p).state = .draining → (s.part p).boundary + msCyc (s.part p).drainNow ≤ s.now →
      (∀ q, s.cqRoom p q = true) →
    ∃ t, exec (.drainLimitExpiry p) s = .next t ∧ t.items.map (·.id) = s.items.map (·.id)
      ∧ (∀ i, i ∈ t.items → i.part = p → i.fin = none → i.stop.isSome = true))
  ∧ (∀ (s : State) (p : Part), s.loader.state = .prepare → s.loader.prepared = false → s.loader.kind = 2 → s.loader.target = p →
      (s.part p).holdEnded = true → (s.part p).zeroed = false →
    ∃ t, exec (.zeroizationDone p) s = .next t ∧ t.loader.prepared = true ∧ (t.part p).zeroed = true)
  ∧ (∀ (s : State) (x : Structure) (l : List (Bool × Nat × List Byte)), s.loader.state = .prepare → s.loader.prepared = true →
      s.start.stop = none → s.loader.staged = some (x, l) →
    ∃ t, exec .structSwitch s = .next t ∧ t.str = x ∧ t.committed = true ∧ t.loader.state = .committed ∧ t.loader.staged = none
      ∧ t.ret.sealed = true ∧ t.ret.copy = some x ∧ t.start.phase = (if s.start.phase = .readyEmpty then .ready else s.start.phase))
  ∧ (∀ (s : State) (p : Part), (s.part p).state = .draining ∨ (s.part p).state = .rebuilding →
    ∃ t, exec (.holdTimeout p) s = .next t
      ∧ (t.part p).held = (s.part p).held.filter (fun a => ! s.past a.at_ (msCyc (s.part p).holdNow)))
  ∧ (∀ (s : State) (p : Part), ∃ t, exec (.handoffSlotTimeout p) s = .next t
      ∧ (t.part p).slotWait = (s.part p).slotWait.filter (fun w => ! s.past w.1.at_ (msCyc (s.part p).holdMs)))
  ∧ (∀ (s : State) (r : Fin 129) (p : Part) (c : PartCfg), (tget s.turns r).holder = some p → s.cfg p = some c →
      (tget s.turns r).start + usCyc (10 * c.slice) ≤ s.now →
    ∃ t, exec (.timeSliceExpiry r) s = .next t ∧ (tget t.turns r).holder = none ∧ (∀ q, q ≠ r → tget t.turns q = tget s.turns q)
      ∧ Only [.turns] s t)

/-- R336, R338 to R345, R357: a flit that fails is counted and asked for again, and a DATA flit in sequence is taken; a NAK and the
replay timeout send the unacknowledged flits again; CSYNC and HELLO complete the bring-up, and a HELLO that does not match leaves
the link MISWIRED; a lane that loses its lock retrains the link; and the hold time gives up what the link holds. -/
def Obligations.LinkFlits : Prop :=
  (∀ (s : State) (p : Port) (flit : List Byte), (s.link p).st = .up → (s.link p).csyncOk = true → (s.link p).nakAt = none →
    ∃ t, exec (.flitReceive p flit false []) s = .next t ∧ (t.link p).crcErr = satAdd (s.link p).crcErr 1 0xFFFF
      ∧ (t.link p).fecUe = satAdd (s.link p).fecUe 1 0xFFFF ∧ (t.link p).nakAt = some s.now
      ∧ (t.link p).sent.head? = some (0x102, [(s.link p).ackSeq]) ∧ (t.link p).rxSeq = (s.link p).rxSeq)
  ∧ (∀ (s : State) (p : Port) (flit : List Byte), (s.link p).st = .up → (s.link p).csyncOk = true → flitBad flit = false →
      leAt flit 0 1 = 1 → leAt flit 2 2 = (s.link p).rxSeq → bitAt (leAt flit 1 1) 3 = false →
    ∃ t, exec (.flitReceive p flit true []) s = .next t ∧ (t.link p).rxSeq = ((s.link p).rxSeq + 1) % 65536 ∧ (t.link p).nakAt = none
      ∧ (t.link p).crcErr = (s.link p).crcErr)
  ∧ (∀ (s : State) (p : Port) (ack n : Nat) (f : Flit) (l : List Flit), (s.link p).st = .up → (s.link p).replay = f :: l →
      (ack + 65536 - f.seq + 1) % 65536 = n → 1 ≤ n → n ≤ l.length →
    ∃ t, exec (.nakReceive p ack) s = .next t ∧ (t.link p).replay = (f :: l).drop n ∧ (t.link p).resent = 2
      ∧ (t.link p).replays = satAdd (s.link p).replays 1 0xFFFF ∧ (t.link p).sentAt = s.now)
  ∧ (∀ (s : State) (p : Port) (f : Flit) (l : List Flit), (s.link p).st = .up → (s.link p).nakAt = none → (s.link p).replay = f :: l →
      (s.link p).sentAt + s.replayTmo p ≤ s.now → (s.link p).resent + 1 < 8 →
    ∃ t, exec (.replayTimeout p) s = .next t ∧ (t.link p).replay = f :: l ∧ (t.link p).resent = (s.link p).resent + 1
      ∧ (t.link p).replays = satAdd (s.link p).replays 1 0xFFFF ∧ (t.link p).sentAt = s.now)
  ∧ (∀ (s : State) (p : Port) (ack : Nat) (freed : List Nat), (s.link p).st = .sync → (s.port p).state = 4 → (s.link p).helloOk = true →
      (s.link p).locked.toList.all id = true →
    ∃ t, exec (.csync p ack freed) s = .next t ∧ (t.link p).st = .up
      ∧ (t.link p).lead = decide (s.col.serial < (s.link p).peerSerial) ∧ (t.link p).csyncOk = true ∧ (t.link p).outAt = none)
  ∧ (∀ (s : State) (p : Port) (h : HelloMsg), (s.link p).st = .sync → (s.link p).csyncOk = false → s.helloMis p h = 0 →
    ∃ t, exec (.hello p h) s = .next t ∧ (t.link p).helloOk = true ∧ (t.link p).peerDev = h.devIndex
      ∧ (t.link p).peerPort = h.port.val ∧ (t.link p).peerSerial = h.serial ∧ (t.link p).mis = 0 ∧ (t.link p).st = .sync)
  ∧ (∀ (s : State) (p : Port) (h : HelloMsg), (s.link p).st = .sync → s.helloMis p h ≠ 0 →
    ∃ t, exec (.hello p h) s = .next t ∧ (t.link p).st = .miswired ∧ (t.link p).mis = s.helloMis p h ∧ (t.link p).helloOk = false)
  ∧ (∀ (s : State) (p : Port) (l : Lane), (s.port p).state = 4 → (s.link p).helloOk = false →
    ∃ t, exec (.laneLocked p l) s = .next t ∧ tget (t.link p).locked l = true ∧ ∀ k, k ≠ l → tget (t.link p).locked k = tget (s.link p).locked k)
  ∧ (∀ (s : State) (p : Port) (l : Lane), (s.link p).st = .up →
    ∃ t, exec (.laneLockLost p l) s = .next t ∧ (t.link p).st = .retrain ∧ tget (t.link p).locked l = false ∧ (t.link p).csyncOk = false
      ∧ (t.link p).retrains = satAdd (s.link p).retrains 1 0xFFFF)
  ∧ (∀ (s : State) (p : Port) (a : Nat), (s.link p).st = .sync → (s.link p).outAt = some a → (s.link p).held = false →
      a + msCyc s.linkHoldMs ≤ s.now →
    ∃ t, exec (.linkHoldExpiry p) s = .next t ∧ (t.link p).replay = [] ∧ (t.link p).txq = [] ∧ (t.link p).rxPart = []
      ∧ (t.link p).held = true)

/-- R349, R350: a role swap that is asked for is granted with its frame, and both ends take their roles at that frame; a lane move is
acknowledged, or cancelled when no acknowledgement comes, and a new one sent; a request for a move is answered with a move to
the spare; and a calibration slot that is announced is kept. -/
def Obligations.LinkAgreements : Prop :=
  (∀ (s : State) (p : Port), (s.link p).st = .up → (s.link p).swap = .none →
    ∃ t, exec (.swapReq p) s = .next t ∧ (t.link p).swap =
      .granted false (((s.port p).txFrame s.now + 96) % 2 ^ 32) (s.now + cdiv (96 * 64) 35) (! (s.link p).lead))
  ∧ (∀ (s : State) (p : Port) (h : Bool) (fs serial : Nat), (s.link p).swap = .asked h false →
    ∃ t, exec (.swapGrant p fs serial) s = .next t ∧ (t.link p).swap =
      .granted h fs (s.now + cyclesTo ((s.port p).rxFrame s.now) fs) (decide (serial = s.col.serial)))
  ∧ (∀ (s : State) (p : Port) (fs at_ : Nat) (lead : Bool), (s.link p).st = .up → (s.link p).swap = .granted false fs at_ lead →
      at_ ≤ s.now → (s.link p).slot = none →
    ∃ t, exec (.roleSwapFrame p) s = .next t ∧ (t.link p).lead = lead ∧ (t.link p).swap = .none ∧ Only [.links] s t)
  ∧ (∀ (s : State) (p : Port) (lane : Lane) (frm dst : Pos) (cause n : Nat), (s.link p).st = .up → (s.link p).slot = none →
    ∃ t, exec (.laneMoveMessage p lane frm dst cause n) s = .next t ∧ (t.port p).rxMoves = (s.port p).rxMoves.filter (fun x => x.lane ≠ lane)
      ++ [{ lane := lane, frm := frm, dst := dst, cause := cause, n := n, acked := true }])
  ∧ (∀ (s : State) (p : Port) (m : LaneMove), (s.port p).txMoves = [m] → m.dst ≠ m.frm →
    ∃ t, exec (.moveAck p m.lane m.n) s = .next t ∧ (t.port p).txMoves = [{ m with acked := true }] ∧ Only [.ports] s t)
  ∧ (∀ (s : State) (p : Port) (m : LaneMove), m ∈ (s.port p).rxMoves →
    ∃ t, exec (.moveCancel p m.lane m.n) s = .next t ∧ (t.port p).rxMoves = (s.port p).rxMoves.filter (fun x => x.n ≠ m.n)
      ∧ Only [.ports] s t)
  ∧ (∀ (s : State) (p : Port) (lane : Lane) (frm b : Pos) (cause : Nat), (s.link p).st = .up → (s.link p).slot = none → cause ≠ 0 →
      s.pos p false frm = .active → (s.port p).laneAt false frm = some lane → (s.port p).txMoves = [] → (s.port p).spare = some b →
    ∃ t, exec (.moveReq p frm cause) s = .next t ∧ (t.port p).txMoves = [
      { lane := lane, frm := frm, dst := b, cause := cause, acked := false
        n := ((s.port p).txFrame s.now + 96) % 2 ^ 32 }])
  ∧ (∀ (s : State) (p : Port) (m : LaneMove) (b : Pos), (s.port p).txMoves = [m] → m.acked = false → m.dst ≠ m.frm →
      reached ((s.port p).txFrame s.now) ((m.n + 2 ^ 32 - 8) % 2 ^ 32) = true → (s.port p).laneAt false m.frm = some m.lane →
      ({ s.port p with txMoves := [] } : PortSt).spare = some b →
    ∃ t, exec (.moveAckDeadline p) s = .next t ∧ (t.port p).txMoves = [
      { lane := m.lane, frm := m.frm, dst := b, cause := m.cause, acked := false
        n := ((s.port p).txFrame s.now + 96) % 2 ^ 32 }])
  ∧ (∀ (s : State) (p : Port) (dir : Bool) (pos : Pos) (frame : Nat), (s.link p).st = .up → (s.link p).lead = false →
      (s.link p).slot = none → (s.port p).txMoves = [] → (s.port p).rxMoves = [] →
    ∃ t, exec (.calAnnounce p dir pos frame) s = .next t ∧ (t.link p).slot = some
      { leadTx := ! dir, pos := pos, frame := frame, own := false
        at_ := s.now + cyclesTo ((s.port p).dirFrame (! dir) s.now) frame, stage := 0
        saved := (0, 0, 0, .off), committed := false, backAt := 0 }
      ∧ Only [.links] s t)

/-- R312, R321, R322, R325, R326, R328 to R331: a loop frame counts on, a request of the converter waits for it; a lane rides its spare
from its switch frame; headers report the peer; double steps are counted, and a retrain that is not done in time leaves the
position in FAULT; a direction without a spare retrains; the link PLL locks, loses its lock and is tried again. -/
def Obligations.OpticsPort : Prop :=
  (∀ (s : State) (p : Port) (codes : List Nat), s.start.sysLock = true → s.start.resetHeld = false →
    ∃ t, exec (.ringFrame p codes) s = .next t ∧ (t.port p).frame = (s.port p).frame + 1)
  ∧ (∀ (s : State) (p : Port) (v : W32), s.served = true → s.isReady = true → fld v.toNat 5 0 < 40 →
    ∃ t, exec (.adcRequest p v) s = .next t ∧ (t.port p).reqIn = fld v.toNat 5 0 ∧ (t.port p).reqGain = fld v.toNat 9 8
      ∧ (t.port p).reqImm = bitAt v.toNat 10 ∧ (t.port p).reqPend = true ∧ Only [.ports] s t)
  ∧ (∀ (s : State) (p : Port) (m : LaneMove), (s.port p).rxMoves = [m] → reached ((s.port p).rxFrame s.now) m.n = true →
      (s.port p).pos true m.dst = .warm → m.cause ≠ 0 → m.cause ≠ 3 → (tget (s.port p).trk m.frm).pend = false → m.frm ≠ m.dst →
    ∃ t, exec (.laneMoveSwitch p true) s = .next t ∧ tget (tget (t.port p).lmap 1) m.lane = m.dst ∧ t.pos p true m.dst = .active
      ∧ t.pos p true m.frm = .fault ∧ (t.port p).rxMoves = [] ∧ (t.port p).cMoves = satAdd (s.port p).cMoves 1 0xFFFF)
  ∧ (∀ (s : State) (p : Port) (g : Pos) (h : List Byte), 3 ≤ (s.port p).state → (s.port p).state < 7 → hdrOk h = true →
      hdrField h 36 32 = g.val →
    ∃ t, exec (.frameAligned p g [h]) s = .next t ∧ (t.port p).peer = some (hdrField h 44 40, hdrField h 39 37) ∧ Only [.ports] s t)
  ∧ (∀ (s : State) (p : Port) (g : Pos), s.pos p true g = .active → (tget (s.port p).trk g).dsRec.length < 2 →
    ∃ t, exec (.trackerDoubleStep p g) s = .next t
      ∧ (tget (t.port p).trk g).double = satAdd (tget (s.port p).trk g).double 1 0xFFFF
      ∧ (tget (t.port p).trk g).dsRec = (tget (s.port p).trk g).dsRec ++ [s.time] ∧ Only [.ports] s t)
  ∧ (∀ (s : State) (p : Port) (g : Pos) (a : Nat), s.pos p true g = .retrain → (tget (s.port p).trk g).since = some a → a + usCyc 500 ≤ s.now →
    ∃ t, exec (.positionRetrainTimeout p g) s = .next t ∧ t.pos p true g = .fault ∧ (tget (t.port p).trk g).since = none)
  ∧ (∀ (s : State) (p : Port) (m : LaneMove), (s.port p).state = 4 → m ∈ (s.port p).txMoves → m.dst = m.frm →
      (s.port p).inState false .warm = [] → (s.link p).slot = none →
    ∃ t, exec (.directionRetrain p false) s = .next t ∧ (t.port p).state = 5)
  ∧ (∀ (s : State) (p : Port), (s.port p).state = 1 → (s.port p).pll = false → (s.port p).lost = false → (s.port p).txLight = false →
    ∃ t, exec (.linkPllLocked p) s = .next t ∧ (t.port p).pll = true ∧ (t.port p).state = 2 ∧ (t.port p).txBase = s.now ∧ Only [.ports] s t)
  ∧ (∀ (s : State) (p : Port), (s.port p).pll = true → (s.link p).st = .down → (s.link p).slot = none →
    ∃ t, exec (.linkPllLockLost p) s = .next t ∧ (t.port p).pll = false ∧ (t.port p).state = 1 ∧ (t.port p).lost = true
      ∧ (∀ (rx : Bool) (g : Pos), t.pos p rx g = .off) ∧ ∀ k, (t.ring p k).mode = (s.ring p k).mode)
  ∧ (∀ (s : State) (p : Port), (s.port p).state = 1 → (s.port p).pll = false → (s.port p).lost = true → (s.port p).txLight = false →
    (∃ t, exec (.linkPllRelockDone p true) s = .next t ∧ (t.port p).pll = true ∧ (t.port p).state = 2 ∧ (t.port p).lost = false)
    ∧ ((s.port p).tries + 1 < 3 → ∃ t, exec (.linkPllRelockDone p false) s = .next t ∧ (t.port p).tries = (s.port p).tries + 1
        ∧ (t.port p).state = 1)
    ∧ (3 ≤ (s.port p).tries + 1 → ∃ t, exec (.linkPllRelockDone p false) s = .next t ∧ (t.port p).state = 7 ∧ (t.link p).st = .failed))

/-- R386, R389, R390, R391, R402: a full calibration begins on the ports of its mask; a step past its limit ends the calibration of its
port with every ring OFF; a calibration past 6 s is answered TIMEOUT, SUB 7; and a position in FAULT is swept again when its
attempt falls due. R397, R399: a snapshot is captured every 60 s while a port is UP, and written to its flash slot. -/
def Obligations.FullCalibration : Prop :=
  (∀ (s : State) (req : List Byte) (p : Port), Asked s 0x200 req → s.isReady = true → s.cal.full = none → s.allRun = true →
      bitAt (leAt req 8 1) p.val = true →
    ∃ t c, exec .calFull s = .next t ∧ t.cal.full = some (leAt req 8 1, true, s.now)
      ∧ (t.port p).cal = some c ∧ c.step = 1 ∧ c.since = s.now)
  ∧ (∀ (s : State) (p : Port) (c : CalRun), (s.port p).cal = some c → c.since + calLimit c.step ≤ s.now →
    ∃ t, exec (.calStepLimit p) s = .next t ∧ (t.port p).cal = none ∧ ∀ k, (t.ring p k).mode = .off)
  ∧ (∀ (s : State) (req : List Byte) (m a b : Nat), Canon s → s.cal.full = some (m, true, a) → a + sCyc 6 ≤ s.now →
      s.mbx.busy = some (req, b) → s.mbx.reqHead = s.mbx.reqTail →
    ∃ t, exec .calFullTimeout s = .next t ∧ Answered s t req (stTimeout 7) [(8, leBytes 1 t.cal.portsOk), (9, leBytes 1 t.cal.portsFail)]
      ∧ t.cal.full = none ∧ t.cal.portsOk = s.cal.portsOk ∧ ∀ p, (t.port p).cal = none)
  ∧ (∀ (s : State) (p : Port) (rx : Bool) (g : Pos), s.pos p rx g = .fault → s.pos p (! rx) g ≠ .fault → (s.port p).acq = [] →
      (tget (tget (s.port p).tried (dirIdx rx)) g).2 + retryAfter (tget (tget (s.port p).tried (dirIdx rx)) g).1 ≤ s.now →
      s.start.sysLock = true →
    ∃ t, exec (.acquisitionRetry p g) s = .next t
      ∧ tget (tget (t.port p).tried (dirIdx rx)) g = ((tget (tget (s.port p).tried (dirIdx rx)) g).1 + 1, s.now)
      ∧ (t.ring p (ringOf rx g)).mode = .hold ∧ (t.port p).acq.map (fun a => (a.rx, a.pos, a.idx, a.slot)) = [(rx, g, 0, false)])
  ∧ (∀ (s : State) (p : Port), (s.port p).state = 4 → s.cal.capAt + sCyc 60 ≤ s.now → s.calBusy = false →
    ∃ t, exec .snapshotCapture s = .next t ∧ t.cal.sealed = true ∧ t.cal.snap = s.snapBytes 1 ∧ t.cal.snapTime = s.time
      ∧ t.cal.capAt = s.now ∧ Only [.cal] s t)
  ∧ (∀ s : State, s.cal.flashBusy = true → s.start.stop = none → s.cal.sealed = true →
    ∃ t, exec (.snapshotFlashWrite true) s = .next t ∧ t.cal.flashBusy = false ∧ t.cal.flashAt = s.now
      ∧ t.flash = ((s.flashErase s.flashTarget 0x10000).flashProgram s.flashTarget s.cal.snap).flash ∧ Only [.cal, .flash] s t)

/-- R392 to R395: the lead announces a calibration slot; the receiver sweeps its ring when the slot's transmitter asks; the slot ends
when the receiver is done, and rolls back to the saved values when it fails, is aborted or has not ended by its limit; and a
position that is not WARM 5 ms after a rollback is in FAULT. -/
def Obligations.CalibrationSlots : Prop :=
  (∀ (s : State) (p : Port) (rx : Bool) (g : Pos), (s.link p).st = .up → (s.link p).lead = true → s.cal.bgEn = true →
      (s.link p).slot = none → (s.link p).slotEnd + msCyc s.cal.gapMs ≤ s.now → s.start.stop = none → (s.port p).cal = none →
      (s.port p).oldest = some (rx, g) → s.pos p rx g ≠ .active →
    ∃ t, exec (.calSlotStart p) s = .next t ∧ (t.link p).slot = some
      { leadTx := ! rx, pos := g, frame := ((s.port p).dirFrame rx s.now + 13672) % 2 ^ 32, own := true
        at_ := s.now + cdiv (13672 * 64) 35, stage := 0, saved := (0, 0, 0, .off), committed := false, backAt := 0 })
  ∧ (∀ (s : State) (p : Port) (x : SlotSt), (s.link p).slot = some x → x.tx = false → x.stage = 2 → (s.port p).acq = [] →
    ∃ t, exec (.calRxStart p) s = .next t ∧ (t.ring p (rxRing x.pos)).mode = .hold
      ∧ (t.port p).acq.map (fun a => (a.rx, a.pos, a.idx, a.slot)) = [(true, x.pos, 0, true)] ∧ Only [.ports] s t)
  ∧ (∀ (s : State) (p : Port) (x : SlotSt), (s.link p).slot = some x → x.tx = true → x.stage = 3 → (s.port p).txMoves = [] →
    ∃ t, exec (.calRxDone p 0) s = .next t ∧ (t.link p).slot = none ∧ (t.link p).slotEnd = s.now ∧ t.pos p false x.pos = .warm
      ∧ (t.ring p x.ring).rtime = s.time)
  ∧ (∀ (s : State) (p : Port) (x : SlotSt) (result : Nat), (s.link p).slot = some x → x.tx = true → x.stage = 3 → result ≠ 0 →
    ∃ t, exec (.calRxDone p result) s = .next t ∧ (t.link p).slot = some { x with stage := 4, backAt := s.now }
      ∧ (t.ring p x.ring).mode = .track ∧ (t.ring p x.ring).u = x.saved.1 ∧ (t.ring p x.ring).bias = x.saved.2.1)
  ∧ (∀ (s : State) (p : Port) (x : SlotSt) (cause : Nat), (s.link p).slot = some x → x.stage ≠ 0 → x.stage ≠ 4 →
    ∃ t, exec (.calAbort p cause) s = .next t ∧ (t.link p).slot = some { x with stage := 4, backAt := s.now }
      ∧ (t.ring p x.ring).mode = .track ∧ (t.ring p x.ring).u = x.saved.1 ∧ (t.ring p x.ring).bias = x.saved.2.1)
  ∧ (∀ (s : State) (p : Port) (x : SlotSt), (s.link p).slot = some x → x.own = true → x.stage ≠ 0 → x.stage < 4 →
      x.at_ + msCyc s.cal.limitMs ≤ s.now →
    ∃ t, exec (.slotLimitExpiry p) s = .next t ∧ (t.link p).slot = some { x with stage := 4, backAt := s.now }
      ∧ (t.ring p x.ring).mode = .track ∧ (t.ring p x.ring).u = x.saved.1)
  ∧ (∀ (s : State) (p : Port) (x : SlotSt), (s.link p).slot = some x → x.stage = 4 → x.backAt + msCyc 5 ≤ s.now →
    ∃ t, exec (.rollbackTimeout p) s = .next t ∧ (t.link p).slot = none ∧ t.pos p (! x.tx) x.pos = .fault)
end

