-- ==== Sys2Proof/Laws/Sparse.lean ====
section
/-! SUPPORT. Laws of the sparse memories: every operation keeps the canonical form, a read after a write gives what was
written, and a write leaves every other key alone. -/

namespace Sys2Proof

variable {α : Type} [DecidableEq α] {d : α}

theorem spWf_tail {e : Nat × α} {r : Sparse α} (h : spWf d (e :: r) = true) : spWf d r = true := by
  obtain ⟨k, v⟩ := e
  cases r with
  | nil => rfl
  | cons f r => obtain ⟨k', v'⟩ := f; simp [spWf] at h; exact h.2

theorem spWf_head {k : Nat} {v : α} {r : Sparse α} (h : spWf d ((k, v) :: r) = true) : v ≠ d := by
  cases r with
  | nil => simpa [spWf] using h
  | cons f r => obtain ⟨k', v'⟩ := f; simp [spWf] at h; exact h.1.1

/-- A key in front of a canonical list is below every key of it. -/
theorem spWf_lt {k : Nat} {v : α} {r : Sparse α} (h : spWf d ((k, v) :: r) = true) : ∀ e ∈ r, k < e.1 := by
  induction r generalizing k v with
  | nil => simp
  | cons f r ih =>
    obtain ⟨k', v'⟩ := f
    simp [spWf] at h
    intro e he
    rcases List.mem_cons.mp he with rfl | he
    · exact h.1.2
    · exact h.1.2.trans (ih h.2 e he)

/-- A canonical list behind a smaller key with a value is canonical. -/
theorem spWf_cons {k : Nat} {v : α} {r : Sparse α} (hv : v ≠ d) (hk : ∀ e ∈ r, k < e.1) (h : spWf d r = true) :
    spWf d ((k, v) :: r) = true := by
  cases r with
  | nil => simpa [spWf] using hv
  | cons f r =>
    obtain ⟨k', v'⟩ := f
    simp only [spWf, Bool.and_eq_true, decide_eq_true_eq]
    exact ⟨⟨hv, hk _ List.mem_cons_self⟩, h⟩

theorem mem_spSet {m : Sparse α} {a : Nat} {x : α} {e : Nat × α} (h : e ∈ spSet d m a x) : e ∈ m ∨ e = (a, x) := by
  induction m with
  | nil => unfold spSet at h; split at h <;> simp_all
  | cons f r ih =>
    obtain ⟨k, v⟩ := f
    unfold spSet at h
    split at h
    · split at h
      · exact .inl h
      · rcases List.mem_cons.mp h with h | h
        · exact .inr h
        · exact .inl h
    · split at h
      · split at h
        · exact .inl (List.mem_cons_of_mem _ h)
        · rcases List.mem_cons.mp h with h | h
          · exact .inr h
          · exact .inl (List.mem_cons_of_mem _ h)
      · rcases List.mem_cons.mp h with h | h
        · exact .inl (h ▸ List.mem_cons_self)
        · rcases ih h with h | h
          · exact .inl (List.mem_cons_of_mem _ h)
          · exact .inr h

/-- Setting a key keeps the canonical form. -/
theorem spSet_wf {m : Sparse α} {a : Nat} {x : α} (h : spWf d m = true) : spWf d (spSet d m a x) = true := by
  induction m with
  | nil => unfold spSet; split <;> simp_all [spWf]
  | cons f r ih =>
    obtain ⟨k, v⟩ := f
    have hlt := spWf_lt h
    have hv := spWf_head h
    have hr := spWf_tail h
    unfold spSet
    split
    · split
      · exact h
      · rename_i ha hx
        refine spWf_cons hx (fun e he => ?_) h
        rcases List.mem_cons.mp he with rfl | he
        · exact ha
        · exact Nat.lt_trans ha (hlt e he)
    · split
      · split
        · exact hr
        · rename_i hak hx
          exact spWf_cons hx (fun e he => hak ▸ hlt e he) hr
      · rename_i h1 h2
        refine spWf_cons hv (fun e he => ?_) (ih hr)
        rcases mem_spSet he with he | rfl
        · exact hlt e he
        · show k < a
          omega

omit [DecidableEq α] in
theorem mem_spClear {m : Sparse α} {lo n : Nat} {e : Nat × α} (h : e ∈ spClear m lo n) : e ∈ m :=
  (List.mem_filter.mp h).1

/-- Returning a range of keys to the unlisted value keeps the canonical form. -/
theorem spClear_wf {m : Sparse α} {lo n : Nat} (h : spWf d m = true) : spWf d (spClear m lo n) = true := by
  induction m with
  | nil => rfl
  | cons f r ih =>
    obtain ⟨k, v⟩ := f
    have ih := ih (spWf_tail h)
    unfold spClear at ih ⊢
    rw [List.filter_cons]
    split
    · exact spWf_cons (spWf_head h) (fun e he => spWf_lt h e (List.mem_filter.mp he).1) ih
    · exact ih

theorem spWrite_wf {m : Sparse Byte} {a : Nat} {bs : List Byte} (h : spWf 0 m = true) : spWf 0 (spWrite m a bs) = true := by
  induction bs generalizing a with
  | nil => exact h
  | cons b r ih => exact spSet_wf ih

theorem spMarks_wf {m : Sparse α} {f : Nat → Nat} {g : Nat → α} {l : List Nat} (h : spWf d m = true) :
    spWf d (l.foldl (fun m i => spSet d m (f i) (g i)) m) = true := by
  induction l generalizing m with
  | nil => exact h
  | cons b r ih => exact ih (spSet_wf h)

theorem Machine.spWriteD_wf {b : Byte} {m : Sparse Byte} {a : Nat} {bs : List Byte} (h : spWf b m = true) :
    spWf b (Machine.spWriteD b m a bs) = true := by
  induction bs generalizing a with
  | nil => exact h
  | cons c r ih => exact spSet_wf ih

omit [DecidableEq α] in
/-- No listed key is below the bound: what lies below reads as unlisted. -/
theorem spGet_below {m : Sparse α} {a : Nat} (h : ∀ e ∈ m, a < e.1) : spGet d m a = d := by
  cases m with
  | nil => rfl
  | cons f r =>
    obtain ⟨k, v⟩ := f
    have := h _ List.mem_cons_self
    have h1 : ¬ a = k := Nat.ne_of_lt this
    simp [spGet, h1, this]

/-- A key just set holds what it was set to. -/
theorem spGet_spSet_same {m : Sparse α} {a : Nat} {x : α} (h : spWf d m = true) : spGet d (spSet d m a x) a = x := by
  induction m with
  | nil => unfold spSet; split <;> simp_all [spGet]
  | cons f r ih =>
    obtain ⟨k, v⟩ := f
    unfold spSet
    split
    · rename_i ha
      split
      · rename_i hx
        rw [hx]
        exact spGet_below (fun e he => by
          rcases List.mem_cons.mp he with rfl | he
          · exact ha
          · exact Nat.lt_trans ha (spWf_lt h e he))
      · simp [spGet]
    · split
      · rename_i ha
        split
        · rename_i hx
          rw [hx, ha]
          exact spGet_below (spWf_lt h)
        · simp [spGet]
      · rename_i h1 h2
        have h3 : ¬ a < k := h1
        simp only [spGet, if_neg h2, if_neg h3]
        exact ih (spWf_tail h)

/-- Setting a key leaves every other key alone. -/
theorem spGet_spSet_other {m : Sparse α} {a b : Nat} {x : α} (h : spWf d m = true) (hab : b ≠ a) :
    spGet d (spSet d m a x) b = spGet d m b := by
  induction m with
  | nil => unfold spSet; split <;> simp [spGet, hab]
  | cons f r ih =>
    obtain ⟨k, v⟩ := f
    unfold spSet
    split
    · rename_i ha
      split
      · rfl
      · simp only [spGet, if_neg hab]
        split
        · have h1 : ¬ b = k := by omega
          have h2 : b < k := by omega
          simp [h1, h2]
        · rfl
    · split
      · rename_i ha
        subst ha
        split
        · simp only [spGet, if_neg hab]
          split
          · exact spGet_below (fun e he => by have := spWf_lt h e he; omega)
          · rfl
        · simp [spGet, hab]
      · simp only [spGet]
        split
        · rfl
        · split
          · rfl
          · exact ih (spWf_tail h)

/-- Clearing keys returns them to the unlisted value and leaves every other key alone. -/
theorem spGet_spClear {m : Sparse α} {lo n a : Nat} (h : spWf d m = true) :
    spGet d (spClear m lo n) a = if lo ≤ a ∧ a < lo + n then d else spGet d m a := by
  induction m with
  | nil => simp [spClear, spGet]
  | cons e r ih =>
    obtain ⟨k, v⟩ := e
    have ih := ih (spWf_tail h)
    by_cases hk : lo ≤ k ∧ k < lo + n
    · have e : spClear ((k, v) :: r) lo n = spClear r lo n := by simp [spClear, hk]
      rw [e, ih]
      split
      · rfl
      · rename_i hna
        have hne : a ≠ k := fun q => hna (q ▸ hk)
        simp only [spGet, if_neg hne]
        split
        · exact spGet_below (fun e he => by have := spWf_lt h e he; omega)
        · rfl
    · have e : spClear ((k, v) :: r) lo n = (k, v) :: spClear r lo n := by
        unfold spClear; rw [List.filter_cons_of_pos]; simpa only [decide_not, Bool.not_eq_true, decide_eq_true_eq, Bool.not_eq_eq_eq_not, Bool.not_true, decide_eq_false_iff_not] using hk
      rw [e]
      simp only [spGet, ih]
      by_cases h1 : a = k
      · subst h1; simp [hk]
      · by_cases h2 : a < k
        · simp [h1, h2]
        · simp [h1, h2]

/-- A byte after a write of bytes: the byte written where the write reached, else what it was. -/
theorem spGet_spWrite {m : Sparse Byte} {a x : Nat} {bs : List Byte} (h : spWf 0 m = true) :
    spGet 0 (spWrite m a bs) x = if h : a ≤ x ∧ x < a + bs.length then bs[x - a]'(by omega) else spGet 0 m x := by
  induction bs generalizing a with
  | nil => simp [spWrite]
  | cons b r ih =>
    unfold spWrite
    by_cases hx : x = a
    · subst hx
      rw [spGet_spSet_same (spWrite_wf h)]
      simp
    · rw [spGet_spSet_other (spWrite_wf h) hx, ih]
      by_cases h1 : a + 1 ≤ x ∧ x < a + 1 + r.length
      · have h2 : a ≤ x ∧ x < a + (b :: r).length := by simp; omega
        rw [dif_pos h1, dif_pos h2]
        have : x - a = (x - (a + 1)) + 1 := by omega
        simp only [this, List.getElem_cons_succ]
      · have h2 : ¬ (a ≤ x ∧ x < a + (b :: r).length) := by simp; omega
        rw [dif_neg h1, dif_neg h2]

/-- Bytes outside a write read as before it. -/
theorem spGet_spWrite_out {m : Sparse Byte} {a x : Nat} {bs : List Byte} (h : spWf 0 m = true)
    (hx : x < a ∨ a + bs.length ≤ x) : spGet 0 (spWrite m a bs) x = spGet 0 m x := by
  rw [spGet_spWrite h, dif_neg (by omega)]

/-- Bytes written read back. -/
theorem spRead_spWrite {m : Sparse Byte} {a : Nat} {bs : List Byte} (h : spWf 0 m = true) :
    spRead (spWrite m a bs) a bs.length = bs := by
  have key : ∀ (n k : Nat) (l : List Byte), l.length = n → bs.drop k = l → spRead (spWrite m a bs) (a + k) n = l := by
    intro n
    induction n with
    | zero => intro k l hl _; simp [spRead]; exact List.eq_nil_of_length_eq_zero hl
    | succ n ih =>
      intro k l hl hk
      cases l with
      | nil => simp at hl
      | cons b r =>
        have hlen : k < bs.length := by
          by_contra hc
          rw [List.drop_eq_nil_of_le (by omega)] at hk; cases hk
        have hb : bs[k] = b := by
          have := List.getElem_cons_drop (h := hlen)
          rw [hk] at this; simpa using (List.cons.inj this).1
        have hr : bs.drop (k + 1) = r := by
          have := List.getElem_cons_drop (h := hlen)
          rw [hk] at this; exact (List.cons.inj this).2
        simp only [spRead]
        rw [spGet_spWrite h, dif_pos (by omega)]
        have e : a + k - a = k := by omega
        simp only [e, hb]
        rw [show a + k + 1 = a + (k + 1) by omega, ih (k + 1) r (by simpa using hl) hr]
  simpa using key bs.length 0 bs rfl (by simp)

/-! ## Bits -/

theorem bitAt_testBit (w i : Nat) : bitAt w i = w.testBit i := by
  unfold bitAt
  rw [Nat.testBit_eq_decide_div_mod_eq]
  rfl

theorem bitAt_or (a b i : Nat) : bitAt (a ||| b) i = (bitAt a i || bitAt b i) := by
  simp only [bitAt_testBit, Nat.testBit_or]

end Sys2Proof
end

