-- ==== Sys2Proof/Laws/Kept.lean ====
section
/-! SUPPORT. What a part of a command may do, in one relation that every operation's law is stated in: which parts of the
state it may change, that it keeps every memory canonical, and that it clears no bit of Cairn. -/

namespace Sys2Proof.Machine

theorem Only.refl (l s) : Only l s s := ⟨by intro x _; cases x <;> rfl⟩

theorem Only.trans {l s t u} (h : Only l s t) (k : Only l t u) : Only l s u := ⟨by
  intro x hx; have a := h.out x hx; have b := k.out x hx
  cases x <;> exact Eq.trans b a⟩

/-- Each part of the first list is in the second. -/
def sliceSub (a b : List Slice) : Bool := a.all (fun x => b.contains x)

theorem Only.mono {l m s t} (h : Only l s t) (k : sliceSub l m = true) : Only m s t := ⟨by
  intro x hx; apply h.out x; intro hm; apply hx
  simp [sliceSub] at k; exact k x hm⟩

theorem OtpGrows.refl (m) : OtpGrows m m := fun _ _ h => h
theorem OtpGrows.trans {a b c} (h : OtpGrows a b) (k : OtpGrows b c) : OtpGrows a c := fun w i hi => k w i (h w i hi)

/-- What an update does to a memory: it stays as it was, or stays canonical. -/
structure MemOk {α : Type} [DecidableEq α] (d : α) (m m' : Sparse α) : Prop where
  wf : spWf d m = true → spWf d m' = true

theorem MemOk.same {α : Type} [DecidableEq α] {d : α} {m m' : Sparse α} (h : m' = m) : MemOk d m m' := ⟨fun k => h ▸ k⟩

/-- What an update does to the words of Cairn: they stay canonical and no bit is cleared. -/
structure OtpOk (m m' : Sparse Nat) : Prop where
  wf : spWf 0 m = true → spWf 0 m' = true ∧ OtpGrows m m'

theorem OtpOk.same {m m' : Sparse Nat} (h : m' = m) : OtpOk m m' := ⟨fun k => by subst h; exact ⟨k, OtpGrows.refl _⟩⟩

/-- From `s` to `t` only the parts listed change, the memories stay canonical, and no bit of Cairn is cleared. -/
structure Kept (L : List Slice) (s t : State) : Prop where
  only : Only L s t
  mem : Canon s → Canon t ∧ OtpGrows s.cairn.words t.cairn.words

theorem Kept.refl (L s) : Kept L s s := ⟨Only.refl L s, fun h => ⟨h, OtpGrows.refl _⟩⟩

theorem Kept.trans {L s t u} (h : Kept L s t) (k : Kept L t u) : Kept L s u :=
  ⟨h.only.trans k.only, fun c => ⟨(k.mem (h.mem c).1).1, (h.mem c).2.trans (k.mem (h.mem c).1).2⟩⟩

theorem Kept.mono {L M s t} (h : Kept L s t) (k : sliceSub L M = true) : Kept M s t := ⟨h.only.mono k, h.mem⟩

theorem Kept.step {L M s u v} (h : Kept L s u) (k : Kept M u v) (hs : sliceSub M L = true) : Kept L s v := h.trans (k.mono hs)

theorem Kept.cut {L s t} {x : State} (h : Kept L s x) (k : Kept L s x → Kept L s t) : Kept L s t := k h

theorem Kept.ite {c : Prop} [Decidable c] {L s a b} (h : c → Kept L s a) (k : ¬ c → Kept L s b) :
    Kept L s (if c then a else b) := by
  split
  · exact h ‹_›
  · exact k ‹_›

theorem Kept.each {α : Type} {L s u} {f : State → α → State} {l : List α} (h : Kept L s u)
    (k : ∀ v a, Kept L s v → Kept L s (f v a)) : Kept L s (u.each l f) := by
  show Kept L s (l.foldl f u)
  induction l generalizing u with
  | nil => exact h
  | cons a r ih => exact ih (k u a h)

/-- A fact that every visit keeps holds after all of them. -/
theorem State.each_inv {α : Type} {P : State → Prop} {f : State → α → State} {l : List α} {u : State} (h : P u)
    (k : ∀ v a, a ∈ l → P v → P (f v a)) : P (u.each l f) := by
  show P (l.foldl f u)
  induction l generalizing u with
  | nil => exact h
  | cons a r ih => exact ih (k u a (by simp) h) (fun v b hb => k v b (by simp [hb]))

/-- What a pass over different entries does to one entry, when a visit changes its own entry alone and what it does there
depends only on the entry and on a fact that every visit keeps. -/
theorem State.each_at {α β : Type} [DecidableEq α] {get : State → α → β} {G : α → β → β} {I : State → Prop}
    {f : State → α → State} {l : List α} {u : State} (nd : l.Nodup) (hI : I u) (kI : ∀ v a, I v → I (f v a))
    (same : ∀ v a, I v → get (f v a) a = G a (get v a)) (other : ∀ v a b, I v → a ≠ b → get (f v a) b = get v b) (b : α) :
    get (u.each l f) b = if b ∈ l then G b (get u b) else get u b := by
  show get (l.foldl f u) b = _
  induction l generalizing u with
  | nil => simp
  | cons a r ih =>
    have nd' := List.nodup_cons.mp nd
    have := ih nd'.2 (kI u a hI)
    simp only [List.foldl_cons]
    rw [this]
    by_cases e : a = b
    · subst e
      simp [nd'.1, same u a hI]
    · have e' : ¬ b = a := fun q => e q.symm
      simp [other u a b hI e, e']

theorem Kept.foldl {α : Type} {L s u} {f : State → α → State} {l : List α} (h : Kept L s u)
    (k : ∀ v a, Kept L s v → Kept L s (f v a)) : Kept L s (l.foldl f u) := by
  have := Kept.each (l := l) h k
  exact this

theorem Kept.when {L s u} {c : Bool} {f : State → State} (h : Kept L s u) (k : ∀ v, Kept L s v → Kept L s (f v)) :
    Kept L s (u.when c f) := by
  cases c
  · exact h
  · exact k u h

theorem Kept.idS {L s u} (h : Kept L s u) : Kept L s (id u) := h

theorem Kept.iteOk {α β : Type} {c : Prop} [Decidable c] {L s r v} {x : Except Nat (α × β × State)} {a a' : α} {b b' : β}
    (e : (if c then x else .ok (a, b, v)) = .ok (a', b', r)) (h : x = .ok (a', b', r) → Kept L s r) (k : Kept L s v) :
    Kept L s r := by
  split at e
  · exact h e
  · injection e with e; injection e with _ e; injection e with _ e; exact e ▸ k

theorem Kept.fold22 {α β γ : Type} {L s} {f : β × γ × State → α → β × γ × State} {l : List α} {u : β × γ × State}
    (h : Kept L s u.2.2) (k : ∀ (v : β × γ × State) a, Kept L s v.2.2 → Kept L s (f v a).2.2) : Kept L s (l.foldl f u).2.2 := by
  induction l generalizing u with
  | nil => exact h
  | cons a r ih => exact ih (k u a h)

theorem Kept.fold22_eq {α β γ : Type} {L s} {f : β × γ × State → α → β × γ × State} {l : List α} {u : β × γ × State} {a b r}
    (e : l.foldl f u = (a, b, r)) (h : Kept L s u.2.2) (k : ∀ (v : β × γ × State) a, Kept L s v.2.2 → Kept L s (f v a).2.2) :
    Kept L s r := by
  have := Kept.fold22 (l := l) h k
  rw [e] at this; exact this

theorem Kept.fold2 {α β : Type} {L s} {f : β × State → α → β × State} {l : List α} {u : β × State}
    (h : Kept L s u.2) (k : ∀ (v : β × State) a, Kept L s v.2 → Kept L s (f v a).2) : Kept L s (l.foldl f u).2 := by
  induction l generalizing u with
  | nil => exact h
  | cons a r ih => exact ih (k u a h)

theorem Kept.fold2_eq {α β : Type} {L s} {f : β × State → α → β × State} {l : List α} {u : β × State} {b r}
    (e : l.foldl f u = (b, r)) (h : Kept L s u.2) (k : ∀ (v : β × State) a, Kept L s v.2 → Kept L s (f v a).2) :
    Kept L s r := by
  have := Kept.fold2 (l := l) h k
  rw [e] at this; exact this

theorem Kept.fold1 {α β : Type} {L s} {f : State × β → α → State × β} {l : List α} {u : State × β}
    (h : Kept L s u.1) (k : ∀ (v : State × β) a, Kept L s v.1 → Kept L s (f v a).1) : Kept L s (l.foldl f u).1 := by
  induction l generalizing u with
  | nil => exact h
  | cons a r ih => exact ih (k u a h)

theorem Kept.fold1_eq {α β : Type} {L s} {f : State × β → α → State × β} {l : List α} {u : State × β} {b r}
    (e : l.foldl f u = (r, b)) (h : Kept L s u.1) (k : ∀ (v : State × β) a, Kept L s v.1 → Kept L s (f v a).1) :
    Kept L s r := by
  have := Kept.fold1 (l := l) h k
  rw [e] at this; exact this

/-! ## A part that is not listed is as it was -/

theorem Kept.pins_eq {L s t} (h : Kept L s t) (n : L.contains .pins = false) : t.pins = s.pins :=
  h.only.out .pins (by simpa using n)
theorem Kept.col_eq {L s t} (h : Kept L s t) (n : L.contains .col = false) : t.col = s.col :=
  h.only.out .col (by simpa using n)
theorem Kept.start_eq {L s t} (h : Kept L s t) (n : L.contains .start = false) : t.start = s.start :=
  h.only.out .start (by simpa using n)
theorem Kept.quads_eq {L s t} (h : Kept L s t) (n : L.contains .quads = false) : t.quads = s.quads :=
  h.only.out .quads (by simpa using n)
theorem Kept.cairn_eq {L s t} (h : Kept L s t) (n : L.contains .cairn = false) : t.cairn = s.cairn :=
  h.only.out .cairn (by simpa using n)
theorem Kept.lockLoss_eq {L s t} (h : Kept L s t) (n : L.contains .lockLoss = false) : t.lockLoss = s.lockLoss :=
  h.only.out .lockLoss (by simpa using n)
theorem Kept.loader_eq {L s t} (h : Kept L s t) (n : L.contains .loader = false) : t.loader = s.loader :=
  h.only.out .loader (by simpa using n)
theorem Kept.committed_eq {L s t} (h : Kept L s t) (n : L.contains .committed = false) : t.committed = s.committed :=
  h.only.out .committed (by simpa using n)
theorem Kept.str_eq {L s t} (h : Kept L s t) (n : L.contains .str = false) : t.str = s.str :=
  h.only.out .str (by simpa using n)
theorem Kept.ret_eq {L s t} (h : Kept L s t) (n : L.contains .ret = false) : t.ret = s.ret :=
  h.only.out .ret (by simpa using n)
theorem Kept.parts_eq {L s t} (h : Kept L s t) (n : L.contains .parts = false) : t.parts = s.parts :=
  h.only.out .parts (by simpa using n)
theorem Kept.numVfs_eq {L s t} (h : Kept L s t) (n : L.contains .numVfs = false) : t.numVfs = s.numVfs :=
  h.only.out .numVfs (by simpa using n)
theorem Kept.vfs_eq {L s t} (h : Kept L s t) (n : L.contains .vfs = false) : t.vfs = s.vfs :=
  h.only.out .vfs (by simpa using n)
theorem Kept.turns_eq {L s t} (h : Kept L s t) (n : L.contains .turns = false) : t.turns = s.turns :=
  h.only.out .turns (by simpa using n)
theorem Kept.mbx_eq {L s t} (h : Kept L s t) (n : L.contains .mbx = false) : t.mbx = s.mbx :=
  h.only.out .mbx (by simpa using n)
theorem Kept.pfMsix_eq {L s t} (h : Kept L s t) (n : L.contains .pfMsix = false) : t.pfMsix = s.pfMsix :=
  h.only.out .pfMsix (by simpa using n)
theorem Kept.irqs_eq {L s t} (h : Kept L s t) (n : L.contains .irqs = false) : t.irqs = s.irqs :=
  h.only.out .irqs (by simpa using n)
theorem Kept.items_eq {L s t} (h : Kept L s t) (n : L.contains .items = false) : t.items = s.items :=
  h.only.out .items (by simpa using n)
theorem Kept.nextItem_eq {L s t} (h : Kept L s t) (n : L.contains .nextItem = false) : t.nextItem = s.nextItem :=
  h.only.out .nextItem (by simpa using n)
theorem Kept.sends_eq {L s t} (h : Kept L s t) (n : L.contains .sends = false) : t.sends = s.sends :=
  h.only.out .sends (by simpa using n)
theorem Kept.nextMid_eq {L s t} (h : Kept L s t) (n : L.contains .nextMid = false) : t.nextMid = s.nextMid :=
  h.only.out .nextMid (by simpa using n)
theorem Kept.dram_eq {L s t} (h : Kept L s t) (n : L.contains .dram = false) : t.dram = s.dram :=
  h.only.out .dram (by simpa using n)
theorem Kept.ras_eq {L s t} (h : Kept L s t) (n : L.contains .ras = false) : t.ras = s.ras :=
  h.only.out .ras (by simpa using n)
theorem Kept.trv_eq {L s t} (h : Kept L s t) (n : L.contains .trv = false) : t.trv = s.trv :=
  h.only.out .trv (by simpa using n)
theorem Kept.crest_eq {L s t} (h : Kept L s t) (n : L.contains .crest = false) : t.crest = s.crest :=
  h.only.out .crest (by simpa using n)
theorem Kept.cornice_eq {L s t} (h : Kept L s t) (n : L.contains .cornice = false) : t.cornice = s.cornice :=
  h.only.out .cornice (by simpa using n)
theorem Kept.spur_eq {L s t} (h : Kept L s t) (n : L.contains .spur = false) : t.spur = s.spur :=
  h.only.out .spur (by simpa using n)
theorem Kept.ports_eq {L s t} (h : Kept L s t) (n : L.contains .ports = false) : t.ports = s.ports :=
  h.only.out .ports (by simpa using n)
theorem Kept.links_eq {L s t} (h : Kept L s t) (n : L.contains .links = false) : t.links = s.links :=
  h.only.out .links (by simpa using n)
theorem Kept.linkHoldMs_eq {L s t} (h : Kept L s t) (n : L.contains .linkHoldMs = false) : t.linkHoldMs = s.linkHoldMs :=
  h.only.out .linkHoldMs (by simpa using n)
theorem Kept.replyMs_eq {L s t} (h : Kept L s t) (n : L.contains .replyMs = false) : t.replyMs = s.replyMs :=
  h.only.out .replyMs (by simpa using n)
theorem Kept.pmsg_eq {L s t} (h : Kept L s t) (n : L.contains .pmsg = false) : t.pmsg = s.pmsg :=
  h.only.out .pmsg (by simpa using n)
theorem Kept.laser_eq {L s t} (h : Kept L s t) (n : L.contains .laser = false) : t.laser = s.laser :=
  h.only.out .laser (by simpa using n)
theorem Kept.cal_eq {L s t} (h : Kept L s t) (n : L.contains .cal = false) : t.cal = s.cal :=
  h.only.out .cal (by simpa using n)
theorem Kept.thm_eq {L s t} (h : Kept L s t) (n : L.contains .thm = false) : t.thm = s.thm :=
  h.only.out .thm (by simpa using n)
theorem Kept.flash_eq {L s t} (h : Kept L s t) (n : L.contains .flash = false) : t.flash = s.flash :=
  h.only.out .flash (by simpa using n)
theorem Kept.hostMem_eq {L s t} (h : Kept L s t) (n : L.contains .hostMem = false) : t.hostMem = s.hostMem :=
  h.only.out .hostMem (by simpa using n)
theorem Kept.bus_eq {L s t} (h : Kept L s t) (n : L.contains .bus = false) : t.bus = s.bus :=
  h.only.out .bus (by simpa using n)
theorem Kept.free_eq {L s t} (h : Kept L s t) (n : L.contains .free = false) : t.free = s.free :=
  h.only.out .free (by simpa using n)

/-! ## The state inside an answer; `s` where it holds none -/

@[reducible] def outOf (s : State) : Host.Outcome State Fault Refusal → State
  | .next t => t
  | _ => s

@[reducible] def exOf {α β : Type} (s : State) : Except Nat (α × β × State) → State
  | .ok (_, _, t) => t
  | .error _ => s

@[reducible] def exOf1 (s : State) : Except Nat State → State
  | .ok t => t
  | .error _ => s

@[reducible] def accOf (s : State) : Access → State
  | .ok _ _ t => t
  | .wait t => t
  | .fault _ => s

theorem outOf_next {s t : State} : outOf s (.next t) = t := rfl
theorem accOf_ok {s t : State} {b p} : accOf s (.ok b p t) = t := rfl
theorem accOf_wait {s t : State} : accOf s (.wait t) = t := rfl
theorem accOf_fault {s : State} {c} : accOf s (.fault c) = s := rfl
theorem exOf_ok {α β : Type} {s : State} {v : α × β × State} : exOf s (.ok v) = v.2.2 := rfl
theorem exOf_error {α β : Type} {s : State} {c} : exOf (α := α) (β := β) s (.error c) = s := rfl
theorem exOf1_ok {s t : State} : exOf1 s (.ok t) = t := rfl
theorem exOf1_error {s : State} {c} : exOf1 s (.error c) = s := rfl

/-! ## Updates of fields -/

/-- `v`, marked as an update of `u`. -/
def updateOf (_u v : State) : State := v

theorem updateOf_eq {u e_pins e_col e_start e_quads e_cairn e_lockLoss e_loader e_committed e_str e_ret e_parts e_numVfs e_vfs e_turns e_mbx e_pfMsix e_irqs e_items e_nextItem e_sends e_nextMid e_dram e_ras e_trv e_crest e_cornice e_spur e_ports e_links e_linkHoldMs e_replyMs e_pmsg e_laser e_cal e_thm e_flash e_hostMem e_bus e_free} :
    State.mk e_pins e_col e_start e_quads e_cairn e_lockLoss e_loader e_committed e_str e_ret e_parts e_numVfs e_vfs e_turns e_mbx e_pfMsix e_irqs e_items e_nextItem e_sends e_nextMid e_dram e_ras e_trv e_crest e_cornice e_spur e_ports e_links e_linkHoldMs e_replyMs e_pmsg e_laser e_cal e_thm e_flash e_hostMem e_bus u.pending e_free
      = updateOf u (State.mk e_pins e_col e_start e_quads e_cairn e_lockLoss e_loader e_committed e_str e_ret e_parts e_numVfs e_vfs e_turns e_mbx e_pfMsix e_irqs e_items e_nextItem e_sends e_nextMid e_dram e_ras e_trv e_crest e_cornice e_spur e_ports e_links e_linkHoldMs e_replyMs e_pmsg e_laser e_cal e_thm e_flash e_hostMem e_bus u.pending e_free) := rfl

theorem Kept.set_cairn {L s u v_cairn} (h : Kept L s u) (h_cairn : L.contains .cairn = true)
    (m_cairn : OtpOk u.cairn.words v_cairn.words ∧ MemOk false u.cairn.weak v_cairn.weak) :
    Kept L s (updateOf u { u with cairn := v_cairn }) := by
  refine h.trans ⟨⟨fun x hx => ?_⟩, fun c => ⟨⟨(m_cairn.1.wf c.words).1, m_cairn.2.wf c.weak, c.mem, c.poison, c.flaws, c.sram, c.qbuf, c.sramPoison, c.qbufPoison, c.sramFlaws, c.qbufFlaws, c.eeprom, c.held, c.latch, c.flash, c.hostMem⟩, (m_cairn.1.wf c.words).2⟩⟩
  cases x <;> first | rfl | (exfalso; apply hx; simpa using (by assumption : L.contains _ = true))

theorem Kept.set_hostMem {L s u v_hostMem} (h : Kept L s u) (h_hostMem : L.contains .hostMem = true)
    (m_hostMem : MemOk 0 u.hostMem v_hostMem) :
    Kept L s (updateOf u { u with hostMem := v_hostMem }) := by
  refine h.trans ⟨⟨fun x hx => ?_⟩, fun c => ⟨⟨c.words, c.weak, c.mem, c.poison, c.flaws, c.sram, c.qbuf, c.sramPoison, c.qbufPoison, c.sramFlaws, c.qbufFlaws, c.eeprom, c.held, c.latch, c.flash, m_hostMem.wf c.hostMem⟩, OtpGrows.refl _⟩⟩
  cases x <;> first | rfl | (exfalso; apply hx; simpa using (by assumption : L.contains _ = true))

theorem Kept.set_irqs {L s u v_irqs} (h : Kept L s u) (h_irqs : L.contains .irqs = true) :
    Kept L s (updateOf u { u with irqs := v_irqs }) := by
  refine h.trans ⟨⟨fun x hx => ?_⟩, fun c => ⟨⟨c.words, c.weak, c.mem, c.poison, c.flaws, c.sram, c.qbuf, c.sramPoison, c.qbufPoison, c.sramFlaws, c.qbufFlaws, c.eeprom, c.held, c.latch, c.flash, c.hostMem⟩, OtpGrows.refl _⟩⟩
  cases x <;> first | rfl | (exfalso; apply hx; simpa using (by assumption : L.contains _ = true))

theorem Kept.set_pfMsix {L s u v_pfMsix} (h : Kept L s u) (h_pfMsix : L.contains .pfMsix = true) :
    Kept L s (updateOf u { u with pfMsix := v_pfMsix }) := by
  refine h.trans ⟨⟨fun x hx => ?_⟩, fun c => ⟨⟨c.words, c.weak, c.mem, c.poison, c.flaws, c.sram, c.qbuf, c.sramPoison, c.qbufPoison, c.sramFlaws, c.qbufFlaws, c.eeprom, c.held, c.latch, c.flash, c.hostMem⟩, OtpGrows.refl _⟩⟩
  cases x <;> first | rfl | (exfalso; apply hx; simpa using (by assumption : L.contains _ = true))

theorem Kept.set_mbx {L s u v_mbx} (h : Kept L s u) (h_mbx : L.contains .mbx = true) :
    Kept L s (updateOf u { u with mbx := v_mbx }) := by
  refine h.trans ⟨⟨fun x hx => ?_⟩, fun c => ⟨⟨c.words, c.weak, c.mem, c.poison, c.flaws, c.sram, c.qbuf, c.sramPoison, c.qbufPoison, c.sramFlaws, c.qbufFlaws, c.eeprom, c.held, c.latch, c.flash, c.hostMem⟩, OtpGrows.refl _⟩⟩
  cases x <;> first | rfl | (exfalso; apply hx; simpa using (by assumption : L.contains _ = true))

theorem Kept.set_col_cairn {L s u v_col v_cairn} (h : Kept L s u) (h_col : L.contains .col = true) (h_cairn : L.contains .cairn = true)
    (m_cairn : OtpOk u.cairn.words v_cairn.words ∧ MemOk false u.cairn.weak v_cairn.weak) :
    Kept L s (updateOf u { u with col := v_col, cairn := v_cairn }) := by
  refine h.trans ⟨⟨fun x hx => ?_⟩, fun c => ⟨⟨(m_cairn.1.wf c.words).1, m_cairn.2.wf c.weak, c.mem, c.poison, c.flaws, c.sram, c.qbuf, c.sramPoison, c.qbufPoison, c.sramFlaws, c.qbufFlaws, c.eeprom, c.held, c.latch, c.flash, c.hostMem⟩, (m_cairn.1.wf c.words).2⟩⟩
  cases x <;> first | rfl | (exfalso; apply hx; simpa using (by assumption : L.contains _ = true))

theorem Kept.set_free {L s u v_free} (h : Kept L s u) (h_free : L.contains .free = true) :
    Kept L s (updateOf u { u with free := v_free }) := by
  refine h.trans ⟨⟨fun x hx => ?_⟩, fun c => ⟨⟨c.words, c.weak, c.mem, c.poison, c.flaws, c.sram, c.qbuf, c.sramPoison, c.qbufPoison, c.sramFlaws, c.qbufFlaws, c.eeprom, c.held, c.latch, c.flash, c.hostMem⟩, OtpGrows.refl _⟩⟩
  cases x <;> first | rfl | (exfalso; apply hx; simpa using (by assumption : L.contains _ = true))

theorem Kept.set_ras {L s u v_ras} (h : Kept L s u) (h_ras : L.contains .ras = true) :
    Kept L s (updateOf u { u with ras := v_ras }) := by
  refine h.trans ⟨⟨fun x hx => ?_⟩, fun c => ⟨⟨c.words, c.weak, c.mem, c.poison, c.flaws, c.sram, c.qbuf, c.sramPoison, c.qbufPoison, c.sramFlaws, c.qbufFlaws, c.eeprom, c.held, c.latch, c.flash, c.hostMem⟩, OtpGrows.refl _⟩⟩
  cases x <;> first | rfl | (exfalso; apply hx; simpa using (by assumption : L.contains _ = true))

theorem Kept.set_cal {L s u v_cal} (h : Kept L s u) (h_cal : L.contains .cal = true) :
    Kept L s (updateOf u { u with cal := v_cal }) := by
  refine h.trans ⟨⟨fun x hx => ?_⟩, fun c => ⟨⟨c.words, c.weak, c.mem, c.poison, c.flaws, c.sram, c.qbuf, c.sramPoison, c.qbufPoison, c.sramFlaws, c.qbufFlaws, c.eeprom, c.held, c.latch, c.flash, c.hostMem⟩, OtpGrows.refl _⟩⟩
  cases x <;> first | rfl | (exfalso; apply hx; simpa using (by assumption : L.contains _ = true))

theorem Kept.set_ports {L s u v_ports} (h : Kept L s u) (h_ports : L.contains .ports = true) :
    Kept L s (updateOf u { u with ports := v_ports }) := by
  refine h.trans ⟨⟨fun x hx => ?_⟩, fun c => ⟨⟨c.words, c.weak, c.mem, c.poison, c.flaws, c.sram, c.qbuf, c.sramPoison, c.qbufPoison, c.sramFlaws, c.qbufFlaws, c.eeprom, c.held, c.latch, c.flash, c.hostMem⟩, OtpGrows.refl _⟩⟩
  cases x <;> first | rfl | (exfalso; apply hx; simpa using (by assumption : L.contains _ = true))

theorem Kept.set_links {L s u v_links} (h : Kept L s u) (h_links : L.contains .links = true) :
    Kept L s (updateOf u { u with links := v_links }) := by
  refine h.trans ⟨⟨fun x hx => ?_⟩, fun c => ⟨⟨c.words, c.weak, c.mem, c.poison, c.flaws, c.sram, c.qbuf, c.sramPoison, c.qbufPoison, c.sramFlaws, c.qbufFlaws, c.eeprom, c.held, c.latch, c.flash, c.hostMem⟩, OtpGrows.refl _⟩⟩
  cases x <;> first | rfl | (exfalso; apply hx; simpa using (by assumption : L.contains _ = true))

theorem Kept.set_parts {L s u v_parts} (h : Kept L s u) (h_parts : L.contains .parts = true) :
    Kept L s (updateOf u { u with parts := v_parts }) := by
  refine h.trans ⟨⟨fun x hx => ?_⟩, fun c => ⟨⟨c.words, c.weak, c.mem, c.poison, c.flaws, c.sram, c.qbuf, c.sramPoison, c.qbufPoison, c.sramFlaws, c.qbufFlaws, c.eeprom, c.held, c.latch, c.flash, c.hostMem⟩, OtpGrows.refl _⟩⟩
  cases x <;> first | rfl | (exfalso; apply hx; simpa using (by assumption : L.contains _ = true))

theorem Kept.set_vfs {L s u v_vfs} (h : Kept L s u) (h_vfs : L.contains .vfs = true) :
    Kept L s (updateOf u { u with vfs := v_vfs }) := by
  refine h.trans ⟨⟨fun x hx => ?_⟩, fun c => ⟨⟨c.words, c.weak, c.mem, c.poison, c.flaws, c.sram, c.qbuf, c.sramPoison, c.qbufPoison, c.sramFlaws, c.qbufFlaws, c.eeprom, c.held, c.latch, c.flash, c.hostMem⟩, OtpGrows.refl _⟩⟩
  cases x <;> first | rfl | (exfalso; apply hx; simpa using (by assumption : L.contains _ = true))

theorem Kept.set_dram {L s u v_dram} (h : Kept L s u) (h_dram : L.contains .dram = true)
    (m_dram : MemOk 0 u.dram.mem v_dram.mem ∧ MemOk 0 u.dram.poison v_dram.poison ∧ MemOk Flaw.none u.dram.flaws v_dram.flaws) :
    Kept L s (updateOf u { u with dram := v_dram }) := by
  refine h.trans ⟨⟨fun x hx => ?_⟩, fun c => ⟨⟨c.words, c.weak, m_dram.1.wf c.mem, m_dram.2.1.wf c.poison, m_dram.2.2.wf c.flaws, c.sram, c.qbuf, c.sramPoison, c.qbufPoison, c.sramFlaws, c.qbufFlaws, c.eeprom, c.held, c.latch, c.flash, c.hostMem⟩, OtpGrows.refl _⟩⟩
  cases x <;> first | rfl | (exfalso; apply hx; simpa using (by assumption : L.contains _ = true))

theorem Kept.set_crest {L s u v_crest} (h : Kept L s u) (h_crest : L.contains .crest = true)
    (m_crest : MemOk 0 u.crest.sram v_crest.sram ∧ MemOk 0 u.crest.qbuf v_crest.qbuf
      ∧ MemOk 0 u.crest.sramPoison v_crest.sramPoison ∧ MemOk 0 u.crest.qbufPoison v_crest.qbufPoison
      ∧ MemOk Flaw.none u.crest.sramFlaws v_crest.sramFlaws ∧ MemOk Flaw.none u.crest.qbufFlaws v_crest.qbufFlaws) :
    Kept L s (updateOf u { u with crest := v_crest }) := by
  refine h.trans ⟨⟨fun x hx => ?_⟩, fun c => ⟨⟨c.words, c.weak, c.mem, c.poison, c.flaws, m_crest.1.wf c.sram, m_crest.2.1.wf c.qbuf, m_crest.2.2.1.wf c.sramPoison, m_crest.2.2.2.1.wf c.qbufPoison, m_crest.2.2.2.2.1.wf c.sramFlaws, m_crest.2.2.2.2.2.wf c.qbufFlaws, c.eeprom, c.held, c.latch, c.flash, c.hostMem⟩, OtpGrows.refl _⟩⟩
  cases x <;> first | rfl | (exfalso; apply hx; simpa using (by assumption : L.contains _ = true))

theorem Kept.set_items {L s u v_items} (h : Kept L s u) (h_items : L.contains .items = true) :
    Kept L s (updateOf u { u with items := v_items }) := by
  refine h.trans ⟨⟨fun x hx => ?_⟩, fun c => ⟨⟨c.words, c.weak, c.mem, c.poison, c.flaws, c.sram, c.qbuf, c.sramPoison, c.qbufPoison, c.sramFlaws, c.qbufFlaws, c.eeprom, c.held, c.latch, c.flash, c.hostMem⟩, OtpGrows.refl _⟩⟩
  cases x <;> first | rfl | (exfalso; apply hx; simpa using (by assumption : L.contains _ = true))

theorem Kept.set_sends {L s u v_sends} (h : Kept L s u) (h_sends : L.contains .sends = true) :
    Kept L s (updateOf u { u with sends := v_sends }) := by
  refine h.trans ⟨⟨fun x hx => ?_⟩, fun c => ⟨⟨c.words, c.weak, c.mem, c.poison, c.flaws, c.sram, c.qbuf, c.sramPoison, c.qbufPoison, c.sramFlaws, c.qbufFlaws, c.eeprom, c.held, c.latch, c.flash, c.hostMem⟩, OtpGrows.refl _⟩⟩
  cases x <;> first | rfl | (exfalso; apply hx; simpa using (by assumption : L.contains _ = true))

theorem Kept.set_pmsg {L s u v_pmsg} (h : Kept L s u) (h_pmsg : L.contains .pmsg = true) :
    Kept L s (updateOf u { u with pmsg := v_pmsg }) := by
  refine h.trans ⟨⟨fun x hx => ?_⟩, fun c => ⟨⟨c.words, c.weak, c.mem, c.poison, c.flaws, c.sram, c.qbuf, c.sramPoison, c.qbufPoison, c.sramFlaws, c.qbufFlaws, c.eeprom, c.held, c.latch, c.flash, c.hostMem⟩, OtpGrows.refl _⟩⟩
  cases x <;> first | rfl | (exfalso; apply hx; simpa using (by assumption : L.contains _ = true))

theorem Kept.set_start {L s u v_start} (h : Kept L s u) (h_start : L.contains .start = true) :
    Kept L s (updateOf u { u with start := v_start }) := by
  refine h.trans ⟨⟨fun x hx => ?_⟩, fun c => ⟨⟨c.words, c.weak, c.mem, c.poison, c.flaws, c.sram, c.qbuf, c.sramPoison, c.qbufPoison, c.sramFlaws, c.qbufFlaws, c.eeprom, c.held, c.latch, c.flash, c.hostMem⟩, OtpGrows.refl _⟩⟩
  cases x <;> first | rfl | (exfalso; apply hx; simpa using (by assumption : L.contains _ = true))

theorem Kept.set_flash {L s u v_flash} (h : Kept L s u) (h_flash : L.contains .flash = true)
    (m_flash : MemOk 0xFF u.flash v_flash) :
    Kept L s (updateOf u { u with flash := v_flash }) := by
  refine h.trans ⟨⟨fun x hx => ?_⟩, fun c => ⟨⟨c.words, c.weak, c.mem, c.poison, c.flaws, c.sram, c.qbuf, c.sramPoison, c.qbufPoison, c.sramFlaws, c.qbufFlaws, c.eeprom, c.held, c.latch, m_flash.wf c.flash, c.hostMem⟩, OtpGrows.refl _⟩⟩
  cases x <;> first | rfl | (exfalso; apply hx; simpa using (by assumption : L.contains _ = true))

theorem Kept.set_cornice {L s u v_cornice} (h : Kept L s u) (h_cornice : L.contains .cornice = true) :
    Kept L s (updateOf u { u with cornice := v_cornice }) := by
  refine h.trans ⟨⟨fun x hx => ?_⟩, fun c => ⟨⟨c.words, c.weak, c.mem, c.poison, c.flaws, c.sram, c.qbuf, c.sramPoison, c.qbufPoison, c.sramFlaws, c.qbufFlaws, c.eeprom, c.held, c.latch, c.flash, c.hostMem⟩, OtpGrows.refl _⟩⟩
  cases x <;> first | rfl | (exfalso; apply hx; simpa using (by assumption : L.contains _ = true))

theorem Kept.set_quads {L s u v_quads} (h : Kept L s u) (h_quads : L.contains .quads = true) :
    Kept L s (updateOf u { u with quads := v_quads }) := by
  refine h.trans ⟨⟨fun x hx => ?_⟩, fun c => ⟨⟨c.words, c.weak, c.mem, c.poison, c.flaws, c.sram, c.qbuf, c.sramPoison, c.qbufPoison, c.sramFlaws, c.qbufFlaws, c.eeprom, c.held, c.latch, c.flash, c.hostMem⟩, OtpGrows.refl _⟩⟩
  cases x <;> first | rfl | (exfalso; apply hx; simpa using (by assumption : L.contains _ = true))

theorem Kept.set_trv {L s u v_trv} (h : Kept L s u) (h_trv : L.contains .trv = true) :
    Kept L s (updateOf u { u with trv := v_trv }) := by
  refine h.trans ⟨⟨fun x hx => ?_⟩, fun c => ⟨⟨c.words, c.weak, c.mem, c.poison, c.flaws, c.sram, c.qbuf, c.sramPoison, c.qbufPoison, c.sramFlaws, c.qbufFlaws, c.eeprom, c.held, c.latch, c.flash, c.hostMem⟩, OtpGrows.refl _⟩⟩
  cases x <;> first | rfl | (exfalso; apply hx; simpa using (by assumption : L.contains _ = true))

theorem Kept.set_spur {L s u v_spur} (h : Kept L s u) (h_spur : L.contains .spur = true) :
    Kept L s (updateOf u { u with spur := v_spur }) := by
  refine h.trans ⟨⟨fun x hx => ?_⟩, fun c => ⟨⟨c.words, c.weak, c.mem, c.poison, c.flaws, c.sram, c.qbuf, c.sramPoison, c.qbufPoison, c.sramFlaws, c.qbufFlaws, c.eeprom, c.held, c.latch, c.flash, c.hostMem⟩, OtpGrows.refl _⟩⟩
  cases x <;> first | rfl | (exfalso; apply hx; simpa using (by assumption : L.contains _ = true))

theorem Kept.set_thm {L s u v_thm} (h : Kept L s u) (h_thm : L.contains .thm = true) :
    Kept L s (updateOf u { u with thm := v_thm }) := by
  refine h.trans ⟨⟨fun x hx => ?_⟩, fun c => ⟨⟨c.words, c.weak, c.mem, c.poison, c.flaws, c.sram, c.qbuf, c.sramPoison, c.qbufPoison, c.sramFlaws, c.qbufFlaws, c.eeprom, c.held, c.latch, c.flash, c.hostMem⟩, OtpGrows.refl _⟩⟩
  cases x <;> first | rfl | (exfalso; apply hx; simpa using (by assumption : L.contains _ = true))

theorem Kept.set_laser {L s u v_laser} (h : Kept L s u) (h_laser : L.contains .laser = true)
    (m_laser : MemOk 0xFF u.laser.eeprom v_laser.eeprom) :
    Kept L s (updateOf u { u with laser := v_laser }) := by
  refine h.trans ⟨⟨fun x hx => ?_⟩, fun c => ⟨⟨c.words, c.weak, c.mem, c.poison, c.flaws, c.sram, c.qbuf, c.sramPoison, c.qbufPoison, c.sramFlaws, c.qbufFlaws, m_laser.wf c.eeprom, c.held, c.latch, c.flash, c.hostMem⟩, OtpGrows.refl _⟩⟩
  cases x <;> first | rfl | (exfalso; apply hx; simpa using (by assumption : L.contains _ = true))

theorem Kept.set_spur_thm {L s u v_spur v_thm} (h : Kept L s u) (h_spur : L.contains .spur = true) (h_thm : L.contains .thm = true) :
    Kept L s (updateOf u { u with spur := v_spur, thm := v_thm }) := by
  refine h.trans ⟨⟨fun x hx => ?_⟩, fun c => ⟨⟨c.words, c.weak, c.mem, c.poison, c.flaws, c.sram, c.qbuf, c.sramPoison, c.qbufPoison, c.sramFlaws, c.qbufFlaws, c.eeprom, c.held, c.latch, c.flash, c.hostMem⟩, OtpGrows.refl _⟩⟩
  cases x <;> first | rfl | (exfalso; apply hx; simpa using (by assumption : L.contains _ = true))

theorem Kept.set_loader {L s u v_loader} (h : Kept L s u) (h_loader : L.contains .loader = true) :
    Kept L s (updateOf u { u with loader := v_loader }) := by
  refine h.trans ⟨⟨fun x hx => ?_⟩, fun c => ⟨⟨c.words, c.weak, c.mem, c.poison, c.flaws, c.sram, c.qbuf, c.sramPoison, c.qbufPoison, c.sramFlaws, c.qbufFlaws, c.eeprom, c.held, c.latch, c.flash, c.hostMem⟩, OtpGrows.refl _⟩⟩
  cases x <;> first | rfl | (exfalso; apply hx; simpa using (by assumption : L.contains _ = true))

theorem Kept.set_items_nextItem {L s u v_items v_nextItem} (h : Kept L s u) (h_items : L.contains .items = true) (h_nextItem : L.contains .nextItem = true) :
    Kept L s (updateOf u { u with items := v_items, nextItem := v_nextItem }) := by
  refine h.trans ⟨⟨fun x hx => ?_⟩, fun c => ⟨⟨c.words, c.weak, c.mem, c.poison, c.flaws, c.sram, c.qbuf, c.sramPoison, c.qbufPoison, c.sramFlaws, c.qbufFlaws, c.eeprom, c.held, c.latch, c.flash, c.hostMem⟩, OtpGrows.refl _⟩⟩
  cases x <;> first | rfl | (exfalso; apply hx; simpa using (by assumption : L.contains _ = true))

theorem Kept.set_col {L s u v_col} (h : Kept L s u) (h_col : L.contains .col = true) :
    Kept L s (updateOf u { u with col := v_col }) := by
  refine h.trans ⟨⟨fun x hx => ?_⟩, fun c => ⟨⟨c.words, c.weak, c.mem, c.poison, c.flaws, c.sram, c.qbuf, c.sramPoison, c.qbufPoison, c.sramFlaws, c.qbufFlaws, c.eeprom, c.held, c.latch, c.flash, c.hostMem⟩, OtpGrows.refl _⟩⟩
  cases x <;> first | rfl | (exfalso; apply hx; simpa using (by assumption : L.contains _ = true))

theorem Kept.set_linkHoldMs_replyMs {L s u v_linkHoldMs v_replyMs} (h : Kept L s u) (h_linkHoldMs : L.contains .linkHoldMs = true) (h_replyMs : L.contains .replyMs = true) :
    Kept L s (updateOf u { u with linkHoldMs := v_linkHoldMs, replyMs := v_replyMs }) := by
  refine h.trans ⟨⟨fun x hx => ?_⟩, fun c => ⟨⟨c.words, c.weak, c.mem, c.poison, c.flaws, c.sram, c.qbuf, c.sramPoison, c.qbufPoison, c.sramFlaws, c.qbufFlaws, c.eeprom, c.held, c.latch, c.flash, c.hostMem⟩, OtpGrows.refl _⟩⟩
  cases x <;> first | rfl | (exfalso; apply hx; simpa using (by assumption : L.contains _ = true))

theorem Kept.set_bus {L s u v_bus} (h : Kept L s u) (h_bus : L.contains .bus = true)
    (m_bus : MemOk none u.bus.held v_bus.held ∧ MemOk none u.bus.latch v_bus.latch) :
    Kept L s (updateOf u { u with bus := v_bus }) := by
  refine h.trans ⟨⟨fun x hx => ?_⟩, fun c => ⟨⟨c.words, c.weak, c.mem, c.poison, c.flaws, c.sram, c.qbuf, c.sramPoison, c.qbufPoison, c.sramFlaws, c.qbufFlaws, c.eeprom, m_bus.1.wf c.held, m_bus.2.wf c.latch, c.flash, c.hostMem⟩, OtpGrows.refl _⟩⟩
  cases x <;> first | rfl | (exfalso; apply hx; simpa using (by assumption : L.contains _ = true))

theorem Kept.set_lockLoss {L s u v_lockLoss} (h : Kept L s u) (h_lockLoss : L.contains .lockLoss = true) :
    Kept L s (updateOf u { u with lockLoss := v_lockLoss }) := by
  refine h.trans ⟨⟨fun x hx => ?_⟩, fun c => ⟨⟨c.words, c.weak, c.mem, c.poison, c.flaws, c.sram, c.qbuf, c.sramPoison, c.qbufPoison, c.sramFlaws, c.qbufFlaws, c.eeprom, c.held, c.latch, c.flash, c.hostMem⟩, OtpGrows.refl _⟩⟩
  cases x <;> first | rfl | (exfalso; apply hx; simpa using (by assumption : L.contains _ = true))

theorem Kept.set_col_laser {L s u v_col v_laser} (h : Kept L s u) (h_col : L.contains .col = true) (h_laser : L.contains .laser = true)
    (m_laser : MemOk 0xFF u.laser.eeprom v_laser.eeprom) :
    Kept L s (updateOf u { u with col := v_col, laser := v_laser }) := by
  refine h.trans ⟨⟨fun x hx => ?_⟩, fun c => ⟨⟨c.words, c.weak, c.mem, c.poison, c.flaws, c.sram, c.qbuf, c.sramPoison, c.qbufPoison, c.sramFlaws, c.qbufFlaws, m_laser.wf c.eeprom, c.held, c.latch, c.flash, c.hostMem⟩, OtpGrows.refl _⟩⟩
  cases x <;> first | rfl | (exfalso; apply hx; simpa using (by assumption : L.contains _ = true))

theorem Kept.set_pins {L s u v_pins} (h : Kept L s u) (h_pins : L.contains .pins = true) :
    Kept L s (updateOf u { u with pins := v_pins }) := by
  refine h.trans ⟨⟨fun x hx => ?_⟩, fun c => ⟨⟨c.words, c.weak, c.mem, c.poison, c.flaws, c.sram, c.qbuf, c.sramPoison, c.qbufPoison, c.sramFlaws, c.qbufFlaws, c.eeprom, c.held, c.latch, c.flash, c.hostMem⟩, OtpGrows.refl _⟩⟩
  cases x <;> first | rfl | (exfalso; apply hx; simpa using (by assumption : L.contains _ = true))

theorem Kept.set_pins_col_laser {L s u v_pins v_col v_laser} (h : Kept L s u) (h_pins : L.contains .pins = true) (h_col : L.contains .col = true) (h_laser : L.contains .laser = true)
    (m_laser : MemOk 0xFF u.laser.eeprom v_laser.eeprom) :
    Kept L s (updateOf u { u with pins := v_pins, col := v_col, laser := v_laser }) := by
  refine h.trans ⟨⟨fun x hx => ?_⟩, fun c => ⟨⟨c.words, c.weak, c.mem, c.poison, c.flaws, c.sram, c.qbuf, c.sramPoison, c.qbufPoison, c.sramFlaws, c.qbufFlaws, m_laser.wf c.eeprom, c.held, c.latch, c.flash, c.hostMem⟩, OtpGrows.refl _⟩⟩
  cases x <;> first | rfl | (exfalso; apply hx; simpa using (by assumption : L.contains _ = true))

theorem Kept.set_col_start {L s u v_col v_start} (h : Kept L s u) (h_col : L.contains .col = true) (h_start : L.contains .start = true) :
    Kept L s (updateOf u { u with col := v_col, start := v_start }) := by
  refine h.trans ⟨⟨fun x hx => ?_⟩, fun c => ⟨⟨c.words, c.weak, c.mem, c.poison, c.flaws, c.sram, c.qbuf, c.sramPoison, c.qbufPoison, c.sramFlaws, c.qbufFlaws, c.eeprom, c.held, c.latch, c.flash, c.hostMem⟩, OtpGrows.refl _⟩⟩
  cases x <;> first | rfl | (exfalso; apply hx; simpa using (by assumption : L.contains _ = true))

theorem Kept.set_pins_col_start {L s u v_pins v_col v_start} (h : Kept L s u) (h_pins : L.contains .pins = true) (h_col : L.contains .col = true) (h_start : L.contains .start = true) :
    Kept L s (updateOf u { u with pins := v_pins, col := v_col, start := v_start }) := by
  refine h.trans ⟨⟨fun x hx => ?_⟩, fun c => ⟨⟨c.words, c.weak, c.mem, c.poison, c.flaws, c.sram, c.qbuf, c.sramPoison, c.qbufPoison, c.sramFlaws, c.qbufFlaws, c.eeprom, c.held, c.latch, c.flash, c.hostMem⟩, OtpGrows.refl _⟩⟩
  cases x <;> first | rfl | (exfalso; apply hx; simpa using (by assumption : L.contains _ = true))

theorem Kept.set_col_start_spur_thm {L s u v_col v_start v_spur v_thm} (h : Kept L s u) (h_col : L.contains .col = true) (h_start : L.contains .start = true) (h_spur : L.contains .spur = true) (h_thm : L.contains .thm = true) :
    Kept L s (updateOf u { u with col := v_col, start := v_start, spur := v_spur, thm := v_thm }) := by
  refine h.trans ⟨⟨fun x hx => ?_⟩, fun c => ⟨⟨c.words, c.weak, c.mem, c.poison, c.flaws, c.sram, c.qbuf, c.sramPoison, c.qbufPoison, c.sramFlaws, c.qbufFlaws, c.eeprom, c.held, c.latch, c.flash, c.hostMem⟩, OtpGrows.refl _⟩⟩
  cases x <;> first | rfl | (exfalso; apply hx; simpa using (by assumption : L.contains _ = true))

theorem Kept.set_items_sends {L s u v_items v_sends} (h : Kept L s u) (h_items : L.contains .items = true) (h_sends : L.contains .sends = true) :
    Kept L s (updateOf u { u with items := v_items, sends := v_sends }) := by
  refine h.trans ⟨⟨fun x hx => ?_⟩, fun c => ⟨⟨c.words, c.weak, c.mem, c.poison, c.flaws, c.sram, c.qbuf, c.sramPoison, c.qbufPoison, c.sramFlaws, c.qbufFlaws, c.eeprom, c.held, c.latch, c.flash, c.hostMem⟩, OtpGrows.refl _⟩⟩
  cases x <;> first | rfl | (exfalso; apply hx; simpa using (by assumption : L.contains _ = true))

theorem Kept.set_ret {L s u v_ret} (h : Kept L s u) (h_ret : L.contains .ret = true) :
    Kept L s (updateOf u { u with ret := v_ret }) := by
  refine h.trans ⟨⟨fun x hx => ?_⟩, fun c => ⟨⟨c.words, c.weak, c.mem, c.poison, c.flaws, c.sram, c.qbuf, c.sramPoison, c.qbufPoison, c.sramFlaws, c.qbufFlaws, c.eeprom, c.held, c.latch, c.flash, c.hostMem⟩, OtpGrows.refl _⟩⟩
  cases x <;> first | rfl | (exfalso; apply hx; simpa using (by assumption : L.contains _ = true))

theorem Kept.set_start_mbx_pfMsix_trv {L s u v_start v_mbx v_pfMsix v_trv} (h : Kept L s u) (h_start : L.contains .start = true) (h_mbx : L.contains .mbx = true) (h_pfMsix : L.contains .pfMsix = true) (h_trv : L.contains .trv = true) :
    Kept L s (updateOf u { u with start := v_start, mbx := v_mbx, pfMsix := v_pfMsix, trv := v_trv }) := by
  refine h.trans ⟨⟨fun x hx => ?_⟩, fun c => ⟨⟨c.words, c.weak, c.mem, c.poison, c.flaws, c.sram, c.qbuf, c.sramPoison, c.qbufPoison, c.sramFlaws, c.qbufFlaws, c.eeprom, c.held, c.latch, c.flash, c.hostMem⟩, OtpGrows.refl _⟩⟩
  cases x <;> first | rfl | (exfalso; apply hx; simpa using (by assumption : L.contains _ = true))

theorem Kept.set_committed_str {L s u v_committed v_str} (h : Kept L s u) (h_committed : L.contains .committed = true) (h_str : L.contains .str = true) :
    Kept L s (updateOf u { u with committed := v_committed, str := v_str }) := by
  refine h.trans ⟨⟨fun x hx => ?_⟩, fun c => ⟨⟨c.words, c.weak, c.mem, c.poison, c.flaws, c.sram, c.qbuf, c.sramPoison, c.qbufPoison, c.sramFlaws, c.qbufFlaws, c.eeprom, c.held, c.latch, c.flash, c.hostMem⟩, OtpGrows.refl _⟩⟩
  cases x <;> first | rfl | (exfalso; apply hx; simpa using (by assumption : L.contains _ = true))

theorem Kept.set_turns {L s u v_turns} (h : Kept L s u) (h_turns : L.contains .turns = true) :
    Kept L s (updateOf u { u with turns := v_turns }) := by
  refine h.trans ⟨⟨fun x hx => ?_⟩, fun c => ⟨⟨c.words, c.weak, c.mem, c.poison, c.flaws, c.sram, c.qbuf, c.sramPoison, c.qbufPoison, c.sramFlaws, c.qbufFlaws, c.eeprom, c.held, c.latch, c.flash, c.hostMem⟩, OtpGrows.refl _⟩⟩
  cases x <;> first | rfl | (exfalso; apply hx; simpa using (by assumption : L.contains _ = true))

theorem Kept.set_loader_ret {L s u v_loader v_ret} (h : Kept L s u) (h_loader : L.contains .loader = true) (h_ret : L.contains .ret = true) :
    Kept L s (updateOf u { u with loader := v_loader, ret := v_ret }) := by
  refine h.trans ⟨⟨fun x hx => ?_⟩, fun c => ⟨⟨c.words, c.weak, c.mem, c.poison, c.flaws, c.sram, c.qbuf, c.sramPoison, c.qbufPoison, c.sramFlaws, c.qbufFlaws, c.eeprom, c.held, c.latch, c.flash, c.hostMem⟩, OtpGrows.refl _⟩⟩
  cases x <;> first | rfl | (exfalso; apply hx; simpa using (by assumption : L.contains _ = true))

theorem Kept.set_nextMid {L s u v_nextMid} (h : Kept L s u) (h_nextMid : L.contains .nextMid = true) :
    Kept L s (updateOf u { u with nextMid := v_nextMid }) := by
  refine h.trans ⟨⟨fun x hx => ?_⟩, fun c => ⟨⟨c.words, c.weak, c.mem, c.poison, c.flaws, c.sram, c.qbuf, c.sramPoison, c.qbufPoison, c.sramFlaws, c.qbufFlaws, c.eeprom, c.held, c.latch, c.flash, c.hostMem⟩, OtpGrows.refl _⟩⟩
  cases x <;> first | rfl | (exfalso; apply hx; simpa using (by assumption : L.contains _ = true))

end Sys2Proof.Machine
end

