-- ==== Sys2Proof/Laws/Ops.lean ====
section
/-! SUPPORT. What each operation of Machine/Ops.lean may change (`Kept`): the parts of the state, listed; every memory stays canonical,
and no bit of Cairn is cleared. -/

set_option linter.unusedTactic false
set_option linter.unreachableTactic false

namespace Sys2Proof.Machine

theorem State.hostWritePf_kept {s : State} {a : Nat} {bs : List Byte}
    {L₀ t₀} (h₀ : Kept L₀ t₀ s) (hs₀ : sliceSub [.hostMem] L₀ = true) :
    Kept L₀ t₀ (State.hostWritePf s a bs) := by
  refine h₀.step (M := [.hostMem]) ?_ hs₀
  clear h₀ hs₀ t₀ L₀
  unfold State.hostWritePf
  repeat' (first | (with_reducible exact Kept.refl _ _) | (rewrite [updateOf_eq]; (with_reducible refine Kept.set_hostMem ?_ ?h0 ?m0); (case h0 => exact rfl); (case m0 => exact ⟨spWrite_wf⟩)))

theorem State.signalPf_kept {s : State} {v : Fin 32}
    {L₀ t₀} (h₀ : Kept L₀ t₀ s) (hs₀ : sliceSub [.pfMsix, .irqs] L₀ = true) :
    Kept L₀ t₀ (State.signalPf s v) := by
  refine h₀.step (M := [.pfMsix, .irqs]) ?_ hs₀
  clear h₀ hs₀ t₀ L₀
  unfold State.signalPf
  repeat' (first | (with_reducible exact Kept.refl _ _) | (rewrite [updateOf_eq]; (with_reducible refine Kept.set_irqs ?_ ?h0); (case h0 => exact rfl)) | (rewrite [updateOf_eq]; (with_reducible refine Kept.set_pfMsix ?_ ?h0); (case h0 => exact rfl)) | (extract_lets +onlyGivenNames x; have : x.2 = x.2 := rfl; clear this; subst x) | (with_reducible refine Kept.ite (fun _ => ?_) (fun _ => ?_)))

theorem State.draw_kept {s : State}
    {L₀ t₀} (h₀ : Kept L₀ t₀ s) (hs₀ : sliceSub [.free] L₀ = true) :
    Kept L₀ t₀ (State.draw s).2 := by
  refine h₀.step (M := [.free]) ?_ hs₀
  clear h₀ hs₀ t₀ L₀
  unfold State.draw
  repeat' (first | (with_reducible exact Kept.refl _ _) | (rewrite [updateOf_eq]; (with_reducible refine Kept.set_free ?_ ?h0); (case h0 => exact rfl)))

theorem State.draw_kept_eq {s : State} {r0₀} {L₀ t₀ r₀} (h₀ : Kept L₀ t₀ s) (hs₀ : sliceSub [.free] L₀ = true)
    (e₀ : State.draw s = (r0₀, r₀)) : Kept L₀ t₀ r₀ := by
  have k := State.draw_kept (s := s) h₀ hs₀
  rw [e₀] at k; exact k

theorem State.logWrite_kept {s : State} {e : LogEnt}
    {L₀ t₀} (h₀ : Kept L₀ t₀ s) (hs₀ : sliceSub [.pfMsix, .irqs, .ras] L₀ = true) :
    Kept L₀ t₀ (State.logWrite s e) := by
  refine h₀.step (M := [.pfMsix, .irqs, .ras]) ?_ hs₀
  clear h₀ hs₀ t₀ L₀
  unfold State.logWrite
  repeat' (first | (with_reducible exact Kept.refl _ _) | (rewrite [updateOf_eq]; (with_reducible refine Kept.set_ras ?_ ?h0); (case h0 => exact rfl)) | (extract_lets +onlyGivenNames x; have : x.2 = x.2 := rfl; clear this; subst x) | (extract_lets +onlyGivenNames x; clear_value x) | (with_reducible refine Kept.ite (fun _ => ?_) (fun _ => ?_)) | ((with_reducible apply State.signalPf_kept); on_goal 2 => exact rfl))

theorem State.log_kept {s : State} {cls : Fin 4} {block : Nat} {event : Nat} {detail : Nat} {part : Option Part} {status : Nat} {addr : Bool} {step : Option (Nat × Nat)}
    {L₀ t₀} (h₀ : Kept L₀ t₀ s) (hs₀ : sliceSub [.pfMsix, .irqs, .ras] L₀ = true) :
    Kept L₀ t₀ (State.log s cls block event detail part status addr step) := by
  refine h₀.step (M := [.pfMsix, .irqs, .ras]) ?_ hs₀
  clear h₀ hs₀ t₀ L₀
  unfold State.log
  repeat' (first | (with_reducible exact Kept.refl _ _) | (rewrite [updateOf_eq]; (with_reducible refine Kept.set_ras ?_ ?h0); (case h0 => exact rfl)) | (extract_lets +onlyGivenNames x; have : x.2 = x.2 := rfl; clear this; subst x) | (with_reducible refine Kept.ite (fun _ => ?_) (fun _ => ?_)) | ((with_reducible apply State.logWrite_kept); on_goal 2 => exact rfl))

theorem State.setPort_kept {s : State} {p : Port} {f : PortSt → PortSt}
    {L₀ t₀} (h₀ : Kept L₀ t₀ s) (hs₀ : sliceSub [.ports] L₀ = true) :
    Kept L₀ t₀ (State.setPort s p f) := by
  refine h₀.step (M := [.ports]) ?_ hs₀
  clear h₀ hs₀ t₀ L₀
  unfold State.setPort
  repeat' (first | (with_reducible exact Kept.refl _ _) | (rewrite [updateOf_eq]; (with_reducible refine Kept.set_ports ?_ ?h0); (case h0 => exact rfl)))

theorem State.setLink_kept {s : State} {p : Port} {f : LinkSt → LinkSt}
    {L₀ t₀} (h₀ : Kept L₀ t₀ s) (hs₀ : sliceSub [.links] L₀ = true) :
    Kept L₀ t₀ (State.setLink s p f) := by
  refine h₀.step (M := [.links]) ?_ hs₀
  clear h₀ hs₀ t₀ L₀
  unfold State.setLink
  repeat' (first | (with_reducible exact Kept.refl _ _) | (rewrite [updateOf_eq]; (with_reducible refine Kept.set_links ?_ ?h0); (case h0 => exact rfl)))

theorem State.setPart_kept {s : State} {p : Part} {f : PartRt → PartRt}
    {L₀ t₀} (h₀ : Kept L₀ t₀ s) (hs₀ : sliceSub [.parts] L₀ = true) :
    Kept L₀ t₀ (State.setPart s p f) := by
  refine h₀.step (M := [.parts]) ?_ hs₀
  clear h₀ hs₀ t₀ L₀
  unfold State.setPart
  repeat' (first | (with_reducible exact Kept.refl _ _) | (rewrite [updateOf_eq]; (with_reducible refine Kept.set_parts ?_ ?h0); (case h0 => exact rfl)))

theorem State.setVf_kept {s : State} {p : Part} {f : Vf → Vf}
    {L₀ t₀} (h₀ : Kept L₀ t₀ s) (hs₀ : sliceSub [.vfs] L₀ = true) :
    Kept L₀ t₀ (State.setVf s p f) := by
  refine h₀.step (M := [.vfs]) ?_ hs₀
  clear h₀ hs₀ t₀ L₀
  unfold State.setVf
  repeat' (first | (with_reducible exact Kept.refl _ _) | (rewrite [updateOf_eq]; (with_reducible refine Kept.set_vfs ?_ ?h0); (case h0 => exact rfl)))

theorem State.hostWrite_kept {s : State} {p : Part} {a : Nat} {bs : List Byte}
    {L₀ t₀} (h₀ : Kept L₀ t₀ s) (hs₀ : sliceSub [.vfs, .hostMem] L₀ = true) :
    Kept L₀ t₀ (State.hostWrite s p a bs) := by
  refine h₀.step (M := [.vfs, .hostMem]) ?_ hs₀
  clear h₀ hs₀ t₀ L₀
  unfold State.hostWrite
  repeat' (first | (with_reducible exact Kept.refl _ _) | (with_reducible refine Kept.ite (fun _ => ?_) (fun _ => ?_)) | ((with_reducible apply State.hostWritePf_kept); on_goal 2 => exact rfl) | ((with_reducible apply State.setVf_kept); on_goal 2 => exact rfl))

theorem State.setChan_kept {s : State} {c : Chan} {f : ChanSt → ChanSt}
    {L₀ t₀} (h₀ : Kept L₀ t₀ s) (hs₀ : sliceSub [.dram] L₀ = true) :
    Kept L₀ t₀ (State.setChan s c f) := by
  refine h₀.step (M := [.dram]) ?_ hs₀
  clear h₀ hs₀ t₀ L₀
  unfold State.setChan
  repeat' (first | (with_reducible exact Kept.refl _ _) | (rewrite [updateOf_eq]; (with_reducible refine Kept.set_dram ?_ ?h0 ?m0); (case h0 => exact rfl); (case m0 => exact ⟨MemOk.same rfl, MemOk.same rfl, MemOk.same rfl⟩)))

theorem State.signalVf_kept {s : State} {p : Part} {v : Fin 16}
    {L₀ t₀} (h₀ : Kept L₀ t₀ s) (hs₀ : sliceSub [.vfs, .irqs] L₀ = true) :
    Kept L₀ t₀ (State.signalVf s p v) := by
  refine h₀.step (M := [.vfs, .irqs]) ?_ hs₀
  clear h₀ hs₀ t₀ L₀
  unfold State.signalVf
  repeat' (first | (with_reducible exact Kept.refl _ _) | (rewrite [updateOf_eq]; (with_reducible refine Kept.set_irqs ?_ ?h0); (case h0 => exact rfl)) | (extract_lets +onlyGivenNames x; have : x.2 = x.2 := rfl; clear this; subst x) | (with_reducible refine Kept.ite (fun _ => ?_) (fun _ => ?_)) | ((with_reducible apply State.setVf_kept); on_goal 2 => exact rfl))

theorem State.event_kept {s : State} {p : Part}
    {L₀ t₀} (h₀ : Kept L₀ t₀ s) (hs₀ : sliceSub [.vfs, .irqs] L₀ = true) :
    Kept L₀ t₀ (State.event s p) := by
  refine h₀.step (M := [.vfs, .irqs]) ?_ hs₀
  clear h₀ hs₀ t₀ L₀
  unfold State.event
  repeat' (first | (with_reducible exact Kept.refl _ _) | (with_reducible refine Kept.ite (fun _ => ?_) (fun _ => ?_)) | ((with_reducible apply State.signalVf_kept); on_goal 2 => exact rfl))

theorem State.setCq_kept {s : State} {q : Quad} {f : QuadSt → QuadSt}
    {L₀ t₀} (h₀ : Kept L₀ t₀ s) (hs₀ : sliceSub [.crest] L₀ = true) :
    Kept L₀ t₀ (State.setCq s q f) := by
  refine h₀.step (M := [.crest]) ?_ hs₀
  clear h₀ hs₀ t₀ L₀
  unfold State.setCq
  repeat' (first | (with_reducible exact Kept.refl _ _) | (rewrite [updateOf_eq]; (with_reducible refine Kept.set_crest ?_ ?h0 ?m0); (case h0 => exact rfl); (case m0 => exact ⟨MemOk.same rfl, MemOk.same rfl, MemOk.same rfl, MemOk.same rfl, MemOk.same rfl, MemOk.same rfl⟩)))

theorem State.flashErase_kept {s : State} {a : Nat} {n : Nat}
    {L₀ t₀} (h₀ : Kept L₀ t₀ s) (hs₀ : sliceSub [.flash] L₀ = true) :
    Kept L₀ t₀ (State.flashErase s a n) := by
  refine h₀.step (M := [.flash]) ?_ hs₀
  clear h₀ hs₀ t₀ L₀
  unfold State.flashErase
  repeat' (first | (with_reducible exact Kept.refl _ _) | (rewrite [updateOf_eq]; (with_reducible refine Kept.set_flash ?_ ?h0 ?m0); (case h0 => exact rfl); (case m0 => exact ⟨spClear_wf⟩)))

theorem State.flashProgram_kept {s : State} {a : Nat} {bs : List Byte}
    {L₀ t₀} (h₀ : Kept L₀ t₀ s) (hs₀ : sliceSub [.flash] L₀ = true) :
    Kept L₀ t₀ (State.flashProgram s a bs) := by
  refine h₀.step (M := [.flash]) ?_ hs₀
  clear h₀ hs₀ t₀ L₀
  unfold State.flashProgram
  repeat' (first | (with_reducible exact Kept.refl _ _) | (rewrite [updateOf_eq]; (with_reducible refine Kept.set_flash ?_ ?h0 ?m0); (case h0 => exact rfl); (case m0 => exact ⟨spWriteD_wf⟩)))

theorem State.setEng_kept {s : State} {e : Quad} {f : EngineSt → EngineSt}
    {L₀ t₀} (h₀ : Kept L₀ t₀ s) (hs₀ : sliceSub [.cornice] L₀ = true) :
    Kept L₀ t₀ (State.setEng s e f) := by
  refine h₀.step (M := [.cornice]) ?_ hs₀
  clear h₀ hs₀ t₀ L₀
  unfold State.setEng
  repeat' (first | (with_reducible exact Kept.refl _ _) | (rewrite [updateOf_eq]; (with_reducible refine Kept.set_cornice ?_ ?h0); (case h0 => exact rfl)))

theorem State.setQ_kept {s : State} {q : Quad} {f : QuadClk → QuadClk}
    {L₀ t₀} (h₀ : Kept L₀ t₀ s) (hs₀ : sliceSub [.quads] L₀ = true) :
    Kept L₀ t₀ (State.setQ s q f) := by
  refine h₀.step (M := [.quads]) ?_ hs₀
  clear h₀ hs₀ t₀ L₀
  unfold State.setQ
  repeat' (first | (with_reducible exact Kept.refl _ _) | (rewrite [updateOf_eq]; (with_reducible refine Kept.set_quads ?_ ?h0); (case h0 => exact rfl)))

theorem State.setSpurPart_kept {s : State} {p : Part} {f : SpurPart → SpurPart}
    {L₀ t₀} (h₀ : Kept L₀ t₀ s) (hs₀ : sliceSub [.spur] L₀ = true) :
    Kept L₀ t₀ (State.setSpurPart s p f) := by
  refine h₀.step (M := [.spur]) ?_ hs₀
  clear h₀ hs₀ t₀ L₀
  unfold State.setSpurPart
  repeat' (first | (with_reducible exact Kept.refl _ _) | (rewrite [updateOf_eq]; (with_reducible refine Kept.set_spur ?_ ?h0); (case h0 => exact rfl)))

theorem State.setLaser_kept {s : State} {n : Fin 20} {f : LaserSt → LaserSt}
    {L₀ t₀} (h₀ : Kept L₀ t₀ s) (hs₀ : sliceSub [.laser] L₀ = true) :
    Kept L₀ t₀ (State.setLaser s n f) := by
  refine h₀.step (M := [.laser]) ?_ hs₀
  clear h₀ hs₀ t₀ L₀
  unfold State.setLaser
  repeat' (first | (with_reducible exact Kept.refl _ _) | (rewrite [updateOf_eq]; (with_reducible refine Kept.set_laser ?_ ?h0 ?m0); (case h0 => exact rfl); (case m0 => exact MemOk.same rfl)))

theorem State.setQueue_kept {s : State} {p : Part} {q : Queue} {f : QueueSt → QueueSt}
    {L₀ t₀} (h₀ : Kept L₀ t₀ s) (hs₀ : sliceSub [.vfs] L₀ = true) :
    Kept L₀ t₀ (State.setQueue s p q f) := by
  refine h₀.step (M := [.vfs]) ?_ hs₀
  clear h₀ hs₀ t₀ L₀
  unfold State.setQueue
  repeat' (first | (with_reducible exact Kept.refl _ _) | ((with_reducible apply State.setVf_kept); on_goal 2 => exact rfl))

theorem State.setStack_kept {s : State} {k : Stack} {f : StackSt → StackSt}
    {L₀ t₀} (h₀ : Kept L₀ t₀ s) (hs₀ : sliceSub [.dram] L₀ = true) :
    Kept L₀ t₀ (State.setStack s k f) := by
  refine h₀.step (M := [.dram]) ?_ hs₀
  clear h₀ hs₀ t₀ L₀
  unfold State.setStack
  repeat' (first | (with_reducible exact Kept.refl _ _) | (rewrite [updateOf_eq]; (with_reducible refine Kept.set_dram ?_ ?h0 ?m0); (case h0 => exact rfl); (case m0 => exact ⟨MemOk.same rfl, MemOk.same rfl, MemOk.same rfl⟩)))

theorem State.setPhase_kept {s : State} {ph : Phase}
    {L₀ t₀} (h₀ : Kept L₀ t₀ s) (hs₀ : sliceSub [.start] L₀ = true) :
    Kept L₀ t₀ (State.setPhase s ph) := by
  refine h₀.step (M := [.start]) ?_ hs₀
  clear h₀ hs₀ t₀ L₀
  unfold State.setPhase
  repeat' (first | (with_reducible exact Kept.refl _ _) | (rewrite [updateOf_eq]; (with_reducible refine Kept.set_start ?_ ?h0); (case h0 => exact rfl)))

theorem State.queueError_kept {s : State} {p : Part}
    {L₀ t₀} (h₀ : Kept L₀ t₀ s) (hs₀ : sliceSub [.vfs, .irqs] L₀ = true) :
    Kept L₀ t₀ (State.queueError s p) := by
  refine h₀.step (M := [.vfs, .irqs]) ?_ hs₀
  clear h₀ hs₀ t₀ L₀
  unfold State.queueError
  repeat' (first | (with_reducible exact Kept.refl _ _) | ((with_reducible apply State.event_kept); on_goal 2 => exact rfl) | ((with_reducible apply State.setVf_kept); on_goal 2 => exact rfl))

theorem State.logFlush_kept {s : State}
    {L₀ t₀} (h₀ : Kept L₀ t₀ s) (hs₀ : sliceSub [.pfMsix, .irqs, .ras] L₀ = true) :
    Kept L₀ t₀ (State.logFlush s) := by
  refine h₀.step (M := [.pfMsix, .irqs, .ras]) ?_ hs₀
  clear h₀ hs₀ t₀ L₀
  unfold State.logFlush
  repeat' (first | (with_reducible exact Kept.refl _ _) | (with_reducible assumption) | (rewrite [updateOf_eq]; (with_reducible refine Kept.set_ras ?_ ?h0); (case h0 => exact rfl)) | (extract_lets +onlyGivenNames x; have : x.2 = x.2 := rfl; clear this; subst x) | (extract_lets +onlyGivenNames x; clear_value x) | (with_reducible refine Kept.ite (fun _ => ?_) (fun _ => ?_)) | ((with_reducible apply State.logWrite_kept); on_goal 2 => exact rfl) | ((with_reducible refine Kept.each ?_ (fun _ _ _ => ?_))))

theorem State.setLedger_kept {s : State} {k : Stack} {f : LedgerSt → LedgerSt}
    {L₀ t₀} (h₀ : Kept L₀ t₀ s) (hs₀ : sliceSub [.spur] L₀ = true) :
    Kept L₀ t₀ (State.setLedger s k f) := by
  refine h₀.step (M := [.spur]) ?_ hs₀
  clear h₀ hs₀ t₀ L₀
  unfold State.setLedger
  repeat' (first | (with_reducible exact Kept.refl _ _) | (rewrite [updateOf_eq]; (with_reducible refine Kept.set_spur ?_ ?h0); (case h0 => exact rfl)))

theorem State.setGroup_kept {s : State} {g : Group} {f : GroupSt → GroupSt}
    {L₀ t₀} (h₀ : Kept L₀ t₀ s) (hs₀ : sliceSub [.spur] L₀ = true) :
    Kept L₀ t₀ (State.setGroup s g f) := by
  refine h₀.step (M := [.spur]) ?_ hs₀
  clear h₀ hs₀ t₀ L₀
  unfold State.setGroup
  repeat' (first | (with_reducible exact Kept.refl _ _) | (rewrite [updateOf_eq]; (with_reducible refine Kept.set_spur ?_ ?h0); (case h0 => exact rfl)))

end Sys2Proof.Machine
end

