-- ==== Sys2Proof/Laws/DramOps.lean ====
section
/-! SUPPORT. What each operation of Machine/DramOps.lean may change (`Kept`): the parts of the state, listed; every memory stays canonical,
and no bit of Cairn is cleared. -/

set_option linter.unusedTactic false
set_option linter.unreachableTactic false

namespace Sys2Proof.Machine

theorem State.writeLand_kept {s : State} {c : Chan}
    {L₀ t₀} (h₀ : Kept L₀ t₀ s) (hs₀ : sliceSub [.dram] L₀ = true) :
    Kept L₀ t₀ (State.writeLand s c) := by
  refine h₀.step (M := [.dram]) ?_ hs₀
  clear h₀ hs₀ t₀ L₀
  unfold State.writeLand
  repeat' (first | (with_reducible exact Kept.refl _ _) | ((with_reducible apply State.setChan_kept); on_goal 2 => exact rfl))

theorem State.setColPoison_kept {s : State} {loc : Nat} {v : Nat}
    {L₀ t₀} (h₀ : Kept L₀ t₀ s) (hs₀ : sliceSub [.dram] L₀ = true) :
    Kept L₀ t₀ (State.setColPoison s loc v) := by
  refine h₀.step (M := [.dram]) ?_ hs₀
  clear h₀ hs₀ t₀ L₀
  unfold State.setColPoison
  repeat' (first | (with_reducible exact Kept.refl _ _) | (rewrite [updateOf_eq]; (with_reducible refine Kept.set_dram ?_ ?h0 ?m0); (case h0 => exact rfl); (case m0 => refine ⟨?_, ?_, ?_⟩ <;> first | exact MemOk.same rfl | exact ⟨spSet_wf⟩ | exact ⟨spClear_wf⟩ | exact ⟨spWrite_wf⟩ | exact ⟨spMarks_wf⟩ | (split <;> first | exact MemOk.same rfl | exact ⟨spSet_wf⟩ | exact ⟨spClear_wf⟩ | exact ⟨spWrite_wf⟩ | exact ⟨spMarks_wf⟩))))

theorem State.clearFlaws_kept {s : State} {loc : Nat}
    {L₀ t₀} (h₀ : Kept L₀ t₀ s) (hs₀ : sliceSub [.dram] L₀ = true) :
    Kept L₀ t₀ (State.clearFlaws s loc) := by
  refine h₀.step (M := [.dram]) ?_ hs₀
  clear h₀ hs₀ t₀ L₀
  unfold State.clearFlaws
  repeat' (first | (with_reducible exact Kept.refl _ _) | (rewrite [updateOf_eq]; (with_reducible refine Kept.set_dram ?_ ?h0 ?m0); (case h0 => exact rfl); (case m0 => refine ⟨?_, ?_, ?_⟩ <;> first | exact MemOk.same rfl | exact ⟨spSet_wf⟩ | exact ⟨spClear_wf⟩ | exact ⟨spWrite_wf⟩ | exact ⟨spMarks_wf⟩ | (split <;> first | exact MemOk.same rfl | exact ⟨spSet_wf⟩ | exact ⟨spClear_wf⟩ | exact ⟨spWrite_wf⟩ | exact ⟨spMarks_wf⟩))))

theorem State.ueFound_kept {s : State} {loc : Nat} {ev : Nat} {part : Option Part} {step : Option (Nat × Nat)}
    {L₀ t₀} (h₀ : Kept L₀ t₀ s) (hs₀ : sliceSub [.pfMsix, .irqs, .dram, .ras] L₀ = true) :
    Kept L₀ t₀ (State.ueFound s loc ev part step) := by
  refine h₀.step (M := [.pfMsix, .irqs, .dram, .ras]) ?_ hs₀
  clear h₀ hs₀ t₀ L₀
  unfold State.ueFound
  repeat' (first | (with_reducible exact Kept.refl _ _) | (rewrite [updateOf_eq]; (with_reducible refine Kept.set_dram ?_ ?h0 ?m0); (case h0 => exact rfl); (case m0 => exact ⟨MemOk.same rfl, MemOk.same rfl, MemOk.same rfl⟩)) | (extract_lets +onlyGivenNames x; have : DramSt := x; clear this; subst x) | (extract_lets +onlyGivenNames x; have : x.2 = x.2 := rfl; clear this; subst x) | (extract_lets +onlyGivenNames x; clear_value x) | ((with_reducible apply State.setChan_kept); on_goal 2 => exact rfl) | ((with_reducible apply State.log_kept); on_goal 2 => exact rfl))

theorem State.colWrite_kept {s : State} {loc : Nat} {o : Nat} {bs : List Byte} {pz : Nat} {part : Option Part} {step : Option (Nat × Nat)}
    {L₀ t₀} (h₀ : Kept L₀ t₀ s) (hs₀ : sliceSub [.pfMsix, .irqs, .dram, .ras] L₀ = true) :
    Kept L₀ t₀ (State.colWrite s loc o bs pz part step) := by
  refine h₀.step (M := [.pfMsix, .irqs, .dram, .ras]) ?_ hs₀
  clear h₀ hs₀ t₀ L₀
  unfold State.colWrite
  repeat' (first | (with_reducible exact Kept.refl _ _) | (rewrite [updateOf_eq]; (with_reducible refine Kept.set_dram ?_ ?h0 ?m0); (case h0 => exact rfl); (case m0 => refine ⟨?_, ?_, ?_⟩ <;> first | exact MemOk.same rfl | exact ⟨spSet_wf⟩ | exact ⟨spClear_wf⟩ | exact ⟨spWrite_wf⟩ | exact ⟨spMarks_wf⟩ | (split <;> first | exact MemOk.same rfl | exact ⟨spSet_wf⟩ | exact ⟨spClear_wf⟩ | exact ⟨spWrite_wf⟩ | exact ⟨spMarks_wf⟩))) | (extract_lets +onlyGivenNames x; have : DramSt := x; clear this; subst x) | (extract_lets +onlyGivenNames x; have : x.2 = x.2 := rfl; clear this; subst x) | (extract_lets +onlyGivenNames x; have : x = fun a => x a := rfl; clear this; subst x; beta_reduce) | (extract_lets +onlyGivenNames x; clear_value x) | (with_reducible refine Kept.ite (fun _ => ?_) (fun _ => ?_)) | ((with_reducible apply State.writeLand_kept); on_goal 2 => exact rfl) | ((with_reducible apply State.setColPoison_kept); on_goal 2 => exact rfl) | ((with_reducible apply State.clearFlaws_kept); on_goal 2 => exact rfl) | ((with_reducible apply State.ueFound_kept); on_goal 2 => exact rfl) | ((with_reducible apply State.setChan_kept); on_goal 2 => exact rfl))

theorem State.colsWrite_kept {s : State} {pz part step l bs L t} (h : Kept L t s)
    (hs : sliceSub [.pfMsix, .irqs, .dram, .ras] L = true) : Kept L t (s.colsWrite pz part step l bs) := by
  refine h.step (M := [.pfMsix, .irqs, .dram, .ras]) ?_ hs
  clear h hs t L
  induction l generalizing s bs with
  | nil => unfold State.colsWrite; exact Kept.refl _ _
  | cons a r ih =>
    obtain ⟨A, o, n⟩ := a
    unfold State.colsWrite
    dsimp only
    refine Kept.trans ?_ ih
    split
    · exact Kept.refl _ _
    · exact State.colWrite_kept (Kept.refl _ _) rfl

theorem State.memWrite_kept {s : State} {a : Nat} {bs : List Byte} {pz : Nat} {part : Option Part} {step : Option (Nat × Nat)}
    {L₀ t₀} (h₀ : Kept L₀ t₀ s) (hs₀ : sliceSub [.pfMsix, .irqs, .dram, .ras] L₀ = true) :
    Kept L₀ t₀ (State.memWrite s a bs pz part step) := by
  refine h₀.step (M := [.pfMsix, .irqs, .dram, .ras]) ?_ hs₀
  clear h₀ hs₀ t₀ L₀
  unfold State.memWrite
  repeat' (first | (with_reducible exact Kept.refl _ _) | ((with_reducible apply State.colsWrite_kept); on_goal 2 => exact rfl))

theorem State.winWrite_kept {s : State} {p : Part} {o : Nat} {bs : List Byte} {pz : Nat} {step : Option (Nat × Nat)}
    {L₀ t₀} (h₀ : Kept L₀ t₀ s) (hs₀ : sliceSub [.pfMsix, .irqs, .dram, .ras] L₀ = true) :
    Kept L₀ t₀ (State.winWrite s p o bs pz step) := by
  refine h₀.step (M := [.pfMsix, .irqs, .dram, .ras]) ?_ hs₀
  clear h₀ hs₀ t₀ L₀
  unfold State.winWrite
  repeat' (first | (with_reducible exact Kept.refl _ _) | ((with_reducible apply State.memWrite_kept); on_goal 2 => exact rfl) | split)

theorem State.readSeen_kept {s : State} {c : Chan}
    {L₀ t₀} (h₀ : Kept L₀ t₀ s) (hs₀ : sliceSub [.dram] L₀ = true) :
    Kept L₀ t₀ (State.readSeen s c) := by
  refine h₀.step (M := [.dram]) ?_ hs₀
  clear h₀ hs₀ t₀ L₀
  unfold State.readSeen
  repeat' (first | (with_reducible exact Kept.refl _ _) | ((with_reducible apply State.setChan_kept); on_goal 2 => exact rfl))

theorem State.markSeen_kept {s : State} {loc : Nat}
    {L₀ t₀} (h₀ : Kept L₀ t₀ s) (hs₀ : sliceSub [.dram] L₀ = true) :
    Kept L₀ t₀ (State.markSeen s loc) := by
  refine h₀.step (M := [.dram]) ?_ hs₀
  clear h₀ hs₀ t₀ L₀
  unfold State.markSeen
  repeat' (first | (with_reducible exact Kept.refl _ _) | (with_reducible assumption) | (rewrite [updateOf_eq]; (with_reducible refine Kept.set_dram ?_ ?h0 ?m0); (case h0 => exact rfl); (case m0 => refine ⟨?_, ?_, ?_⟩ <;> first | exact MemOk.same rfl | exact ⟨spSet_wf⟩ | exact ⟨spClear_wf⟩ | exact ⟨spWrite_wf⟩ | exact ⟨spMarks_wf⟩ | (split <;> first | exact MemOk.same rfl | exact ⟨spSet_wf⟩ | exact ⟨spClear_wf⟩ | exact ⟨spWrite_wf⟩ | exact ⟨spMarks_wf⟩))) | (extract_lets +onlyGivenNames x; have : DramSt := x; clear this; subst x) | (with_reducible refine Kept.ite (fun _ => ?_) (fun _ => ?_)) | ((with_reducible refine Kept.each ?_ (fun _ _ _ => ?_))))

theorem State.colRead_kept {s : State} {loc : Nat} {part : Option Part} {step : Option (Nat × Nat)}
    {L₀ t₀} (h₀ : Kept L₀ t₀ s) (hs₀ : sliceSub [.pfMsix, .irqs, .dram, .ras] L₀ = true) :
    Kept L₀ t₀ (State.colRead s loc part step).2.2 := by
  refine h₀.step (M := [.pfMsix, .irqs, .dram, .ras]) ?_ hs₀
  clear h₀ hs₀ t₀ L₀
  unfold State.colRead
  repeat' (first | (with_reducible exact Kept.refl _ _) | (extract_lets +onlyGivenNames x; have : x.2 = x.2 := rfl; clear this; subst x) | (extract_lets +onlyGivenNames x; clear_value x) | ((with_reducible apply State.readSeen_kept); on_goal 2 => exact rfl) | ((with_reducible apply State.setChan_kept); on_goal 2 => exact rfl) | ((with_reducible apply State.markSeen_kept); on_goal 2 => exact rfl) | ((with_reducible apply State.ueFound_kept); on_goal 2 => exact rfl) | split)

theorem State.colsRead_kept {s : State} {part step l L t} (h : Kept L t s)
    (hs : sliceSub [.pfMsix, .irqs, .dram, .ras] L = true) : Kept L t (s.colsRead part step l).2.2 := by
  refine h.step (M := [.pfMsix, .irqs, .dram, .ras]) ?_ hs
  clear h hs t L
  induction l generalizing s with
  | nil => unfold State.colsRead; exact Kept.refl _ _
  | cons a r ih =>
    obtain ⟨A, o, n⟩ := a
    unfold State.colsRead
    split
    · exact ih
    · exact (State.colRead_kept (Kept.refl _ _) rfl).trans ih
theorem State.colsRead_kept_eq {s : State} {part step l r0 r1 L t r} (h : Kept L t s)
    (hs : sliceSub [.pfMsix, .irqs, .dram, .ras] L = true) (e : s.colsRead part step l = (r0, r1, r)) : Kept L t r := by
  have k := State.colsRead_kept (part := part) (step := step) (l := l) h hs
  rw [e] at k; exact k

theorem State.memRead_kept {s : State} {a : Nat} {n : Nat} {part : Option Part} {step : Option (Nat × Nat)}
    {L₀ t₀} (h₀ : Kept L₀ t₀ s) (hs₀ : sliceSub [.pfMsix, .irqs, .dram, .ras] L₀ = true) :
    Kept L₀ t₀ (State.memRead s a n part step).2.2 := by
  refine h₀.step (M := [.pfMsix, .irqs, .dram, .ras]) ?_ hs₀
  clear h₀ hs₀ t₀ L₀
  unfold State.memRead
  repeat' (first | (with_reducible exact Kept.refl _ _) | ((with_reducible apply State.colsRead_kept); on_goal 2 => exact rfl))

theorem State.memRead_kept_eq {s : State} {a : Nat} {n : Nat} {part : Option Part} {step : Option (Nat × Nat)} {r0₀} {r1₀} {L₀ t₀ r₀} (h₀ : Kept L₀ t₀ s) (hs₀ : sliceSub [.pfMsix, .irqs, .dram, .ras] L₀ = true)
    (e₀ : State.memRead s a n part step = (r0₀, r1₀, r₀)) : Kept L₀ t₀ r₀ := by
  have k := State.memRead_kept (s := s) (a := a) (n := n) (part := part) (step := step) h₀ hs₀
  rw [e₀] at k; exact k

theorem State.winRead_kept {s : State} {p : Part} {o : Nat} {n : Nat} {step : Option (Nat × Nat)}
    {L₀ t₀} (h₀ : Kept L₀ t₀ s) (hs₀ : sliceSub [.pfMsix, .irqs, .dram, .ras] L₀ = true) :
    Kept L₀ t₀ (State.winRead s p o n step).2.2 := by
  refine h₀.step (M := [.pfMsix, .irqs, .dram, .ras]) ?_ hs₀
  clear h₀ hs₀ t₀ L₀
  unfold State.winRead
  repeat' (first | (with_reducible exact Kept.refl _ _) | ((with_reducible apply State.memRead_kept); on_goal 2 => exact rfl) | split)

theorem State.eccFill_kept {s : State}
    {L₀ t₀} (h₀ : Kept L₀ t₀ s) (hs₀ : sliceSub [.dram] L₀ = true) :
    Kept L₀ t₀ (State.eccFill s) := by
  refine h₀.step (M := [.dram]) ?_ hs₀
  clear h₀ hs₀ t₀ L₀
  unfold State.eccFill
  repeat' (first | (with_reducible exact Kept.refl _ _) | (rewrite [updateOf_eq]; (with_reducible refine Kept.set_dram ?_ ?h0 ?m0); (case h0 => exact rfl); (case m0 => exact ⟨⟨fun _ => rfl⟩, ⟨fun _ => rfl⟩, ⟨fun _ => rfl⟩⟩)))

theorem State.clearLocs_kept {s : State} {lo : Nat} {n : Nat}
    {L₀ t₀} (h₀ : Kept L₀ t₀ s) (hs₀ : sliceSub [.dram] L₀ = true) :
    Kept L₀ t₀ (State.clearLocs s lo n) := by
  refine h₀.step (M := [.dram]) ?_ hs₀
  clear h₀ hs₀ t₀ L₀
  unfold State.clearLocs
  repeat' (first | (with_reducible exact Kept.refl _ _) | (rewrite [updateOf_eq]; (with_reducible refine Kept.set_dram ?_ ?h0 ?m0); (case h0 => exact rfl); (case m0 => refine ⟨?_, ?_, ?_⟩ <;> first | exact MemOk.same rfl | exact ⟨spSet_wf⟩ | exact ⟨spClear_wf⟩ | exact ⟨spWrite_wf⟩ | exact ⟨spMarks_wf⟩ | (split <;> first | exact MemOk.same rfl | exact ⟨spSet_wf⟩ | exact ⟨spClear_wf⟩ | exact ⟨spWrite_wf⟩ | exact ⟨spMarks_wf⟩))))

theorem State.clearWindow_kept {s : State} {c : PartCfg} {lbase : Nat}
    {L₀ t₀} (h₀ : Kept L₀ t₀ s) (hs₀ : sliceSub [.dram] L₀ = true) :
    Kept L₀ t₀ (State.clearWindow s c lbase) := by
  refine h₀.step (M := [.dram]) ?_ hs₀
  clear h₀ hs₀ t₀ L₀
  unfold State.clearWindow
  repeat' (first | (with_reducible exact Kept.refl _ _) | (with_reducible assumption) | ((with_reducible apply State.clearLocs_kept); on_goal 2 => exact rfl) | ((with_reducible refine Kept.each ?_ (fun _ _ _ => ?_))))

theorem State.clearWindows_kept {s : State}
    {L₀ t₀} (h₀ : Kept L₀ t₀ s) (hs₀ : sliceSub [.dram] L₀ = true) :
    Kept L₀ t₀ (State.clearWindows s) := by
  refine h₀.step (M := [.dram]) ?_ hs₀
  clear h₀ hs₀ t₀ L₀
  unfold State.clearWindows
  repeat' (first | (with_reducible exact Kept.refl _ _) | (with_reducible assumption) | ((with_reducible apply State.clearLocs_kept); on_goal 2 => exact rfl) | ((with_reducible refine Kept.each ?_ (fun _ _ _ => ?_))))

end Sys2Proof.Machine
end

