-- ==== Sys2Proof/Laws/HostOps.lean ====
section
/-! SUPPORT. What each operation of Machine/HostOps.lean may change (`Kept`): the parts of the state, listed; every memory stays canonical,
and no bit of Cairn is cleared. -/

set_option linter.unusedTactic false
set_option linter.unreachableTactic false

namespace Sys2Proof.Machine

theorem Kept.onRequest {L s u op} {f : List Byte → State} (h : Kept L s u) (k : ∀ i, Kept L s (f i)) :
    Kept L s (u.onRequest op f) := by
  unfold State.onRequest; split
  · split
    · exact k _
    · exact h
  · exact h

theorem State.mbxReply_kept {s : State} {req : List Byte} {st : Status} {res : List (Nat × List Byte)} {hint : Nat}
    {L₀ t₀} (h₀ : Kept L₀ t₀ s) (hs₀ : sliceSub [.mbx, .pfMsix, .irqs, .hostMem] L₀ = true) :
    Kept L₀ t₀ (State.mbxReply s req st res hint) := by
  refine h₀.step (M := [.mbx, .pfMsix, .irqs, .hostMem]) ?_ hs₀
  clear h₀ hs₀ t₀ L₀
  unfold State.mbxReply
  repeat' (first | (with_reducible exact Kept.refl _ _) | (rewrite [updateOf_eq]; (with_reducible refine Kept.set_mbx ?_ ?h0); (case h0 => exact rfl)) | (extract_lets +onlyGivenNames x; have : x.2 = x.2 := rfl; clear this; subst x) | (extract_lets +onlyGivenNames x; clear_value x) | ((with_reducible apply State.hostWritePf_kept); on_goal 2 => exact rfl) | ((with_reducible apply State.signalPf_kept); on_goal 2 => exact rfl))

theorem State.mbxTake_kept {s : State}
    {L₀ t₀} (h₀ : Kept L₀ t₀ s) (hs₀ : sliceSub [.mbx] L₀ = true) :
    Kept L₀ t₀ (State.mbxTake s) := by
  refine h₀.step (M := [.mbx]) ?_ hs₀
  clear h₀ hs₀ t₀ L₀
  unfold State.mbxTake
  repeat' (first | (with_reducible exact Kept.refl _ _) | (rewrite [updateOf_eq]; (with_reducible refine Kept.set_mbx ?_ ?h0); (case h0 => exact rfl)))

theorem State.mbxUnknown_kept {s : State} {n : Nat} {L t} (h : Kept L t s)
    (hs : sliceSub [.mbx, .pfMsix, .irqs, .hostMem] L = true) : Kept L t (s.mbxUnknown n) := by
  refine h.step (M := [.mbx, .pfMsix, .irqs, .hostMem]) ?_ hs
  clear h hs t L
  induction n generalizing s with
  | zero => exact Kept.refl _ _
  | succ n ih =>
    unfold State.mbxUnknown
    split
    · split
      · exact Kept.refl _ _
      · exact (State.mbxReply_kept (State.mbxTake_kept (Kept.refl _ _) rfl) rfl).trans ih
    · exact Kept.refl _ _

theorem State.mbxAnswer_kept {s : State} {req : List Byte} {st : Status} {res : List (Nat × List Byte)} {hint : Nat}
    {L₀ t₀} (h₀ : Kept L₀ t₀ s) (hs₀ : sliceSub [.mbx, .pfMsix, .irqs, .hostMem] L₀ = true) :
    Kept L₀ t₀ (State.mbxAnswer s req st res hint) := by
  refine h₀.step (M := [.mbx, .pfMsix, .irqs, .hostMem]) ?_ hs₀
  clear h₀ hs₀ t₀ L₀
  unfold State.mbxAnswer
  repeat' (first | (with_reducible exact Kept.refl _ _) | ((with_reducible apply State.mbxUnknown_kept); on_goal 2 => exact rfl) | ((with_reducible apply State.mbxReply_kept); on_goal 2 => exact rfl) | ((with_reducible apply State.mbxTake_kept); on_goal 2 => exact rfl))

theorem State.mbxStart_kept {s : State} {req : List Byte}
    {L₀ t₀} (h₀ : Kept L₀ t₀ s) (hs₀ : sliceSub [.mbx] L₀ = true) :
    Kept L₀ t₀ (State.mbxStart s req) := by
  refine h₀.step (M := [.mbx]) ?_ hs₀
  clear h₀ hs₀ t₀ L₀
  unfold State.mbxStart
  repeat' (first | (with_reducible exact Kept.refl _ _) | (rewrite [updateOf_eq]; (with_reducible refine Kept.set_mbx ?_ ?h0); (case h0 => exact rfl)) | ((with_reducible apply State.mbxTake_kept); on_goal 2 => exact rfl))

theorem State.mbxDone_kept {s : State} {st : Status} {res : List (Nat × List Byte)} {hint : Nat}
    {L₀ t₀} (h₀ : Kept L₀ t₀ s) (hs₀ : sliceSub [.mbx, .pfMsix, .irqs, .hostMem] L₀ = true) :
    Kept L₀ t₀ (State.mbxDone s st res hint) := by
  refine h₀.step (M := [.mbx, .pfMsix, .irqs, .hostMem]) ?_ hs₀
  clear h₀ hs₀ t₀ L₀
  unfold State.mbxDone
  repeat' (first | (with_reducible exact Kept.refl _ _) | (rewrite [updateOf_eq]; (with_reducible refine Kept.set_mbx ?_ ?h0); (case h0 => exact rfl)) | (extract_lets +onlyGivenNames x; have : x.2 = x.2 := rfl; clear this; subst x) | ((with_reducible apply State.mbxUnknown_kept); on_goal 2 => exact rfl) | ((with_reducible apply State.mbxReply_kept); on_goal 2 => exact rfl) | split)

theorem State.discarded_kept {s : State} {p : Part} {n : Nat}
    {L₀ t₀} (h₀ : Kept L₀ t₀ s) (hs₀ : sliceSub [.parts] L₀ = true) :
    Kept L₀ t₀ (State.discarded s p n) := by
  refine h₀.step (M := [.parts]) ?_ hs₀
  clear h₀ hs₀ t₀ L₀
  unfold State.discarded
  repeat' (first | (with_reducible exact Kept.refl _ _) | ((with_reducible apply State.setPart_kept); on_goal 2 => exact rfl))

theorem State.setItem_kept {s : State} {id : Nat} {f : Item → Item}
    {L₀ t₀} (h₀ : Kept L₀ t₀ s) (hs₀ : sliceSub [.items] L₀ = true) :
    Kept L₀ t₀ (State.setItem s id f) := by
  refine h₀.step (M := [.items]) ?_ hs₀
  clear h₀ hs₀ t₀ L₀
  unfold State.setItem
  repeat' (first | (with_reducible exact Kept.refl _ _) | (rewrite [updateOf_eq]; (with_reducible refine Kept.set_items ?_ ?h0); (case h0 => exact rfl)))

theorem Kept.withItem {L s u id} {f : Item → State} (h : Kept L s u) (k : ∀ i, Kept L s (f i)) :
    Kept L s (u.withItem id f) := by
  unfold State.withItem; split
  · exact k _
  · exact h

theorem State.finish_kept {s : State} {id : Nat} {st : Status} {result : Nat} {hint : Nat}
    {L₀ t₀} (h₀ : Kept L₀ t₀ s) (hs₀ : sliceSub [.items] L₀ = true) :
    Kept L₀ t₀ (State.finish s id st result hint) := by
  refine h₀.step (M := [.items]) ?_ hs₀
  clear h₀ hs₀ t₀ L₀
  unfold State.finish
  repeat' (first | (with_reducible exact Kept.refl _ _) | ((with_reducible apply State.setItem_kept); on_goal 2 => exact rfl))

theorem State.countRestruct_kept {s : State} {p : Part} {c : Code}
    {L₀ t₀} (h₀ : Kept L₀ t₀ s) (hs₀ : sliceSub [.parts] L₀ = true) :
    Kept L₀ t₀ (State.countRestruct s p c) := by
  refine h₀.step (M := [.parts]) ?_ hs₀
  clear h₀ hs₀ t₀ L₀
  unfold State.countRestruct
  repeat' (first | (with_reducible exact Kept.refl _ _) | (with_reducible refine Kept.ite (fun _ => ?_) (fun _ => ?_)) | ((with_reducible apply State.setPart_kept); on_goal 2 => exact rfl))

theorem State.countFail_kept {s : State} {p : Part} {c : Code}
    {L₀ t₀} (h₀ : Kept L₀ t₀ s) (hs₀ : sliceSub [.ras] L₀ = true) :
    Kept L₀ t₀ (State.countFail s p c) := by
  refine h₀.step (M := [.ras]) ?_ hs₀
  clear h₀ hs₀ t₀ L₀
  unfold State.countFail
  repeat' (first | (with_reducible exact Kept.refl _ _) | (rewrite [updateOf_eq]; (with_reducible refine Kept.set_ras ?_ ?h0); (case h0 => exact rfl)) | (extract_lets +onlyGivenNames x; have : x.2 = x.2 := rfl; clear this; subst x) | split)

theorem State.putEntry_kept {s : State} {p : Part} {q : Queue} {st : Status} {tag : Nat} {result : Nat} {sess : Nat} {hint : Nat} {sqHead : Nat} {src : Nat} {intr : Bool}
    {L₀ t₀} (h₀ : Kept L₀ t₀ s) (hs₀ : sliceSub [.parts, .vfs, .irqs, .ras, .hostMem] L₀ = true) :
    Kept L₀ t₀ (State.putEntry s p q st tag result sess hint sqHead src intr) := by
  refine h₀.step (M := [.parts, .vfs, .irqs, .ras, .hostMem]) ?_ hs₀
  clear h₀ hs₀ t₀ L₀
  unfold State.putEntry
  repeat' (first | (with_reducible exact Kept.refl _ _) | (extract_lets +onlyGivenNames x; have : x.2 = x.2 := rfl; clear this; subst x) | (extract_lets +onlyGivenNames x; clear_value x) | (with_reducible refine Kept.ite (fun _ => ?_) (fun _ => ?_)) | ((with_reducible apply State.hostWrite_kept); on_goal 2 => exact rfl) | ((with_reducible apply State.setQueue_kept); on_goal 2 => exact rfl) | ((with_reducible apply State.countRestruct_kept); on_goal 2 => exact rfl) | ((with_reducible apply State.countFail_kept); on_goal 2 => exact rfl) | ((with_reducible apply State.signalVf_kept); on_goal 2 => exact rfl))

theorem State.abandonRun_kept {s : State} {p : Part} {q : Queue}
    {L₀ t₀} (h₀ : Kept L₀ t₀ s) (hs₀ : sliceSub [.vfs, .items] L₀ = true) :
    Kept L₀ t₀ (State.abandonRun s p q) := by
  refine h₀.step (M := [.vfs, .items]) ?_ hs₀
  clear h₀ hs₀ t₀ L₀
  unfold State.abandonRun
  repeat' (first | (with_reducible exact Kept.refl _ _) | (rewrite [updateOf_eq]; (with_reducible refine Kept.set_items ?_ ?h0); (case h0 => exact rfl)) | ((with_reducible apply State.setQueue_kept); on_goal 2 => exact rfl))

theorem State.descEntry_kept {s : State} {i : Item} {st : Status}
    {L₀ t₀} (h₀ : Kept L₀ t₀ s) (hs₀ : sliceSub [.parts, .vfs, .irqs, .items, .ras, .hostMem] L₀ = true) :
    Kept L₀ t₀ (State.descEntry s i st) := by
  refine h₀.step (M := [.parts, .vfs, .irqs, .items, .ras, .hostMem]) ?_ hs₀
  clear h₀ hs₀ t₀ L₀
  unfold State.descEntry
  repeat' (first | (with_reducible exact Kept.refl _ _) | (rewrite [updateOf_eq]; (with_reducible refine Kept.set_items ?_ ?h0); (case h0 => exact rfl)) | (extract_lets +onlyGivenNames x; have : x.2 = x.2 := rfl; clear this; subst x) | (extract_lets +onlyGivenNames x; clear_value x) | (with_reducible refine Kept.ite (fun _ => ?_) (fun _ => ?_)) | ((with_reducible apply State.putEntry_kept); on_goal 2 => exact rfl) | ((with_reducible apply State.abandonRun_kept); on_goal 2 => exact rfl) | split)

theorem State.stepEntry_kept {s : State} {i : Item} {r : StepRec} {cq : Queue} {st : Status}
    {L₀ t₀} (h₀ : Kept L₀ t₀ s) (hs₀ : sliceSub [.parts, .vfs, .irqs, .items, .ras, .hostMem] L₀ = true) :
    Kept L₀ t₀ (State.stepEntry s i r cq st) := by
  refine h₀.step (M := [.parts, .vfs, .irqs, .items, .ras, .hostMem]) ?_ hs₀
  clear h₀ hs₀ t₀ L₀
  unfold State.stepEntry
  repeat' (first | (with_reducible exact Kept.refl _ _) | (rewrite [updateOf_eq]; (with_reducible refine Kept.set_items ?_ ?h0); (case h0 => exact rfl)) | (extract_lets +onlyGivenNames x; have : x.2 = x.2 := rfl; clear this; subst x) | ((with_reducible apply State.putEntry_kept); on_goal 2 => exact rfl))

theorem State.addItem_kept {s : State} {p : Part} {k : ItemKind} {slot : Bool}
    {L₀ t₀} (h₀ : Kept L₀ t₀ s) (hs₀ : sliceSub [.items, .nextItem] L₀ = true) :
    Kept L₀ t₀ (State.addItem s p k slot) := by
  refine h₀.step (M := [.items, .nextItem]) ?_ hs₀
  clear h₀ hs₀ t₀ L₀
  unfold State.addItem
  repeat' (first | (with_reducible exact Kept.refl _ _) | (rewrite [updateOf_eq]; (with_reducible refine Kept.set_items_nextItem ?_ ?h0 ?h1); (case h0 => exact rfl); (case h1 => exact rfl)))

end Sys2Proof.Machine
end

