-- ==== Sys2Proof/Laws/CairnOps.lean ====
section
/-! SUPPORT. What each operation of Machine/CairnOps.lean may change (`Kept`): the parts of the state, listed; every memory stays canonical,
and no bit of Cairn is cleared. -/

set_option linter.unusedTactic false
set_option linter.unreachableTactic false

namespace Sys2Proof.Machine

theorem OtpGrows.set {m : Sparse Nat} {a v : Nat} (h : spWf 0 m = true) :
    OtpGrows m (spSet 0 m a (spGet 0 m a ||| v)) := by
  intro w b hb
  by_cases hw : w = a
  · subst hw
    rw [spGet_spSet_same h]
    rw [bitAt_or, hb]; rfl
  · rw [spGet_spSet_other h hw]; exact hb
theorem OtpGrows.sets {m : Sparse Nat} {l : List Nat} {f g : Nat → Nat} (h : spWf 0 m = true) :
    OtpGrows m (l.foldl (fun m i => spSet 0 m (f i) (spGet 0 m (f i) ||| g i)) m) := by
  induction l generalizing m with
  | nil => exact OtpGrows.refl _
  | cons a r ih => exact (OtpGrows.set h).trans (ih (spSet_wf h))
theorem spOrs_wf {m : Sparse Nat} {l : List Nat} {f g : Nat → Nat} (h : spWf 0 m = true) :
    spWf 0 (l.foldl (fun m i => spSet 0 m (f i) (spGet 0 m (f i) ||| g i)) m) = true := by
  induction l generalizing m with
  | nil => exact h
  | cons a r ih => exact ih (spSet_wf h)
theorem State.burn_kept {s : State} {pr : CairnProg} {n : Nat} {L t} (h : Kept L t s) (hs : sliceSub [.cairn, .free] L = true) :
    Kept L t (s.burn pr n) := by
  refine h.step (M := [.cairn, .free]) ?_ hs
  clear h hs t L
  unfold State.burn
  extract_lets b put done
  have hd : spWf 0 s.cairn.words = true → spWf 0 done = true ∧ OtpGrows s.cairn.words done := fun h =>
    ⟨spOrs_wf h, OtpGrows.sets h⟩
  clear_value done
  split
  · have hs : Kept [.cairn, .free] s s.draw.2 := State.draw_kept (Kept.refl _ _) rfl
    have hc : s.draw.2.cairn = s.cairn := rfl
    dsimp only
    generalize s.draw.2 = u at hs hc
    rewrite [updateOf_eq]
    refine Kept.set_cairn hs rfl ⟨⟨fun h => ?_⟩, ⟨spSet_wf⟩⟩
    rw [hc] at h ⊢
    have k := hd h
    exact ⟨spSet_wf k.1, k.2.trans (OtpGrows.set k.1)⟩
  · rewrite [updateOf_eq]
    exact Kept.set_cairn (Kept.refl _ _) rfl ⟨⟨hd⟩, MemOk.same rfl⟩

theorem State.progEnd_kept {s : State} {n : Nat} {result : Nat}
    {L₀ t₀} (h₀ : Kept L₀ t₀ s) (hs₀ : sliceSub [.cairn, .free] L₀ = true) :
    Kept L₀ t₀ (State.progEnd s n result) := by
  refine h₀.step (M := [.cairn, .free]) ?_ hs₀
  clear h₀ hs₀ t₀ L₀
  unfold State.progEnd
  repeat' (first | (with_reducible exact Kept.refl _ _) | (rewrite [updateOf_eq]; (with_reducible refine Kept.set_cairn ?_ ?h0 ?m0); (case h0 => exact rfl); (case m0 => exact ⟨OtpOk.same rfl, MemOk.same rfl⟩)) | ((with_reducible apply State.burn_kept); on_goal 2 => exact rfl) | split)

theorem State.progAbort_kept {s : State} {result : Nat}
    {L₀ t₀} (h₀ : Kept L₀ t₀ s) (hs₀ : sliceSub [.cairn, .free] L₀ = true) :
    Kept L₀ t₀ (State.progAbort s result) := by
  refine h₀.step (M := [.cairn, .free]) ?_ hs₀
  clear h₀ hs₀ t₀ L₀
  unfold State.progAbort
  repeat' (first | (with_reducible exact Kept.refl _ _) | (with_reducible refine Kept.ite (fun _ => ?_) (fun _ => ?_)) | ((with_reducible apply State.draw_kept); on_goal 2 => exact rfl) | ((with_reducible apply State.progEnd_kept); on_goal 2 => exact rfl))

theorem State.sweep_kept {s : State}
    {L₀ t₀} (h₀ : Kept L₀ t₀ s) (hs₀ : sliceSub [.col, .cairn, .pfMsix, .irqs, .ras] L₀ = true) :
    Kept L₀ t₀ (State.sweep s).1 := by
  refine h₀.step (M := [.col, .cairn, .pfMsix, .irqs, .ras]) ?_ hs₀
  clear h₀ hs₀ t₀ L₀
  unfold State.sweep
  repeat' (first | (with_reducible exact Kept.refl _ _) | (with_reducible assumption) | (rewrite [updateOf_eq]; (with_reducible refine Kept.set_col_cairn ?_ ?h0 ?h1 ?m0); (case h0 => exact rfl); (case h1 => exact rfl); (case m0 => exact ⟨OtpOk.same rfl, MemOk.same rfl⟩)) | (extract_lets +onlyGivenNames x; have : x.2 = x.2 := rfl; clear this; subst x) | (extract_lets +onlyGivenNames x; clear_value x) | ((with_reducible apply State.log_kept); on_goal 2 => exact rfl) | ((with_reducible refine Kept.each ?_ (fun _ _ _ => ?_))) | split)

end Sys2Proof.Machine
end

