-- ==== Sys2Proof/Laws/Cairn.lean ====
section
/-! SUPPORT. What each operation of Machine/Cairn.lean may change (`Kept`): the parts of the state, listed; every memory stays canonical,
and no bit of Cairn is cleared. -/

set_option linter.unusedTactic false
set_option linter.unreachableTactic false

namespace Sys2Proof.Machine

theorem State.cairnReadOp_kept {s : State} {val : Nat}
    {L₀ t₀} (h₀ : Kept L₀ t₀ s) (hs₀ : sliceSub [.cairn] L₀ = true) :
    Kept L₀ t₀ (State.cairnReadOp s val) := by
  refine h₀.step (M := [.cairn]) ?_ hs₀
  clear h₀ hs₀ t₀ L₀
  unfold State.cairnReadOp
  repeat' (first | (with_reducible exact Kept.refl _ _) | (rewrite [updateOf_eq]; (with_reducible refine Kept.set_cairn ?_ ?h0 ?m0); (case h0 => exact rfl); (case m0 => exact ⟨OtpOk.same rfl, MemOk.same rfl⟩)))

theorem execCairnRead_kept {val : W32} {s : State}
    {L₀ t₀} (h₀ : Kept L₀ t₀ s) (hs₀ : sliceSub [.cairn] L₀ = true) :
    Kept L₀ t₀ (outOf s (execCairnRead val s)) := by
  refine h₀.step (M := [.cairn]) ?_ hs₀
  clear h₀ hs₀ t₀ L₀
  unfold execCairnRead
  repeat' (first | (dsimp -zeta -iota -proj only [outOf_next]) | (with_reducible exact Kept.refl _ _) | (with_reducible assumption) | ((with_reducible apply State.cairnReadOp_kept); on_goal 2 => exact rfl) | ((with_reducible refine Kept.when ?_ (fun _ _ => ?_))))

theorem execCairnProgram_kept {vppMv : Nat} {hot : Int} {bad : Bool} {pkg : SettingsPkg} {s : State}
    {L₀ t₀} (h₀ : Kept L₀ t₀ s) (hs₀ : sliceSub [.col, .cairn, .mbx, .pfMsix, .irqs, .hostMem] L₀ = true) :
    Kept L₀ t₀ (outOf s (execCairnProgram vppMv hot bad pkg s)) := by
  refine h₀.step (M := [.col, .cairn, .mbx, .pfMsix, .irqs, .hostMem]) ?_ hs₀
  clear h₀ hs₀ t₀ L₀
  unfold execCairnProgram
  repeat' (first | (dsimp -zeta -iota -proj only [outOf_next]) | (with_reducible exact Kept.refl _ _) | (rewrite [updateOf_eq]; (with_reducible refine Kept.set_col_cairn ?_ ?h0 ?h1 ?m0); (case h0 => exact rfl); (case h1 => exact rfl); (case m0 => exact ⟨OtpOk.same rfl, MemOk.same rfl⟩)) | (extract_lets +onlyGivenNames x; have : x.2 = x.2 := rfl; clear this; subst x) | (with_reducible refine Kept.ite (fun _ => ?_) (fun _ => ?_)) | ((with_reducible apply State.mbxAnswer_kept); on_goal 2 => exact rfl) | ((with_reducible apply State.mbxStart_kept); on_goal 2 => exact rfl) | ((with_reducible refine Kept.onRequest ?_ (fun _ => ?_))))

theorem State.progReply_kept {s : State} {slot : Nat} {result : Nat} {st : Status}
    {L₀ t₀} (h₀ : Kept L₀ t₀ s) (hs₀ : sliceSub [.mbx, .pfMsix, .irqs, .hostMem] L₀ = true) :
    Kept L₀ t₀ (State.progReply s slot result st) := by
  refine h₀.step (M := [.mbx, .pfMsix, .irqs, .hostMem]) ?_ hs₀
  clear h₀ hs₀ t₀ L₀
  unfold State.progReply
  repeat' (first | (with_reducible exact Kept.refl _ _) | ((with_reducible apply State.mbxDone_kept); on_goal 2 => exact rfl))

theorem execCairnProgramDone_kept {res : ProgEnd} {s : State}
    {L₀ t₀} (h₀ : Kept L₀ t₀ s) (hs₀ : sliceSub [.cairn, .mbx, .pfMsix, .irqs, .hostMem, .free] L₀ = true) :
    Kept L₀ t₀ (outOf s (execCairnProgramDone res s)) := by
  refine h₀.step (M := [.cairn, .mbx, .pfMsix, .irqs, .hostMem, .free]) ?_ hs₀
  clear h₀ hs₀ t₀ L₀
  unfold execCairnProgramDone
  repeat' (first | (dsimp -zeta -iota -proj only [outOf_next]) | (with_reducible exact Kept.refl _ _) | ((with_reducible apply State.progReply_kept); on_goal 2 => exact rfl) | ((with_reducible apply State.progEnd_kept); on_goal 2 => exact rfl) | split)

theorem execVppOtpFall_kept {s : State}
    {L₀ t₀} (h₀ : Kept L₀ t₀ s) (hs₀ : sliceSub [.cairn, .mbx, .pfMsix, .irqs, .hostMem, .free] L₀ = true) :
    Kept L₀ t₀ (outOf s (execVppOtpFall s)) := by
  refine h₀.step (M := [.cairn, .mbx, .pfMsix, .irqs, .hostMem, .free]) ?_ hs₀
  clear h₀ hs₀ t₀ L₀
  unfold execVppOtpFall
  repeat' (first | (dsimp -zeta -iota -proj only [outOf_next]) | (with_reducible exact Kept.refl _ _) | ((with_reducible apply State.progReply_kept); on_goal 2 => exact rfl) | ((with_reducible apply State.progAbort_kept); on_goal 2 => exact rfl) | split)

end Sys2Proof.Machine
end

