-- ==== Sys2Proof/Laws/TrvOps.lean ====
section
/-! SUPPORT. What each operation of Machine/TrvOps.lean may change (`Kept`): the parts of the state, listed; every memory stays canonical,
and no bit of Cairn is cleared. -/

set_option linter.unusedTactic false
set_option linter.unreachableTactic false

namespace Sys2Proof.Machine

theorem State.setSess_kept {s : State} {n : Nat} {f : SessSt → SessSt}
    {L₀ t₀} (h₀ : Kept L₀ t₀ s) (hs₀ : sliceSub [.trv] L₀ = true) :
    Kept L₀ t₀ (State.setSess s n f) := by
  refine h₀.step (M := [.trv]) ?_ hs₀
  clear h₀ hs₀ t₀ L₀
  unfold State.setSess
  repeat' (first | (with_reducible exact Kept.refl _ _) | (rewrite [updateOf_eq]; (with_reducible refine Kept.set_trv ?_ ?h0); (case h0 => exact rfl)))

theorem Kept.withSess {L s u n} {f : SessSt → State} (h : Kept L s u) (k : ∀ i, Kept L s (f i)) :
    Kept L s (u.withSess n f) := by
  unfold State.withSess; split
  · exact k _
  · exact h

theorem State.setStep_kept {s : State} {id : Nat} {f : StepRec → StepRec}
    {L₀ t₀} (h₀ : Kept L₀ t₀ s) (hs₀ : sliceSub [.items] L₀ = true) :
    Kept L₀ t₀ (State.setStep s id f) := by
  refine h₀.step (M := [.items]) ?_ hs₀
  clear h₀ hs₀ t₀ L₀
  unfold State.setStep
  repeat' (first | (with_reducible exact Kept.refl _ _) | ((with_reducible apply State.setItem_kept); on_goal 2 => exact rfl))

theorem State.trvCount_kept {s : State} {n : Nat} {k : Fin 6} {m : Nat}
    {L₀ t₀} (h₀ : Kept L₀ t₀ s) (hs₀ : sliceSub [.trv] L₀ = true) :
    Kept L₀ t₀ (State.trvCount s n k m) := by
  refine h₀.step (M := [.trv]) ?_ hs₀
  clear h₀ hs₀ t₀ L₀
  unfold State.trvCount
  repeat' (first | (with_reducible exact Kept.refl _ _) | (rewrite [updateOf_eq]; (with_reducible refine Kept.set_trv ?_ ?h0); (case h0 => exact rfl)) | (extract_lets +onlyGivenNames x; have : x.2 = x.2 := rfl; clear this; subst x) | ((with_reducible apply State.setSess_kept); on_goal 2 => exact rfl) | ((with_reducible refine Kept.withSess ?_ (fun _ => ?_))))

theorem State.breakCont_kept {s : State} {i : Item} {n : Nat}
    {L₀ t₀} (h₀ : Kept L₀ t₀ s) (hs₀ : sliceSub [.items, .trv] L₀ = true) :
    Kept L₀ t₀ (State.breakCont s i n) := by
  refine h₀.step (M := [.items, .trv]) ?_ hs₀
  clear h₀ hs₀ t₀ L₀
  unfold State.breakCont
  repeat' (first | (with_reducible exact Kept.refl _ _) | (extract_lets +onlyGivenNames x; have : x.2 = x.2 := rfl; clear this; subst x) | ((with_reducible apply State.setStep_kept); on_goal 2 => exact rfl) | ((with_reducible apply State.setItem_kept); on_goal 2 => exact rfl) | ((with_reducible apply State.trvCount_kept); on_goal 2 => exact rfl))

theorem State.contDecide_kept {s : State} {i : Item} {r : StepRec}
    {L₀ t₀} (h₀ : Kept L₀ t₀ s) (hs₀ : sliceSub [.items, .trv] L₀ = true) :
    Kept L₀ t₀ (State.contDecide s i r) := by
  refine h₀.step (M := [.items, .trv]) ?_ hs₀
  clear h₀ hs₀ t₀ L₀
  unfold State.contDecide
  repeat' (first | (with_reducible exact Kept.refl _ _) | (with_reducible refine Kept.ite (fun _ => ?_) (fun _ => ?_)) | ((with_reducible apply State.setItem_kept); on_goal 2 => exact rfl) | ((with_reducible apply State.breakCont_kept); on_goal 2 => exact rfl) | ((with_reducible refine Kept.withSess ?_ (fun _ => ?_))) | split)

theorem State.relink_kept {s : State} {n : Nat} {h : StepHist} {st : Status}
    {L₀ t₀} (h₀ : Kept L₀ t₀ s) (hs₀ : sliceSub [.items, .trv] L₀ = true) :
    Kept L₀ t₀ (State.relink s n h st) := by
  refine h₀.step (M := [.items, .trv]) ?_ hs₀
  clear h₀ hs₀ t₀ L₀
  unfold State.relink
  repeat' (first | (with_reducible exact Kept.refl _ _) | (with_reducible assumption) | (extract_lets +onlyGivenNames x; have : x.2 = x.2 := rfl; clear this; subst x) | (extract_lets +onlyGivenNames x; clear_value x) | (with_reducible refine Kept.ite (fun _ => ?_) (fun _ => ?_)) | ((with_reducible apply State.setStep_kept); on_goal 2 => exact rfl) | ((with_reducible apply State.contDecide_kept); on_goal 2 => exact rfl) | ((with_reducible refine Kept.each ?_ (fun _ _ _ => ?_))) | split)

theorem State.putHeader_kept {s : State} {n : Nat}
    {L₀ t₀} (h₀ : Kept L₀ t₀ s) (hs₀ : sliceSub [.pfMsix, .irqs, .dram, .ras] L₀ = true) :
    Kept L₀ t₀ (State.putHeader s n) := by
  refine h₀.step (M := [.pfMsix, .irqs, .dram, .ras]) ?_ hs₀
  clear h₀ hs₀ t₀ L₀
  unfold State.putHeader
  repeat' (first | (with_reducible exact Kept.refl _ _) | ((with_reducible apply State.winWrite_kept); on_goal 2 => exact rfl) | ((with_reducible refine Kept.withSess ?_ (fun _ => ?_))))

theorem State.stepSlots_kept {s : State} {p : Part}
    {L₀ t₀} (h₀ : Kept L₀ t₀ s) (hs₀ : sliceSub [.items] L₀ = true) :
    Kept L₀ t₀ (State.stepSlots s p) := by
  refine h₀.step (M := [.items]) ?_ hs₀
  clear h₀ hs₀ t₀ L₀
  unfold State.stepSlots
  repeat' (first | (with_reducible exact Kept.refl _ _) | (with_reducible assumption) | (with_reducible refine Kept.ite (fun _ => ?_) (fun _ => ?_)) | ((with_reducible apply State.setItem_kept); on_goal 2 => exact rfl) | ((with_reducible refine Kept.each ?_ (fun _ _ _ => ?_))))

theorem State.breakServed_kept {s : State} {i : Item}
    {L₀ t₀} (h₀ : Kept L₀ t₀ s) (hs₀ : sliceSub [.items] L₀ = true) :
    Kept L₀ t₀ (State.breakServed s i) := by
  refine h₀.step (M := [.items]) ?_ hs₀
  clear h₀ hs₀ t₀ L₀
  unfold State.breakServed
  repeat' (first | (with_reducible exact Kept.refl _ _) | ((with_reducible apply State.setItem_kept); on_goal 2 => exact rfl))

theorem State.placeEntry_kept {s : State} {id : Nat} {p : Part} {e : Nat} {quads : Nat} {need : Nat}
    {L₀ t₀} (h₀ : Kept L₀ t₀ s) (hs₀ : sliceSub [.items] L₀ = true) :
    Kept L₀ t₀ (State.placeEntry s id p e quads need) := by
  refine h₀.step (M := [.items]) ?_ hs₀
  clear h₀ hs₀ t₀ L₀
  unfold State.placeEntry
  repeat' (first | (with_reducible exact Kept.refl _ _) | (with_reducible refine Kept.ite (fun _ => ?_) (fun _ => ?_)) | ((with_reducible apply State.finish_kept); on_goal 2 => exact rfl) | ((with_reducible apply State.setItem_kept); on_goal 2 => exact rfl))

theorem State.endSessions_kept {s : State} {p : Part}
    {L₀ t₀} (h₀ : Kept L₀ t₀ s) (hs₀ : sliceSub [.trv] L₀ = true) :
    Kept L₀ t₀ (State.endSessions s p) := by
  refine h₀.step (M := [.trv]) ?_ hs₀
  clear h₀ hs₀ t₀ L₀
  unfold State.endSessions
  repeat' (first | (with_reducible exact Kept.refl _ _) | (rewrite [updateOf_eq]; (with_reducible refine Kept.set_trv ?_ ?h0); (case h0 => exact rfl)))

theorem State.clearRing_kept {s : State} {a : Nat} {n : Nat}
    {L₀ t₀} (h₀ : Kept L₀ t₀ s) (hs₀ : sliceSub [.dram] L₀ = true) :
    Kept L₀ t₀ (State.clearRing s a n) := by
  refine h₀.step (M := [.dram]) ?_ hs₀
  clear h₀ hs₀ t₀ L₀
  unfold State.clearRing
  repeat' (first | (with_reducible exact Kept.refl _ _) | (with_reducible assumption) | (extract_lets +onlyGivenNames x; clear_value x) | ((with_reducible apply State.clearLocs_kept); on_goal 2 => exact rfl) | ((with_reducible refine Kept.each ?_ (fun _ _ _ => ?_))) | split)

theorem State.putSess_kept {s : State} {n : Nat} {x : SessSt}
    {L₀ t₀} (h₀ : Kept L₀ t₀ s) (hs₀ : sliceSub [.trv] L₀ = true) :
    Kept L₀ t₀ (State.putSess s n x) := by
  refine h₀.step (M := [.trv]) ?_ hs₀
  clear h₀ hs₀ t₀ L₀
  unfold State.putSess
  repeat' (first | (with_reducible exact Kept.refl _ _) | (rewrite [updateOf_eq]; (with_reducible refine Kept.set_trv ?_ ?h0); (case h0 => exact rfl)))

theorem State.dropSess_kept {s : State} {n : Nat}
    {L₀ t₀} (h₀ : Kept L₀ t₀ s) (hs₀ : sliceSub [.trv] L₀ = true) :
    Kept L₀ t₀ (State.dropSess s n) := by
  refine h₀.step (M := [.trv]) ?_ hs₀
  clear h₀ hs₀ t₀ L₀
  unfold State.dropSess
  repeat' (first | (with_reducible exact Kept.refl _ _) | (rewrite [updateOf_eq]; (with_reducible refine Kept.set_trv ?_ ?h0); (case h0 => exact rfl)))

theorem State.closeSess_kept {s : State} {n : Nat}
    {L₀ t₀} (h₀ : Kept L₀ t₀ s) (hs₀ : sliceSub [.items, .trv] L₀ = true) :
    Kept L₀ t₀ (State.closeSess s n) := by
  refine h₀.step (M := [.items, .trv]) ?_ hs₀
  clear h₀ hs₀ t₀ L₀
  unfold State.closeSess
  repeat' (first | (with_reducible exact Kept.refl _ _) | (extract_lets +onlyGivenNames x; have : x.2 = x.2 := rfl; clear this; subst x) | (with_reducible refine Kept.ite (fun _ => ?_) (fun _ => ?_)) | ((with_reducible apply State.finish_kept); on_goal 2 => exact rfl) | ((with_reducible apply State.dropSess_kept); on_goal 2 => exact rfl) | ((with_reducible apply State.setSess_kept); on_goal 2 => exact rfl) | ((with_reducible refine Kept.withSess ?_ (fun _ => ?_))) | split)

theorem State.closeIfDone_kept {s : State} {n : Nat}
    {L₀ t₀} (h₀ : Kept L₀ t₀ s) (hs₀ : sliceSub [.items, .trv] L₀ = true) :
    Kept L₀ t₀ (State.closeIfDone s n) := by
  refine h₀.step (M := [.items, .trv]) ?_ hs₀
  clear h₀ hs₀ t₀ L₀
  unfold State.closeIfDone
  repeat' (first | (with_reducible exact Kept.refl _ _) | (with_reducible refine Kept.ite (fun _ => ?_) (fun _ => ?_)) | ((with_reducible apply State.closeSess_kept); on_goal 2 => exact rfl) | ((with_reducible refine Kept.withSess ?_ (fun _ => ?_))))

theorem State.setOut_kept {s : State} {n : Nat} {f : OutSt → OutSt}
    {L₀ t₀} (h₀ : Kept L₀ t₀ s) (hs₀ : sliceSub [.trv] L₀ = true) :
    Kept L₀ t₀ (State.setOut s n f) := by
  refine h₀.step (M := [.trv]) ?_ hs₀
  clear h₀ hs₀ t₀ L₀
  unfold State.setOut
  repeat' (first | (with_reducible exact Kept.refl _ _) | ((with_reducible apply State.setSess_kept); on_goal 2 => exact rfl))

theorem State.append_kept {s : State} {n : Nat} {frames : Nat} {seams : Nat} {data : List Byte} {pz : Nat}
    {L₀ t₀} (h₀ : Kept L₀ t₀ s) (hs₀ : sliceSub [.pfMsix, .irqs, .dram, .ras, .trv] L₀ = true) :
    Kept L₀ t₀ (State.append s n frames seams data pz).2 := by
  refine h₀.step (M := [.pfMsix, .irqs, .dram, .ras, .trv]) ?_ hs₀
  clear h₀ hs₀ t₀ L₀
  unfold State.append
  repeat' (first | (with_reducible exact Kept.refl _ _) | (with_reducible assumption) | (extract_lets +onlyGivenNames x; have : x.2 = x.2 := rfl; clear this; subst x) | (extract_lets +onlyGivenNames x; have : x = fun a => x a := rfl; clear this; subst x; beta_reduce) | (extract_lets +onlyGivenNames x; clear_value x) | ((with_reducible apply State.memWrite_kept); on_goal 2 => exact rfl) | ((with_reducible apply State.setOut_kept); on_goal 2 => exact rfl) | ((with_reducible apply State.trvCount_kept); on_goal 2 => exact rfl) | ((with_reducible refine Kept.each ?_ (fun _ _ _ => ?_))) | split)

theorem State.refuseSlotless_kept {s : State} {n : Nat}
    {L₀ t₀} (h₀ : Kept L₀ t₀ s) (hs₀ : sliceSub [.items] L₀ = true) :
    Kept L₀ t₀ (State.refuseSlotless s n) := by
  refine h₀.step (M := [.items]) ?_ hs₀
  clear h₀ hs₀ t₀ L₀
  unfold State.refuseSlotless
  repeat' (first | (with_reducible exact Kept.refl _ _) | (with_reducible assumption) | ((with_reducible apply State.finish_kept); on_goal 2 => exact rfl) | ((with_reducible refine Kept.each ?_ (fun _ _ _ => ?_))))

theorem State.ringFrame_kept {s : State} {a : Nat} {len : Nat} {p : Part}
    {L₀ t₀} (h₀ : Kept L₀ t₀ s) (hs₀ : sliceSub [.pfMsix, .irqs, .dram, .ras] L₀ = true) :
    Kept L₀ t₀ (State.ringFrame s a len p).2 := by
  refine h₀.step (M := [.pfMsix, .irqs, .dram, .ras]) ?_ hs₀
  clear h₀ hs₀ t₀ L₀
  unfold State.ringFrame
  repeat' (first | (with_reducible exact Kept.refl _ _) | (with_reducible refine State.memRead_kept_eq ?_ rfl (by assumption)) | ((with_reducible apply State.log_kept); on_goal 2 => exact rfl) | split)

theorem State.fireStep_kept {s : State} {n : Sess} {pass : Nat} {first : Nat} {count : Nat} {gap : Bool}
    {L₀ t₀} (h₀ : Kept L₀ t₀ s) (hs₀ : sliceSub [.items, .nextItem, .trv] L₀ = true) :
    Kept L₀ t₀ (State.fireStep s n pass first count gap) := by
  refine h₀.step (M := [.items, .nextItem, .trv]) ?_ hs₀
  clear h₀ hs₀ t₀ L₀
  unfold State.fireStep
  repeat' (first | (with_reducible exact Kept.refl _ _) | (extract_lets +onlyGivenNames x; have : x.2 = x.2 := rfl; clear this; subst x) | (extract_lets +onlyGivenNames x; clear_value x) | ((with_reducible apply State.addItem_kept); on_goal 2 => exact rfl) | ((with_reducible apply State.setItem_kept); on_goal 2 => exact rfl) | ((with_reducible apply State.placeEntry_kept); on_goal 2 => exact rfl) | ((with_reducible apply State.setSess_kept); on_goal 2 => exact rfl) | ((with_reducible apply State.contDecide_kept); on_goal 2 => exact rfl) | ((with_reducible refine Kept.withSess ?_ (fun _ => ?_))) | split)

theorem State.sessTick_kept {s : State} {n : Sess} {at_ : Nat}
    {L₀ t₀} (h₀ : Kept L₀ t₀ s) (hs₀ : sliceSub [.pfMsix, .irqs, .items, .nextItem, .dram, .ras, .trv] L₀ = true) :
    Kept L₀ t₀ (State.sessTick s n at_) := by
  refine h₀.step (M := [.pfMsix, .irqs, .items, .nextItem, .dram, .ras, .trv]) ?_ hs₀
  clear h₀ hs₀ t₀ L₀
  unfold State.sessTick
  repeat' (first | (with_reducible exact Kept.refl _ _) | (extract_lets +onlyGivenNames x; have : x.2 = x.2 := rfl; clear this; subst x) | (extract_lets +onlyGivenNames x; clear_value x) | (with_reducible refine Kept.ite (fun _ => ?_) (fun _ => ?_)) | ((with_reducible apply State.setSess_kept); on_goal 2 => exact rfl) | ((with_reducible apply State.refuseSlotless_kept); on_goal 2 => exact rfl) | ((with_reducible apply State.ringFrame_kept); on_goal 2 => exact rfl) | ((with_reducible apply State.memWrite_kept); on_goal 2 => exact rfl) | ((with_reducible apply State.trvCount_kept); on_goal 2 => exact rfl) | ((with_reducible apply State.fireStep_kept); on_goal 2 => exact rfl) | ((with_reducible refine Kept.withSess ?_ (fun _ => ?_))) | split)

theorem State.energy_kept {s : State} {l : List Int}
    {L₀ t₀} (h₀ : Kept L₀ t₀ s) (hs₀ : sliceSub [.free] L₀ = true) :
    Kept L₀ t₀ (State.energy s l).2 := by
  refine h₀.step (M := [.free]) ?_ hs₀
  clear h₀ hs₀ t₀ L₀
  unfold State.energy
  repeat' (first | (with_reducible exact Kept.refl _ _) | (extract_lets +onlyGivenNames x; clear_value x) | (with_reducible refine State.draw_kept_eq ?_ rfl (by assumption)) | split)

theorem State.gateSteps_kept {s : State} {n : Nat} {st : Status}
    {L₀ t₀} (h₀ : Kept L₀ t₀ s) (hs₀ : sliceSub [.items] L₀ = true) :
    Kept L₀ t₀ (State.gateSteps s n st) := by
  refine h₀.step (M := [.items]) ?_ hs₀
  clear h₀ hs₀ t₀ L₀
  unfold State.gateSteps
  repeat' (first | (with_reducible exact Kept.refl _ _) | (with_reducible assumption) | ((with_reducible apply State.setItem_kept); on_goal 2 => exact rfl) | ((with_reducible refine Kept.each ?_ (fun _ _ _ => ?_))))

theorem State.setGoneGate_kept {s : State} {n : Nat} {sub : Nat}
    {L₀ t₀} (h₀ : Kept L₀ t₀ s) (hs₀ : sliceSub [.items, .trv] L₀ = true) :
    Kept L₀ t₀ (State.setGoneGate s n sub) := by
  refine h₀.step (M := [.items, .trv]) ?_ hs₀
  clear h₀ hs₀ t₀ L₀
  unfold State.setGoneGate
  repeat' (first | (with_reducible exact Kept.refl _ _) | (extract_lets +onlyGivenNames x; have : x.2 = x.2 := rfl; clear this; subst x) | ((with_reducible apply State.setSess_kept); on_goal 2 => exact rfl) | ((with_reducible apply State.gateSteps_kept); on_goal 2 => exact rfl))

theorem State.setHoldGate_kept {s : State} {n : Nat}
    {L₀ t₀} (h₀ : Kept L₀ t₀ s) (hs₀ : sliceSub [.items, .trv] L₀ = true) :
    Kept L₀ t₀ (State.setHoldGate s n) := by
  refine h₀.step (M := [.items, .trv]) ?_ hs₀
  clear h₀ hs₀ t₀ L₀
  unfold State.setHoldGate
  repeat' (first | (with_reducible exact Kept.refl _ _) | (extract_lets +onlyGivenNames x; have : x.2 = x.2 := rfl; clear this; subst x) | (extract_lets +onlyGivenNames x; clear_value x) | ((with_reducible apply State.setSess_kept); on_goal 2 => exact rfl) | ((with_reducible apply State.gateSteps_kept); on_goal 2 => exact rfl) | ((with_reducible refine Kept.withSess ?_ (fun _ => ?_))))

theorem State.clearHoldGate_kept {s : State} {n : Nat}
    {L₀ t₀} (h₀ : Kept L₀ t₀ s) (hs₀ : sliceSub [.trv] L₀ = true) :
    Kept L₀ t₀ (State.clearHoldGate s n) := by
  refine h₀.step (M := [.trv]) ?_ hs₀
  clear h₀ hs₀ t₀ L₀
  unfold State.clearHoldGate
  repeat' (first | (with_reducible exact Kept.refl _ _) | (extract_lets +onlyGivenNames x; have : x.2 = x.2 := rfl; clear this; subst x) | ((with_reducible apply State.setSess_kept); on_goal 2 => exact rfl) | ((with_reducible refine Kept.withSess ?_ (fun _ => ?_))))

theorem State.bargeSweep_kept {s : State} {n : Nat}
    {L₀ t₀} (h₀ : Kept L₀ t₀ s) (hs₀ : sliceSub [.trv] L₀ = true) :
    Kept L₀ t₀ (State.bargeSweep s n) := by
  refine h₀.step (M := [.trv]) ?_ hs₀
  clear h₀ hs₀ t₀ L₀
  unfold State.bargeSweep
  repeat' (first | (with_reducible exact Kept.refl _ _) | (extract_lets +onlyGivenNames x; have : x.2 = x.2 := rfl; clear this; subst x) | ((with_reducible apply State.trvCount_kept); on_goal 2 => exact rfl) | ((with_reducible apply State.setSess_kept); on_goal 2 => exact rfl) | ((with_reducible refine Kept.withSess ?_ (fun _ => ?_))))

theorem State.present_kept {s : State} {n : Nat} {x : SessSt} {f : Nat}
    {L₀ t₀} (h₀ : Kept L₀ t₀ s) (hs₀ : sliceSub [.pfMsix, .irqs, .dram, .ras] L₀ = true) :
    Kept L₀ t₀ (State.present s n x f).2 := by
  refine h₀.step (M := [.pfMsix, .irqs, .dram, .ras]) ?_ hs₀
  clear h₀ hs₀ t₀ L₀
  unfold State.present
  repeat' (first | (with_reducible exact Kept.refl _ _) | ((with_reducible apply State.ringFrame_kept); on_goal 2 => exact rfl) | split)

theorem State.present_kept_eq {s : State} {n : Nat} {x : SessSt} {f : Nat} {r0₀} {L₀ t₀ r₀} (h₀ : Kept L₀ t₀ s) (hs₀ : sliceSub [.pfMsix, .irqs, .dram, .ras] L₀ = true)
    (e₀ : State.present s n x f = (r0₀, r₀)) : Kept L₀ t₀ r₀ := by
  have k := State.present_kept (s := s) (n := n) (x := x) (f := f) h₀ hs₀
  rw [e₀] at k; exact k

theorem State.beginTick_kept {s : State} {n : Nat} {x : SessSt}
    {L₀ t₀} (h₀ : Kept L₀ t₀ s) (hs₀ : sliceSub [.pfMsix, .irqs, .dram, .ras, .trv] L₀ = true) :
    Kept L₀ t₀ (State.beginTick s n x) := by
  refine h₀.step (M := [.pfMsix, .irqs, .dram, .ras, .trv]) ?_ hs₀
  clear h₀ hs₀ t₀ L₀
  unfold State.beginTick
  repeat' (first | (with_reducible exact Kept.refl _ _) | (extract_lets +onlyGivenNames x; have : x.2 = x.2 := rfl; clear this; subst x) | (extract_lets +onlyGivenNames x; have : x = fun a => x a := rfl; clear this; subst x; beta_reduce) | (extract_lets +onlyGivenNames x; clear_value x) | (with_reducible refine Kept.ite (fun _ => ?_) (fun _ => ?_)) | ((with_reducible apply State.setOut_kept); on_goal 2 => exact rfl) | (with_reducible refine State.present_kept_eq ?_ rfl (by assumption)) | ((with_reducible apply State.trvCount_kept); on_goal 2 => exact rfl) | split)

theorem State.fillSample_kept {s : State} {n : Nat} {k : FillKind}
    {L₀ t₀} (h₀ : Kept L₀ t₀ s) (hs₀ : sliceSub [.trv, .free] L₀ = true) :
    Kept L₀ t₀ (State.fillSample s n k).2 := by
  refine h₀.step (M := [.trv, .free]) ?_ hs₀
  clear h₀ hs₀ t₀ L₀
  unfold State.fillSample
  repeat' (first | (with_reducible exact Kept.refl _ _) | ((with_reducible apply State.draw_kept); on_goal 2 => exact rfl) | ((with_reducible apply State.setOut_kept); on_goal 2 => exact rfl) | split)

theorem State.roundFree_kept {s : State} {num : Int} {den : Nat}
    {L₀ t₀} (h₀ : Kept L₀ t₀ s) (hs₀ : sliceSub [.free] L₀ = true) :
    Kept L₀ t₀ (State.roundFree s num den).2 := by
  refine h₀.step (M := [.free]) ?_ hs₀
  clear h₀ hs₀ t₀ L₀
  unfold State.roundFree
  repeat' (first | (with_reducible exact Kept.refl _ _) | ((with_reducible apply State.draw_kept); on_goal 2 => exact rfl) | split)

theorem State.sample_kept {s : State} {n : Nat} {x : SessSt} {stopping : Bool}
    {L₀ t₀} (h₀ : Kept L₀ t₀ s) (hs₀ : sliceSub [.trv, .free] L₀ = true) :
    Kept L₀ t₀ (State.sample s n x stopping).2 := by
  refine h₀.step (M := [.trv, .free]) ?_ hs₀
  clear h₀ hs₀ t₀ L₀
  unfold State.sample
  repeat' (first | (with_reducible exact Kept.refl _ _) | (extract_lets +onlyGivenNames x; have : x.2 = x.2 := rfl; clear this; subst x) | (extract_lets +onlyGivenNames x; clear_value x) | ((with_reducible apply State.fillSample_kept); on_goal 2 => exact rfl) | ((with_reducible apply State.roundFree_kept); on_goal 2 => exact rfl) | split)

theorem State.renderOne_kept {s : State} {n : Nat}
    {L₀ t₀} (h₀ : Kept L₀ t₀ s) (hs₀ : sliceSub [.trv, .free] L₀ = true) :
    Kept L₀ t₀ (State.renderOne s n) := by
  refine h₀.step (M := [.trv, .free]) ?_ hs₀
  clear h₀ hs₀ t₀ L₀
  unfold State.renderOne
  repeat' (first | (with_reducible exact Kept.refl _ _) | (extract_lets +onlyGivenNames x; have : x.2 = x.2 := rfl; clear this; subst x) | (extract_lets +onlyGivenNames x; clear_value x) | (with_reducible refine Kept.ite (fun _ => ?_) (fun _ => ?_)) | ((with_reducible apply State.setOut_kept); on_goal 2 => exact rfl) | ((with_reducible apply State.sample_kept); on_goal 2 => exact rfl) | ((with_reducible apply State.energy_kept); on_goal 2 => exact rfl) | ((with_reducible apply State.setSess_kept); on_goal 2 => exact rfl) | ((with_reducible refine Kept.withSess ?_ (fun _ => ?_))))

end Sys2Proof.Machine
end

