-- ==== Sys2Proof/Laws/MsgOps.lean ====
section
/-! SUPPORT. What each operation of Machine/MsgOps.lean may change (`Kept`): the parts of the state, listed; every memory stays canonical,
and no bit of Cairn is cleared. -/

set_option linter.unusedTactic false
set_option linter.unreachableTactic false

namespace Sys2Proof.Machine

theorem State.pump_kept {s : State} {p : Port} {n : Nat} {L t} (h : Kept L t s)
    (hs : sliceSub [.sends, .links] L = true) : Kept L t (s.pump p n) := by
  refine h.step (M := [.sends, .links]) ?_ hs
  clear h hs t L
  induction n generalizing s with
  | zero => exact Kept.refl _ _
  | succ n ih =>
    unfold State.pump
    split
    · extract_lets x y
      have hx : Kept [.sends, .links] s x := State.setLink_kept (Kept.refl _ _) rfl
      clear_value x
      refine Kept.trans ?_ ih
      unfold y
      split
      · rewrite [updateOf_eq]; exact Kept.set_sends hx rfl
      · exact hx
    · exact Kept.refl _ _

theorem State.enqueue_kept {s : State} {p : Port} {fs : List Flit}
    {L₀ t₀} (h₀ : Kept L₀ t₀ s) (hs₀ : sliceSub [.sends, .links] L₀ = true) :
    Kept L₀ t₀ (State.enqueue s p fs) := by
  refine h₀.step (M := [.sends, .links]) ?_ hs₀
  clear h₀ hs₀ t₀ L₀
  unfold State.enqueue
  repeat' (first | (with_reducible exact Kept.refl _ _) | (extract_lets +onlyGivenNames x; have : x.2 = x.2 := rfl; clear this; subst x) | ((with_reducible apply State.setLink_kept); on_goal 2 => exact rfl) | ((with_reducible apply State.pump_kept); on_goal 2 => exact rfl))

theorem State.sendCtl_kept {s : State} {p : Port} {ctype : Nat} {body : List (Nat × Nat × Nat)} {vc : Fin 4}
    {L₀ t₀} (h₀ : Kept L₀ t₀ s) (hs₀ : sliceSub [.sends, .links] L₀ = true) :
    Kept L₀ t₀ (State.sendCtl s p ctype body vc) := by
  refine h₀.step (M := [.sends, .links]) ?_ hs₀
  clear h₀ hs₀ t₀ L₀
  unfold State.sendCtl
  repeat' (first | (with_reducible exact Kept.refl _ _) | (extract_lets +onlyGivenNames x; have : x.2 = x.2 := rfl; clear this; subst x) | (extract_lets +onlyGivenNames x; clear_value x) | ((with_reducible apply State.setLink_kept); on_goal 2 => exact rfl) | ((with_reducible apply State.enqueue_kept); on_goal 2 => exact rfl))

theorem State.askStop_kept {s : State} {id : Nat} {st : Status}
    {L₀ t₀} (h₀ : Kept L₀ t₀ s) (hs₀ : sliceSub [.items] L₀ = true) :
    Kept L₀ t₀ (State.askStop s id st) := by
  refine h₀.step (M := [.items]) ?_ hs₀
  clear h₀ hs₀ t₀ L₀
  unfold State.askStop
  repeat' (first | (with_reducible exact Kept.refl _ _) | ((with_reducible apply State.setItem_kept); on_goal 2 => exact rfl))

theorem State.kernelFault_kept {s : State} {q : Quad} {tile : Nat} {op : Nat} {cause : Nat}
    {L₀ t₀} (h₀ : Kept L₀ t₀ s) (hs₀ : sliceSub [.pfMsix, .irqs, .items, .ras, .crest] L₀ = true) :
    Kept L₀ t₀ (State.kernelFault s q tile op cause) := by
  refine h₀.step (M := [.pfMsix, .irqs, .items, .ras, .crest]) ?_ hs₀
  clear h₀ hs₀ t₀ L₀
  unfold State.kernelFault
  repeat' (first | (with_reducible exact Kept.refl _ _) | (extract_lets +onlyGivenNames x; have : x.2 = x.2 := rfl; clear this; subst x) | ((with_reducible apply State.setCq_kept); on_goal 2 => exact rfl) | ((with_reducible apply State.setItem_kept); on_goal 2 => exact rfl) | ((with_reducible apply State.askStop_kept); on_goal 2 => exact rfl) | ((with_reducible apply State.log_kept); on_goal 2 => exact rfl) | split)

theorem State.signalSem_kept {s : State} {q : Quad} {k : Fin 16} {n : Nat}
    {L₀ t₀} (h₀ : Kept L₀ t₀ s) (hs₀ : sliceSub [.pfMsix, .irqs, .items, .ras, .crest] L₀ = true) :
    Kept L₀ t₀ (State.signalSem s q k n) := by
  refine h₀.step (M := [.pfMsix, .irqs, .items, .ras, .crest]) ?_ hs₀
  clear h₀ hs₀ t₀ L₀
  unfold State.signalSem
  repeat' (first | (with_reducible exact Kept.refl _ _) | (with_reducible refine Kept.ite (fun _ => ?_) (fun _ => ?_)) | ((with_reducible apply State.kernelFault_kept); on_goal 2 => exact rfl) | ((with_reducible apply State.setCq_kept); on_goal 2 => exact rfl))

theorem State.sendDone_kept {s : State} {r : SendRec} {st : Status} {len : Nat} {hint : Nat} {srcPart : Nat}
    {L₀ t₀} (h₀ : Kept L₀ t₀ s) (hs₀ : sliceSub [.vfs, .pfMsix, .irqs, .items, .sends, .dram, .ras, .crest, .hostMem] L₀ = true) :
    Kept L₀ t₀ (State.sendDone s r st len hint srcPart) := by
  refine h₀.step (M := [.vfs, .pfMsix, .irqs, .items, .sends, .dram, .ras, .crest, .hostMem]) ?_ hs₀
  clear h₀ hs₀ t₀ L₀
  unfold State.sendDone
  repeat' (first | (with_reducible exact Kept.refl _ _) | (rewrite [updateOf_eq]; (with_reducible refine Kept.set_sends ?_ ?h0); (case h0 => exact rfl)) | (extract_lets +onlyGivenNames x; have : x.2 = x.2 := rfl; clear this; subst x) | (extract_lets +onlyGivenNames x; clear_value x) | (with_reducible refine Kept.ite (fun _ => ?_) (fun _ => ?_)) | ((with_reducible apply State.hostWrite_kept); on_goal 2 => exact rfl) | ((with_reducible apply State.winWrite_kept); on_goal 2 => exact rfl) | ((with_reducible apply State.event_kept); on_goal 2 => exact rfl) | ((with_reducible apply State.setVf_kept); on_goal 2 => exact rfl) | ((with_reducible apply State.signalSem_kept); on_goal 2 => exact rfl) | ((with_reducible apply State.setItem_kept); on_goal 2 => exact rfl) | split)

theorem State.countTimeout_kept {s : State} {p : Part}
    {L₀ t₀} (h₀ : Kept L₀ t₀ s) (hs₀ : sliceSub [.pmsg] L₀ = true) :
    Kept L₀ t₀ (State.countTimeout s p) := by
  refine h₀.step (M := [.pmsg]) ?_ hs₀
  clear h₀ hs₀ t₀ L₀
  unfold State.countTimeout
  repeat' (first | (with_reducible exact Kept.refl _ _) | (rewrite [updateOf_eq]; (with_reducible refine Kept.set_pmsg ?_ ?h0); (case h0 => exact rfl)))

theorem State.freeCellOf_kept {s : State} {p : Part} {k : Nat}
    {L₀ t₀} (h₀ : Kept L₀ t₀ s) (hs₀ : sliceSub [.parts] L₀ = true) :
    Kept L₀ t₀ (State.freeCellOf s p k) := by
  refine h₀.step (M := [.parts]) ?_ hs₀
  clear h₀ hs₀ t₀ L₀
  unfold State.freeCellOf
  repeat' (first | (with_reducible exact Kept.refl _ _) | ((with_reducible apply State.setPart_kept); on_goal 2 => exact rfl))

theorem State.servedDecide_kept {s : State} {p : Part}
    {L₀ t₀} (h₀ : Kept L₀ t₀ s) (hs₀ : sliceSub [.items] L₀ = true) :
    Kept L₀ t₀ (State.servedDecide s p) := by
  refine h₀.step (M := [.items]) ?_ hs₀
  clear h₀ hs₀ t₀ L₀
  unfold State.servedDecide
  repeat' (first | (with_reducible exact Kept.refl _ _) | (with_reducible assumption) | (extract_lets +onlyGivenNames x; clear_value x) | (with_reducible refine Kept.ite (fun _ => ?_) (fun _ => ?_)) | ((with_reducible apply State.setItem_kept); on_goal 2 => exact rfl) | ((with_reducible apply State.breakServed_kept); on_goal 2 => exact rfl) | ((with_reducible refine Kept.each ?_ (fun _ _ _ => ?_))) | split)

theorem State.noteServed_kept {s : State} {p : Part} {h : MsgHdr}
    {L₀ t₀} (h₀ : Kept L₀ t₀ s) (hs₀ : sliceSub [.parts] L₀ = true) :
    Kept L₀ t₀ (State.noteServed s p h) := by
  refine h₀.step (M := [.parts]) ?_ hs₀
  clear h₀ hs₀ t₀ L₀
  unfold State.noteServed
  repeat' (first | (with_reducible exact Kept.refl _ _) | (extract_lets +onlyGivenNames x; have : x = fun a => x a := rfl; clear this; subst x; beta_reduce) | ((with_reducible apply State.setPart_kept); on_goal 2 => exact rfl))

theorem State.serve_kept {s : State} {p : Part} {a : Arrived} {cell : Nat}
    {L₀ t₀} (h₀ : Kept L₀ t₀ s) (hs₀ : sliceSub [.parts, .items, .nextItem] L₀ = true) :
    Kept L₀ t₀ (State.serve s p a cell) := by
  refine h₀.step (M := [.parts, .items, .nextItem]) ?_ hs₀
  clear h₀ hs₀ t₀ L₀
  unfold State.serve
  repeat' (first | (with_reducible exact Kept.refl _ _) | (extract_lets +onlyGivenNames x; have : x.2 = x.2 := rfl; clear this; subst x) | (extract_lets +onlyGivenNames x; clear_value x) | (with_reducible refine Kept.ite (fun _ => ?_) (fun _ => ?_)) | ((with_reducible apply State.addItem_kept); on_goal 2 => exact rfl) | ((with_reducible apply State.setItem_kept); on_goal 2 => exact rfl) | ((with_reducible apply State.servedDecide_kept); on_goal 2 => exact rfl) | ((with_reducible apply State.noteServed_kept); on_goal 2 => exact rfl) | ((with_reducible apply State.placeEntry_kept); on_goal 2 => exact rfl))

theorem State.grantSlots_kept {s : State} {p : Part}
    {L₀ t₀} (h₀ : Kept L₀ t₀ s) (hs₀ : sliceSub [.parts, .items, .nextItem] L₀ = true) :
    Kept L₀ t₀ (State.grantSlots s p) := by
  refine h₀.step (M := [.parts, .items, .nextItem]) ?_ hs₀
  clear h₀ hs₀ t₀ L₀
  unfold State.grantSlots
  repeat' (first | (with_reducible exact Kept.refl _ _) | (with_reducible assumption) | (extract_lets +onlyGivenNames x; have : x.2 = x.2 := rfl; clear this; subst x) | (with_reducible refine Kept.ite (fun _ => ?_) (fun _ => ?_)) | ((with_reducible apply State.stepSlots_kept); on_goal 2 => exact rfl) | ((with_reducible apply State.serve_kept); on_goal 2 => exact rfl) | ((with_reducible apply State.setPart_kept); on_goal 2 => exact rfl) | ((with_reducible refine Kept.each ?_ (fun _ _ _ => ?_))))

theorem State.arriveReply_kept {s : State} {m : Msg}
    {L₀ t₀} (h₀ : Kept L₀ t₀ s) (hs₀ : sliceSub [.parts] L₀ = true) :
    Kept L₀ t₀ (State.arriveReply s m) := by
  refine h₀.step (M := [.parts]) ?_ hs₀
  clear h₀ hs₀ t₀ L₀
  unfold State.arriveReply
  repeat' (first | (with_reducible exact Kept.refl _ _) | ((with_reducible apply State.setPart_kept); on_goal 2 => exact rfl))

theorem State.sendOn_kept {s : State} {p : Port} {vc : Fin 4} {dl : Bool} {m : Msg} {req : Option Nat}
    {L₀ t₀} (h₀ : Kept L₀ t₀ s) (hs₀ : sliceSub [.sends, .links] L₀ = true) :
    Kept L₀ t₀ (State.sendOn s p vc dl m req) := by
  refine h₀.step (M := [.sends, .links]) ?_ hs₀
  clear h₀ hs₀ t₀ L₀
  unfold State.sendOn
  repeat' (first | (with_reducible exact Kept.refl _ _) | (extract_lets +onlyGivenNames x; have : x.2 = x.2 := rfl; clear this; subst x) | ((with_reducible apply State.enqueue_kept); on_goal 2 => exact rfl))

theorem State.sendReply_kept {s : State} {a : Arrived} {st : Status} {hint : Nat} {payload : List Byte} {pz : Option Nat}
    {L₀ t₀} (h₀ : Kept L₀ t₀ s) (hs₀ : sliceSub [.parts, .sends, .links] L₀ = true) :
    Kept L₀ t₀ (State.sendReply s a st hint payload pz) := by
  refine h₀.step (M := [.parts, .sends, .links]) ?_ hs₀
  clear h₀ hs₀ t₀ L₀
  unfold State.sendReply
  repeat' (first | (with_reducible exact Kept.refl _ _) | (extract_lets +onlyGivenNames x; have : x.2 = x.2 := rfl; clear this; subst x) | (with_reducible refine Kept.ite (fun _ => ?_) (fun _ => ?_)) | ((with_reducible apply State.arriveReply_kept); on_goal 2 => exact rfl) | ((with_reducible apply State.discarded_kept); on_goal 2 => exact rfl) | ((with_reducible apply State.sendOn_kept); on_goal 2 => exact rfl) | split)

theorem State.noteAnswer_kept {s : State} {p : Part} {h : MsgHdr} {st : Status}
    {L₀ t₀} (h₀ : Kept L₀ t₀ s) (hs₀ : sliceSub [.parts] L₀ = true) :
    Kept L₀ t₀ (State.noteAnswer s p h st) := by
  refine h₀.step (M := [.parts]) ?_ hs₀
  clear h₀ hs₀ t₀ L₀
  unfold State.noteAnswer
  repeat' (first | (with_reducible exact Kept.refl _ _) | ((with_reducible apply State.setPart_kept); on_goal 2 => exact rfl))

theorem State.answerHandoff_kept {s : State} {i : Item} {st : Status} {hint : Nat}
    {L₀ t₀} (h₀ : Kept L₀ t₀ s) (hs₀ : sliceSub [.parts, .items, .nextItem, .sends, .links] L₀ = true) :
    Kept L₀ t₀ (State.answerHandoff s i st hint) := by
  refine h₀.step (M := [.parts, .items, .nextItem, .sends, .links]) ?_ hs₀
  clear h₀ hs₀ t₀ L₀
  unfold State.answerHandoff
  repeat' (first | (with_reducible exact Kept.refl _ _) | (rewrite [updateOf_eq]; (with_reducible refine Kept.set_items ?_ ?h0); (case h0 => exact rfl)) | (extract_lets +onlyGivenNames x; have : x.2 = x.2 := rfl; clear this; subst x) | (extract_lets +onlyGivenNames x; clear_value x) | (with_reducible refine Kept.ite (fun _ => ?_) (fun _ => ?_)) | ((with_reducible apply State.freeCellOf_kept); on_goal 2 => exact rfl) | ((with_reducible apply State.grantSlots_kept); on_goal 2 => exact rfl) | ((with_reducible apply State.sendReply_kept); on_goal 2 => exact rfl) | ((with_reducible apply State.servedDecide_kept); on_goal 2 => exact rfl) | ((with_reducible apply State.noteAnswer_kept); on_goal 2 => exact rfl) | split)

theorem State.arrive_kept {s : State} {a : Arrived}
    {L₀ t₀} (h₀ : Kept L₀ t₀ s) (hs₀ : sliceSub [.parts] L₀ = true) :
    Kept L₀ t₀ (State.arrive s a) := by
  refine h₀.step (M := [.parts]) ?_ hs₀
  clear h₀ hs₀ t₀ L₀
  unfold State.arrive
  repeat' (first | (with_reducible exact Kept.refl _ _) | ((with_reducible apply State.setPart_kept); on_goal 2 => exact rfl))

theorem State.issueSend_kept {s : State} {h : MsgHdr} {payload : List Byte} {pz : Option Nat} {r : SendRec}
    {L₀ t₀} (h₀ : Kept L₀ t₀ s) (hs₀ : sliceSub [.parts, .vfs, .pfMsix, .irqs, .items, .sends, .nextMid, .dram, .ras, .crest, .links, .hostMem] L₀ = true) :
    Kept L₀ t₀ (State.issueSend s h payload pz r) := by
  refine h₀.step (M := [.parts, .vfs, .pfMsix, .irqs, .items, .sends, .nextMid, .dram, .ras, .crest, .links, .hostMem]) ?_ hs₀
  clear h₀ hs₀ t₀ L₀
  unfold State.issueSend
  repeat' (first | (with_reducible exact Kept.refl _ _) | (rewrite [updateOf_eq]; (with_reducible refine Kept.set_sends ?_ ?h0); (case h0 => exact rfl)) | (rewrite [updateOf_eq]; (with_reducible refine Kept.set_nextMid ?_ ?h0); (case h0 => exact rfl)) | (extract_lets +onlyGivenNames x; have : x.2 = x.2 := rfl; clear this; subst x) | (extract_lets +onlyGivenNames x; clear_value x) | (with_reducible refine Kept.ite (fun _ => ?_) (fun _ => ?_)) | ((with_reducible apply State.arrive_kept); on_goal 2 => exact rfl) | ((with_reducible apply State.sendDone_kept); on_goal 2 => exact rfl) | ((with_reducible apply State.sendOn_kept); on_goal 2 => exact rfl) | split)

theorem State.spurFault_kept {s : State} {p : Part} {cause : Nat} {owner : Option (Nat × Quad)} {slot : Nat}
    {L₀ t₀} (h₀ : Kept L₀ t₀ s) (hs₀ : sliceSub [.spur] L₀ = true) :
    Kept L₀ t₀ (State.spurFault s p cause owner slot) := by
  refine h₀.step (M := [.spur]) ?_ hs₀
  clear h₀ hs₀ t₀ L₀
  unfold State.spurFault
  repeat' (first | (with_reducible exact Kept.refl _ _) | ((with_reducible apply State.setSpurPart_kept); on_goal 2 => exact rfl))

theorem State.holdRequest_kept {s : State} {p : Part} {a : Arrived}
    {L₀ t₀} (h₀ : Kept L₀ t₀ s) (hs₀ : sliceSub [.parts, .sends, .links, .free] L₀ = true) :
    Kept L₀ t₀ (State.holdRequest s p a) := by
  refine h₀.step (M := [.parts, .sends, .links, .free]) ?_ hs₀
  clear h₀ hs₀ t₀ L₀
  unfold State.holdRequest
  repeat' (first | (with_reducible exact Kept.refl _ _) | (with_reducible refine Kept.ite (fun _ => ?_) (fun _ => ?_)) | ((with_reducible apply State.setPart_kept); on_goal 2 => exact rfl) | ((with_reducible apply State.draw_kept); on_goal 2 => exact rfl) | ((with_reducible apply State.sendReply_kept); on_goal 2 => exact rfl))

theorem State.takeRequest_kept {s : State} {p : Part} {a : Arrived}
    {L₀ t₀} (h₀ : Kept L₀ t₀ s) (hs₀ : sliceSub [.parts, .pfMsix, .irqs, .items, .nextItem, .sends, .dram, .ras, .links, .free] L₀ = true) :
    Kept L₀ t₀ (State.takeRequest s p a) := by
  refine h₀.step (M := [.parts, .pfMsix, .irqs, .items, .nextItem, .sends, .dram, .ras, .links, .free]) ?_ hs₀
  clear h₀ hs₀ t₀ L₀
  unfold State.takeRequest
  repeat' (first | (with_reducible exact Kept.refl _ _) | (extract_lets +onlyGivenNames x; have : x.2 = x.2 := rfl; clear this; subst x) | (extract_lets +onlyGivenNames x; have : x = fun a => x a := rfl; clear this; subst x; beta_reduce) | (extract_lets +onlyGivenNames x; clear_value x) | (with_reducible refine Kept.ite (fun _ => ?_) (fun _ => ?_)) | ((with_reducible apply State.sendReply_kept); on_goal 2 => exact rfl) | ((with_reducible apply State.setPart_kept); on_goal 2 => exact rfl) | ((with_reducible apply State.holdRequest_kept); on_goal 2 => exact rfl) | ((with_reducible apply State.winWrite_kept); on_goal 2 => exact rfl) | ((with_reducible apply State.serve_kept); on_goal 2 => exact rfl) | split)

theorem State.countLate_kept {s : State} {p : Part}
    {L₀ t₀} (h₀ : Kept L₀ t₀ s) (hs₀ : sliceSub [.pmsg] L₀ = true) :
    Kept L₀ t₀ (State.countLate s p) := by
  refine h₀.step (M := [.pmsg]) ?_ hs₀
  clear h₀ hs₀ t₀ L₀
  unfold State.countLate
  repeat' (first | (with_reducible exact Kept.refl _ _) | (rewrite [updateOf_eq]; (with_reducible refine Kept.set_pmsg ?_ ?h0); (case h0 => exact rfl)))

end Sys2Proof.Machine
end

