-- ==== Sys2Proof/Laws/OptOps.lean ====
section
/-! SUPPORT. What each operation of Machine/OptOps.lean may change (`Kept`): the parts of the state, listed; every memory stays canonical,
and no bit of Cairn is cleared. -/

set_option linter.unusedTactic false
set_option linter.unreachableTactic false

namespace Sys2Proof.Machine

theorem State.setRing_kept {s : State} {p : Port} {k : Fin 36} {f : RingSt → RingSt}
    {L₀ t₀} (h₀ : Kept L₀ t₀ s) (hs₀ : sliceSub [.ports] L₀ = true) :
    Kept L₀ t₀ (State.setRing s p k f) := by
  refine h₀.step (M := [.ports]) ?_ hs₀
  clear h₀ hs₀ t₀ L₀
  unfold State.setRing
  repeat' (first | (with_reducible exact Kept.refl _ _) | ((with_reducible apply State.setPort_kept); on_goal 2 => exact rfl))

theorem State.setPos_kept {s : State} {p : Port} {rx : Bool} {g : Pos} {v : GState}
    {L₀ t₀} (h₀ : Kept L₀ t₀ s) (hs₀ : sliceSub [.ports] L₀ = true) :
    Kept L₀ t₀ (State.setPos s p rx g v) := by
  refine h₀.step (M := [.ports]) ?_ hs₀
  clear h₀ hs₀ t₀ L₀
  unfold State.setPos
  repeat' (first | (with_reducible exact Kept.refl _ _) | ((with_reducible apply State.setPort_kept); on_goal 2 => exact rfl))

theorem State.setFault_kept {s : State} {p : Port} {rx : Bool} {g : Pos}
    {L₀ t₀} (h₀ : Kept L₀ t₀ s) (hs₀ : sliceSub [.pfMsix, .irqs, .ras, .ports] L₀ = true) :
    Kept L₀ t₀ (State.setFault s p rx g) := by
  refine h₀.step (M := [.pfMsix, .irqs, .ras, .ports]) ?_ hs₀
  clear h₀ hs₀ t₀ L₀
  unfold State.setFault
  repeat' (first | (with_reducible exact Kept.refl _ _) | (extract_lets +onlyGivenNames x; have : x.2 = x.2 := rfl; clear this; subst x) | ((with_reducible apply State.setPort_kept); on_goal 2 => exact rfl) | ((with_reducible apply State.setPos_kept); on_goal 2 => exact rfl) | ((with_reducible apply State.log_kept); on_goal 2 => exact rfl))

end Sys2Proof.Machine
end

