-- ==== Sys2Proof/Laws/LinkOps.lean ====
section
/-! SUPPORT. What each operation of Machine/LinkOps.lean may change (`Kept`): the parts of the state, listed; every memory stays canonical,
and no bit of Cairn is cleared. -/

set_option linter.unusedTactic false
set_option linter.unreachableTactic false

namespace Sys2Proof.Machine

theorem State.calCount_kept {s : State} {p : Port} {i : Fin 4}
    {L₀ t₀} (h₀ : Kept L₀ t₀ s) (hs₀ : sliceSub [.cal] L₀ = true) :
    Kept L₀ t₀ (State.calCount s p i) := by
  refine h₀.step (M := [.cal]) ?_ hs₀
  clear h₀ hs₀ t₀ L₀
  unfold State.calCount
  repeat' (first | (with_reducible exact Kept.refl _ _) | (rewrite [updateOf_eq]; (with_reducible refine Kept.set_cal ?_ ?h0); (case h0 => exact rfl)))

theorem State.slotOver_kept {s : State} {p : Port}
    {L₀ t₀} (h₀ : Kept L₀ t₀ s) (hs₀ : sliceSub [.ports, .links] L₀ = true) :
    Kept L₀ t₀ (State.slotOver s p) := by
  refine h₀.step (M := [.ports, .links]) ?_ hs₀
  clear h₀ hs₀ t₀ L₀
  unfold State.slotOver
  repeat' (first | (with_reducible exact Kept.refl _ _) | ((with_reducible apply State.setPort_kept); on_goal 2 => exact rfl) | ((with_reducible apply State.setLink_kept); on_goal 2 => exact rfl))

theorem State.slotBack_kept {s : State} {p : Port} {cause : Nat}
    {L₀ t₀} (h₀ : Kept L₀ t₀ s) (hs₀ : sliceSub [.pfMsix, .irqs, .ras, .ports, .links, .cal] L₀ = true) :
    Kept L₀ t₀ (State.slotBack s p cause) := by
  refine h₀.step (M := [.pfMsix, .irqs, .ras, .ports, .links, .cal]) ?_ hs₀
  clear h₀ hs₀ t₀ L₀
  unfold State.slotBack
  repeat' (first | (with_reducible exact Kept.refl _ _) | (extract_lets +onlyGivenNames x; have : x.2 = x.2 := rfl; clear this; subst x) | (with_reducible refine Kept.ite (fun _ => ?_) (fun _ => ?_)) | ((with_reducible apply State.slotOver_kept); on_goal 2 => exact rfl) | ((with_reducible apply State.setLink_kept); on_goal 2 => exact rfl) | ((with_reducible apply State.setPort_kept); on_goal 2 => exact rfl) | ((with_reducible apply State.setRing_kept); on_goal 2 => exact rfl) | ((with_reducible apply State.log_kept); on_goal 2 => exact rfl) | ((with_reducible apply State.calCount_kept); on_goal 2 => exact rfl) | split)

theorem State.slotAbort_kept {s : State} {p : Port} {cause : Nat}
    {L₀ t₀} (h₀ : Kept L₀ t₀ s) (hs₀ : sliceSub [.pfMsix, .irqs, .sends, .ras, .ports, .links, .cal] L₀ = true) :
    Kept L₀ t₀ (State.slotAbort s p cause) := by
  refine h₀.step (M := [.pfMsix, .irqs, .sends, .ras, .ports, .links, .cal]) ?_ hs₀
  clear h₀ hs₀ t₀ L₀
  unfold State.slotAbort
  repeat' (first | (with_reducible exact Kept.refl _ _) | ((with_reducible apply State.slotBack_kept); on_goal 2 => exact rfl) | ((with_reducible apply State.sendCtl_kept); on_goal 2 => exact rfl) | split)

theorem State.ringDone_kept {s : State} {p : Port} {k : Fin 36}
    {L₀ t₀} (h₀ : Kept L₀ t₀ s) (hs₀ : sliceSub [.ports] L₀ = true) :
    Kept L₀ t₀ (State.ringDone s p k) := by
  refine h₀.step (M := [.ports]) ?_ hs₀
  clear h₀ hs₀ t₀ L₀
  unfold State.ringDone
  repeat' (first | (with_reducible exact Kept.refl _ _) | ((with_reducible apply State.setRing_kept); on_goal 2 => exact rfl))

theorem State.startMove_kept {s : State} {p : Port} {frm : Pos} {cause : Nat} {outage : Option Nat}
    {L₀ t₀} (h₀ : Kept L₀ t₀ s) (hs₀ : sliceSub [.pfMsix, .irqs, .sends, .ras, .ports, .links, .cal] L₀ = true) :
    Kept L₀ t₀ (State.startMove s p frm cause outage) := by
  refine h₀.step (M := [.pfMsix, .irqs, .sends, .ras, .ports, .links, .cal]) ?_ hs₀
  clear h₀ hs₀ t₀ L₀
  unfold State.startMove
  repeat' (first | (with_reducible exact Kept.refl _ _) | (extract_lets +onlyGivenNames x; have : x.2 = x.2 := rfl; clear this; subst x) | (extract_lets +onlyGivenNames x; clear_value x) | (with_reducible refine Kept.ite (fun _ => ?_) (fun _ => ?_)) | ((with_reducible apply State.setPort_kept); on_goal 2 => exact rfl) | ((with_reducible apply State.sendCtl_kept); on_goal 2 => exact rfl) | ((with_reducible apply State.slotAbort_kept); on_goal 2 => exact rfl) | split)

theorem State.becomeWarm_kept {s : State} {p : Port} {rx : Bool} {g : Pos}
    {L₀ t₀} (h₀ : Kept L₀ t₀ s) (hs₀ : sliceSub [.pfMsix, .irqs, .sends, .ras, .ports, .links, .cal] L₀ = true) :
    Kept L₀ t₀ (State.becomeWarm s p rx g) := by
  refine h₀.step (M := [.pfMsix, .irqs, .sends, .ras, .ports, .links, .cal]) ?_ hs₀
  clear h₀ hs₀ t₀ L₀
  unfold State.becomeWarm
  repeat' (first | (with_reducible exact Kept.refl _ _) | (extract_lets +onlyGivenNames x; have : x.2 = x.2 := rfl; clear this; subst x) | (with_reducible refine Kept.ite (fun _ => ?_) (fun _ => ?_)) | ((with_reducible apply State.setPos_kept); on_goal 2 => exact rfl) | ((with_reducible apply State.startMove_kept); on_goal 2 => exact rfl) | split)

theorem State.portDark_kept {s : State} {p : Port} {state : Nat}
    {L₀ t₀} (h₀ : Kept L₀ t₀ s) (hs₀ : sliceSub [.pfMsix, .irqs, .ras, .ports, .links, .cal] L₀ = true) :
    Kept L₀ t₀ (State.portDark s p state) := by
  refine h₀.step (M := [.pfMsix, .irqs, .ras, .ports, .links, .cal]) ?_ hs₀
  clear h₀ hs₀ t₀ L₀
  unfold State.portDark
  repeat' (first | (with_reducible exact Kept.refl _ _) | (extract_lets +onlyGivenNames x; have : x.2 = x.2 := rfl; clear this; subst x) | ((with_reducible apply State.slotBack_kept); on_goal 2 => exact rfl) | ((with_reducible apply State.setLink_kept); on_goal 2 => exact rfl) | ((with_reducible apply State.setPort_kept); on_goal 2 => exact rfl))

theorem State.linkGiveUp_kept {s : State} {p : Port}
    {L₀ t₀} (h₀ : Kept L₀ t₀ s) (hs₀ : sliceSub [.parts, .vfs, .pfMsix, .irqs, .items, .sends, .dram, .ras, .crest, .links, .pmsg, .hostMem] L₀ = true) :
    Kept L₀ t₀ (State.linkGiveUp s p) := by
  refine h₀.step (M := [.parts, .vfs, .pfMsix, .irqs, .items, .sends, .dram, .ras, .crest, .links, .pmsg, .hostMem]) ?_ hs₀
  clear h₀ hs₀ t₀ L₀
  unfold State.linkGiveUp
  repeat' (first | (with_reducible exact Kept.refl _ _) | (with_reducible assumption) | (extract_lets +onlyGivenNames x; have : x.2 = x.2 := rfl; clear this; subst x) | (extract_lets +onlyGivenNames x; clear_value x) | ((with_reducible apply State.setLink_kept); on_goal 2 => exact rfl) | ((with_reducible apply State.discarded_kept); on_goal 2 => exact rfl) | ((with_reducible apply State.sendDone_kept); on_goal 2 => exact rfl) | ((with_reducible apply State.countTimeout_kept); on_goal 2 => exact rfl) | ((with_reducible refine Kept.each ?_ (fun _ _ _ => ?_))) | split)

theorem State.swapFail_kept {s : State} {p : Port} {down : Bool}
    {L₀ t₀} (h₀ : Kept L₀ t₀ s) (hs₀ : sliceSub [.mbx, .pfMsix, .irqs, .links, .hostMem] L₀ = true) :
    Kept L₀ t₀ (State.swapFail s p down) := by
  refine h₀.step (M := [.mbx, .pfMsix, .irqs, .links, .hostMem]) ?_ hs₀
  clear h₀ hs₀ t₀ L₀
  unfold State.swapFail
  repeat' (first | (with_reducible exact Kept.refl _ _) | (extract_lets +onlyGivenNames x; have : x.2 = x.2 := rfl; clear this; subst x) | (extract_lets +onlyGivenNames x; have : x = fun a => x a := rfl; clear this; subst x; beta_reduce) | (with_reducible refine Kept.ite (fun _ => ?_) (fun _ => ?_)) | ((with_reducible apply State.setLink_kept); on_goal 2 => exact rfl) | ((with_reducible apply State.mbxDone_kept); on_goal 2 => exact rfl) | split)

theorem State.linkLeave_kept {s : State} {p : Port} {st : LinkState}
    {L₀ t₀} (h₀ : Kept L₀ t₀ s) (hs₀ : sliceSub [.mbx, .pfMsix, .irqs, .ras, .ports, .links, .cal, .hostMem] L₀ = true) :
    Kept L₀ t₀ (State.linkLeave s p st) := by
  refine h₀.step (M := [.mbx, .pfMsix, .irqs, .ras, .ports, .links, .cal, .hostMem]) ?_ hs₀
  clear h₀ hs₀ t₀ L₀
  unfold State.linkLeave
  repeat' (first | (with_reducible exact Kept.refl _ _) | (extract_lets +onlyGivenNames x; have : x.2 = x.2 := rfl; clear this; subst x) | ((with_reducible apply State.swapFail_kept); on_goal 2 => exact rfl) | ((with_reducible apply State.slotBack_kept); on_goal 2 => exact rfl) | ((with_reducible apply State.setLink_kept); on_goal 2 => exact rfl))

theorem State.linkDown_kept {s : State} {p : Port}
    {L₀ t₀} (h₀ : Kept L₀ t₀ s) (hs₀ : sliceSub [.mbx, .pfMsix, .irqs, .ras, .ports, .links, .cal, .hostMem] L₀ = true) :
    Kept L₀ t₀ (State.linkDown s p) := by
  refine h₀.step (M := [.mbx, .pfMsix, .irqs, .ras, .ports, .links, .cal, .hostMem]) ?_ hs₀
  clear h₀ hs₀ t₀ L₀
  unfold State.linkDown
  repeat' (first | (with_reducible exact Kept.refl _ _) | (extract_lets +onlyGivenNames x; have : x.2 = x.2 := rfl; clear this; subst x) | (with_reducible refine Kept.ite (fun _ => ?_) (fun _ => ?_)) | ((with_reducible apply State.linkLeave_kept); on_goal 2 => exact rfl) | ((with_reducible apply State.setLink_kept); on_goal 2 => exact rfl))

theorem State.portTry_kept {s : State} {p : Port}
    {L₀ t₀} (h₀ : Kept L₀ t₀ s) (hs₀ : sliceSub [.ports] L₀ = true) :
    Kept L₀ t₀ (State.portTry s p) := by
  refine h₀.step (M := [.ports]) ?_ hs₀
  clear h₀ hs₀ t₀ L₀
  unfold State.portTry
  repeat' (first | (with_reducible exact Kept.refl _ _) | (extract_lets +onlyGivenNames x; have : x.2 = x.2 := rfl; clear this; subst x) | (with_reducible refine Kept.ite (fun _ => ?_) (fun _ => ?_)) | ((with_reducible apply State.setPort_kept); on_goal 2 => exact rfl))

theorem State.posFault_kept {s : State} {p : Port} {rx : Bool} {g : Pos} {cause : Nat}
    {L₀ t₀} (h₀ : Kept L₀ t₀ s) (hs₀ : sliceSub [.pfMsix, .irqs, .sends, .ras, .ports, .links, .cal] L₀ = true) :
    Kept L₀ t₀ (State.posFault s p rx g cause) := by
  refine h₀.step (M := [.pfMsix, .irqs, .sends, .ras, .ports, .links, .cal]) ?_ hs₀
  clear h₀ hs₀ t₀ L₀
  unfold State.posFault
  repeat' (first | (with_reducible exact Kept.refl _ _) | (extract_lets +onlyGivenNames x; have : x.2 = x.2 := rfl; clear this; subst x) | (extract_lets +onlyGivenNames x; clear_value x) | (with_reducible refine Kept.ite (fun _ => ?_) (fun _ => ?_)) | ((with_reducible apply State.slotOver_kept); on_goal 2 => exact rfl) | ((with_reducible apply State.sendCtl_kept); on_goal 2 => exact rfl) | ((with_reducible apply State.startMove_kept); on_goal 2 => exact rfl) | ((with_reducible apply State.slotAbort_kept); on_goal 2 => exact rfl) | ((with_reducible apply State.setFault_kept); on_goal 2 => exact rfl) | split)

theorem State.sendFlit_kept {s : State} {p : Port} {kind : Nat} {body : List Nat}
    {L₀ t₀} (h₀ : Kept L₀ t₀ s) (hs₀ : sliceSub [.links] L₀ = true) :
    Kept L₀ t₀ (State.sendFlit s p kind body) := by
  refine h₀.step (M := [.links]) ?_ hs₀
  clear h₀ hs₀ t₀ L₀
  unfold State.sendFlit
  repeat' (first | (with_reducible exact Kept.refl _ _) | ((with_reducible apply State.setLink_kept); on_goal 2 => exact rfl))

theorem State.sendCsync_kept {s : State} {p : Port}
    {L₀ t₀} (h₀ : Kept L₀ t₀ s) (hs₀ : sliceSub [.links] L₀ = true) :
    Kept L₀ t₀ (State.sendCsync s p) := by
  refine h₀.step (M := [.links]) ?_ hs₀
  clear h₀ hs₀ t₀ L₀
  unfold State.sendCsync
  repeat' (first | (with_reducible exact Kept.refl _ _) | (extract_lets +onlyGivenNames x; have : x.2 = x.2 := rfl; clear this; subst x) | ((with_reducible apply State.sendFlit_kept); on_goal 2 => exact rfl))

theorem State.linkRetrain_kept {s : State} {p : Port}
    {L₀ t₀} (h₀ : Kept L₀ t₀ s) (hs₀ : sliceSub [.mbx, .pfMsix, .irqs, .ras, .ports, .links, .cal, .hostMem] L₀ = true) :
    Kept L₀ t₀ (State.linkRetrain s p) := by
  refine h₀.step (M := [.mbx, .pfMsix, .irqs, .ras, .ports, .links, .cal, .hostMem]) ?_ hs₀
  clear h₀ hs₀ t₀ L₀
  unfold State.linkRetrain
  repeat' (first | (with_reducible exact Kept.refl _ _) | (extract_lets +onlyGivenNames x; have : x.2 = x.2 := rfl; clear this; subst x) | (with_reducible refine Kept.ite (fun _ => ?_) (fun _ => ?_)) | ((with_reducible apply State.linkLeave_kept); on_goal 2 => exact rfl) | ((with_reducible apply State.setLink_kept); on_goal 2 => exact rfl) | ((with_reducible apply State.log_kept); on_goal 2 => exact rfl) | ((with_reducible apply State.sendCsync_kept); on_goal 2 => exact rfl))

theorem State.sendHello_kept {s : State} {p : Port}
    {L₀ t₀} (h₀ : Kept L₀ t₀ s) (hs₀ : sliceSub [.sends, .links] L₀ = true) :
    Kept L₀ t₀ (State.sendHello s p) := by
  refine h₀.step (M := [.sends, .links]) ?_ hs₀
  clear h₀ hs₀ t₀ L₀
  unfold State.sendHello
  repeat' (first | (with_reducible exact Kept.refl _ _) | (extract_lets +onlyGivenNames x; have : x.2 = x.2 := rfl; clear this; subst x) | ((with_reducible apply State.sendCtl_kept); on_goal 2 => exact rfl))

theorem State.linkStart_kept {s : State} {p : Port}
    {L₀ t₀} (h₀ : Kept L₀ t₀ s) (hs₀ : sliceSub [.sends, .links] L₀ = true) :
    Kept L₀ t₀ (State.linkStart s p) := by
  refine h₀.step (M := [.sends, .links]) ?_ hs₀
  clear h₀ hs₀ t₀ L₀
  unfold State.linkStart
  repeat' (first | (with_reducible exact Kept.refl _ _) | (extract_lets +onlyGivenNames x; have : x.2 = x.2 := rfl; clear this; subst x) | ((with_reducible apply State.setLink_kept); on_goal 2 => exact rfl) | ((with_reducible apply State.sendHello_kept); on_goal 2 => exact rfl) | ((with_reducible apply State.sendCsync_kept); on_goal 2 => exact rfl) | split)

theorem State.portUp_kept {s : State} {p : Port}
    {L₀ t₀} (h₀ : Kept L₀ t₀ s) (hs₀ : sliceSub [.sends, .ports, .links] L₀ = true) :
    Kept L₀ t₀ (State.portUp s p) := by
  refine h₀.step (M := [.sends, .ports, .links]) ?_ hs₀
  clear h₀ hs₀ t₀ L₀
  unfold State.portUp
  repeat' (first | (with_reducible exact Kept.refl _ _) | (extract_lets +onlyGivenNames x; have : x.2 = x.2 := rfl; clear this; subst x) | (extract_lets +onlyGivenNames x; clear_value x) | (with_reducible refine Kept.ite (fun _ => ?_) (fun _ => ?_)) | ((with_reducible apply State.setPort_kept); on_goal 2 => exact rfl) | ((with_reducible apply State.linkStart_kept); on_goal 2 => exact rfl))

theorem State.dirRetrain_kept {s : State} {p : Port} {rx : Bool}
    {L₀ t₀} (h₀ : Kept L₀ t₀ s) (hs₀ : sliceSub [.mbx, .pfMsix, .irqs, .ras, .ports, .links, .cal, .hostMem] L₀ = true) :
    Kept L₀ t₀ (State.dirRetrain s p rx) := by
  refine h₀.step (M := [.mbx, .pfMsix, .irqs, .ras, .ports, .links, .cal, .hostMem]) ?_ hs₀
  clear h₀ hs₀ t₀ L₀
  unfold State.dirRetrain
  repeat' (first | (with_reducible exact Kept.refl _ _) | (extract_lets +onlyGivenNames x; have : x.2 = x.2 := rfl; clear this; subst x) | ((with_reducible apply State.setPort_kept); on_goal 2 => exact rfl) | ((with_reducible apply State.slotBack_kept); on_goal 2 => exact rfl) | ((with_reducible apply State.linkRetrain_kept); on_goal 2 => exact rfl))

theorem State.syncCheck_kept {s : State} {p : Port}
    {L₀ t₀} (h₀ : Kept L₀ t₀ s) (hs₀ : sliceSub [.sends, .links] L₀ = true) :
    Kept L₀ t₀ (State.syncCheck s p) := by
  refine h₀.step (M := [.sends, .links]) ?_ hs₀
  clear h₀ hs₀ t₀ L₀
  unfold State.syncCheck
  repeat' (first | (with_reducible exact Kept.refl _ _) | (extract_lets +onlyGivenNames x; have : x.2 = x.2 := rfl; clear this; subst x) | (with_reducible refine Kept.ite (fun _ => ?_) (fun _ => ?_)) | ((with_reducible apply State.setLink_kept); on_goal 2 => exact rfl) | ((with_reducible apply State.pump_kept); on_goal 2 => exact rfl))

end Sys2Proof.Machine
end

