-- ==== Sys2Proof/Laws/CalOps.lean ====
section
/-! SUPPORT. What each operation of Machine/CalOps.lean may change (`Kept`): the parts of the state, listed; every memory stays canonical,
and no bit of Cairn is cleared. -/

set_option linter.unusedTactic false
set_option linter.unreachableTactic false

namespace Sys2Proof.Machine

theorem State.capture_kept {s : State} {kind : Nat}
    {L₀ t₀} (h₀ : Kept L₀ t₀ s) (hs₀ : sliceSub [.cal] L₀ = true) :
    Kept L₀ t₀ (State.capture s kind) := by
  refine h₀.step (M := [.cal]) ?_ hs₀
  clear h₀ hs₀ t₀ L₀
  unfold State.capture
  repeat' (first | (with_reducible exact Kept.refl _ _) | (rewrite [updateOf_eq]; (with_reducible refine Kept.set_cal ?_ ?h0); (case h0 => exact rfl)) | (extract_lets +onlyGivenNames x; have : x.2 = x.2 := rfl; clear this; subst x) | (extract_lets +onlyGivenNames x; clear_value x) | (with_reducible refine Kept.ite (fun _ => ?_) (fun _ => ?_)))

theorem State.captureStop_kept {s : State}
    {L₀ t₀} (h₀ : Kept L₀ t₀ s) (hs₀ : sliceSub [.cal] L₀ = true) :
    Kept L₀ t₀ (State.captureStop s) := by
  refine h₀.step (M := [.cal]) ?_ hs₀
  clear h₀ hs₀ t₀ L₀
  unfold State.captureStop
  repeat' (first | (with_reducible exact Kept.refl _ _) | (with_reducible assumption) | ((with_reducible apply State.capture_kept); on_goal 2 => exact rfl) | ((with_reducible refine Kept.when ?_ (fun _ _ => ?_))))

theorem State.restoreSnap_kept {s : State} {b : List Byte} {src : Nat}
    {L₀ t₀} (h₀ : Kept L₀ t₀ s) (hs₀ : sliceSub [.ports, .cal] L₀ = true) :
    Kept L₀ t₀ (State.restoreSnap s b src) := by
  refine h₀.step (M := [.ports, .cal]) ?_ hs₀
  clear h₀ hs₀ t₀ L₀
  unfold State.restoreSnap
  repeat' (first | (with_reducible exact Kept.refl _ _) | (with_reducible assumption) | (rewrite [updateOf_eq]; (with_reducible refine Kept.set_cal ?_ ?h0); (case h0 => exact rfl)) | (extract_lets +onlyGivenNames x; have : x.2 = x.2 := rfl; clear this; subst x) | (extract_lets +onlyGivenNames x; clear_value x) | ((with_reducible apply State.setPort_kept); on_goal 2 => exact rfl) | ((with_reducible refine Kept.each ?_ (fun _ _ _ => ?_))))

theorem State.sweepFailed_kept {s : State} {p : Port} {rx : Bool} {g : Pos} {cause : Nat}
    {L₀ t₀} (h₀ : Kept L₀ t₀ s) (hs₀ : sliceSub [.pfMsix, .irqs, .ras, .cal] L₀ = true) :
    Kept L₀ t₀ (State.sweepFailed s p rx g cause) := by
  refine h₀.step (M := [.pfMsix, .irqs, .ras, .cal]) ?_ hs₀
  clear h₀ hs₀ t₀ L₀
  unfold State.sweepFailed
  repeat' (first | (with_reducible exact Kept.refl _ _) | ((with_reducible apply State.log_kept); on_goal 2 => exact rfl) | ((with_reducible apply State.calCount_kept); on_goal 2 => exact rfl))

theorem State.setAcq_kept {s : State} {p : Port} {a : AcqSt} {b : AcqSt}
    {L₀ t₀} (h₀ : Kept L₀ t₀ s) (hs₀ : sliceSub [.ports] L₀ = true) :
    Kept L₀ t₀ (State.setAcq s p a b) := by
  refine h₀.step (M := [.ports]) ?_ hs₀
  clear h₀ hs₀ t₀ L₀
  unfold State.setAcq
  repeat' (first | (with_reducible exact Kept.refl _ _) | ((with_reducible apply State.setPort_kept); on_goal 2 => exact rfl))

theorem State.dropAcq_kept {s : State} {p : Port} {a : AcqSt}
    {L₀ t₀} (h₀ : Kept L₀ t₀ s) (hs₀ : sliceSub [.ports] L₀ = true) :
    Kept L₀ t₀ (State.dropAcq s p a) := by
  refine h₀.step (M := [.ports]) ?_ hs₀
  clear h₀ hs₀ t₀ L₀
  unfold State.dropAcq
  repeat' (first | (with_reducible exact Kept.refl _ _) | ((with_reducible apply State.setPort_kept); on_goal 2 => exact rfl))

theorem State.startAcq_kept {s : State} {p : Port} {rx : Bool} {g : Pos} {slot : Bool}
    {L₀ t₀} (h₀ : Kept L₀ t₀ s) (hs₀ : sliceSub [.ports] L₀ = true) :
    Kept L₀ t₀ (State.startAcq s p rx g slot) := by
  refine h₀.step (M := [.ports]) ?_ hs₀
  clear h₀ hs₀ t₀ L₀
  unfold State.startAcq
  repeat' (first | (with_reducible exact Kept.refl _ _) | (extract_lets +onlyGivenNames x; have : x.2 = x.2 := rfl; clear this; subst x) | ((with_reducible apply State.setRing_kept); on_goal 2 => exact rfl) | ((with_reducible apply State.setPort_kept); on_goal 2 => exact rfl))

theorem State.acqFail_kept {s : State} {p : Port} {a : AcqSt} {res : Nat}
    {L₀ t₀} (h₀ : Kept L₀ t₀ s) (hs₀ : sliceSub [.pfMsix, .irqs, .sends, .ras, .ports, .links, .cal] L₀ = true) :
    Kept L₀ t₀ (State.acqFail s p a res) := by
  refine h₀.step (M := [.pfMsix, .irqs, .sends, .ras, .ports, .links, .cal]) ?_ hs₀
  clear h₀ hs₀ t₀ L₀
  unfold State.acqFail
  repeat' (first | (with_reducible exact Kept.refl _ _) | (extract_lets +onlyGivenNames x; have : x.2 = x.2 := rfl; clear this; subst x) | (with_reducible refine Kept.ite (fun _ => ?_) (fun _ => ?_)) | ((with_reducible apply State.sweepFailed_kept); on_goal 2 => exact rfl) | ((with_reducible apply State.dropAcq_kept); on_goal 2 => exact rfl) | ((with_reducible apply State.sendCtl_kept); on_goal 2 => exact rfl) | ((with_reducible apply State.slotAbort_kept); on_goal 2 => exact rfl) | ((with_reducible apply State.startAcq_kept); on_goal 2 => exact rfl) | split)

theorem State.acqDone_kept {s : State} {p : Port} {a : AcqSt}
    {L₀ t₀} (h₀ : Kept L₀ t₀ s) (hs₀ : sliceSub [.pfMsix, .irqs, .sends, .ras, .ports, .links, .cal] L₀ = true) :
    Kept L₀ t₀ (State.acqDone s p a) := by
  refine h₀.step (M := [.pfMsix, .irqs, .sends, .ras, .ports, .links, .cal]) ?_ hs₀
  clear h₀ hs₀ t₀ L₀
  unfold State.acqDone
  repeat' (first | (with_reducible exact Kept.refl _ _) | (extract_lets +onlyGivenNames x; have : x.2 = x.2 := rfl; clear this; subst x) | (with_reducible refine Kept.ite (fun _ => ?_) (fun _ => ?_)) | ((with_reducible apply State.ringDone_kept); on_goal 2 => exact rfl) | ((with_reducible apply State.dropAcq_kept); on_goal 2 => exact rfl) | ((with_reducible apply State.sendCtl_kept); on_goal 2 => exact rfl) | ((with_reducible apply State.calCount_kept); on_goal 2 => exact rfl) | ((with_reducible apply State.becomeWarm_kept); on_goal 2 => exact rfl) | ((with_reducible apply State.slotOver_kept); on_goal 2 => exact rfl) | ((with_reducible apply State.setLink_kept); on_goal 2 => exact rfl) | ((with_reducible apply State.setPos_kept); on_goal 2 => exact rfl) | split)

theorem State.acqEnd_kept {s : State} {p : Port} {a : AcqSt}
    {L₀ t₀} (h₀ : Kept L₀ t₀ s) (hs₀ : sliceSub [.pfMsix, .irqs, .sends, .ras, .ports, .links, .cal] L₀ = true) :
    Kept L₀ t₀ (State.acqEnd s p a) := by
  refine h₀.step (M := [.pfMsix, .irqs, .sends, .ras, .ports, .links, .cal]) ?_ hs₀
  clear h₀ hs₀ t₀ L₀
  unfold State.acqEnd
  repeat' (first | (with_reducible exact Kept.refl _ _) | (extract_lets +onlyGivenNames x; have : x.2 = x.2 := rfl; clear this; subst x) | (extract_lets +onlyGivenNames x; have : x = fun a => x a := rfl; clear this; subst x; beta_reduce) | (with_reducible refine Kept.ite (fun _ => ?_) (fun _ => ?_)) | ((with_reducible apply State.setRing_kept); on_goal 2 => exact rfl) | ((with_reducible apply State.setAcq_kept); on_goal 2 => exact rfl) | ((with_reducible apply State.acqFail_kept); on_goal 2 => exact rfl) | split)

theorem State.acqFrame_kept {s : State} {p : Port} {fresh : List Bool} {a : AcqSt}
    {L₀ t₀} (h₀ : Kept L₀ t₀ s) (hs₀ : sliceSub [.pfMsix, .irqs, .sends, .ras, .ports, .links, .cal] L₀ = true) :
    Kept L₀ t₀ (State.acqFrame s p fresh a) := by
  refine h₀.step (M := [.pfMsix, .irqs, .sends, .ras, .ports, .links, .cal]) ?_ hs₀
  clear h₀ hs₀ t₀ L₀
  unfold State.acqFrame
  repeat' (first | (with_reducible exact Kept.refl _ _) | (extract_lets +onlyGivenNames x; have : x.2 = x.2 := rfl; clear this; subst x) | (extract_lets +onlyGivenNames x; clear_value x) | (with_reducible refine Kept.ite (fun _ => ?_) (fun _ => ?_)) | ((with_reducible apply State.acqDone_kept); on_goal 2 => exact rfl) | ((with_reducible apply State.acqFail_kept); on_goal 2 => exact rfl) | ((with_reducible apply State.acqEnd_kept); on_goal 2 => exact rfl) | ((with_reducible apply State.setRing_kept); on_goal 2 => exact rfl) | ((with_reducible apply State.setAcq_kept); on_goal 2 => exact rfl))

theorem State.acqFrames_kept {s : State} {p : Port} {fresh : List Bool}
    {L₀ t₀} (h₀ : Kept L₀ t₀ s) (hs₀ : sliceSub [.pfMsix, .irqs, .sends, .ras, .ports, .links, .cal] L₀ = true) :
    Kept L₀ t₀ (State.acqFrames s p fresh) := by
  refine h₀.step (M := [.pfMsix, .irqs, .sends, .ras, .ports, .links, .cal]) ?_ hs₀
  clear h₀ hs₀ t₀ L₀
  unfold State.acqFrames
  repeat' (first | (with_reducible exact Kept.refl _ _) | (with_reducible assumption) | (extract_lets +onlyGivenNames x; clear_value x) | ((with_reducible apply State.acqFrame_kept); on_goal 2 => exact rfl) | ((with_reducible refine Kept.each ?_ (fun _ _ _ => ?_))))

theorem State.setCal_kept {s : State} {p : Port} {f : CalRun → CalRun}
    {L₀ t₀} (h₀ : Kept L₀ t₀ s) (hs₀ : sliceSub [.ports] L₀ = true) :
    Kept L₀ t₀ (State.setCal s p f) := by
  refine h₀.step (M := [.ports]) ?_ hs₀
  clear h₀ hs₀ t₀ L₀
  unfold State.setCal
  repeat' (first | (with_reducible exact Kept.refl _ _) | ((with_reducible apply State.setPort_kept); on_goal 2 => exact rfl))

theorem State.calNext_kept {s : State} {p : Port} {step : Nat}
    {L₀ t₀} (h₀ : Kept L₀ t₀ s) (hs₀ : sliceSub [.ports] L₀ = true) :
    Kept L₀ t₀ (State.calNext s p step) := by
  refine h₀.step (M := [.ports]) ?_ hs₀
  clear h₀ hs₀ t₀ L₀
  unfold State.calNext
  repeat' (first | (with_reducible exact Kept.refl _ _) | ((with_reducible apply State.setCal_kept); on_goal 2 => exact rfl))

theorem State.calBegin_kept {s : State} {p : Port}
    {L₀ t₀} (h₀ : Kept L₀ t₀ s) (hs₀ : sliceSub [.ports] L₀ = true) :
    Kept L₀ t₀ (State.calBegin s p) := by
  refine h₀.step (M := [.ports]) ?_ hs₀
  clear h₀ hs₀ t₀ L₀
  unfold State.calBegin
  repeat' (first | (with_reducible exact Kept.refl _ _) | (extract_lets +onlyGivenNames x; have : x.2 = x.2 := rfl; clear this; subst x) | ((with_reducible apply State.setPort_kept); on_goal 2 => exact rfl))

theorem State.fullStart_kept {s : State} {mask : Nat} {byReq : Bool}
    {L₀ t₀} (h₀ : Kept L₀ t₀ s) (hs₀ : sliceSub (slicesBut [.pins, .col, .start, .quads, .cairn, .lockLoss, .loader, .committed, .str, .ret, .numVfs, .turns, .nextItem, .nextMid, .trv, .cornice, .spur, .linkHoldMs, .replyMs, .laser, .thm, .flash, .bus, .pending, .free]) L₀ = true) :
    Kept L₀ t₀ (State.fullStart s mask byReq) := by
  refine h₀.step (M := (slicesBut [.pins, .col, .start, .quads, .cairn, .lockLoss, .loader, .committed, .str, .ret, .numVfs, .turns, .nextItem, .nextMid, .trv, .cornice, .spur, .linkHoldMs, .replyMs, .laser, .thm, .flash, .bus, .pending, .free])) ?_ hs₀
  clear h₀ hs₀ t₀ L₀
  unfold State.fullStart
  repeat' (first | (with_reducible exact Kept.refl _ _) | (with_reducible assumption) | (rewrite [updateOf_eq]; (with_reducible refine Kept.set_cal ?_ ?h0); (case h0 => exact rfl)) | (extract_lets +onlyGivenNames x; have : x.2 = x.2 := rfl; clear this; subst x) | (with_reducible refine Kept.ite (fun _ => ?_) (fun _ => ?_)) | ((with_reducible apply State.slotAbort_kept); on_goal 2 => exact rfl) | ((with_reducible apply State.portDark_kept); on_goal 2 => exact rfl) | ((with_reducible apply State.linkGiveUp_kept); on_goal 2 => exact rfl) | ((with_reducible apply State.linkDown_kept); on_goal 2 => exact rfl) | ((with_reducible apply State.calBegin_kept); on_goal 2 => exact rfl) | ((with_reducible refine Kept.each ?_ (fun _ _ _ => ?_))) | split)

theorem State.fullCheck_kept {s : State}
    {L₀ t₀} (h₀ : Kept L₀ t₀ s) (hs₀ : sliceSub [.start, .mbx, .pfMsix, .irqs, .cal, .hostMem] L₀ = true) :
    Kept L₀ t₀ (State.fullCheck s) := by
  refine h₀.step (M := [.start, .mbx, .pfMsix, .irqs, .cal, .hostMem]) ?_ hs₀
  clear h₀ hs₀ t₀ L₀
  unfold State.fullCheck
  repeat' (first | (with_reducible exact Kept.refl _ _) | (rewrite [updateOf_eq]; (with_reducible refine Kept.set_start ?_ ?h0); (case h0 => exact rfl)) | (rewrite [updateOf_eq]; (with_reducible refine Kept.set_cal ?_ ?h0); (case h0 => exact rfl)) | (extract_lets +onlyGivenNames x; have : x.2 = x.2 := rfl; clear this; subst x) | (with_reducible refine Kept.ite (fun _ => ?_) (fun _ => ?_)) | ((with_reducible apply State.capture_kept); on_goal 2 => exact rfl) | ((with_reducible apply State.mbxDone_kept); on_goal 2 => exact rfl) | split)

theorem State.calLeave_kept {s : State} {p : Port} {ok : Bool}
    {L₀ t₀} (h₀ : Kept L₀ t₀ s) (hs₀ : sliceSub [.start, .mbx, .pfMsix, .irqs, .ports, .cal, .hostMem] L₀ = true) :
    Kept L₀ t₀ (State.calLeave s p ok) := by
  refine h₀.step (M := [.start, .mbx, .pfMsix, .irqs, .ports, .cal, .hostMem]) ?_ hs₀
  clear h₀ hs₀ t₀ L₀
  unfold State.calLeave
  repeat' (first | (with_reducible exact Kept.refl _ _) | (rewrite [updateOf_eq]; (with_reducible refine Kept.set_cal ?_ ?h0); (case h0 => exact rfl)) | (extract_lets +onlyGivenNames x; have : x.2 = x.2 := rfl; clear this; subst x) | (extract_lets +onlyGivenNames x; clear_value x) | ((with_reducible apply State.setPort_kept); on_goal 2 => exact rfl) | ((with_reducible apply State.fullCheck_kept); on_goal 2 => exact rfl))

theorem State.calFail_kept {s : State} {p : Port}
    {L₀ t₀} (h₀ : Kept L₀ t₀ s) (hs₀ : sliceSub [.start, .mbx, .pfMsix, .irqs, .ras, .ports, .cal, .hostMem] L₀ = true) :
    Kept L₀ t₀ (State.calFail s p) := by
  refine h₀.step (M := [.start, .mbx, .pfMsix, .irqs, .ras, .ports, .cal, .hostMem]) ?_ hs₀
  clear h₀ hs₀ t₀ L₀
  unfold State.calFail
  repeat' (first | (with_reducible exact Kept.refl _ _) | (extract_lets +onlyGivenNames x; have : x.2 = x.2 := rfl; clear this; subst x) | ((with_reducible apply State.setPort_kept); on_goal 2 => exact rfl) | ((with_reducible apply State.calLeave_kept); on_goal 2 => exact rfl) | ((with_reducible apply State.sweepFailed_kept); on_goal 2 => exact rfl))

theorem State.calRingOff_kept {s : State} {p : Port} {g : Pos}
    {L₀ t₀} (h₀ : Kept L₀ t₀ s) (hs₀ : sliceSub [.pfMsix, .irqs, .ras, .ports, .cal] L₀ = true) :
    Kept L₀ t₀ (State.calRingOff s p g) := by
  refine h₀.step (M := [.pfMsix, .irqs, .ras, .ports, .cal]) ?_ hs₀
  clear h₀ hs₀ t₀ L₀
  unfold State.calRingOff
  repeat' (first | (with_reducible exact Kept.refl _ _) | (extract_lets +onlyGivenNames x; have : x.2 = x.2 := rfl; clear this; subst x) | ((with_reducible apply State.setRing_kept); on_goal 2 => exact rfl) | ((with_reducible apply State.setCal_kept); on_goal 2 => exact rfl) | ((with_reducible apply State.setFault_kept); on_goal 2 => exact rfl) | ((with_reducible apply State.sweepFailed_kept); on_goal 2 => exact rfl))

theorem State.calF1_kept {s : State} {p : Port}
    {L₀ t₀} (h₀ : Kept L₀ t₀ s) (hs₀ : sliceSub [.ports, .free] L₀ = true) :
    Kept L₀ t₀ (State.calF1 s p) := by
  refine h₀.step (M := [.ports, .free]) ?_ hs₀
  clear h₀ hs₀ t₀ L₀
  unfold State.calF1
  repeat' (first | (with_reducible exact Kept.refl _ _) | (with_reducible assumption) | (extract_lets +onlyGivenNames x; have : x.2 = x.2 := rfl; clear this; subst x) | (extract_lets +onlyGivenNames x; clear_value x) | ((with_reducible apply State.draw_kept); on_goal 2 => exact rfl) | ((with_reducible apply State.setPort_kept); on_goal 2 => exact rfl) | ((with_reducible apply State.calNext_kept); on_goal 2 => exact rfl) | ((with_reducible refine Kept.each ?_ (fun _ _ _ => ?_))))

theorem State.calF2_kept {s : State} {p : Port} {c : CalRun}
    {L₀ t₀} (h₀ : Kept L₀ t₀ s) (hs₀ : sliceSub [.ports] L₀ = true) :
    Kept L₀ t₀ (State.calF2 s p c) := by
  refine h₀.step (M := [.ports]) ?_ hs₀
  clear h₀ hs₀ t₀ L₀
  unfold State.calF2
  repeat' (first | (with_reducible exact Kept.refl _ _) | (extract_lets +onlyGivenNames x; have : x.2 = x.2 := rfl; clear this; subst x) | (extract_lets +onlyGivenNames x; have : x = fun a => x a := rfl; clear this; subst x; beta_reduce) | (extract_lets +onlyGivenNames x; clear_value x) | (with_reducible refine Kept.ite (fun _ => ?_) (fun _ => ?_)) | ((with_reducible apply State.setCal_kept); on_goal 2 => exact rfl) | ((with_reducible apply State.setPort_kept); on_goal 2 => exact rfl) | ((with_reducible apply State.calNext_kept); on_goal 2 => exact rfl) | split)

theorem State.calSetEnd_kept {s : State} {p : Port} {c : CalRun} {g : Pos}
    {L₀ t₀} (h₀ : Kept L₀ t₀ s) (hs₀ : sliceSub [.pfMsix, .irqs, .ras, .ports, .cal] L₀ = true) :
    Kept L₀ t₀ (State.calSetEnd s p c g) := by
  refine h₀.step (M := [.pfMsix, .irqs, .ras, .ports, .cal]) ?_ hs₀
  clear h₀ hs₀ t₀ L₀
  unfold State.calSetEnd
  repeat' (first | (with_reducible exact Kept.refl _ _) | (extract_lets +onlyGivenNames x; have : x.2 = x.2 := rfl; clear this; subst x) | (extract_lets +onlyGivenNames x; clear_value x) | (with_reducible refine Kept.ite (fun _ => ?_) (fun _ => ?_)) | ((with_reducible apply State.setCal_kept); on_goal 2 => exact rfl) | ((with_reducible apply State.setRing_kept); on_goal 2 => exact rfl) | ((with_reducible apply State.calRingOff_kept); on_goal 2 => exact rfl) | split)

theorem State.calSweep_kept {s : State} {p : Port} {fresh : List Bool} {c : CalRun}
    {L₀ t₀} (h₀ : Kept L₀ t₀ s) (hs₀ : sliceSub [.start, .mbx, .pfMsix, .irqs, .ras, .ports, .cal, .hostMem] L₀ = true) :
    Kept L₀ t₀ (State.calSweep s p fresh c) := by
  refine h₀.step (M := [.start, .mbx, .pfMsix, .irqs, .ras, .ports, .cal, .hostMem]) ?_ hs₀
  clear h₀ hs₀ t₀ L₀
  unfold State.calSweep
  repeat' (first | (with_reducible exact Kept.refl _ _) | (with_reducible assumption) | (extract_lets +onlyGivenNames x; have : x.2 = x.2 := rfl; clear this; subst x) | (extract_lets +onlyGivenNames x; clear_value x) | (with_reducible refine Kept.ite (fun _ => ?_) (fun _ => ?_)) | ((with_reducible apply State.calFail_kept); on_goal 2 => exact rfl) | ((with_reducible apply State.calSetEnd_kept); on_goal 2 => exact rfl) | ((with_reducible apply State.calNext_kept); on_goal 2 => exact rfl) | ((with_reducible apply State.setRing_kept); on_goal 2 => exact rfl) | ((with_reducible apply State.setCal_kept); on_goal 2 => exact rfl) | ((with_reducible refine Kept.each ?_ (fun _ _ _ => ?_))))

theorem State.calF5_kept {s : State} {p : Port} {c : CalRun}
    {L₀ t₀} (h₀ : Kept L₀ t₀ s) (hs₀ : sliceSub [.ports] L₀ = true) :
    Kept L₀ t₀ (State.calF5 s p c) := by
  refine h₀.step (M := [.ports]) ?_ hs₀
  clear h₀ hs₀ t₀ L₀
  unfold State.calF5
  repeat' (first | (with_reducible exact Kept.refl _ _) | (with_reducible assumption) | (extract_lets +onlyGivenNames x; have : x.2 = x.2 := rfl; clear this; subst x) | (extract_lets +onlyGivenNames x; clear_value x) | (with_reducible refine Kept.ite (fun _ => ?_) (fun _ => ?_)) | ((with_reducible apply State.setCal_kept); on_goal 2 => exact rfl) | ((with_reducible apply State.setRing_kept); on_goal 2 => exact rfl) | ((with_reducible apply State.setPort_kept); on_goal 2 => exact rfl) | ((with_reducible apply State.calNext_kept); on_goal 2 => exact rfl) | ((with_reducible refine Kept.each ?_ (fun _ _ _ => ?_))))

theorem State.calF6_kept {s : State} {p : Port} {c : CalRun}
    {L₀ t₀} (h₀ : Kept L₀ t₀ s) (hs₀ : sliceSub [.start, .mbx, .pfMsix, .irqs, .ports, .cal, .hostMem] L₀ = true) :
    Kept L₀ t₀ (State.calF6 s p c) := by
  refine h₀.step (M := [.start, .mbx, .pfMsix, .irqs, .ports, .cal, .hostMem]) ?_ hs₀
  clear h₀ hs₀ t₀ L₀
  unfold State.calF6
  repeat' (first | (with_reducible exact Kept.refl _ _) | (with_reducible assumption) | (extract_lets +onlyGivenNames x; have : x.2 = x.2 := rfl; clear this; subst x) | (with_reducible refine Kept.ite (fun _ => ?_) (fun _ => ?_)) | ((with_reducible apply State.ringDone_kept); on_goal 2 => exact rfl) | ((with_reducible apply State.calLeave_kept); on_goal 2 => exact rfl) | ((with_reducible refine Kept.each ?_ (fun _ _ _ => ?_))))

theorem State.calFrame_kept {s : State} {p : Port} {fresh : List Bool}
    {L₀ t₀} (h₀ : Kept L₀ t₀ s) (hs₀ : sliceSub [.start, .mbx, .pfMsix, .irqs, .ras, .ports, .cal, .hostMem, .free] L₀ = true) :
    Kept L₀ t₀ (State.calFrame s p fresh) := by
  refine h₀.step (M := [.start, .mbx, .pfMsix, .irqs, .ras, .ports, .cal, .hostMem, .free]) ?_ hs₀
  clear h₀ hs₀ t₀ L₀
  unfold State.calFrame
  repeat' (first | (with_reducible exact Kept.refl _ _) | (with_reducible refine Kept.ite (fun _ => ?_) (fun _ => ?_)) | ((with_reducible apply State.calF1_kept); on_goal 2 => exact rfl) | ((with_reducible apply State.calF2_kept); on_goal 2 => exact rfl) | ((with_reducible apply State.calSweep_kept); on_goal 2 => exact rfl) | ((with_reducible apply State.calF5_kept); on_goal 2 => exact rfl) | ((with_reducible apply State.calF6_kept); on_goal 2 => exact rfl) | split)

end Sys2Proof.Machine
end

