-- ==== Sys2Proof/Laws/CrestOps.lean ====
section
/-! SUPPORT. What each operation of Machine/CrestOps.lean may change (`Kept`): the parts of the state, listed; every memory stays canonical,
and no bit of Cairn is cleared. -/

set_option linter.unusedTactic false
set_option linter.unreachableTactic false

namespace Sys2Proof.Machine

theorem State.sramRead_kept {s : State} {q : Quad} {tile : Option (Fin 4)} {a : Nat} {n : Nat}
    {L₀ t₀} (h₀ : Kept L₀ t₀ s) (hs₀ : sliceSub [.pfMsix, .irqs, .ras, .crest] L₀ = true) :
    Kept L₀ t₀ (State.sramRead s q tile a n).2.2 := by
  refine h₀.step (M := [.pfMsix, .irqs, .ras, .crest]) ?_ hs₀
  clear h₀ hs₀ t₀ L₀
  unfold State.sramRead
  repeat' (first | (with_reducible exact Kept.refl _ _) | (with_reducible assumption) | (rewrite [updateOf_eq]; (with_reducible refine Kept.set_crest ?_ ?h0 ?m0); (case h0 => exact rfl); (case m0 => refine ⟨?_, ?_, ?_, ?_, ?_, ?_⟩ <;> first | exact MemOk.same rfl | exact ⟨spSet_wf⟩ | exact ⟨spClear_wf⟩ | exact ⟨spWrite_wf⟩ | exact ⟨spMarks_wf⟩ | (split <;> first | exact MemOk.same rfl | exact ⟨spSet_wf⟩ | exact ⟨spClear_wf⟩ | exact ⟨spWrite_wf⟩ | exact ⟨spMarks_wf⟩))) | (extract_lets +onlyGivenNames x; have : x.2 = x.2 := rfl; clear this; subst x) | (extract_lets +onlyGivenNames x; clear_value x) | ((with_reducible apply State.setCq_kept); on_goal 2 => exact rfl) | ((with_reducible apply State.log_kept); on_goal 2 => exact rfl) | ((with_reducible refine Kept.each ?_ (fun _ _ _ => ?_))))

theorem State.ctxRead_kept {s : State} {i : Item} {o : Nat} {n : Nat}
    {L₀ t₀} (h₀ : Kept L₀ t₀ s) (hs₀ : sliceSub [.pfMsix, .irqs, .dram, .ras] L₀ = true) :
    Kept L₀ t₀ (State.ctxRead s i o n).2.2 := by
  refine h₀.step (M := [.pfMsix, .irqs, .dram, .ras]) ?_ hs₀
  clear h₀ hs₀ t₀ L₀
  unfold State.ctxRead
  repeat' (first | (with_reducible exact Kept.refl _ _) | ((with_reducible apply State.winRead_kept); on_goal 2 => exact rfl) | split)

theorem State.framesRead_kept {s : State} {r : StepRec} {o : Nat} {n : Nat}
    {L₀ t₀} (h₀ : Kept L₀ t₀ s) (hs₀ : sliceSub [.pfMsix, .irqs, .dram, .ras] L₀ = true) :
    Kept L₀ t₀ (State.framesRead s r o n).2.2 := by
  refine h₀.step (M := [.pfMsix, .irqs, .dram, .ras]) ?_ hs₀
  clear h₀ hs₀ t₀ L₀
  unfold State.framesRead
  repeat' (first | (with_reducible exact Kept.refl _ _) | (with_reducible assumption) | (extract_lets +onlyGivenNames x; clear_value x) | ((with_reducible apply State.memRead_kept); on_goal 2 => exact rfl) | (with_reducible refine Kept.fold22 ?_ (fun _ _ _ => ?_)))

theorem State.opRead_kept {s : State} {q : Quad} {tile : Option (Fin 4)} {i : Item} {a : Nat} {n : Nat}
    {L₀ t₀} (h₀ : Kept L₀ t₀ s) (hs₀ : sliceSub [.pfMsix, .irqs, .dram, .ras, .crest] L₀ = true) :
    Kept L₀ t₀ (accOf s (State.opRead s q tile i a n)) := by
  refine h₀.step (M := [.pfMsix, .irqs, .dram, .ras, .crest]) ?_ hs₀
  clear h₀ hs₀ t₀ L₀
  unfold State.opRead
  repeat' (first | (dsimp -zeta -iota -proj only [accOf_ok, accOf_wait, accOf_fault]) | (with_reducible exact Kept.refl _ _) | ((with_reducible apply State.sramRead_kept); on_goal 2 => exact rfl) | ((with_reducible apply State.ctxRead_kept); on_goal 2 => exact rfl) | ((with_reducible apply State.framesRead_kept); on_goal 2 => exact rfl) | split)

theorem State.opRead_kept_ok {s : State} {q : Quad} {tile : Option (Fin 4)} {i : Item} {a : Nat} {n : Nat} {b₀} {p₀} {r₀} {L₀ t₀} (h₀ : Kept L₀ t₀ s) (hs₀ : sliceSub [.pfMsix, .irqs, .dram, .ras, .crest] L₀ = true)
    (e₀ : State.opRead s q tile i a n = .ok b₀ p₀ r₀) : Kept L₀ t₀ r₀ := by
  have k := State.opRead_kept (s := s) (q := q) (tile := tile) (i := i) (a := a) (n := n) h₀ hs₀
  rw [e₀] at k; exact k

theorem State.opRead_kept_wait {s : State} {q : Quad} {tile : Option (Fin 4)} {i : Item} {a : Nat} {n : Nat} {r₀} {L₀ t₀} (h₀ : Kept L₀ t₀ s) (hs₀ : sliceSub [.pfMsix, .irqs, .dram, .ras, .crest] L₀ = true)
    (e₀ : State.opRead s q tile i a n = .wait r₀) : Kept L₀ t₀ r₀ := by
  have k := State.opRead_kept (s := s) (q := q) (tile := tile) (i := i) (a := a) (n := n) h₀ hs₀
  rw [e₀] at k; exact k

theorem State.sramWrite_kept {s : State} {q : Quad} {tile : Option (Fin 4)} {a : Nat} {bs : List Byte} {pz : Nat}
    {L₀ t₀} (h₀ : Kept L₀ t₀ s) (hs₀ : sliceSub [.crest] L₀ = true) :
    Kept L₀ t₀ (State.sramWrite s q tile a bs pz) := by
  refine h₀.step (M := [.crest]) ?_ hs₀
  clear h₀ hs₀ t₀ L₀
  unfold State.sramWrite
  repeat' (first | (with_reducible exact Kept.refl _ _) | (rewrite [updateOf_eq]; (with_reducible refine Kept.set_crest ?_ ?h0 ?m0); (case h0 => exact rfl); (case m0 => refine ⟨?_, ?_, ?_, ?_, ?_, ?_⟩ <;> first | exact MemOk.same rfl | exact ⟨spSet_wf⟩ | exact ⟨spClear_wf⟩ | exact ⟨spWrite_wf⟩ | exact ⟨spMarks_wf⟩ | (split <;> first | exact MemOk.same rfl | exact ⟨spSet_wf⟩ | exact ⟨spClear_wf⟩ | exact ⟨spWrite_wf⟩ | exact ⟨spMarks_wf⟩))))

theorem State.demand_kept {s : State} {q : Quad}
    {L₀ t₀} (h₀ : Kept L₀ t₀ s) (hs₀ : sliceSub [.quads] L₀ = true) :
    Kept L₀ t₀ (State.demand s q) := by
  refine h₀.step (M := [.quads]) ?_ hs₀
  clear h₀ hs₀ t₀ L₀
  unfold State.demand
  repeat' (first | (with_reducible exact Kept.refl _ _) | ((with_reducible apply State.setQ_kept); on_goal 2 => exact rfl))

theorem State.endptTake_kept {s : State} {e n L t} (h : Kept L t s)
    (hs : sliceSub [.trv] L = true) : Kept L t (s.endptTake e n).1 := by
  refine h.step (M := [.trv]) ?_ hs
  clear h hs t L
  induction n generalizing s e with
  | zero => exact Kept.refl _ _
  | succ n ih =>
    unfold State.endptTake
    split
    · exact Kept.refl _ _
    · dsimp only
      split
      · (rewrite [updateOf_eq]; exact Kept.set_trv (Kept.refl _ _) rfl)
      · split
        · exact Kept.refl _ _
        · refine Kept.trans ?_ ih
          split <;> (rewrite [updateOf_eq]; exact Kept.set_trv (Kept.refl _ _) rfl)
theorem State.endptTake_kept_eq {s : State} {e n r1 L t r} (h : Kept L t s)
    (hs : sliceSub [.trv] L = true) (q : s.endptTake e n = (r, r1)) : Kept L t r := by
  have k := State.endptTake_kept (e := e) (n := n) h hs
  rw [q] at k; exact k

theorem State.endptWrite_kept {s : State} {i : Item} {o : Nat} {bs : List Byte}
    {L₀ t₀} (h₀ : Kept L₀ t₀ s) (hs₀ : sliceSub [.trv] L₀ = true) :
    Kept L₀ t₀ (State.endptWrite s i o bs) := by
  refine h₀.step (M := [.trv]) ?_ hs₀
  clear h₀ hs₀ t₀ L₀
  unfold State.endptWrite
  repeat' (first | (with_reducible exact Kept.refl _ _) | (rewrite [updateOf_eq]; (with_reducible refine Kept.set_trv ?_ ?h0); (case h0 => exact rfl)) | (extract_lets +onlyGivenNames x; have : x.2 = x.2 := rfl; clear this; subst x) | (with_reducible refine State.endptTake_kept_eq ?_ rfl (by assumption)) | split)

theorem State.outWrite_kept {s : State} {i : Item} {o : Nat} {bs : List Byte} {pz : Nat}
    {L₀ t₀} (h₀ : Kept L₀ t₀ s) (hs₀ : sliceSub [.pfMsix, .irqs, .items, .dram, .ras] L₀ = true) :
    Kept L₀ t₀ (State.outWrite s i o bs pz) := by
  refine h₀.step (M := [.pfMsix, .irqs, .items, .dram, .ras]) ?_ hs₀
  clear h₀ hs₀ t₀ L₀
  unfold State.outWrite
  repeat' (first | (with_reducible exact Kept.refl _ _) | (extract_lets +onlyGivenNames x; have : x.2 = x.2 := rfl; clear this; subst x) | (extract_lets +onlyGivenNames x; clear_value x) | (with_reducible refine Kept.ite (fun _ => ?_) (fun _ => ?_)) | ((with_reducible apply State.winWrite_kept); on_goal 2 => exact rfl) | ((with_reducible apply State.setItem_kept); on_goal 2 => exact rfl) | split)

theorem State.opWrite_kept_cases {s : State} {q n i bs pz} {r : Region} {a0 a1 a2 a3 : Nat} {a4 : Quad → Nat} :
    Kept [.quads, .pfMsix, .irqs, .items, .dram, .ras, .trv, .crest] s (accOf s (match r with
      | .act => .ok [] 0 (s.sramWrite q n a1 bs pz)
      | .qbuf => .ok [] 0 (s.sramWrite q none a2 bs pz)
      | .remote r =>
        if r = q then .ok [] 0 (s.sramWrite q none (a4 r) bs pz)
        else if (s.owner r).any (fun p => (s.part p).state != .running) then .ok [] 0 s
        else if s.quadUp r then .ok [] 0 (s.sramWrite r none (a4 r) bs pz)
        else .wait (s.demand r)
      | .endpoint => if i.stepRec.isSome then .ok [] 0 (s.endptWrite i a3 bs) else .fault 3
      | .out => .ok [] 0 (s.outWrite i a0 bs pz)
      | _ => .ok [] 0 s)) := by
  cases r with
  | act => exact State.sramWrite_kept (Kept.refl _ _) rfl
  | qbuf => exact State.sramWrite_kept (Kept.refl _ _) rfl
  | remote r =>
    dsimp only
    split
    · exact State.sramWrite_kept (Kept.refl _ _) rfl
    · split
      · exact Kept.refl _ _
      · split
        · exact State.sramWrite_kept (Kept.refl _ _) rfl
        · exact State.demand_kept (Kept.refl _ _) rfl
  | endpoint =>
    dsimp only
    split
    · exact State.endptWrite_kept (Kept.refl _ _) rfl
    · exact Kept.refl _ _
  | out => exact State.outWrite_kept (Kept.refl _ _) rfl
  | _ => exact Kept.refl _ _
theorem State.opWrite_kept {s : State} {q n i a bs pz L t} (h : Kept L t s) (hs : sliceSub [.quads, .pfMsix, .irqs, .items, .dram, .ras, .trv, .crest] L = true) :
    Kept L t (accOf s (s.opWrite q n i a bs pz)) := by
  refine h.step (M := [.quads, .pfMsix, .irqs, .items, .dram, .ras, .trv, .crest]) ?_ hs
  clear h hs t L
  unfold State.opWrite
  by_cases hb : bs.isEmpty = true
  · rw [if_pos hb]; exact Kept.refl _ _
  · rw [if_neg hb]
    have e1 : ∀ x, ∃ y, x - 0x01000000 = y := fun x => ⟨_, rfl⟩
    obtain ⟨b1, h1⟩ := e1 a
    have e2 : ∀ x, ∃ y, x - 0x0A100000 = y := fun x => ⟨_, rfl⟩
    obtain ⟨b2, h2⟩ := e2 a
    have e3 : ∀ x, ∃ y, x - 0x10000000 = y := fun x => ⟨_, rfl⟩
    obtain ⟨b3, h3⟩ := e3 a
    have e4 : ∃ f : Quad → Nat, ∀ r : Quad, a - 0x02000000 - r.val * 0x200000 = f r := ⟨_, fun _ => rfl⟩
    obtain ⟨f, h4⟩ := e4
    simp only [h1, h2, h3, h4]
    exact State.opWrite_kept_cases (i := i)
theorem State.opWrite_kept_ok {s : State} {q n i a bs pz b p r L t} (h : Kept L t s) (hs : sliceSub [.quads, .pfMsix, .irqs, .items, .dram, .ras, .trv, .crest] L = true)
    (e : s.opWrite q n i a bs pz = .ok b p r) : Kept L t r := by
  have k := State.opWrite_kept (q := q) (n := n) (i := i) (a := a) (bs := bs) (pz := pz) h hs
  rw [e] at k; exact k
theorem State.opWrite_kept_wait {s : State} {q n i a bs pz r L t} (h : Kept L t s) (hs : sliceSub [.quads, .pfMsix, .irqs, .items, .dram, .ras, .trv, .crest] L = true)
    (e : s.opWrite q n i a bs pz = .wait r) : Kept L t r := by
  have k := State.opWrite_kept (q := q) (n := n) (i := i) (a := a) (bs := bs) (pz := pz) h hs
  rw [e] at k; exact k

theorem State.markFirst_kept {s : State} {id : Nat}
    {L₀ t₀} (h₀ : Kept L₀ t₀ s) (hs₀ : sliceSub [.items] L₀ = true) :
    Kept L₀ t₀ (State.markFirst s id) := by
  refine h₀.step (M := [.items]) ?_ hs₀
  clear h₀ hs₀ t₀ L₀
  unfold State.markFirst
  repeat' (first | (with_reducible exact Kept.refl _ _) | ((with_reducible apply State.setItem_kept); on_goal 2 => exact rfl))

theorem State.consume_kept {s : State} {id : Nat} {pz : Nat}
    {L₀ t₀} (h₀ : Kept L₀ t₀ s) (hs₀ : sliceSub [.items] L₀ = true) :
    Kept L₀ t₀ (State.consume s id pz) := by
  refine h₀.step (M := [.items]) ?_ hs₀
  clear h₀ hs₀ t₀ L₀
  unfold State.consume
  repeat' (first | (with_reducible exact Kept.refl _ _) | (with_reducible refine Kept.ite (fun _ => ?_) (fun _ => ?_)) | ((with_reducible apply State.setItem_kept); on_goal 2 => exact rfl))

theorem State.satCount_kept {s : State} {q : Quad} {n : Nat}
    {L₀ t₀} (h₀ : Kept L₀ t₀ s) (hs₀ : sliceSub [.crest] L₀ = true) :
    Kept L₀ t₀ (State.satCount s q n) := by
  refine h₀.step (M := [.crest]) ?_ hs₀
  clear h₀ hs₀ t₀ L₀
  unfold State.satCount
  repeat' (first | (with_reducible exact Kept.refl _ _) | ((with_reducible apply State.setCq_kept); on_goal 2 => exact rfl))

theorem Kept.tileOp {L s u q t opc} {f : State → Item → KOp → Nat → State} (h : Kept L s u)
    (k : ∀ v i o a, Kept L s v → Kept L s (f v i o a)) (hs : sliceSub [.items] L = true) : Kept L s (u.tileOp q t opc f) := by
  unfold State.tileOp
  dsimp only
  split
  · exact h
  · split
    · exact Kept.when h (fun v hv => k _ _ _ _ (State.markFirst_kept hv hs))
    · exact h

theorem State.nextOp_kept {s : State} {q : Quad} {t : Fin 4} {pc : Option Nat}
    {L₀ t₀} (h₀ : Kept L₀ t₀ s) (hs₀ : sliceSub [.crest] L₀ = true) :
    Kept L₀ t₀ (State.nextOp s q t pc) := by
  refine h₀.step (M := [.crest]) ?_ hs₀
  clear h₀ hs₀ t₀ L₀
  unfold State.nextOp
  repeat' (first | (with_reducible exact Kept.refl _ _) | ((with_reducible apply State.setCq_kept); on_goal 2 => exact rfl))

theorem State.computeOp_kept {s : State} {q n i pc reads dst f L t} (h : Kept L t s)
    (hs : sliceSub [.quads, .pfMsix, .irqs, .items, .dram, .ras, .trv, .crest] L = true) : Kept L t (s.computeOp q n i pc reads dst f) := by
  have sub : ∀ M, sliceSub M [.quads, .pfMsix, .irqs, .items, .dram, .ras, .trv, .crest] = true → sliceSub M L = true := fun M hm => by
    simp only [sliceSub, List.all_eq_true, List.contains_eq_mem, decide_eq_true_eq] at *
    exact fun x hx => hs x (hm x hx)
  have fold : ∀ (l : List (Nat × Nat)) (u : Except Nat (List (List Byte) × Nat × State)), Kept L t (exOf t u) →
      Kept L t (exOf t (l.foldl (fun acc r =>
        match acc with
        | .ok (l, pz, s) =>
          (match s.opRead q (some n) i r.1 r.2 with
          | .ok bs p s => .ok (l ++ [bs], if pz = 0 then p else pz, s)
          | .fault c => .error c
          | .wait s => .ok (l ++ [List.replicate r.2 0], pz, s))
        | .error c => .error c) u)) := by
    intro l
    induction l with
    | nil => exact fun u hu => hu
    | cons a r ih =>
      intro u hu
      apply ih
      cases u with
      | error c => exact Kept.refl _ _
      | ok v =>
      · dsimp only
        split
        · exact State.opRead_kept_ok hu (sub _ rfl) (by assumption)
        · exact Kept.refl _ _
        · exact State.opRead_kept_wait hu (sub _ rfl) (by assumption)
  unfold State.computeOp
  extract_lets op go
  have hg : Kept L t (exOf t go) := fold reads (.ok ([], 0, s)) h
  clear_value go
  obtain c | ⟨l, pz, s'⟩ := go
  · exact State.kernelFault_kept h (sub _ rfl)
  · dsimp only
    split
    · exact State.kernelFault_kept h (sub _ rfl)
    · exact State.opWrite_kept_wait hg (sub _ rfl) (by assumption)
    · apply State.nextOp_kept _ (sub _ rfl)
      apply State.consume_kept _ (sub _ rfl)
      apply State.satCount_kept _ (sub _ rfl)
      exact State.opWrite_kept_ok hg (sub _ rfl) (by assumption)

theorem State.landing_kept {s : State} {p : Part} {o : Nat} {bs : List Byte} {owner : Option (Nat × Quad)}
    {L₀ t₀} (h₀ : Kept L₀ t₀ s) (hs₀ : sliceSub [.parts, .items, .spur] L₀ = true) :
    Kept L₀ t₀ (State.landing s p o bs owner) := by
  refine h₀.step (M := [.parts, .items, .spur]) ?_ hs₀
  clear h₀ hs₀ t₀ L₀
  unfold State.landing
  repeat' (first | (with_reducible exact Kept.refl _ _) | (extract_lets +onlyGivenNames x; have : x = fun a => x a := rfl; clear this; subst x; beta_reduce) | (extract_lets +onlyGivenNames x; clear_value x) | (with_reducible refine Kept.ite (fun _ => ?_) (fun _ => ?_)) | ((with_reducible apply State.setItem_kept); on_goal 2 => exact rfl) | ((with_reducible apply State.setSpurPart_kept); on_goal 2 => exact rfl) | ((with_reducible apply State.setPart_kept); on_goal 2 => exact rfl) | split)

theorem State.clearQuadSram_kept {s : State} {q : Quad}
    {L₀ t₀} (h₀ : Kept L₀ t₀ s) (hs₀ : sliceSub [.crest] L₀ = true) :
    Kept L₀ t₀ (State.clearQuadSram s q) := by
  refine h₀.step (M := [.crest]) ?_ hs₀
  clear h₀ hs₀ t₀ L₀
  unfold State.clearQuadSram
  repeat' (first | (with_reducible exact Kept.refl _ _) | (rewrite [updateOf_eq]; (with_reducible refine Kept.set_crest ?_ ?h0 ?m0); (case h0 => exact rfl); (case m0 => refine ⟨?_, ?_, ?_, ?_, ?_, ?_⟩ <;> first | exact MemOk.same rfl | exact ⟨spSet_wf⟩ | exact ⟨spClear_wf⟩ | exact ⟨spWrite_wf⟩ | exact ⟨spMarks_wf⟩ | (split <;> first | exact MemOk.same rfl | exact ⟨spSet_wf⟩ | exact ⟨spClear_wf⟩ | exact ⟨spWrite_wf⟩ | exact ⟨spMarks_wf⟩))))

end Sys2Proof.Machine
end

