-- ==== Sys2Proof/Laws/SpurOps.lean ====
section
/-! SUPPORT. What each operation of Machine/SpurOps.lean may change (`Kept`): the parts of the state, listed; every memory stays canonical,
and no bit of Cairn is cleared. -/

set_option linter.unusedTactic false
set_option linter.unreachableTactic false

namespace Sys2Proof.Machine

theorem State.dropLanded_kept {s : State} {p : Part} {f : Option (Nat × Quad) → Bool}
    {L₀ t₀} (h₀ : Kept L₀ t₀ s) (hs₀ : sliceSub [.spur] L₀ = true) :
    Kept L₀ t₀ (State.dropLanded s p f) := by
  refine h₀.step (M := [.spur]) ?_ hs₀
  clear h₀ hs₀ t₀ L₀
  unfold State.dropLanded
  repeat' (first | (with_reducible exact Kept.refl _ _) | ((with_reducible apply State.setSpurPart_kept); on_goal 2 => exact rfl))

theorem State.dropJobs_kept {s : State} {f : JobSt → Bool}
    {L₀ t₀} (h₀ : Kept L₀ t₀ s) (hs₀ : sliceSub [.spur] L₀ = true) :
    Kept L₀ t₀ (State.dropJobs s f) := by
  refine h₀.step (M := [.spur]) ?_ hs₀
  clear h₀ hs₀ t₀ L₀
  unfold State.dropJobs
  repeat' (first | (with_reducible exact Kept.refl _ _) | (rewrite [updateOf_eq]; (with_reducible refine Kept.set_spur ?_ ?h0); (case h0 => exact rfl)))

theorem State.maskBanks_kept {s : State} {g : Group} {bad : Nat} {test : Bool}
    {L₀ t₀} (h₀ : Kept L₀ t₀ s) (hs₀ : sliceSub [.pfMsix, .irqs, .ras, .spur] L₀ = true) :
    Kept L₀ t₀ (State.maskBanks s g bad test) := by
  refine h₀.step (M := [.pfMsix, .irqs, .ras, .spur]) ?_ hs₀
  clear h₀ hs₀ t₀ L₀
  unfold State.maskBanks
  repeat' (first | (with_reducible exact Kept.refl _ _) | (with_reducible assumption) | (rewrite [updateOf_eq]; (with_reducible refine Kept.set_spur ?_ ?h0); (case h0 => exact rfl)) | (extract_lets +onlyGivenNames x; have : x.2 = x.2 := rfl; clear this; subst x) | (extract_lets +onlyGivenNames x; clear_value x) | (with_reducible refine Kept.ite (fun _ => ?_) (fun _ => ?_)) | ((with_reducible apply State.setLedger_kept); on_goal 2 => exact rfl) | ((with_reducible apply State.log_kept); on_goal 2 => exact rfl) | ((with_reducible refine Kept.each ?_ (fun _ _ _ => ?_))))

theorem State.takeTurn_kept {s : State} {r : Nat} {p : Part}
    {L₀ t₀} (h₀ : Kept L₀ t₀ s) (hs₀ : sliceSub [.parts, .turns] L₀ = true) :
    Kept L₀ t₀ (State.takeTurn s r p) := by
  refine h₀.step (M := [.parts, .turns]) ?_ hs₀
  clear h₀ hs₀ t₀ L₀
  unfold State.takeTurn
  repeat' (first | (with_reducible exact Kept.refl _ _) | (rewrite [updateOf_eq]; (with_reducible refine Kept.set_turns ?_ ?h0); (case h0 => exact rfl)) | (extract_lets +onlyGivenNames x; have : x.2 = x.2 := rfl; clear this; subst x) | (extract_lets +onlyGivenNames x; clear_value x) | (with_reducible refine Kept.ite (fun _ => ?_) (fun _ => ?_)) | ((with_reducible apply State.setPart_kept); on_goal 2 => exact rfl))

theorem State.setJob_kept {s : State} {j : Nat} {f : JobSt → JobSt}
    {L₀ t₀} (h₀ : Kept L₀ t₀ s) (hs₀ : sliceSub [.spur] L₀ = true) :
    Kept L₀ t₀ (State.setJob s j f) := by
  refine h₀.step (M := [.spur]) ?_ hs₀
  clear h₀ hs₀ t₀ L₀
  unfold State.setJob
  repeat' (first | (with_reducible exact Kept.refl _ _) | (rewrite [updateOf_eq]; (with_reducible refine Kept.set_spur ?_ ?h0); (case h0 => exact rfl)))

theorem State.qbufWrite_kept {s : State} {q : Quad} {o : Nat} {bs : List Byte} {pz : Nat}
    {L₀ t₀} (h₀ : Kept L₀ t₀ s) (hs₀ : sliceSub [.crest] L₀ = true) :
    Kept L₀ t₀ (State.qbufWrite s q o bs pz) := by
  refine h₀.step (M := [.crest]) ?_ hs₀
  clear h₀ hs₀ t₀ L₀
  unfold State.qbufWrite
  repeat' (first | (with_reducible exact Kept.refl _ _) | (with_reducible assumption) | (extract_lets +onlyGivenNames x; clear_value x) | ((with_reducible apply State.sramWrite_kept); on_goal 2 => exact rfl) | (with_reducible refine Kept.foldl ?_ (fun _ _ _ => ?_)))

theorem State.spurResults_kept {s : State} {id : Nat}
    {L₀ t₀} (h₀ : Kept L₀ t₀ s) (hs₀ : sliceSub [.quads, .pfMsix, .irqs, .dram, .ras, .crest, .spur, .free] L₀ = true) :
    Kept L₀ t₀ (State.spurResults s id) := by
  refine h₀.step (M := [.quads, .pfMsix, .irqs, .dram, .ras, .crest, .spur, .free]) ?_ hs₀
  clear h₀ hs₀ t₀ L₀
  unfold State.spurResults
  repeat' (first | (with_reducible exact Kept.refl _ _) | (extract_lets +onlyGivenNames x; have : x.2 = x.2 := rfl; clear this; subst x) | (extract_lets +onlyGivenNames x; clear_value x) | (with_reducible refine Kept.ite (fun _ => ?_) (fun _ => ?_)) | ((with_reducible apply State.demand_kept); on_goal 2 => exact rfl) | ((with_reducible apply State.draw_kept); on_goal 2 => exact rfl) | ((with_reducible apply State.qbufWrite_kept); on_goal 2 => exact rfl) | ((with_reducible apply State.winWrite_kept); on_goal 2 => exact rfl) | ((with_reducible apply State.setSpurPart_kept); on_goal 2 => exact rfl) | ((with_reducible apply State.setJob_kept); on_goal 2 => exact rfl) | split)

theorem State.spurFill_kept {s : State}
    {L₀ t₀} (h₀ : Kept L₀ t₀ s) (hs₀ : sliceSub [.spur] L₀ = true) :
    Kept L₀ t₀ (State.spurFill s) := by
  refine h₀.step (M := [.spur]) ?_ hs₀
  clear h₀ hs₀ t₀ L₀
  unfold State.spurFill
  repeat' (first | (with_reducible exact Kept.refl _ _) | (rewrite [updateOf_eq]; (with_reducible refine Kept.set_spur ?_ ?h0); (case h0 => exact rfl)) | (extract_lets +onlyGivenNames x; have : x.2 = x.2 := rfl; clear this; subst x) | split)

theorem State.setSpurQ_kept {s : State} {c : Chan} {q : List SpurCmd}
    {L₀ t₀} (h₀ : Kept L₀ t₀ s) (hs₀ : sliceSub [.spur] L₀ = true) :
    Kept L₀ t₀ (State.setSpurQ s c q) := by
  refine h₀.step (M := [.spur]) ?_ hs₀
  clear h₀ hs₀ t₀ L₀
  unfold State.setSpurQ
  repeat' (first | (with_reducible exact Kept.refl _ _) | (rewrite [updateOf_eq]; (with_reducible refine Kept.set_spur ?_ ?h0); (case h0 => exact rfl)))

theorem State.spurCol_kept {s : State} {loc : Nat} {g : Nat} {b : Nat} {row0 : Nat} {i : Nat} {p : Part}
    {L₀ t₀} (h₀ : Kept L₀ t₀ s) (hs₀ : sliceSub [.pfMsix, .irqs, .dram, .ras] L₀ = true) :
    Kept L₀ t₀ (State.spurCol s loc g b row0 i p).2.2 := by
  refine h₀.step (M := [.pfMsix, .irqs, .dram, .ras]) ?_ hs₀
  clear h₀ hs₀ t₀ L₀
  unfold State.spurCol
  repeat' (first | (with_reducible exact Kept.refl _ _) | (rewrite [updateOf_eq]; (with_reducible refine Kept.set_dram ?_ ?h0 ?m0); (case h0 => exact rfl); (case m0 => exact ⟨MemOk.same rfl, MemOk.same rfl, MemOk.same rfl⟩)) | (extract_lets +onlyGivenNames x; have : DramSt := x; clear this; subst x) | (extract_lets +onlyGivenNames x; have : x.2 = x.2 := rfl; clear this; subst x) | (extract_lets +onlyGivenNames x; clear_value x) | ((with_reducible apply State.setChan_kept); on_goal 2 => exact rfl) | ((with_reducible apply State.markSeen_kept); on_goal 2 => exact rfl) | ((with_reducible apply State.log_kept); on_goal 2 => exact rfl) | split)

theorem State.bankCols_kept {s : State} {p g b row0 l L t} (h : Kept L t s)
    (hs : sliceSub [.pfMsix, .irqs, .dram, .ras] L = true) : Kept L t (s.bankCols p g b row0 l).2.2 := by
  induction l generalizing s with
  | nil => unfold State.bankCols; exact h
  | cons a r ih => unfold State.bankCols; exact ih (State.spurCol_kept h hs)
theorem State.bankCols_kept_eq {s : State} {p g b row0 l r0 r1 r L t} (h : Kept L t s)
    (hs : sliceSub [.pfMsix, .irqs, .dram, .ras] L = true) (e : s.bankCols p g b row0 l = (r0, r1, r)) : Kept L t r := by
  have k := State.bankCols_kept (p := p) (g := g) (b := b) (row0 := row0) (l := l) h hs
  rw [e] at k; exact k

theorem State.runFire_kept {s : State} {g : Group} {j : JobSt}
    {L₀ t₀} (h₀ : Kept L₀ t₀ s) (hs₀ : sliceSub [.pfMsix, .irqs, .dram, .ras, .spur] L₀ = true) :
    Kept L₀ t₀ (State.runFire s g j) := by
  refine h₀.step (M := [.pfMsix, .irqs, .dram, .ras, .spur]) ?_ hs₀
  clear h₀ hs₀ t₀ L₀
  unfold State.runFire
  repeat' (first | (with_reducible exact Kept.refl _ _) | (with_reducible assumption) | (extract_lets +onlyGivenNames x; have : x.2 = x.2 := rfl; clear this; subst x) | (extract_lets +onlyGivenNames x; clear_value x) | (with_reducible refine Kept.ite (fun _ => ?_) (fun _ => ?_)) | ((with_reducible apply State.bankCols_kept); on_goal 2 => exact rfl) | ((with_reducible apply State.setGroup_kept); on_goal 2 => exact rfl) | ((with_reducible apply State.setJob_kept); on_goal 2 => exact rfl) | (with_reducible refine Kept.fold22 ?_ (fun _ _ _ => ?_)))

end Sys2Proof.Machine
end

