-- ==== Sys2Proof/Laws/Spur.lean ====
section
/-! SUPPORT. What each operation of Machine/Spur.lean may change (`Kept`): the parts of the state, listed; every memory stays canonical,
and no bit of Cairn is cleared. -/

set_option linter.unusedTactic false
set_option linter.unreachableTactic false

namespace Sys2Proof.Machine

theorem execSpurJobLand_kept {p : Part} {slot : Nat} {s : State}
    {L₀ t₀} (h₀ : Kept L₀ t₀ s) (hs₀ : sliceSub [.pfMsix, .irqs, .dram, .ras, .spur] L₀ = true) :
    Kept L₀ t₀ (outOf s (execSpurJobLand p slot s)) := by
  refine h₀.step (M := [.pfMsix, .irqs, .dram, .ras, .spur]) ?_ hs₀
  clear h₀ hs₀ t₀ L₀
  unfold execSpurJobLand
  repeat' (first | (dsimp -zeta -iota -proj only [outOf_next]) | (with_reducible exact Kept.refl _ _) | (with_reducible assumption) | (rewrite [updateOf_eq]; (with_reducible refine Kept.set_spur ?_ ?h0); (case h0 => exact rfl)) | (extract_lets +onlyGivenNames x; have : x.2 = x.2 := rfl; clear this; subst x) | (extract_lets +onlyGivenNames x; clear_value x) | (with_reducible refine Kept.ite (fun _ => ?_) (fun _ => ?_)) | ((with_reducible apply State.setSpurPart_kept); on_goal 2 => exact rfl) | ((with_reducible apply State.spurFault_kept); on_goal 2 => exact rfl) | ((with_reducible apply State.log_kept); on_goal 2 => exact rfl) | ((with_reducible refine Kept.when ?_ (fun _ _ => ?_))) | split)

theorem State.queueJob_kept {s : State} {id : Nat} {jop : Nat}
    {L₀ t₀} (h₀ : Kept L₀ t₀ s) (hs₀ : sliceSub [.quads, .pfMsix, .irqs, .dram, .ras, .crest, .spur, .free] L₀ = true) :
    Kept L₀ t₀ (State.queueJob s id jop) := by
  refine h₀.step (M := [.quads, .pfMsix, .irqs, .dram, .ras, .crest, .spur, .free]) ?_ hs₀
  clear h₀ hs₀ t₀ L₀
  unfold State.queueJob
  repeat' (first | (with_reducible exact Kept.refl _ _) | (with_reducible assumption) | (extract_lets +onlyGivenNames x; clear_value x) | ((with_reducible apply State.winRead_kept); on_goal 2 => exact rfl) | ((with_reducible apply State.setJob_kept); on_goal 2 => exact rfl) | ((with_reducible apply State.spurResults_kept); on_goal 2 => exact rfl) | ((with_reducible apply State.spurFill_kept); on_goal 2 => exact rfl) | ((with_reducible refine Kept.when ?_ (fun _ _ => ?_))) | (with_reducible refine Kept.fold22 ?_ (fun _ _ _ => ?_)) | split)

theorem execMatvec_kept {job : Nat} {s : State}
    {L₀ t₀} (h₀ : Kept L₀ t₀ s) (hs₀ : sliceSub [.quads, .pfMsix, .irqs, .dram, .ras, .crest, .spur, .free] L₀ = true) :
    Kept L₀ t₀ (outOf s (execMatvec job s)) := by
  refine h₀.step (M := [.quads, .pfMsix, .irqs, .dram, .ras, .crest, .spur, .free]) ?_ hs₀
  clear h₀ hs₀ t₀ L₀
  unfold execMatvec
  repeat' (first | (dsimp -zeta -iota -proj only [outOf_next]) | (with_reducible exact Kept.refl _ _) | ((with_reducible apply State.queueJob_kept); on_goal 2 => exact rfl))

theorem execGather_kept {job : Nat} {s : State}
    {L₀ t₀} (h₀ : Kept L₀ t₀ s) (hs₀ : sliceSub [.quads, .pfMsix, .irqs, .dram, .ras, .crest, .spur, .free] L₀ = true) :
    Kept L₀ t₀ (outOf s (execGather job s)) := by
  refine h₀.step (M := [.quads, .pfMsix, .irqs, .dram, .ras, .crest, .spur, .free]) ?_ hs₀
  clear h₀ hs₀ t₀ L₀
  unfold execGather
  repeat' (first | (dsimp -zeta -iota -proj only [outOf_next]) | (with_reducible exact Kept.refl _ _) | ((with_reducible apply State.queueJob_kept); on_goal 2 => exact rfl))

theorem execScan_kept {job : Nat} {s : State}
    {L₀ t₀} (h₀ : Kept L₀ t₀ s) (hs₀ : sliceSub [.quads, .pfMsix, .irqs, .dram, .ras, .crest, .spur, .free] L₀ = true) :
    Kept L₀ t₀ (outOf s (execScan job s)) := by
  refine h₀.step (M := [.quads, .pfMsix, .irqs, .dram, .ras, .crest, .spur, .free]) ?_ hs₀
  clear h₀ hs₀ t₀ L₀
  unfold execScan
  repeat' (first | (dsimp -zeta -iota -proj only [outOf_next]) | (with_reducible exact Kept.refl _ _) | ((with_reducible apply State.queueJob_kept); on_goal 2 => exact rfl))

theorem Kept.issueCmd {L s u c want} {f : State → SpurCmd → State} (h : Kept L s u)
    (k : ∀ v a, Kept L s v → Kept L s (f v a)) (h1 : sliceSub [.spur] L = true)
    (h2 : sliceSub [.parts, .turns] L = true) (hs : sliceSub [.spur] L = true) : Kept L s (u.issueCmd c want f) := by
  unfold State.issueCmd
  split
  · exact h
  · split
    · exact h
    · split
      · exact State.spurFill_kept (k _ _ (State.setSpurQ_kept h h1)) hs
      · refine Kept.when h (fun v hv => ?_)
        exact State.spurFill_kept (k _ _ (State.setSpurQ_kept (State.takeTurn_kept hv h2) h1)) hs

theorem State.onGroups_kept {s : State} {c : Chan} {mask : Nat} {f : GroupSt → GroupSt}
    {L₀ t₀} (h₀ : Kept L₀ t₀ s) (hs₀ : sliceSub [.spur] L₀ = true) :
    Kept L₀ t₀ (State.onGroups s c mask f) := by
  refine h₀.step (M := [.spur]) ?_ hs₀
  clear h₀ hs₀ t₀ L₀
  unfold State.onGroups
  repeat' (first | (with_reducible exact Kept.refl _ _) | (with_reducible assumption) | ((with_reducible apply State.setGroup_kept); on_goal 2 => exact rfl) | ((with_reducible refine Kept.each ?_ (fun _ _ _ => ?_))))

theorem execSpurClear_kept {c : Chan} {s : State}
    {L₀ t₀} (h₀ : Kept L₀ t₀ s) (hs₀ : sliceSub [.parts, .turns, .spur] L₀ = true) :
    Kept L₀ t₀ (outOf s (execSpurClear c s)) := by
  refine h₀.step (M := [.parts, .turns, .spur]) ?_ hs₀
  clear h₀ hs₀ t₀ L₀
  unfold execSpurClear
  repeat' (first | (dsimp -zeta -iota -proj only [outOf_next]) | (with_reducible exact Kept.refl _ _) | (with_reducible assumption) | ((with_reducible apply State.onGroups_kept); on_goal 2 => exact rfl) | ((with_reducible refine Kept.issueCmd ?_ (fun _ _ _ => ?_) ?h1 ?h2 ?h3); (case h1 => exact rfl); (case h2 => exact rfl); (case h3 => exact rfl)))

theorem execSpurLoad_kept {c : Chan} {s : State}
    {L₀ t₀} (h₀ : Kept L₀ t₀ s) (hs₀ : sliceSub [.parts, .turns, .spur] L₀ = true) :
    Kept L₀ t₀ (outOf s (execSpurLoad c s)) := by
  refine h₀.step (M := [.parts, .turns, .spur]) ?_ hs₀
  clear h₀ hs₀ t₀ L₀
  unfold execSpurLoad
  repeat' (first | (dsimp -zeta -iota -proj only [outOf_next]) | (with_reducible exact Kept.refl _ _) | (with_reducible assumption) | ((with_reducible apply State.onGroups_kept); on_goal 2 => exact rfl) | ((with_reducible refine Kept.when ?_ (fun _ _ => ?_))) | ((with_reducible refine Kept.issueCmd ?_ (fun _ _ _ => ?_) ?h1 ?h2 ?h3); (case h1 => exact rfl); (case h2 => exact rfl); (case h3 => exact rfl)) | split)

theorem execSpurFire_kept {g : Group} {s : State}
    {L₀ t₀} (h₀ : Kept L₀ t₀ s) (hs₀ : sliceSub [.parts, .turns, .pfMsix, .irqs, .dram, .ras, .spur] L₀ = true) :
    Kept L₀ t₀ (outOf s (execSpurFire g s)) := by
  refine h₀.step (M := [.parts, .turns, .pfMsix, .irqs, .dram, .ras, .spur]) ?_ hs₀
  clear h₀ hs₀ t₀ L₀
  unfold execSpurFire
  repeat' (first | (dsimp -zeta -iota -proj only [outOf_next]) | (with_reducible exact Kept.refl _ _) | (with_reducible assumption) | (rewrite [updateOf_eq]; (with_reducible refine Kept.set_spur ?_ ?h0); (case h0 => exact rfl)) | (extract_lets +onlyGivenNames x; have : x.2 = x.2 := rfl; clear this; subst x) | (extract_lets +onlyGivenNames x; clear_value x) | (with_reducible refine Kept.ite (fun _ => ?_) (fun _ => ?_)) | ((with_reducible apply State.setSpurQ_kept); on_goal 2 => exact rfl) | ((with_reducible apply State.takeTurn_kept); on_goal 2 => exact rfl) | ((with_reducible apply State.setJob_kept); on_goal 2 => exact rfl) | ((with_reducible apply State.setGroup_kept); on_goal 2 => exact rfl) | ((with_reducible apply State.spurFill_kept); on_goal 2 => exact rfl) | ((with_reducible apply State.runFire_kept); on_goal 2 => exact rfl) | ((with_reducible apply State.setLedger_kept); on_goal 2 => exact rfl) | ((with_reducible refine Kept.when ?_ (fun _ _ => ?_))) | split)

theorem State.settleLedger_kept {s : State} {k : Stack}
    {L₀ t₀} (h₀ : Kept L₀ t₀ s) (hs₀ : sliceSub [.spur] L₀ = true) :
    Kept L₀ t₀ (State.settleLedger s k) := by
  refine h₀.step (M := [.spur]) ?_ hs₀
  clear h₀ hs₀ t₀ L₀
  unfold State.settleLedger
  repeat' (first | (with_reducible exact Kept.refl _ _) | (extract_lets +onlyGivenNames x; clear_value x) | ((with_reducible apply State.setLedger_kept); on_goal 2 => exact rfl))

theorem execSpurFireEnd_kept {g : Group} {badBanks : Nat} {s : State}
    {L₀ t₀} (h₀ : Kept L₀ t₀ s) (hs₀ : sliceSub [.pfMsix, .irqs, .dram, .ras, .spur] L₀ = true) :
    Kept L₀ t₀ (outOf s (execSpurFireEnd g badBanks s)) := by
  refine h₀.step (M := [.pfMsix, .irqs, .dram, .ras, .spur]) ?_ hs₀
  clear h₀ hs₀ t₀ L₀
  unfold execSpurFireEnd
  repeat' (first | (dsimp -zeta -iota -proj only [outOf_next]) | (with_reducible exact Kept.refl _ _) | (with_reducible assumption) | (rewrite [updateOf_eq]; (with_reducible refine Kept.set_spur ?_ ?h0); (case h0 => exact rfl)) | (extract_lets +onlyGivenNames x; have : x.2 = x.2 := rfl; clear this; subst x) | (extract_lets +onlyGivenNames x; clear_value x) | (with_reducible refine Kept.ite (fun _ => ?_) (fun _ => ?_)) | ((with_reducible apply State.setJob_kept); on_goal 2 => exact rfl) | ((with_reducible apply State.maskBanks_kept); on_goal 2 => exact rfl) | ((with_reducible apply State.setGroup_kept); on_goal 2 => exact rfl) | ((with_reducible apply State.runFire_kept); on_goal 2 => exact rfl) | ((with_reducible apply State.settleLedger_kept); on_goal 2 => exact rfl) | ((with_reducible refine Kept.when ?_ (fun _ _ => ?_))) | split)

theorem execSpurDrain_kept {c : Chan} {s : State}
    {L₀ t₀} (h₀ : Kept L₀ t₀ s) (hs₀ : sliceSub [.quads, .parts, .turns, .pfMsix, .irqs, .dram, .ras, .crest, .spur, .free] L₀ = true) :
    Kept L₀ t₀ (outOf s (execSpurDrain c s)) := by
  refine h₀.step (M := [.quads, .parts, .turns, .pfMsix, .irqs, .dram, .ras, .crest, .spur, .free]) ?_ hs₀
  clear h₀ hs₀ t₀ L₀
  unfold execSpurDrain
  repeat' (first | (dsimp -zeta -iota -proj only [outOf_next]) | (with_reducible exact Kept.refl _ _) | (with_reducible assumption) | (extract_lets +onlyGivenNames x; have : x.2 = x.2 := rfl; clear this; subst x) | (extract_lets +onlyGivenNames x; clear_value x) | ((with_reducible apply State.setGroup_kept); on_goal 2 => exact rfl) | ((with_reducible apply State.spurResults_kept); on_goal 2 => exact rfl) | ((with_reducible apply State.setJob_kept); on_goal 2 => exact rfl) | ((with_reducible refine Kept.when ?_ (fun _ _ => ?_))) | ((with_reducible refine Kept.issueCmd ?_ (fun _ _ _ => ?_) ?h1 ?h2 ?h3); (case h1 => exact rfl); (case h2 => exact rfl); (case h3 => exact rfl)) | split)

theorem execSpurJobDone_kept {p : Part} {s : State}
    {L₀ t₀} (h₀ : Kept L₀ t₀ s) (hs₀ : sliceSub [.quads, .pfMsix, .irqs, .items, .dram, .ras, .crest, .spur, .free] L₀ = true) :
    Kept L₀ t₀ (outOf s (execSpurJobDone p s)) := by
  refine h₀.step (M := [.quads, .pfMsix, .irqs, .items, .dram, .ras, .crest, .spur, .free]) ?_ hs₀
  clear h₀ hs₀ t₀ L₀
  unfold execSpurJobDone
  repeat' (first | (dsimp -zeta -iota -proj only [outOf_next]) | (with_reducible exact Kept.refl _ _) | (rewrite [updateOf_eq]; (with_reducible refine Kept.set_spur ?_ ?h0); (case h0 => exact rfl)) | (extract_lets +onlyGivenNames x; have : x.2 = x.2 := rfl; clear this; subst x) | (with_reducible refine Kept.ite (fun _ => ?_) (fun _ => ?_)) | ((with_reducible apply State.spurResults_kept); on_goal 2 => exact rfl) | ((with_reducible apply State.winWrite_kept); on_goal 2 => exact rfl) | ((with_reducible apply State.setSpurPart_kept); on_goal 2 => exact rfl) | ((with_reducible apply State.signalSem_kept); on_goal 2 => exact rfl) | ((with_reducible apply State.setItem_kept); on_goal 2 => exact rfl) | split)

theorem execSpurSelftest_kept {g : Group} {fails : Nat} {s : State}
    {L₀ t₀} (h₀ : Kept L₀ t₀ s) (hs₀ : sliceSub [.pfMsix, .irqs, .ras, .spur] L₀ = true) :
    Kept L₀ t₀ (outOf s (execSpurSelftest g fails s)) := by
  refine h₀.step (M := [.pfMsix, .irqs, .ras, .spur]) ?_ hs₀
  clear h₀ hs₀ t₀ L₀
  unfold execSpurSelftest
  repeat' (first | (dsimp -zeta -iota -proj only [outOf_next]) | (with_reducible exact Kept.refl _ _) | (with_reducible assumption) | (extract_lets +onlyGivenNames x; have : x.2 = x.2 := rfl; clear this; subst x) | ((with_reducible apply State.setGroup_kept); on_goal 2 => exact rfl) | ((with_reducible apply State.maskBanks_kept); on_goal 2 => exact rfl) | ((with_reducible refine Kept.when ?_ (fun _ _ => ?_))))

theorem execSpurGroupGate_kept {g : Group} {s : State}
    {L₀ t₀} (h₀ : Kept L₀ t₀ s) (hs₀ : sliceSub [.spur] L₀ = true) :
    Kept L₀ t₀ (outOf s (execSpurGroupGate g s)) := by
  refine h₀.step (M := [.spur]) ?_ hs₀
  clear h₀ hs₀ t₀ L₀
  unfold execSpurGroupGate
  repeat' (first | (dsimp -zeta -iota -proj only [outOf_next]) | (with_reducible exact Kept.refl _ _) | (with_reducible assumption) | (extract_lets +onlyGivenNames x; have : x.2 = x.2 := rfl; clear this; subst x) | (extract_lets +onlyGivenNames x; clear_value x) | ((with_reducible apply State.setGroup_kept); on_goal 2 => exact rfl) | ((with_reducible refine Kept.when ?_ (fun _ _ => ?_))))

end Sys2Proof.Machine
end

