-- ==== Sys2Proof/Laws/ThermOps.lean ====
section
/-! SUPPORT. What each operation of Machine/ThermOps.lean may change (`Kept`): the parts of the state, listed; every memory stays canonical,
and no bit of Cairn is cleared. -/

set_option linter.unusedTactic false
set_option linter.unreachableTactic false

namespace Sys2Proof.Machine

theorem State.alertNow_kept {s : State}
    {L₀ t₀} (h₀ : Kept L₀ t₀ s) (hs₀ : sliceSub [.thm] L₀ = true) :
    Kept L₀ t₀ (State.alertNow s) := by
  refine h₀.step (M := [.thm]) ?_ hs₀
  clear h₀ hs₀ t₀ L₀
  unfold State.alertNow
  repeat' (first | (with_reducible exact Kept.refl _ _) | (rewrite [updateOf_eq]; (with_reducible refine Kept.set_thm ?_ ?h0); (case h0 => exact rfl)))

theorem State.allowances_kept {s : State} {k : Stack}
    {L₀ t₀} (h₀ : Kept L₀ t₀ s) (hs₀ : sliceSub [.spur] L₀ = true) :
    Kept L₀ t₀ (State.allowances s k) := by
  refine h₀.step (M := [.spur]) ?_ hs₀
  clear h₀ hs₀ t₀ L₀
  unfold State.allowances
  repeat' (first | (with_reducible exact Kept.refl _ _) | (with_reducible assumption) | (extract_lets +onlyGivenNames x; clear_value x) | ((with_reducible apply State.setSpurPart_kept); on_goal 2 => exact rfl) | ((with_reducible refine Kept.each ?_ (fun _ _ _ => ?_))))

theorem State.setLimit_kept {s : State} {l : Nat}
    {L₀ t₀} (h₀ : Kept L₀ t₀ s) (hs₀ : sliceSub [.crest, .spur, .thm] L₀ = true) :
    Kept L₀ t₀ (State.setLimit s l) := by
  refine h₀.step (M := [.crest, .spur, .thm]) ?_ hs₀
  clear h₀ hs₀ t₀ L₀
  unfold State.setLimit
  repeat' (first | (with_reducible exact Kept.refl _ _) | (with_reducible assumption) | (rewrite [updateOf_eq]; (with_reducible refine Kept.set_thm ?_ ?h0); (case h0 => exact rfl)) | (extract_lets +onlyGivenNames x; have : x.2 = x.2 := rfl; clear this; subst x) | ((with_reducible apply State.setCq_kept); on_goal 2 => exact rfl) | ((with_reducible apply State.allowances_kept); on_goal 2 => exact rfl) | ((with_reducible apply State.settleLedger_kept); on_goal 2 => exact rfl) | ((with_reducible apply State.setLedger_kept); on_goal 2 => exact rfl) | ((with_reducible refine Kept.each ?_ (fun _ _ _ => ?_))))

end Sys2Proof.Machine
end

