-- ==== Sys2Proof/Laws/LaserOps.lean ====
section
/-! SUPPORT. What each operation of Machine/LaserOps.lean may change (`Kept`): the parts of the state, listed; every memory stays canonical,
and no bit of Cairn is cleared. -/

set_option linter.unusedTactic false
set_option linter.unreachableTactic false

namespace Sys2Proof.Machine

theorem State.laserTo_kept {s : State} {n : Fin 20} {st : LaserState} {bias : Nat}
    {L₀ t₀} (h₀ : Kept L₀ t₀ s) (hs₀ : sliceSub [.laser] L₀ = true) :
    Kept L₀ t₀ (State.laserTo s n st bias) := by
  refine h₀.step (M := [.laser]) ?_ hs₀
  clear h₀ hs₀ t₀ L₀
  unfold State.laserTo
  repeat' (first | (with_reducible exact Kept.refl _ _) | ((with_reducible apply State.setLaser_kept); on_goal 2 => exact rfl))

theorem State.warmUp_kept {s : State}
    {L₀ t₀} (h₀ : Kept L₀ t₀ s) (hs₀ : sliceSub [.laser] L₀ = true) :
    Kept L₀ t₀ (State.warmUp s) := by
  refine h₀.step (M := [.laser]) ?_ hs₀
  clear h₀ hs₀ t₀ L₀
  unfold State.warmUp
  repeat' (first | (with_reducible exact Kept.refl _ _) | (with_reducible assumption) | (extract_lets +onlyGivenNames x; (refine Kept.cut (x := x) ?_ (fun _ => ?_); (on_goal 1 => (unfold x; clear x)); (on_goal 2 => clear_value x))) | (rewrite [updateOf_eq]; (with_reducible refine Kept.set_laser ?_ ?h0 ?m0); (case h0 => exact rfl); (case m0 => exact MemOk.same rfl)) | (extract_lets +onlyGivenNames x; have : LaserBlk := x; clear this; subst x) | (with_reducible refine Kept.ite (fun _ => ?_) (fun _ => ?_)) | ((with_reducible apply State.setLaser_kept); on_goal 2 => exact rfl) | ((with_reducible apply State.laserTo_kept); on_goal 2 => exact rfl) | ((with_reducible refine Kept.each ?_ (fun _ _ _ => ?_))))

theorem State.lasersDark_kept {s : State}
    {L₀ t₀} (h₀ : Kept L₀ t₀ s) (hs₀ : sliceSub [.col, .laser] L₀ = true) :
    Kept L₀ t₀ (State.lasersDark s) := by
  refine h₀.step (M := [.col, .laser]) ?_ hs₀
  clear h₀ hs₀ t₀ L₀
  unfold State.lasersDark
  repeat' (first | (with_reducible exact Kept.refl _ _) | (with_reducible assumption) | (extract_lets +onlyGivenNames x; (refine Kept.cut (x := x) ?_ (fun _ => ?_); (on_goal 1 => (unfold x; clear x)); (on_goal 2 => clear_value x))) | (rewrite [updateOf_eq]; (with_reducible refine Kept.set_col_laser ?_ ?h0 ?h1 ?m0); (case h0 => exact rfl); (case h1 => exact rfl); (case m0 => exact MemOk.same rfl)) | (extract_lets +onlyGivenNames x; have : x.2 = x.2 := rfl; clear this; subst x) | (with_reducible refine Kept.ite (fun _ => ?_) (fun _ => ?_)) | ((with_reducible apply State.laserTo_kept); on_goal 2 => exact rfl) | ((with_reducible refine Kept.each ?_ (fun _ _ _ => ?_))))

theorem State.readCartridge_kept {s : State} {c : SeatInput} {L t} (h : Kept L t s) (hs : sliceSub [.laser] L = true) :
    Kept L t (s.readCartridge c) := by
  refine h.step (M := [.laser]) ?_ hs
  unfold State.readCartridge
  extract_lets l k
  have hk : spWf 0xFF s.laser.eeprom = true → spWf 0xFF k.eeprom = true := by
    intro h
    unfold k
    split
    · exact spWriteD_wf rfl
    · exact h
  clear_value k
  rewrite [updateOf_eq]
  exact Kept.set_laser (Kept.refl _ _) rfl ⟨hk⟩

theorem State.readRecord_kept {s : State} {i : Fin 2} {fresh : Bool}
    {L₀ t₀} (h₀ : Kept L₀ t₀ s) (hs₀ : sliceSub [.laser] L₀ = true) :
    Kept L₀ t₀ (State.readRecord s i fresh) := by
  refine h₀.step (M := [.laser]) ?_ hs₀
  clear h₀ hs₀ t₀ L₀
  unfold State.readRecord
  repeat' (first | (with_reducible exact Kept.refl _ _) | (with_reducible assumption) | (rewrite [updateOf_eq]; (with_reducible refine Kept.set_laser ?_ ?h0 ?m0); (case h0 => exact rfl); (case m0 => exact MemOk.same rfl)) | (extract_lets +onlyGivenNames x; have : LaserBlk := x; clear this; subst x) | (extract_lets +onlyGivenNames x; have : x.2 = x.2 := rfl; clear this; subst x) | (extract_lets +onlyGivenNames x; clear_value x) | (with_reducible refine Kept.ite (fun _ => ?_) (fun _ => ?_)) | ((with_reducible apply State.setLaser_kept); on_goal 2 => exact rfl) | ((with_reducible apply State.laserTo_kept); on_goal 2 => exact rfl) | ((with_reducible refine Kept.each ?_ (fun _ _ _ => ?_))))

theorem State.authenticate_kept {s : State} {c : SeatInput} {start : Bool}
    {L₀ t₀} (h₀ : Kept L₀ t₀ s) (hs₀ : sliceSub [.pfMsix, .irqs, .ras, .laser] L₀ = true) :
    Kept L₀ t₀ (State.authenticate s c start) := by
  refine h₀.step (M := [.pfMsix, .irqs, .ras, .laser]) ?_ hs₀
  clear h₀ hs₀ t₀ L₀
  unfold State.authenticate
  repeat' (first | (with_reducible exact Kept.refl _ _) | (with_reducible assumption) | (extract_lets +onlyGivenNames x; (refine Kept.cut (x := x) ?_ (fun _ => ?_); (on_goal 1 => (unfold x; clear x)); (on_goal 2 => clear_value x))) | (rewrite [updateOf_eq]; (with_reducible refine Kept.set_laser ?_ ?h0 ?m0); (case h0 => exact rfl); (case m0 => exact MemOk.same rfl)) | (extract_lets +onlyGivenNames x; have : LaserBlk := x; clear this; subst x) | (extract_lets +onlyGivenNames x; clear_value x) | (with_reducible refine Kept.ite (fun _ => ?_) (fun _ => ?_)) | ((with_reducible apply State.readCartridge_kept); on_goal 2 => exact rfl) | ((with_reducible apply State.readRecord_kept); on_goal 2 => exact rfl) | ((with_reducible apply State.log_kept); on_goal 2 => exact rfl) | split)

theorem State.warmTo_kept {s : State} {st : LaserState}
    {L₀ t₀} (h₀ : Kept L₀ t₀ s) (hs₀ : sliceSub [.laser] L₀ = true) :
    Kept L₀ t₀ (State.warmTo s st) := by
  refine h₀.step (M := [.laser]) ?_ hs₀
  clear h₀ hs₀ t₀ L₀
  unfold State.warmTo
  repeat' (first | (with_reducible exact Kept.refl _ _) | (with_reducible assumption) | (extract_lets +onlyGivenNames x; have : x.2 = x.2 := rfl; clear this; subst x) | (with_reducible refine Kept.ite (fun _ => ?_) (fun _ => ?_)) | ((with_reducible apply State.laserTo_kept); on_goal 2 => exact rfl) | ((with_reducible refine Kept.each ?_ (fun _ _ _ => ?_))))

theorem State.seatRetry_kept {s : State}
    {L₀ t₀} (h₀ : Kept L₀ t₀ s) (hs₀ : sliceSub [.laser] L₀ = true) :
    Kept L₀ t₀ (State.seatRetry s) := by
  refine h₀.step (M := [.laser]) ?_ hs₀
  clear h₀ hs₀ t₀ L₀
  unfold State.seatRetry
  repeat' (first | (with_reducible exact Kept.refl _ _) | (rewrite [updateOf_eq]; (with_reducible refine Kept.set_laser ?_ ?h0 ?m0); (case h0 => exact rfl); (case m0 => exact MemOk.same rfl)) | (extract_lets +onlyGivenNames x; have : LaserBlk := x; clear this; subst x) | (extract_lets +onlyGivenNames x; have : x.2 = x.2 := rfl; clear this; subst x) | (with_reducible refine Kept.ite (fun _ => ?_) (fun _ => ?_)) | ((with_reducible apply State.warmUp_kept); on_goal 2 => exact rfl))

theorem State.seatFault_kept {s : State} {die : Nat}
    {L₀ t₀} (h₀ : Kept L₀ t₀ s) (hs₀ : sliceSub [.col, .laser] L₀ = true) :
    Kept L₀ t₀ (State.seatFault s die) := by
  refine h₀.step (M := [.col, .laser]) ?_ hs₀
  clear h₀ hs₀ t₀ L₀
  unfold State.seatFault
  repeat' (first | (with_reducible exact Kept.refl _ _) | (rewrite [updateOf_eq]; (with_reducible refine Kept.set_laser ?_ ?h0 ?m0); (case h0 => exact rfl); (case m0 => exact MemOk.same rfl)) | (extract_lets +onlyGivenNames x; have : LaserBlk := x; clear this; subst x) | (extract_lets +onlyGivenNames x; have : x.2 = x.2 := rfl; clear this; subst x) | ((with_reducible apply State.lasersDark_kept); on_goal 2 => exact rfl))

theorem State.tuneSpare_kept {s : State} {g : Pos}
    {L₀ t₀} (h₀ : Kept L₀ t₀ s) (hs₀ : sliceSub [.laser] L₀ = true) :
    Kept L₀ t₀ (State.tuneSpare s g) := by
  refine h₀.step (M := [.laser]) ?_ hs₀
  clear h₀ hs₀ t₀ L₀
  unfold State.tuneSpare
  repeat' (first | (with_reducible exact Kept.refl _ _) | (rewrite [updateOf_eq]; (with_reducible refine Kept.set_laser ?_ ?h0 ?m0); (case h0 => exact rfl); (case m0 => exact MemOk.same rfl)) | (extract_lets +onlyGivenNames x; have : LaserBlk := x; clear this; subst x) | (extract_lets +onlyGivenNames x; have : x.2 = x.2 := rfl; clear this; subst x) | (with_reducible refine Kept.ite (fun _ => ?_) (fun _ => ?_)) | ((with_reducible apply State.laserTo_kept); on_goal 2 => exact rfl) | ((with_reducible apply State.setLaser_kept); on_goal 2 => exact rfl))

theorem State.laserLost_kept {s : State} {g : Pos}
    {L₀ t₀} (h₀ : Kept L₀ t₀ s) (hs₀ : sliceSub [.pfMsix, .irqs, .sends, .ras, .ports, .links, .cal] L₀ = true) :
    Kept L₀ t₀ (State.laserLost s g) := by
  refine h₀.step (M := [.pfMsix, .irqs, .sends, .ras, .ports, .links, .cal]) ?_ hs₀
  clear h₀ hs₀ t₀ L₀
  unfold State.laserLost
  repeat' (first | (with_reducible exact Kept.refl _ _) | (with_reducible assumption) | ((with_reducible apply State.posFault_kept); on_goal 2 => exact rfl) | ((with_reducible refine Kept.each ?_ (fun _ _ _ => ?_))))

theorem State.laserOut_kept {s : State} {n : Fin 20}
    {L₀ t₀} (h₀ : Kept L₀ t₀ s) (hs₀ : sliceSub [.pfMsix, .irqs, .sends, .ras, .ports, .links, .laser, .cal] L₀ = true) :
    Kept L₀ t₀ (State.laserOut s n) := by
  refine h₀.step (M := [.pfMsix, .irqs, .sends, .ras, .ports, .links, .laser, .cal]) ?_ hs₀
  clear h₀ hs₀ t₀ L₀
  unfold State.laserOut
  repeat' (first | (with_reducible exact Kept.refl _ _) | (with_reducible assumption) | (extract_lets +onlyGivenNames x; (refine Kept.cut (x := x) ?_ (fun _ => ?_); (on_goal 1 => (unfold x; clear x)); (on_goal 2 => clear_value x))) | (rewrite [updateOf_eq]; (with_reducible refine Kept.set_laser ?_ ?h0 ?m0); (case h0 => exact rfl); (case m0 => exact MemOk.same rfl)) | (extract_lets +onlyGivenNames x; have : LaserBlk := x; clear this; subst x) | (extract_lets +onlyGivenNames x; clear_value x) | ((with_reducible apply State.log_kept); on_goal 2 => exact rfl) | ((with_reducible apply State.laserTo_kept); on_goal 2 => exact rfl) | ((with_reducible apply State.setLaser_kept); on_goal 2 => exact rfl) | ((with_reducible apply State.tuneSpare_kept); on_goal 2 => exact rfl) | ((with_reducible apply State.laserLost_kept); on_goal 2 => exact rfl) | split)

theorem State.writeRecord_kept {s : State}
    {L₀ t₀} (h₀ : Kept L₀ t₀ s) (hs₀ : sliceSub [.pfMsix, .irqs, .ras, .laser, .free] L₀ = true) :
    Kept L₀ t₀ (State.writeRecord s) := by
  refine h₀.step (M := [.pfMsix, .irqs, .ras, .laser, .free]) ?_ hs₀
  clear h₀ hs₀ t₀ L₀
  unfold State.writeRecord
  repeat' (first | (with_reducible exact Kept.refl _ _) | (rewrite [updateOf_eq]; (with_reducible refine Kept.set_laser ?_ ?h0 ?m0); (case h0 => exact rfl); (case m0 => first | exact MemOk.same rfl | exact ⟨fun h => spWriteD_wf (spClear_wf h)⟩)) | (extract_lets +onlyGivenNames x; have : LaserBlk := x; clear this; subst x) | (extract_lets +onlyGivenNames x; have : x.2 = x.2 := rfl; clear this; subst x) | (extract_lets +onlyGivenNames x; clear_value x) | (with_reducible refine Kept.ite (fun _ => ?_) (fun _ => ?_)) | ((with_reducible apply State.log_kept); on_goal 2 => exact rfl) | (with_reducible refine State.draw_kept_eq ?_ rfl (by assumption)) | split)

end Sys2Proof.Machine
end

