-- ==== Sys2Proof/Laws/Laser.lean ====
section
/-! SUPPORT. What each operation of Machine/Laser.lean may change (`Kept`): the parts of the state, listed; every memory stays canonical,
and no bit of Cairn is cleared. -/

set_option linter.unusedTactic false
set_option linter.unreachableTactic false

namespace Sys2Proof.Machine

theorem State.tripClrWrite_kept {s : State} {v : Nat}
    {L₀ t₀} (h₀ : Kept L₀ t₀ s) (hs₀ : sliceSub [.laser, .thm] L₀ = true) :
    Kept L₀ t₀ (State.tripClrWrite s v) := by
  refine h₀.step (M := [.laser, .thm]) ?_ hs₀
  clear h₀ hs₀ t₀ L₀
  unfold State.tripClrWrite
  repeat' (first | (with_reducible exact Kept.refl _ _) | (rewrite [updateOf_eq]; (with_reducible refine Kept.set_laser ?_ ?h0 ?m0); (case h0 => exact rfl); (case m0 => exact MemOk.same rfl)) | (extract_lets +onlyGivenNames x; have : LaserBlk := x; clear this; subst x) | (extract_lets +onlyGivenNames x; have : x.2 = x.2 := rfl; clear this; subst x) | (extract_lets +onlyGivenNames x; clear_value x) | (with_reducible refine Kept.ite (fun _ => ?_) (fun _ => ?_)) | ((with_reducible apply State.alertNow_kept); on_goal 2 => exact rfl) | ((with_reducible apply State.warmUp_kept); on_goal 2 => exact rfl) | split)

theorem State.latchSet_kept {s : State} {f : LaserBlk → LaserBlk} {L t} (h : Kept L t s)
    (hs : sliceSub [.col, .pfMsix, .irqs, .ras, .laser, .thm] L = true) (kf : ∀ l : LaserBlk, spWf 0xFF l.eeprom = true → spWf 0xFF (f l).eeprom = true) :
    Kept L t (s.latchSet f) := by
  refine h.step (M := [.col, .pfMsix, .irqs, .ras, .laser, .thm]) ?_ hs
  clear h hs t L
  unfold State.latchSet
  extract_lets z u
  subst z
  have hu : Kept [.col, .pfMsix, .irqs, .ras, .laser, .thm] s u := by
    unfold u
    rewrite [updateOf_eq]
    exact Kept.set_laser (Kept.refl _ _) rfl ⟨kf _⟩
  clear_value u
  exact State.alertNow_kept (State.lasersDark_kept (State.log_kept hu rfl) rfl) rfl

theorem State.tripAssert_kept {s : State}
    {L₀ t₀} (h₀ : Kept L₀ t₀ s) (hs₀ : sliceSub [.pins, .col, .pfMsix, .irqs, .ras, .laser, .thm] L₀ = true) :
    Kept L₀ t₀ (State.tripAssert s) := by
  refine h₀.step (M := [.pins, .col, .pfMsix, .irqs, .ras, .laser, .thm]) ?_ hs₀
  clear h₀ hs₀ t₀ L₀
  unfold State.tripAssert
  repeat' (first | (with_reducible exact Kept.refl _ _) | (rewrite [updateOf_eq]; (with_reducible refine Kept.set_pins ?_ ?h0); (case h0 => exact rfl)) | (extract_lets +onlyGivenNames x; have : x.2 = x.2 := rfl; clear this; subst x) | ((with_reducible refine State.latchSet_kept ?_ ?hs (fun _ h => h)); case hs => exact rfl))

theorem execTripNAssert_kept {s : State}
    {L₀ t₀} (h₀ : Kept L₀ t₀ s) (hs₀ : sliceSub [.pins, .col, .pfMsix, .irqs, .ras, .laser, .thm] L₀ = true) :
    Kept L₀ t₀ (outOf s (execTripNAssert s)) := by
  refine h₀.step (M := [.pins, .col, .pfMsix, .irqs, .ras, .laser, .thm]) ?_ hs₀
  clear h₀ hs₀ t₀ L₀
  unfold execTripNAssert
  repeat' (first | (dsimp -zeta -iota -proj only [outOf_next]) | (with_reducible exact Kept.refl _ _) | (with_reducible assumption) | ((with_reducible apply State.tripAssert_kept); on_goal 2 => exact rfl) | ((with_reducible refine Kept.when ?_ (fun _ _ => ?_))))

theorem execCtgInfo_kept {s : State}
    {L₀ t₀} (h₀ : Kept L₀ t₀ s) (hs₀ : sliceSub [.mbx, .pfMsix, .irqs, .hostMem] L₀ = true) :
    Kept L₀ t₀ (outOf s (execCtgInfo s)) := by
  refine h₀.step (M := [.mbx, .pfMsix, .irqs, .hostMem]) ?_ hs₀
  clear h₀ hs₀ t₀ L₀
  unfold execCtgInfo
  repeat' (first | (dsimp -zeta -iota -proj only [outOf_next]) | (with_reducible exact Kept.refl _ _) | (extract_lets +onlyGivenNames x; have : LaserBlk := x; clear this; subst x) | (with_reducible refine Kept.ite (fun _ => ?_) (fun _ => ?_)) | ((with_reducible apply State.mbxAnswer_kept); on_goal 2 => exact rfl) | ((with_reducible refine Kept.onRequest ?_ (fun _ => ?_))))

theorem execCtgHours_kept {s : State}
    {L₀ t₀} (h₀ : Kept L₀ t₀ s) (hs₀ : sliceSub [.mbx, .pfMsix, .irqs, .hostMem] L₀ = true) :
    Kept L₀ t₀ (outOf s (execCtgHours s)) := by
  refine h₀.step (M := [.mbx, .pfMsix, .irqs, .hostMem]) ?_ hs₀
  clear h₀ hs₀ t₀ L₀
  unfold execCtgHours
  repeat' (first | (dsimp -zeta -iota -proj only [outOf_next]) | (with_reducible exact Kept.refl _ _) | (extract_lets +onlyGivenNames x; clear_value x) | (with_reducible refine Kept.ite (fun _ => ?_) (fun _ => ?_)) | ((with_reducible apply State.mbxAnswer_kept); on_goal 2 => exact rfl) | ((with_reducible apply State.hostWritePf_kept); on_goal 2 => exact rfl) | ((with_reducible refine Kept.onRequest ?_ (fun _ => ?_))))

theorem State.applyPolicy_kept {s : State}
    {L₀ t₀} (h₀ : Kept L₀ t₀ s) (hs₀ : sliceSub [.col, .laser] L₀ = true) :
    Kept L₀ t₀ (State.applyPolicy s) := by
  refine h₀.step (M := [.col, .laser]) ?_ hs₀
  clear h₀ hs₀ t₀ L₀
  unfold State.applyPolicy
  repeat' (first | (with_reducible exact Kept.refl _ _) | (with_reducible assumption) | (extract_lets +onlyGivenNames x; (refine Kept.cut (x := x) ?_ (fun _ => ?_); (on_goal 1 => (unfold x; clear x)); (on_goal 2 => clear_value x))) | (rewrite [updateOf_eq]; (with_reducible refine Kept.set_laser ?_ ?h0 ?m0); (case h0 => exact rfl); (case m0 => exact MemOk.same rfl)) | (extract_lets +onlyGivenNames x; have : LaserBlk := x; clear this; subst x) | (extract_lets +onlyGivenNames x; have : x.2 = x.2 := rfl; clear this; subst x) | (with_reducible refine Kept.ite (fun _ => ?_) (fun _ => ?_)) | ((with_reducible apply State.lasersDark_kept); on_goal 2 => exact rfl) | ((with_reducible apply State.laserTo_kept); on_goal 2 => exact rfl) | ((with_reducible apply State.warmUp_kept); on_goal 2 => exact rfl) | ((with_reducible refine Kept.each ?_ (fun _ _ _ => ?_))))

theorem execLaserPolicy_kept {s : State}
    {L₀ t₀} (h₀ : Kept L₀ t₀ s) (hs₀ : sliceSub [.col, .mbx, .pfMsix, .irqs, .laser, .hostMem] L₀ = true) :
    Kept L₀ t₀ (outOf s (execLaserPolicy s)) := by
  refine h₀.step (M := [.col, .mbx, .pfMsix, .irqs, .laser, .hostMem]) ?_ hs₀
  clear h₀ hs₀ t₀ L₀
  unfold execLaserPolicy
  repeat' (first | (dsimp -zeta -iota -proj only [outOf_next]) | (with_reducible exact Kept.refl _ _) | (rewrite [updateOf_eq]; (with_reducible refine Kept.set_laser ?_ ?h0 ?m0); (case h0 => exact rfl); (case m0 => exact MemOk.same rfl)) | (extract_lets +onlyGivenNames x; have : LaserBlk := x; clear this; subst x) | (extract_lets +onlyGivenNames x; have : x.2 = x.2 := rfl; clear this; subst x) | (extract_lets +onlyGivenNames x; clear_value x) | (with_reducible refine Kept.ite (fun _ => ?_) (fun _ => ?_)) | ((with_reducible apply State.mbxAnswer_kept); on_goal 2 => exact rfl) | ((with_reducible apply State.applyPolicy_kept); on_goal 2 => exact rfl) | ((with_reducible apply State.seatRetry_kept); on_goal 2 => exact rfl) | ((with_reducible refine Kept.onRequest ?_ (fun _ => ?_))))

theorem State.unseat_kept {s : State}
    {L₀ t₀} (h₀ : Kept L₀ t₀ s) (hs₀ : sliceSub [.laser] L₀ = true) :
    Kept L₀ t₀ (State.unseat s) := by
  refine h₀.step (M := [.laser]) ?_ hs₀
  clear h₀ hs₀ t₀ L₀
  unfold State.unseat
  repeat' (first | (with_reducible exact Kept.refl _ _) | (rewrite [updateOf_eq]; (with_reducible refine Kept.set_laser ?_ ?h0 ?m0); (case h0 => exact rfl); (case m0 => exact MemOk.same rfl)))

theorem execIntlkFall_kept {s : State}
    {L₀ t₀} (h₀ : Kept L₀ t₀ s) (hs₀ : sliceSub [.col, .pfMsix, .irqs, .ras, .laser, .thm] L₀ = true) :
    Kept L₀ t₀ (outOf s (execIntlkFall s)) := by
  refine h₀.step (M := [.col, .pfMsix, .irqs, .ras, .laser, .thm]) ?_ hs₀
  clear h₀ hs₀ t₀ L₀
  unfold execIntlkFall
  repeat' (first | (dsimp -zeta -iota -proj only [outOf_next]) | (with_reducible exact Kept.refl _ _) | (with_reducible assumption) | (rewrite [updateOf_eq]; (with_reducible refine Kept.set_laser ?_ ?h0 ?m0); (case h0 => exact rfl); (case m0 => exact MemOk.same rfl)) | (extract_lets +onlyGivenNames x; have : LaserBlk := x; clear this; subst x) | (extract_lets +onlyGivenNames x; have : x.2 = x.2 := rfl; clear this; subst x) | (with_reducible refine Kept.ite (fun _ => ?_) (fun _ => ?_)) | ((with_reducible apply State.unseat_kept); on_goal 2 => exact rfl) | ((with_reducible apply State.lasersDark_kept); on_goal 2 => exact rfl) | ((with_reducible refine Kept.when ?_ (fun _ _ => ?_))) | ((with_reducible refine State.latchSet_kept ?_ ?hs (fun _ h => h)); case hs => exact rfl))

theorem execLatchOpen_kept {s : State}
    {L₀ t₀} (h₀ : Kept L₀ t₀ s) (hs₀ : sliceSub [.col, .laser] L₀ = true) :
    Kept L₀ t₀ (outOf s (execLatchOpen s)) := by
  refine h₀.step (M := [.col, .laser]) ?_ hs₀
  clear h₀ hs₀ t₀ L₀
  unfold execLatchOpen
  repeat' (first | (dsimp -zeta -iota -proj only [outOf_next]) | (with_reducible exact Kept.refl _ _) | (with_reducible assumption) | (rewrite [updateOf_eq]; (with_reducible refine Kept.set_laser ?_ ?h0 ?m0); (case h0 => exact rfl); (case m0 => exact MemOk.same rfl)) | (extract_lets +onlyGivenNames x; have : LaserBlk := x; clear this; subst x) | ((with_reducible apply State.lasersDark_kept); on_goal 2 => exact rfl) | ((with_reducible apply State.unseat_kept); on_goal 2 => exact rfl) | ((with_reducible refine Kept.when ?_ (fun _ _ => ?_))))

theorem execCartridgeSeated_kept {ctg : SeatInput} {s : State}
    {L₀ t₀} (h₀ : Kept L₀ t₀ s) (hs₀ : sliceSub [.pfMsix, .irqs, .ras, .laser] L₀ = true) :
    Kept L₀ t₀ (outOf s (execCartridgeSeated ctg s)) := by
  refine h₀.step (M := [.pfMsix, .irqs, .ras, .laser]) ?_ hs₀
  clear h₀ hs₀ t₀ L₀
  unfold execCartridgeSeated
  repeat' (first | (dsimp -zeta -iota -proj only [outOf_next]) | (with_reducible exact Kept.refl _ _) | (with_reducible assumption) | (rewrite [updateOf_eq]; (with_reducible refine Kept.set_laser ?_ ?h0 ?m0); (case h0 => exact rfl); (case m0 => exact MemOk.same rfl)) | (extract_lets +onlyGivenNames x; have : LaserBlk := x; clear this; subst x) | (extract_lets +onlyGivenNames x; have : x.2 = x.2 := rfl; clear this; subst x) | (with_reducible refine Kept.ite (fun _ => ?_) (fun _ => ?_)) | ((with_reducible apply State.authenticate_kept); on_goal 2 => exact rfl) | ((with_reducible apply State.warmUp_kept); on_goal 2 => exact rfl) | ((with_reducible refine Kept.when ?_ (fun _ _ => ?_))) | split)

theorem execDriverFault_kept {n : Fin 20} {kind : DriverFaultKind} {s : State}
    {L₀ t₀} (h₀ : Kept L₀ t₀ s) (hs₀ : sliceSub [.col, .laser] L₀ = true) :
    Kept L₀ t₀ (outOf s (execDriverFault n kind s)) := by
  refine h₀.step (M := [.col, .laser]) ?_ hs₀
  clear h₀ hs₀ t₀ L₀
  unfold execDriverFault
  repeat' (first | (dsimp -zeta -iota -proj only [outOf_next]) | (with_reducible exact Kept.refl _ _) | (with_reducible assumption) | (rewrite [updateOf_eq]; (with_reducible refine Kept.set_col ?_ ?h0); (case h0 => exact rfl)) | (extract_lets +onlyGivenNames x; have : x.2 = x.2 := rfl; clear this; subst x) | ((with_reducible apply State.setLaser_kept); on_goal 2 => exact rfl) | ((with_reducible apply State.laserTo_kept); on_goal 2 => exact rfl) | ((with_reducible refine Kept.when ?_ (fun _ _ => ?_))))

theorem execTripClearArm_kept {val : W32} {s : State}
    {L₀ t₀} (h₀ : Kept L₀ t₀ s) (hs₀ : sliceSub [.laser, .thm] L₀ = true) :
    Kept L₀ t₀ (outOf s (execTripClearArm val s)) := by
  refine h₀.step (M := [.laser, .thm]) ?_ hs₀
  clear h₀ hs₀ t₀ L₀
  unfold execTripClearArm
  repeat' (first | (dsimp -zeta -iota -proj only [outOf_next]) | (with_reducible exact Kept.refl _ _) | (with_reducible assumption) | ((with_reducible apply State.tripClrWrite_kept); on_goal 2 => exact rfl) | ((with_reducible refine Kept.when ?_ (fun _ _ => ?_))))

theorem execTripClear_kept {val : W32} {s : State}
    {L₀ t₀} (h₀ : Kept L₀ t₀ s) (hs₀ : sliceSub [.laser, .thm] L₀ = true) :
    Kept L₀ t₀ (outOf s (execTripClear val s)) := by
  refine h₀.step (M := [.laser, .thm]) ?_ hs₀
  clear h₀ hs₀ t₀ L₀
  unfold execTripClear
  repeat' (first | (dsimp -zeta -iota -proj only [outOf_next]) | (with_reducible exact Kept.refl _ _) | (with_reducible assumption) | ((with_reducible apply State.tripClrWrite_kept); on_goal 2 => exact rfl) | ((with_reducible refine Kept.when ?_ (fun _ _ => ?_))))

theorem execTripClearSeqExpiry_kept {s : State}
    {L₀ t₀} (h₀ : Kept L₀ t₀ s) (hs₀ : sliceSub [.laser] L₀ = true) :
    Kept L₀ t₀ (outOf s (execTripClearSeqExpiry s)) := by
  refine h₀.step (M := [.laser]) ?_ hs₀
  clear h₀ hs₀ t₀ L₀
  unfold execTripClearSeqExpiry
  repeat' (first | (dsimp -zeta -iota -proj only [outOf_next]) | (with_reducible exact Kept.refl _ _) | (with_reducible assumption) | (rewrite [updateOf_eq]; (with_reducible refine Kept.set_laser ?_ ?h0 ?m0); (case h0 => exact rfl); (case m0 => exact MemOk.same rfl)) | ((with_reducible refine Kept.when ?_ (fun _ _ => ?_))) | split)

theorem execLaserWarmupSettled_kept {ok : Bool} {s : State}
    {L₀ t₀} (h₀ : Kept L₀ t₀ s) (hs₀ : sliceSub (slicesBut [.pins, .col, .quads, .cairn, .lockLoss, .loader, .committed, .str, .ret, .numVfs, .turns, .nextItem, .nextMid, .trv, .cornice, .spur, .linkHoldMs, .replyMs, .thm, .flash, .bus, .pending, .free]) L₀ = true) :
    Kept L₀ t₀ (outOf s (execLaserWarmupSettled ok s)) := by
  refine h₀.step (M := (slicesBut [.pins, .col, .quads, .cairn, .lockLoss, .loader, .committed, .str, .ret, .numVfs, .turns, .nextItem, .nextMid, .trv, .cornice, .spur, .linkHoldMs, .replyMs, .thm, .flash, .bus, .pending, .free])) ?_ hs₀
  clear h₀ hs₀ t₀ L₀
  unfold execLaserWarmupSettled
  repeat' (first | (dsimp -zeta -iota -proj only [outOf_next]) | (with_reducible exact Kept.refl _ _) | (with_reducible assumption) | (extract_lets +onlyGivenNames x; (refine Kept.cut (x := x) ?_ (fun _ => ?_); (on_goal 1 => (unfold x; clear x)); (on_goal 2 => clear_value x))) | (rewrite [updateOf_eq]; (with_reducible refine Kept.set_start ?_ ?h0); (case h0 => exact rfl)) | (rewrite [updateOf_eq]; (with_reducible refine Kept.set_laser ?_ ?h0 ?m0); (case h0 => exact rfl); (case m0 => exact MemOk.same rfl)) | (extract_lets +onlyGivenNames x; have : LaserBlk := x; clear this; subst x) | (extract_lets +onlyGivenNames x; have : x.2 = x.2 := rfl; clear this; subst x) | (with_reducible refine Kept.ite (fun _ => ?_) (fun _ => ?_)) | ((with_reducible apply State.warmTo_kept); on_goal 2 => exact rfl) | ((with_reducible apply State.fullStart_kept); on_goal 2 => exact rfl) | ((with_reducible apply State.laserTo_kept); on_goal 2 => exact rfl) | ((with_reducible refine Kept.each ?_ (fun _ _ _ => ?_))) | ((with_reducible refine Kept.when ?_ (fun _ _ => ?_))) | split)

theorem execLaserOut_kept {n : Fin 20} {s : State}
    {L₀ t₀} (h₀ : Kept L₀ t₀ s) (hs₀ : sliceSub [.pfMsix, .irqs, .sends, .ras, .ports, .links, .laser, .cal] L₀ = true) :
    Kept L₀ t₀ (outOf s (execLaserOut n s)) := by
  refine h₀.step (M := [.pfMsix, .irqs, .sends, .ras, .ports, .links, .laser, .cal]) ?_ hs₀
  clear h₀ hs₀ t₀ L₀
  unfold execLaserOut
  repeat' (first | (dsimp -zeta -iota -proj only [outOf_next]) | (with_reducible exact Kept.refl _ _) | (with_reducible assumption) | (extract_lets +onlyGivenNames x; have : x.2 = x.2 := rfl; clear this; subst x) | (extract_lets +onlyGivenNames x; clear_value x) | ((with_reducible apply State.laserOut_kept); on_goal 2 => exact rfl) | ((with_reducible refine Kept.when ?_ (fun _ _ => ?_))))

theorem execSpareTuned_kept {n : Fin 20} {s : State}
    {L₀ t₀} (h₀ : Kept L₀ t₀ s) (hs₀ : sliceSub [.ports, .laser] L₀ = true) :
    Kept L₀ t₀ (outOf s (execSpareTuned n s)) := by
  refine h₀.step (M := [.ports, .laser]) ?_ hs₀
  clear h₀ hs₀ t₀ L₀
  unfold execSpareTuned
  repeat' (first | (dsimp -zeta -iota -proj only [outOf_next]) | (with_reducible exact Kept.refl _ _) | (with_reducible assumption) | (extract_lets +onlyGivenNames x; have : x.2 = x.2 := rfl; clear this; subst x) | (with_reducible refine Kept.ite (fun _ => ?_) (fun _ => ?_)) | ((with_reducible apply State.laserTo_kept); on_goal 2 => exact rfl) | ((with_reducible apply State.startAcq_kept); on_goal 2 => exact rfl) | ((with_reducible apply State.setPort_kept); on_goal 2 => exact rfl) | ((with_reducible refine Kept.each ?_ (fun _ _ _ => ?_))) | ((with_reducible refine Kept.when ?_ (fun _ _ => ?_))) | split)

theorem execUsageRecordWrite_kept {s : State}
    {L₀ t₀} (h₀ : Kept L₀ t₀ s) (hs₀ : sliceSub [.pfMsix, .irqs, .ras, .laser, .free] L₀ = true) :
    Kept L₀ t₀ (outOf s (execUsageRecordWrite s)) := by
  refine h₀.step (M := [.pfMsix, .irqs, .ras, .laser, .free]) ?_ hs₀
  clear h₀ hs₀ t₀ L₀
  unfold execUsageRecordWrite
  repeat' (first | (dsimp -zeta -iota -proj only [outOf_next]) | (with_reducible exact Kept.refl _ _) | (with_reducible assumption) | (extract_lets +onlyGivenNames x; clear_value x) | ((with_reducible apply State.writeRecord_kept); on_goal 2 => exact rfl) | ((with_reducible refine Kept.when ?_ (fun _ _ => ?_))))

theorem execCtgVddTrip_kept {s : State}
    {L₀ t₀} (h₀ : Kept L₀ t₀ s) (hs₀ : sliceSub [.laser] L₀ = true) :
    Kept L₀ t₀ (outOf s (execCtgVddTrip s)) := by
  refine h₀.step (M := [.laser]) ?_ hs₀
  clear h₀ hs₀ t₀ L₀
  unfold execCtgVddTrip
  repeat' (first | (dsimp -zeta -iota -proj only [outOf_next]) | (with_reducible exact Kept.refl _ _) | (with_reducible assumption) | (rewrite [updateOf_eq]; (with_reducible refine Kept.set_laser ?_ ?h0 ?m0); (case h0 => exact rfl); (case m0 => exact MemOk.same rfl)) | ((with_reducible refine Kept.when ?_ (fun _ _ => ?_))))

theorem execCtgVddReclose_kept {s : State}
    {L₀ t₀} (h₀ : Kept L₀ t₀ s) (hs₀ : sliceSub [.laser] L₀ = true) :
    Kept L₀ t₀ (outOf s (execCtgVddReclose s)) := by
  refine h₀.step (M := [.laser]) ?_ hs₀
  clear h₀ hs₀ t₀ L₀
  unfold execCtgVddReclose
  repeat' (first | (dsimp -zeta -iota -proj only [outOf_next]) | (with_reducible exact Kept.refl _ _) | (with_reducible assumption) | (rewrite [updateOf_eq]; (with_reducible refine Kept.set_laser ?_ ?h0 ?m0); (case h0 => exact rfl); (case m0 => exact MemOk.same rfl)) | ((with_reducible refine Kept.when ?_ (fun _ _ => ?_))) | split)

theorem execTripNRelease_kept {s : State}
    {L₀ t₀} (h₀ : Kept L₀ t₀ s) (hs₀ : sliceSub [.pins] L₀ = true) :
    Kept L₀ t₀ (outOf s (execTripNRelease s)) := by
  refine h₀.step (M := [.pins]) ?_ hs₀
  clear h₀ hs₀ t₀ L₀
  unfold execTripNRelease
  repeat' (first | (dsimp -zeta -iota -proj only [outOf_next]) | (with_reducible exact Kept.refl _ _) | (with_reducible assumption) | (rewrite [updateOf_eq]; (with_reducible refine Kept.set_pins ?_ ?h0); (case h0 => exact rfl)) | ((with_reducible refine Kept.when ?_ (fun _ _ => ?_))))

theorem State.seatNow_kept {s : State} {since : Nat}
    {L₀ t₀} (h₀ : Kept L₀ t₀ s) (hs₀ : sliceSub [.laser] L₀ = true) :
    Kept L₀ t₀ (State.seatNow s since) := by
  refine h₀.step (M := [.laser]) ?_ hs₀
  clear h₀ hs₀ t₀ L₀
  unfold State.seatNow
  repeat' (first | (with_reducible exact Kept.refl _ _) | (rewrite [updateOf_eq]; (with_reducible refine Kept.set_laser ?_ ?h0 ?m0); (case h0 => exact rfl); (case m0 => exact MemOk.same rfl)))

theorem execIntlkNRise_kept {s : State}
    {L₀ t₀} (h₀ : Kept L₀ t₀ s) (hs₀ : sliceSub [.laser] L₀ = true) :
    Kept L₀ t₀ (outOf s (execIntlkNRise s)) := by
  refine h₀.step (M := [.laser]) ?_ hs₀
  clear h₀ hs₀ t₀ L₀
  unfold execIntlkNRise
  repeat' (first | (dsimp -zeta -iota -proj only [outOf_next]) | (with_reducible exact Kept.refl _ _) | (with_reducible assumption) | (rewrite [updateOf_eq]; (with_reducible refine Kept.set_laser ?_ ?h0 ?m0); (case h0 => exact rfl); (case m0 => exact MemOk.same rfl)) | (extract_lets +onlyGivenNames x; have : LaserBlk := x; clear this; subst x) | ((with_reducible apply State.seatNow_kept); on_goal 2 => exact rfl) | ((with_reducible refine Kept.when ?_ (fun _ _ => ?_))))

theorem execLatchClosed_kept {s : State}
    {L₀ t₀} (h₀ : Kept L₀ t₀ s) (hs₀ : sliceSub [.laser] L₀ = true) :
    Kept L₀ t₀ (outOf s (execLatchClosed s)) := by
  refine h₀.step (M := [.laser]) ?_ hs₀
  clear h₀ hs₀ t₀ L₀
  unfold execLatchClosed
  repeat' (first | (dsimp -zeta -iota -proj only [outOf_next]) | (with_reducible exact Kept.refl _ _) | (with_reducible assumption) | (rewrite [updateOf_eq]; (with_reducible refine Kept.set_laser ?_ ?h0 ?m0); (case h0 => exact rfl); (case m0 => exact MemOk.same rfl)) | (extract_lets +onlyGivenNames x; have : LaserBlk := x; clear this; subst x) | ((with_reducible apply State.seatNow_kept); on_goal 2 => exact rfl) | ((with_reducible refine Kept.when ?_ (fun _ _ => ?_))))

theorem execOvercurrentRetry_kept {n : Fin 20} {s : State}
    {L₀ t₀} (h₀ : Kept L₀ t₀ s) (hs₀ : sliceSub [.laser] L₀ = true) :
    Kept L₀ t₀ (outOf s (execOvercurrentRetry n s)) := by
  refine h₀.step (M := [.laser]) ?_ hs₀
  clear h₀ hs₀ t₀ L₀
  unfold execOvercurrentRetry
  repeat' (first | (dsimp -zeta -iota -proj only [outOf_next]) | (with_reducible exact Kept.refl _ _) | (with_reducible assumption) | (extract_lets +onlyGivenNames x; have : x.2 = x.2 := rfl; clear this; subst x) | (with_reducible refine Kept.ite (fun _ => ?_) (fun _ => ?_)) | ((with_reducible apply State.setLaser_kept); on_goal 2 => exact rfl) | ((with_reducible apply State.laserTo_kept); on_goal 2 => exact rfl) | ((with_reducible refine Kept.when ?_ (fun _ _ => ?_))) | split)

end Sys2Proof.Machine
end

