-- ==== Sys2Proof/Laws/Link.lean ====
section
/-! SUPPORT. What each operation of Machine/Link.lean may change (`Kept`): the parts of the state, listed; every memory stays canonical,
and no bit of Cairn is cleared. -/

set_option linter.unusedTactic false
set_option linter.unreachableTactic false

namespace Sys2Proof.Machine

theorem State.gotRxStart_kept {s : State} {p : Port}
    {L₀ t₀} (h₀ : Kept L₀ t₀ s) (hs₀ : sliceSub [.ports] L₀ = true) :
    Kept L₀ t₀ (State.gotRxStart s p) := by
  refine h₀.step (M := [.ports]) ?_ hs₀
  clear h₀ hs₀ t₀ L₀
  unfold State.gotRxStart
  repeat' (first | (with_reducible exact Kept.refl _ _) | (with_reducible refine Kept.ite (fun _ => ?_) (fun _ => ?_)) | ((with_reducible apply State.startAcq_kept); on_goal 2 => exact rfl) | split)

theorem State.gotRxDone_kept {s : State} {p : Port} {result : Nat}
    {L₀ t₀} (h₀ : Kept L₀ t₀ s) (hs₀ : sliceSub [.pfMsix, .irqs, .sends, .ras, .ports, .links, .cal] L₀ = true) :
    Kept L₀ t₀ (State.gotRxDone s p result) := by
  refine h₀.step (M := [.pfMsix, .irqs, .sends, .ras, .ports, .links, .cal]) ?_ hs₀
  clear h₀ hs₀ t₀ L₀
  unfold State.gotRxDone
  repeat' (first | (with_reducible exact Kept.refl _ _) | (with_reducible refine Kept.ite (fun _ => ?_) (fun _ => ?_)) | ((with_reducible apply State.calCount_kept); on_goal 2 => exact rfl) | ((with_reducible apply State.becomeWarm_kept); on_goal 2 => exact rfl) | ((with_reducible apply State.slotOver_kept); on_goal 2 => exact rfl) | ((with_reducible apply State.ringDone_kept); on_goal 2 => exact rfl) | ((with_reducible apply State.slotBack_kept); on_goal 2 => exact rfl) | split)

theorem execLinkSwap_kept {s : State}
    {L₀ t₀} (h₀ : Kept L₀ t₀ s) (hs₀ : sliceSub [.mbx, .pfMsix, .irqs, .sends, .links, .hostMem] L₀ = true) :
    Kept L₀ t₀ (outOf s (execLinkSwap s)) := by
  refine h₀.step (M := [.mbx, .pfMsix, .irqs, .sends, .links, .hostMem]) ?_ hs₀
  clear h₀ hs₀ t₀ L₀
  unfold execLinkSwap
  repeat' (first | (dsimp -zeta -iota -proj only [outOf_next]) | (with_reducible exact Kept.refl _ _) | (extract_lets +onlyGivenNames x; have : x.2 = x.2 := rfl; clear this; subst x) | (extract_lets +onlyGivenNames x; clear_value x) | (with_reducible refine Kept.ite (fun _ => ?_) (fun _ => ?_)) | ((with_reducible apply State.mbxAnswer_kept); on_goal 2 => exact rfl) | ((with_reducible apply State.setLink_kept); on_goal 2 => exact rfl) | ((with_reducible apply State.mbxStart_kept); on_goal 2 => exact rfl) | ((with_reducible apply State.sendCtl_kept); on_goal 2 => exact rfl) | ((with_reducible refine Kept.onRequest ?_ (fun _ => ?_))) | split)

theorem State.fecSeen_kept {s : State} {p : Port} {ce : List Nat}
    {L₀ t₀} (h₀ : Kept L₀ t₀ s) (hs₀ : sliceSub [.pfMsix, .irqs, .sends, .ras, .ports, .links, .cal] L₀ = true) :
    Kept L₀ t₀ (State.fecSeen s p ce) := by
  refine h₀.step (M := [.pfMsix, .irqs, .sends, .ras, .ports, .links, .cal]) ?_ hs₀
  clear h₀ hs₀ t₀ L₀
  unfold State.fecSeen
  repeat' (first | (with_reducible exact Kept.refl _ _) | (with_reducible assumption) | (extract_lets +onlyGivenNames x; have : x.2 = x.2 := rfl; clear this; subst x) | (extract_lets +onlyGivenNames x; clear_value x) | (with_reducible refine Kept.ite (fun _ => ?_) (fun _ => ?_)) | ((with_reducible apply State.setLink_kept); on_goal 2 => exact rfl) | ((with_reducible apply State.posFault_kept); on_goal 2 => exact rfl) | ((with_reducible refine Kept.each ?_ (fun _ _ _ => ?_))))

theorem State.askAgain_kept {s : State} {p : Port}
    {L₀ t₀} (h₀ : Kept L₀ t₀ s) (hs₀ : sliceSub [.links] L₀ = true) :
    Kept L₀ t₀ (State.askAgain s p) := by
  refine h₀.step (M := [.links]) ?_ hs₀
  clear h₀ hs₀ t₀ L₀
  unfold State.askAgain
  repeat' (first | (with_reducible exact Kept.refl _ _) | (with_reducible refine Kept.ite (fun _ => ?_) (fun _ => ?_)) | ((with_reducible apply State.setLink_kept); on_goal 2 => exact rfl) | ((with_reducible apply State.sendFlit_kept); on_goal 2 => exact rfl))

theorem State.gotCsync_kept {s : State} {p : Port} {ack : Nat} {freed : List Nat}
    {L₀ t₀} (h₀ : Kept L₀ t₀ s) (hs₀ : sliceSub [.mbx, .pfMsix, .irqs, .sends, .ras, .ports, .links, .cal, .hostMem] L₀ = true) :
    Kept L₀ t₀ (State.gotCsync s p ack freed) := by
  refine h₀.step (M := [.mbx, .pfMsix, .irqs, .sends, .ras, .ports, .links, .cal, .hostMem]) ?_ hs₀
  clear h₀ hs₀ t₀ L₀
  unfold State.gotCsync
  repeat' (first | (with_reducible exact Kept.refl _ _) | (extract_lets +onlyGivenNames x; have : x.2 = x.2 := rfl; clear this; subst x) | (with_reducible refine Kept.ite (fun _ => ?_) (fun _ => ?_)) | ((with_reducible apply State.linkRetrain_kept); on_goal 2 => exact rfl) | ((with_reducible apply State.setLink_kept); on_goal 2 => exact rfl) | ((with_reducible apply State.syncCheck_kept); on_goal 2 => exact rfl))

theorem State.replayAll_kept {s : State} {p : Port}
    {L₀ t₀} (h₀ : Kept L₀ t₀ s) (hs₀ : sliceSub [.mbx, .pfMsix, .irqs, .ras, .ports, .links, .cal, .hostMem] L₀ = true) :
    Kept L₀ t₀ (State.replayAll s p) := by
  refine h₀.step (M := [.mbx, .pfMsix, .irqs, .ras, .ports, .links, .cal, .hostMem]) ?_ hs₀
  clear h₀ hs₀ t₀ L₀
  unfold State.replayAll
  repeat' (first | (with_reducible exact Kept.refl _ _) | (extract_lets +onlyGivenNames x; have : x.2 = x.2 := rfl; clear this; subst x) | (with_reducible refine Kept.ite (fun _ => ?_) (fun _ => ?_)) | ((with_reducible apply State.setLink_kept); on_goal 2 => exact rfl) | ((with_reducible apply State.linkRetrain_kept); on_goal 2 => exact rfl))

theorem State.gotNak_kept {s : State} {p : Port} {ack : Nat}
    {L₀ t₀} (h₀ : Kept L₀ t₀ s) (hs₀ : sliceSub [.mbx, .pfMsix, .irqs, .ras, .ports, .links, .cal, .hostMem] L₀ = true) :
    Kept L₀ t₀ (State.gotNak s p ack) := by
  refine h₀.step (M := [.mbx, .pfMsix, .irqs, .ras, .ports, .links, .cal, .hostMem]) ?_ hs₀
  clear h₀ hs₀ t₀ L₀
  unfold State.gotNak
  repeat' (first | (with_reducible exact Kept.refl _ _) | (with_reducible refine Kept.ite (fun _ => ?_) (fun _ => ?_)) | ((with_reducible apply State.replayAll_kept); on_goal 2 => exact rfl) | ((with_reducible apply State.setLink_kept); on_goal 2 => exact rfl))

theorem State.gotHello_kept {s : State} {p : Port} {h : HelloMsg}
    {L₀ t₀} (h₀ : Kept L₀ t₀ s) (hs₀ : sliceSub [.pfMsix, .irqs, .sends, .ras, .links] L₀ = true) :
    Kept L₀ t₀ (State.gotHello s p h) := by
  refine h₀.step (M := [.pfMsix, .irqs, .sends, .ras, .links]) ?_ hs₀
  clear h₀ hs₀ t₀ L₀
  unfold State.gotHello
  repeat' (first | (with_reducible exact Kept.refl _ _) | (extract_lets +onlyGivenNames x; have : x.2 = x.2 := rfl; clear this; subst x) | (extract_lets +onlyGivenNames x; clear_value x) | (with_reducible refine Kept.ite (fun _ => ?_) (fun _ => ?_)) | ((with_reducible apply State.setLink_kept); on_goal 2 => exact rfl) | ((with_reducible apply State.syncCheck_kept); on_goal 2 => exact rfl) | ((with_reducible apply State.log_kept); on_goal 2 => exact rfl))

theorem State.gotMove_kept {s : State} {p : Port} {lane : Lane} {frm : Pos} {dst : Pos} {cause : Nat} {n : Nat}
    {L₀ t₀} (h₀ : Kept L₀ t₀ s) (hs₀ : sliceSub [.sends, .ports, .links] L₀ = true) :
    Kept L₀ t₀ (State.gotMove s p lane frm dst cause n) := by
  refine h₀.step (M := [.sends, .ports, .links]) ?_ hs₀
  clear h₀ hs₀ t₀ L₀
  unfold State.gotMove
  repeat' (first | (with_reducible exact Kept.refl _ _) | (extract_lets +onlyGivenNames x; have : x.2 = x.2 := rfl; clear this; subst x) | (with_reducible refine Kept.ite (fun _ => ?_) (fun _ => ?_)) | ((with_reducible apply State.slotOver_kept); on_goal 2 => exact rfl) | ((with_reducible apply State.setPort_kept); on_goal 2 => exact rfl) | ((with_reducible apply State.sendCtl_kept); on_goal 2 => exact rfl) | split)

theorem State.gotMoveAck_kept {s : State} {p : Port} {n : Nat}
    {L₀ t₀} (h₀ : Kept L₀ t₀ s) (hs₀ : sliceSub [.ports] L₀ = true) :
    Kept L₀ t₀ (State.gotMoveAck s p n) := by
  refine h₀.step (M := [.ports]) ?_ hs₀
  clear h₀ hs₀ t₀ L₀
  unfold State.gotMoveAck
  repeat' (first | (with_reducible exact Kept.refl _ _) | ((with_reducible apply State.setPort_kept); on_goal 2 => exact rfl))

theorem State.gotMoveCancel_kept {s : State} {p : Port} {n : Nat}
    {L₀ t₀} (h₀ : Kept L₀ t₀ s) (hs₀ : sliceSub [.ports] L₀ = true) :
    Kept L₀ t₀ (State.gotMoveCancel s p n) := by
  refine h₀.step (M := [.ports]) ?_ hs₀
  clear h₀ hs₀ t₀ L₀
  unfold State.gotMoveCancel
  repeat' (first | (with_reducible exact Kept.refl _ _) | ((with_reducible apply State.setPort_kept); on_goal 2 => exact rfl))

theorem State.gotMoveReq_kept {s : State} {p : Port} {frm : Pos} {cause : Nat}
    {L₀ t₀} (h₀ : Kept L₀ t₀ s) (hs₀ : sliceSub [.pfMsix, .irqs, .sends, .ras, .ports, .links, .cal] L₀ = true) :
    Kept L₀ t₀ (State.gotMoveReq s p frm cause) := by
  refine h₀.step (M := [.pfMsix, .irqs, .sends, .ras, .ports, .links, .cal]) ?_ hs₀
  clear h₀ hs₀ t₀ L₀
  unfold State.gotMoveReq
  repeat' (first | (with_reducible exact Kept.refl _ _) | (with_reducible refine Kept.ite (fun _ => ?_) (fun _ => ?_)) | ((with_reducible apply State.startMove_kept); on_goal 2 => exact rfl) | ((with_reducible apply State.posFault_kept); on_goal 2 => exact rfl) | split)

theorem State.gotCalAnnounce_kept {s : State} {p : Port} {dir : Bool} {pos : Pos} {frame : Nat}
    {L₀ t₀} (h₀ : Kept L₀ t₀ s) (hs₀ : sliceSub [.links] L₀ = true) :
    Kept L₀ t₀ (State.gotCalAnnounce s p dir pos frame) := by
  refine h₀.step (M := [.links]) ?_ hs₀
  clear h₀ hs₀ t₀ L₀
  unfold State.gotCalAnnounce
  repeat' (first | (with_reducible exact Kept.refl _ _) | (extract_lets +onlyGivenNames x; have : x.2 = x.2 := rfl; clear this; subst x) | (extract_lets +onlyGivenNames x; clear_value x) | (with_reducible refine Kept.ite (fun _ => ?_) (fun _ => ?_)) | ((with_reducible apply State.setLink_kept); on_goal 2 => exact rfl))

theorem State.sendGrant_kept {s : State} {p : Port} {byHost : Bool} {lead : Bool}
    {L₀ t₀} (h₀ : Kept L₀ t₀ s) (hs₀ : sliceSub [.sends, .links] L₀ = true) :
    Kept L₀ t₀ (State.sendGrant s p byHost lead) := by
  refine h₀.step (M := [.sends, .links]) ?_ hs₀
  clear h₀ hs₀ t₀ L₀
  unfold State.sendGrant
  repeat' (first | (with_reducible exact Kept.refl _ _) | (extract_lets +onlyGivenNames x; have : x.2 = x.2 := rfl; clear this; subst x) | (extract_lets +onlyGivenNames x; clear_value x) | ((with_reducible apply State.sendCtl_kept); on_goal 2 => exact rfl) | ((with_reducible apply State.setLink_kept); on_goal 2 => exact rfl))

theorem State.gotSwapReq_kept {s : State} {p : Port}
    {L₀ t₀} (h₀ : Kept L₀ t₀ s) (hs₀ : sliceSub [.sends, .links] L₀ = true) :
    Kept L₀ t₀ (State.gotSwapReq s p) := by
  refine h₀.step (M := [.sends, .links]) ?_ hs₀
  clear h₀ hs₀ t₀ L₀
  unfold State.gotSwapReq
  repeat' (first | (with_reducible exact Kept.refl _ _) | (extract_lets +onlyGivenNames x; have : x.2 = x.2 := rfl; clear this; subst x) | (with_reducible refine Kept.ite (fun _ => ?_) (fun _ => ?_)) | ((with_reducible apply State.sendGrant_kept); on_goal 2 => exact rfl) | ((with_reducible apply State.setLink_kept); on_goal 2 => exact rfl) | split)

theorem State.gotSwapGrant_kept {s : State} {p : Port} {fs : Nat} {serial : Nat}
    {L₀ t₀} (h₀ : Kept L₀ t₀ s) (hs₀ : sliceSub [.mbx, .pfMsix, .irqs, .links, .hostMem] L₀ = true) :
    Kept L₀ t₀ (State.gotSwapGrant s p fs serial) := by
  refine h₀.step (M := [.mbx, .pfMsix, .irqs, .links, .hostMem]) ?_ hs₀
  clear h₀ hs₀ t₀ L₀
  unfold State.gotSwapGrant
  repeat' (first | (with_reducible exact Kept.refl _ _) | (extract_lets +onlyGivenNames x; have : x.2 = x.2 := rfl; clear this; subst x) | (extract_lets +onlyGivenNames x; clear_value x) | (with_reducible refine Kept.ite (fun _ => ?_) (fun _ => ?_)) | ((with_reducible apply State.setLink_kept); on_goal 2 => exact rfl) | ((with_reducible apply State.mbxDone_kept); on_goal 2 => exact rfl) | split)

theorem State.gotCtl_kept {s : State} {p : Port} {vc : Fin 4} {b : List Byte}
    {L₀ t₀} (h₀ : Kept L₀ t₀ s) (hs₀ : sliceSub [.mbx, .pfMsix, .irqs, .sends, .ras, .ports, .links, .cal, .hostMem] L₀ = true) :
    Kept L₀ t₀ (State.gotCtl s p vc b) := by
  refine h₀.step (M := [.mbx, .pfMsix, .irqs, .sends, .ras, .ports, .links, .cal, .hostMem]) ?_ hs₀
  clear h₀ hs₀ t₀ L₀
  unfold State.gotCtl
  repeat' (first | (with_reducible exact Kept.refl _ _) | (extract_lets +onlyGivenNames x; have : x = fun a => x a := rfl; clear this; subst x; beta_reduce) | (extract_lets +onlyGivenNames x; clear_value x) | (with_reducible refine Kept.ite (fun _ => ?_) (fun _ => ?_)) | ((with_reducible apply State.gotRxStart_kept); on_goal 2 => exact rfl) | ((with_reducible apply State.gotRxDone_kept); on_goal 2 => exact rfl) | ((with_reducible apply State.slotBack_kept); on_goal 2 => exact rfl) | ((with_reducible apply State.gotHello_kept); on_goal 2 => exact rfl) | ((with_reducible apply State.gotMove_kept); on_goal 2 => exact rfl) | ((with_reducible apply State.gotMoveAck_kept); on_goal 2 => exact rfl) | ((with_reducible apply State.gotMoveCancel_kept); on_goal 2 => exact rfl) | ((with_reducible apply State.gotMoveReq_kept); on_goal 2 => exact rfl) | ((with_reducible apply State.gotCalAnnounce_kept); on_goal 2 => exact rfl) | ((with_reducible apply State.gotSwapReq_kept); on_goal 2 => exact rfl) | ((with_reducible apply State.gotSwapGrant_kept); on_goal 2 => exact rfl))

theorem State.forward_kept {s : State} {p : Port} {vc : Fin 4} {dl : Bool} {m : Msg}
    {L₀ t₀} (h₀ : Kept L₀ t₀ s) (hs₀ : sliceSub [.pfMsix, .irqs, .sends, .ras, .links] L₀ = true) :
    Kept L₀ t₀ (State.forward s p vc dl m) := by
  refine h₀.step (M := [.pfMsix, .irqs, .sends, .ras, .links]) ?_ hs₀
  clear h₀ hs₀ t₀ L₀
  unfold State.forward
  repeat' (first | (with_reducible exact Kept.refl _ _) | (extract_lets +onlyGivenNames x; have : x.2 = x.2 := rfl; clear this; subst x) | (with_reducible refine Kept.ite (fun _ => ?_) (fun _ => ?_)) | ((with_reducible apply State.log_kept); on_goal 2 => exact rfl) | ((with_reducible apply State.sendOn_kept); on_goal 2 => exact rfl) | split)

theorem State.deliver_kept {s : State} {p : Port} {vc : Fin 4} {dl : Bool} {b : List Byte} {pz : Option Nat}
    {L₀ t₀} (h₀ : Kept L₀ t₀ s) (hs₀ : sliceSub [.parts, .mbx, .pfMsix, .irqs, .sends, .ras, .ports, .links, .cal, .hostMem] L₀ = true) :
    Kept L₀ t₀ (State.deliver s p vc dl b pz) := by
  refine h₀.step (M := [.parts, .mbx, .pfMsix, .irqs, .sends, .ras, .ports, .links, .cal, .hostMem]) ?_ hs₀
  clear h₀ hs₀ t₀ L₀
  unfold State.deliver
  repeat' (first | (with_reducible exact Kept.refl _ _) | (extract_lets +onlyGivenNames x; have : x.2 = x.2 := rfl; clear this; subst x) | (with_reducible refine Kept.ite (fun _ => ?_) (fun _ => ?_)) | ((with_reducible apply State.gotCtl_kept); on_goal 2 => exact rfl) | ((with_reducible apply State.forward_kept); on_goal 2 => exact rfl) | ((with_reducible apply State.arrive_kept); on_goal 2 => exact rfl) | ((with_reducible apply State.arriveReply_kept); on_goal 2 => exact rfl))

theorem State.takeData_kept {s : State} {p : Port} {f : Flit}
    {L₀ t₀} (h₀ : Kept L₀ t₀ s) (hs₀ : sliceSub [.parts, .mbx, .pfMsix, .irqs, .sends, .ras, .ports, .links, .cal, .hostMem] L₀ = true) :
    Kept L₀ t₀ (State.takeData s p f) := by
  refine h₀.step (M := [.parts, .mbx, .pfMsix, .irqs, .sends, .ras, .ports, .links, .cal, .hostMem]) ?_ hs₀
  clear h₀ hs₀ t₀ L₀
  unfold State.takeData
  repeat' (first | (with_reducible exact Kept.refl _ _) | (extract_lets +onlyGivenNames x; have : x.2 = x.2 := rfl; clear this; subst x) | (extract_lets +onlyGivenNames x; have : x = fun a => x a := rfl; clear this; subst x; beta_reduce) | (extract_lets +onlyGivenNames x; clear_value x) | (with_reducible refine Kept.ite (fun _ => ?_) (fun _ => ?_)) | ((with_reducible apply State.setLink_kept); on_goal 2 => exact rfl) | ((with_reducible apply State.deliver_kept); on_goal 2 => exact rfl))

theorem execFlitReceive_kept {p : Port} {flit : List Byte} {ok : Bool} {ce : List Nat} {s : State}
    {L₀ t₀} (h₀ : Kept L₀ t₀ s) (hs₀ : sliceSub [.parts, .mbx, .pfMsix, .irqs, .sends, .ras, .ports, .links, .cal, .hostMem] L₀ = true) :
    Kept L₀ t₀ (outOf s (execFlitReceive p flit ok ce s)) := by
  refine h₀.step (M := [.parts, .mbx, .pfMsix, .irqs, .sends, .ras, .ports, .links, .cal, .hostMem]) ?_ hs₀
  clear h₀ hs₀ t₀ L₀
  unfold execFlitReceive
  repeat' (first | (dsimp -zeta -iota -proj only [outOf_next]) | (with_reducible exact Kept.refl _ _) | (with_reducible assumption) | (extract_lets +onlyGivenNames x; have : x.2 = x.2 := rfl; clear this; subst x) | (extract_lets +onlyGivenNames x; clear_value x) | (with_reducible refine Kept.ite (fun _ => ?_) (fun _ => ?_)) | ((with_reducible apply State.fecSeen_kept); on_goal 2 => exact rfl) | ((with_reducible apply State.setLink_kept); on_goal 2 => exact rfl) | ((with_reducible apply State.askAgain_kept); on_goal 2 => exact rfl) | ((with_reducible apply State.gotCsync_kept); on_goal 2 => exact rfl) | ((with_reducible apply State.pump_kept); on_goal 2 => exact rfl) | ((with_reducible apply State.gotNak_kept); on_goal 2 => exact rfl) | ((with_reducible apply State.takeData_kept); on_goal 2 => exact rfl) | ((with_reducible refine Kept.when ?_ (fun _ _ => ?_))))

theorem execLaneLockLost_kept {p : Port} {l : Lane} {s : State}
    {L₀ t₀} (h₀ : Kept L₀ t₀ s) (hs₀ : sliceSub [.mbx, .pfMsix, .irqs, .ras, .ports, .links, .cal, .hostMem] L₀ = true) :
    Kept L₀ t₀ (outOf s (execLaneLockLost p l s)) := by
  refine h₀.step (M := [.mbx, .pfMsix, .irqs, .ras, .ports, .links, .cal, .hostMem]) ?_ hs₀
  clear h₀ hs₀ t₀ L₀
  unfold execLaneLockLost
  repeat' (first | (dsimp -zeta -iota -proj only [outOf_next]) | (with_reducible exact Kept.refl _ _) | (extract_lets +onlyGivenNames x; have : x.2 = x.2 := rfl; clear this; subst x) | ((with_reducible apply State.setLink_kept); on_goal 2 => exact rfl) | ((with_reducible apply State.linkRetrain_kept); on_goal 2 => exact rfl))

theorem execNakReceive_kept {p : Port} {ack : Nat} {s : State}
    {L₀ t₀} (h₀ : Kept L₀ t₀ s) (hs₀ : sliceSub [.mbx, .pfMsix, .irqs, .ras, .ports, .links, .cal, .hostMem] L₀ = true) :
    Kept L₀ t₀ (outOf s (execNakReceive p ack s)) := by
  refine h₀.step (M := [.mbx, .pfMsix, .irqs, .ras, .ports, .links, .cal, .hostMem]) ?_ hs₀
  clear h₀ hs₀ t₀ L₀
  unfold execNakReceive
  repeat' (first | (dsimp -zeta -iota -proj only [outOf_next]) | (with_reducible exact Kept.refl _ _) | ((with_reducible apply State.gotNak_kept); on_goal 2 => exact rfl))

theorem execReplayTimeout_kept {p : Port} {s : State}
    {L₀ t₀} (h₀ : Kept L₀ t₀ s) (hs₀ : sliceSub [.mbx, .pfMsix, .irqs, .ras, .ports, .links, .cal, .hostMem] L₀ = true) :
    Kept L₀ t₀ (outOf s (execReplayTimeout p s)) := by
  refine h₀.step (M := [.mbx, .pfMsix, .irqs, .ras, .ports, .links, .cal, .hostMem]) ?_ hs₀
  clear h₀ hs₀ t₀ L₀
  unfold execReplayTimeout
  repeat' (first | (dsimp -zeta -iota -proj only [outOf_next]) | (with_reducible exact Kept.refl _ _) | (with_reducible assumption) | (extract_lets +onlyGivenNames x; have : x.2 = x.2 := rfl; clear this; subst x) | (extract_lets +onlyGivenNames x; clear_value x) | (with_reducible refine Kept.ite (fun _ => ?_) (fun _ => ?_)) | ((with_reducible apply State.setLink_kept); on_goal 2 => exact rfl) | ((with_reducible apply State.sendFlit_kept); on_goal 2 => exact rfl) | ((with_reducible apply State.replayAll_kept); on_goal 2 => exact rfl) | ((with_reducible refine Kept.when ?_ (fun _ _ => ?_))) | split)

theorem execCsync_kept {p : Port} {ack : Nat} {freed : List Nat} {s : State}
    {L₀ t₀} (h₀ : Kept L₀ t₀ s) (hs₀ : sliceSub [.mbx, .pfMsix, .irqs, .sends, .ras, .ports, .links, .cal, .hostMem] L₀ = true) :
    Kept L₀ t₀ (outOf s (execCsync p ack freed s)) := by
  refine h₀.step (M := [.mbx, .pfMsix, .irqs, .sends, .ras, .ports, .links, .cal, .hostMem]) ?_ hs₀
  clear h₀ hs₀ t₀ L₀
  unfold execCsync
  repeat' (first | (dsimp -zeta -iota -proj only [outOf_next]) | (with_reducible exact Kept.refl _ _) | ((with_reducible apply State.gotCsync_kept); on_goal 2 => exact rfl))

theorem execHello_kept {p : Port} {h : HelloMsg} {s : State}
    {L₀ t₀} (h₀ : Kept L₀ t₀ s) (hs₀ : sliceSub [.pfMsix, .irqs, .sends, .ras, .links] L₀ = true) :
    Kept L₀ t₀ (outOf s (execHello p h s)) := by
  refine h₀.step (M := [.pfMsix, .irqs, .sends, .ras, .links]) ?_ hs₀
  clear h₀ hs₀ t₀ L₀
  unfold execHello
  repeat' (first | (dsimp -zeta -iota -proj only [outOf_next]) | (with_reducible exact Kept.refl _ _) | ((with_reducible apply State.gotHello_kept); on_goal 2 => exact rfl))

theorem execMoveAck_kept {p : Port} {lane : Lane} {n : Nat} {s : State}
    {L₀ t₀} (h₀ : Kept L₀ t₀ s) (hs₀ : sliceSub [.ports] L₀ = true) :
    Kept L₀ t₀ (outOf s (execMoveAck p lane n s)) := by
  refine h₀.step (M := [.ports]) ?_ hs₀
  clear h₀ hs₀ t₀ L₀
  unfold execMoveAck
  repeat' (first | (dsimp -zeta -iota -proj only [outOf_next]) | (with_reducible exact Kept.refl _ _) | (with_reducible assumption) | ((with_reducible apply State.gotMoveAck_kept); on_goal 2 => exact rfl) | ((with_reducible refine Kept.when ?_ (fun _ _ => ?_))))

theorem execMoveAckDeadline_kept {p : Port} {s : State}
    {L₀ t₀} (h₀ : Kept L₀ t₀ s) (hs₀ : sliceSub [.pfMsix, .irqs, .sends, .ras, .ports, .links, .cal] L₀ = true) :
    Kept L₀ t₀ (outOf s (execMoveAckDeadline p s)) := by
  refine h₀.step (M := [.pfMsix, .irqs, .sends, .ras, .ports, .links, .cal]) ?_ hs₀
  clear h₀ hs₀ t₀ L₀
  unfold execMoveAckDeadline
  repeat' (first | (dsimp -zeta -iota -proj only [outOf_next]) | (with_reducible exact Kept.refl _ _) | (with_reducible assumption) | (extract_lets +onlyGivenNames x; have : x.2 = x.2 := rfl; clear this; subst x) | (extract_lets +onlyGivenNames x; clear_value x) | ((with_reducible apply State.sendCtl_kept); on_goal 2 => exact rfl) | ((with_reducible apply State.setPort_kept); on_goal 2 => exact rfl) | ((with_reducible apply State.startMove_kept); on_goal 2 => exact rfl) | ((with_reducible refine Kept.each ?_ (fun _ _ _ => ?_))))

theorem execMoveCancel_kept {p : Port} {lane : Lane} {n : Nat} {s : State}
    {L₀ t₀} (h₀ : Kept L₀ t₀ s) (hs₀ : sliceSub [.ports] L₀ = true) :
    Kept L₀ t₀ (outOf s (execMoveCancel p lane n s)) := by
  refine h₀.step (M := [.ports]) ?_ hs₀
  clear h₀ hs₀ t₀ L₀
  unfold execMoveCancel
  repeat' (first | (dsimp -zeta -iota -proj only [outOf_next]) | (with_reducible exact Kept.refl _ _) | (with_reducible assumption) | ((with_reducible apply State.gotMoveCancel_kept); on_goal 2 => exact rfl) | ((with_reducible refine Kept.when ?_ (fun _ _ => ?_))))

theorem execMoveReq_kept {p : Port} {frm : Pos} {cause : Nat} {s : State}
    {L₀ t₀} (h₀ : Kept L₀ t₀ s) (hs₀ : sliceSub [.pfMsix, .irqs, .sends, .ras, .ports, .links, .cal] L₀ = true) :
    Kept L₀ t₀ (outOf s (execMoveReq p frm cause s)) := by
  refine h₀.step (M := [.pfMsix, .irqs, .sends, .ras, .ports, .links, .cal]) ?_ hs₀
  clear h₀ hs₀ t₀ L₀
  unfold execMoveReq
  repeat' (first | (dsimp -zeta -iota -proj only [outOf_next]) | (with_reducible exact Kept.refl _ _) | ((with_reducible apply State.gotMoveReq_kept); on_goal 2 => exact rfl))

theorem execCalAnnounce_kept {p : Port} {dir : Bool} {pos : Pos} {frame : Nat} {s : State}
    {L₀ t₀} (h₀ : Kept L₀ t₀ s) (hs₀ : sliceSub [.links] L₀ = true) :
    Kept L₀ t₀ (outOf s (execCalAnnounce p dir pos frame s)) := by
  refine h₀.step (M := [.links]) ?_ hs₀
  clear h₀ hs₀ t₀ L₀
  unfold execCalAnnounce
  repeat' (first | (dsimp -zeta -iota -proj only [outOf_next]) | (with_reducible exact Kept.refl _ _) | ((with_reducible apply State.gotCalAnnounce_kept); on_goal 2 => exact rfl))

theorem execSwapReq_kept {p : Port} {s : State}
    {L₀ t₀} (h₀ : Kept L₀ t₀ s) (hs₀ : sliceSub [.sends, .links] L₀ = true) :
    Kept L₀ t₀ (outOf s (execSwapReq p s)) := by
  refine h₀.step (M := [.sends, .links]) ?_ hs₀
  clear h₀ hs₀ t₀ L₀
  unfold execSwapReq
  repeat' (first | (dsimp -zeta -iota -proj only [outOf_next]) | (with_reducible exact Kept.refl _ _) | ((with_reducible apply State.gotSwapReq_kept); on_goal 2 => exact rfl))

theorem execSwapGrant_kept {p : Port} {fs : Nat} {serial : Nat} {s : State}
    {L₀ t₀} (h₀ : Kept L₀ t₀ s) (hs₀ : sliceSub [.mbx, .pfMsix, .irqs, .links, .hostMem] L₀ = true) :
    Kept L₀ t₀ (outOf s (execSwapGrant p fs serial s)) := by
  refine h₀.step (M := [.mbx, .pfMsix, .irqs, .links, .hostMem]) ?_ hs₀
  clear h₀ hs₀ t₀ L₀
  unfold execSwapGrant
  repeat' (first | (dsimp -zeta -iota -proj only [outOf_next]) | (with_reducible exact Kept.refl _ _) | ((with_reducible apply State.gotSwapGrant_kept); on_goal 2 => exact rfl))

theorem State.withdraw_kept {s : State} {p : Port}
    {L₀ t₀} (h₀ : Kept L₀ t₀ s) (hs₀ : sliceSub [.sends, .ports, .links] L₀ = true) :
    Kept L₀ t₀ (State.withdraw s p) := by
  refine h₀.step (M := [.sends, .ports, .links]) ?_ hs₀
  clear h₀ hs₀ t₀ L₀
  unfold State.withdraw
  repeat' (first | (with_reducible exact Kept.refl _ _) | (with_reducible assumption) | (extract_lets +onlyGivenNames x; have : x.2 = x.2 := rfl; clear this; subst x) | (extract_lets +onlyGivenNames x; have : x = fun a => x a := rfl; clear this; subst x; beta_reduce) | (extract_lets +onlyGivenNames x; clear_value x) | (with_reducible refine Kept.ite (fun _ => ?_) (fun _ => ?_)) | ((with_reducible apply State.sendCtl_kept); on_goal 2 => exact rfl) | ((with_reducible apply State.setPort_kept); on_goal 2 => exact rfl) | ((with_reducible apply State.setLink_kept); on_goal 2 => exact rfl) | ((with_reducible refine Kept.each ?_ (fun _ _ _ => ?_))) | split)

theorem execRoleSwapFrame_kept {p : Port} {s : State}
    {L₀ t₀} (h₀ : Kept L₀ t₀ s) (hs₀ : sliceSub [.mbx, .pfMsix, .irqs, .sends, .ports, .links, .hostMem] L₀ = true) :
    Kept L₀ t₀ (outOf s (execRoleSwapFrame p s)) := by
  refine h₀.step (M := [.mbx, .pfMsix, .irqs, .sends, .ports, .links, .hostMem]) ?_ hs₀
  clear h₀ hs₀ t₀ L₀
  unfold execRoleSwapFrame
  repeat' (first | (dsimp -zeta -iota -proj only [outOf_next]) | (with_reducible exact Kept.refl _ _) | (with_reducible assumption) | (extract_lets +onlyGivenNames x; have : x.2 = x.2 := rfl; clear this; subst x) | (with_reducible refine Kept.ite (fun _ => ?_) (fun _ => ?_)) | ((with_reducible apply State.withdraw_kept); on_goal 2 => exact rfl) | ((with_reducible apply State.setLink_kept); on_goal 2 => exact rfl) | ((with_reducible apply State.mbxDone_kept); on_goal 2 => exact rfl) | ((with_reducible refine Kept.when ?_ (fun _ _ => ?_))) | split)

theorem execLinkHoldExpiry_kept {p : Port} {s : State}
    {L₀ t₀} (h₀ : Kept L₀ t₀ s) (hs₀ : sliceSub (slicesBut [.pins, .col, .start, .quads, .cairn, .lockLoss, .loader, .committed, .str, .ret, .numVfs, .turns, .nextItem, .nextMid, .trv, .cornice, .spur, .linkHoldMs, .replyMs, .laser, .thm, .flash, .bus, .pending, .free]) L₀ = true) :
    Kept L₀ t₀ (outOf s (execLinkHoldExpiry p s)) := by
  refine h₀.step (M := (slicesBut [.pins, .col, .start, .quads, .cairn, .lockLoss, .loader, .committed, .str, .ret, .numVfs, .turns, .nextItem, .nextMid, .trv, .cornice, .spur, .linkHoldMs, .replyMs, .laser, .thm, .flash, .bus, .pending, .free])) ?_ hs₀
  clear h₀ hs₀ t₀ L₀
  unfold execLinkHoldExpiry
  repeat' (first | (dsimp -zeta -iota -proj only [outOf_next]) | (with_reducible exact Kept.refl _ _) | (with_reducible assumption) | (extract_lets +onlyGivenNames x; have : x.2 = x.2 := rfl; clear this; subst x) | (with_reducible refine Kept.ite (fun _ => ?_) (fun _ => ?_)) | ((with_reducible apply State.linkDown_kept); on_goal 2 => exact rfl) | ((with_reducible apply State.portDark_kept); on_goal 2 => exact rfl) | ((with_reducible apply State.linkGiveUp_kept); on_goal 2 => exact rfl) | ((with_reducible apply State.log_kept); on_goal 2 => exact rfl) | ((with_reducible refine Kept.when ?_ (fun _ _ => ?_))) | split)

theorem execLaneLocked_kept {p : Port} {l : Lane} {s : State}
    {L₀ t₀} (h₀ : Kept L₀ t₀ s) (hs₀ : sliceSub [.sends, .links] L₀ = true) :
    Kept L₀ t₀ (outOf s (execLaneLocked p l s)) := by
  refine h₀.step (M := [.sends, .links]) ?_ hs₀
  clear h₀ hs₀ t₀ L₀
  unfold execLaneLocked
  repeat' (first | (dsimp -zeta -iota -proj only [outOf_next]) | (with_reducible exact Kept.refl _ _) | (with_reducible assumption) | ((with_reducible apply State.syncCheck_kept); on_goal 2 => exact rfl) | ((with_reducible apply State.setLink_kept); on_goal 2 => exact rfl) | ((with_reducible refine Kept.when ?_ (fun _ _ => ?_))))

theorem execLaneMoveMessage_kept {p : Port} {lane : Lane} {frm : Pos} {dst : Pos} {cause : Nat} {n : Nat} {s : State}
    {L₀ t₀} (h₀ : Kept L₀ t₀ s) (hs₀ : sliceSub [.sends, .ports, .links] L₀ = true) :
    Kept L₀ t₀ (outOf s (execLaneMoveMessage p lane frm dst cause n s)) := by
  refine h₀.step (M := [.sends, .ports, .links]) ?_ hs₀
  clear h₀ hs₀ t₀ L₀
  unfold execLaneMoveMessage
  repeat' (first | (dsimp -zeta -iota -proj only [outOf_next]) | (with_reducible exact Kept.refl _ _) | ((with_reducible apply State.gotMove_kept); on_goal 2 => exact rfl))

end Sys2Proof.Machine
end

