-- ==== Sys2Proof/Laws/Calibration.lean ====
section
/-! SUPPORT. What each operation of Machine/Calibration.lean may change (`Kept`): the parts of the state, listed; every memory stays canonical,
and no bit of Cairn is cleared. -/

set_option linter.unusedTactic false
set_option linter.unreachableTactic false

namespace Sys2Proof.Machine

theorem State.calHint_kept {s : State}
    {L₀ t₀} (h₀ : Kept L₀ t₀ s) (hs₀ : sliceSub [.free] L₀ = true) :
    Kept L₀ t₀ (State.calHint s).2 := by
  refine h₀.step (M := [.free]) ?_ hs₀
  clear h₀ hs₀ t₀ L₀
  unfold State.calHint
  repeat' (first | (with_reducible exact Kept.refl _ _) | ((with_reducible apply State.draw_kept); on_goal 2 => exact rfl))

theorem execCalFull_kept {s : State}
    {L₀ t₀} (h₀ : Kept L₀ t₀ s) (hs₀ : sliceSub (slicesBut [.pins, .col, .quads, .cairn, .lockLoss, .loader, .committed, .str, .ret, .numVfs, .turns, .nextItem, .nextMid, .trv, .cornice, .spur, .linkHoldMs, .replyMs, .laser, .thm, .flash, .bus, .pending]) L₀ = true) :
    Kept L₀ t₀ (outOf s (execCalFull s)) := by
  refine h₀.step (M := (slicesBut [.pins, .col, .quads, .cairn, .lockLoss, .loader, .committed, .str, .ret, .numVfs, .turns, .nextItem, .nextMid, .trv, .cornice, .spur, .linkHoldMs, .replyMs, .laser, .thm, .flash, .bus, .pending])) ?_ hs₀
  clear h₀ hs₀ t₀ L₀
  unfold execCalFull
  repeat' (first | (dsimp -zeta -iota -proj only [outOf_next]) | (with_reducible exact Kept.refl _ _) | (with_reducible assumption) | (extract_lets +onlyGivenNames x; have : x.2 = x.2 := rfl; clear this; subst x) | (extract_lets +onlyGivenNames x; clear_value x) | (with_reducible refine Kept.ite (fun _ => ?_) (fun _ => ?_)) | ((with_reducible apply State.mbxAnswer_kept); on_goal 2 => exact rfl) | ((with_reducible apply State.calHint_kept); on_goal 2 => exact rfl) | ((with_reducible apply State.mbxStart_kept); on_goal 2 => exact rfl) | ((with_reducible apply State.fullStart_kept); on_goal 2 => exact rfl) | ((with_reducible apply State.calFail_kept); on_goal 2 => exact rfl) | ((with_reducible apply State.fullCheck_kept); on_goal 2 => exact rfl) | ((with_reducible refine Kept.each ?_ (fun _ _ _ => ?_))) | ((with_reducible refine Kept.onRequest ?_ (fun _ => ?_))))

theorem execCalStepLimit_kept {p : Port} {s : State}
    {L₀ t₀} (h₀ : Kept L₀ t₀ s) (hs₀ : sliceSub [.start, .mbx, .pfMsix, .irqs, .ras, .ports, .cal, .hostMem] L₀ = true) :
    Kept L₀ t₀ (outOf s (execCalStepLimit p s)) := by
  refine h₀.step (M := [.start, .mbx, .pfMsix, .irqs, .ras, .ports, .cal, .hostMem]) ?_ hs₀
  clear h₀ hs₀ t₀ L₀
  unfold execCalStepLimit
  repeat' (first | (dsimp -zeta -iota -proj only [outOf_next]) | (with_reducible exact Kept.refl _ _) | (with_reducible assumption) | ((with_reducible apply State.calFail_kept); on_goal 2 => exact rfl) | ((with_reducible refine Kept.when ?_ (fun _ _ => ?_))) | split)

theorem execCalFullTimeout_kept {s : State}
    {L₀ t₀} (h₀ : Kept L₀ t₀ s) (hs₀ : sliceSub [.mbx, .pfMsix, .irqs, .ports, .cal, .hostMem] L₀ = true) :
    Kept L₀ t₀ (outOf s (execCalFullTimeout s)) := by
  refine h₀.step (M := [.mbx, .pfMsix, .irqs, .ports, .cal, .hostMem]) ?_ hs₀
  clear h₀ hs₀ t₀ L₀
  unfold execCalFullTimeout
  repeat' (first | (dsimp -zeta -iota -proj only [outOf_next]) | (with_reducible exact Kept.refl _ _) | (with_reducible assumption) | (rewrite [updateOf_eq]; (with_reducible refine Kept.set_cal ?_ ?h0); (case h0 => exact rfl)) | (extract_lets +onlyGivenNames x; have : x.2 = x.2 := rfl; clear this; subst x) | (extract_lets +onlyGivenNames x; clear_value x) | ((with_reducible apply State.setPort_kept); on_goal 2 => exact rfl) | ((with_reducible apply State.mbxDone_kept); on_goal 2 => exact rfl) | ((with_reducible refine Kept.each ?_ (fun _ _ _ => ?_))) | ((with_reducible refine Kept.when ?_ (fun _ _ => ?_))) | split)

theorem execAcquisitionRetry_kept {p : Port} {g : Pos} {s : State}
    {L₀ t₀} (h₀ : Kept L₀ t₀ s) (hs₀ : sliceSub [.ports] L₀ = true) :
    Kept L₀ t₀ (outOf s (execAcquisitionRetry p g s)) := by
  refine h₀.step (M := [.ports]) ?_ hs₀
  clear h₀ hs₀ t₀ L₀
  unfold execAcquisitionRetry
  repeat' (first | (dsimp -zeta -iota -proj only [outOf_next]) | (with_reducible exact Kept.refl _ _) | (with_reducible assumption) | (extract_lets +onlyGivenNames x; have : x.2 = x.2 := rfl; clear this; subst x) | (extract_lets +onlyGivenNames x; clear_value x) | (with_reducible refine Kept.ite (fun _ => ?_) (fun _ => ?_)) | ((with_reducible apply State.setPort_kept); on_goal 2 => exact rfl) | ((with_reducible apply State.startAcq_kept); on_goal 2 => exact rfl) | ((with_reducible refine Kept.each ?_ (fun _ _ _ => ?_))))

theorem execCalSlotStart_kept {p : Port} {s : State}
    {L₀ t₀} (h₀ : Kept L₀ t₀ s) (hs₀ : sliceSub [.pfMsix, .irqs, .sends, .ras, .ports, .links, .cal] L₀ = true) :
    Kept L₀ t₀ (outOf s (execCalSlotStart p s)) := by
  refine h₀.step (M := [.pfMsix, .irqs, .sends, .ras, .ports, .links, .cal]) ?_ hs₀
  clear h₀ hs₀ t₀ L₀
  unfold execCalSlotStart
  repeat' (first | (dsimp -zeta -iota -proj only [outOf_next]) | (with_reducible exact Kept.refl _ _) | (with_reducible assumption) | (extract_lets +onlyGivenNames x; have : x.2 = x.2 := rfl; clear this; subst x) | (extract_lets +onlyGivenNames x; clear_value x) | (with_reducible refine Kept.ite (fun _ => ?_) (fun _ => ?_)) | ((with_reducible apply State.setLink_kept); on_goal 2 => exact rfl) | ((with_reducible apply State.sendCtl_kept); on_goal 2 => exact rfl) | ((with_reducible apply State.startMove_kept); on_goal 2 => exact rfl) | ((with_reducible refine Kept.when ?_ (fun _ _ => ?_))) | split)

theorem execCalRxStart_kept {p : Port} {s : State}
    {L₀ t₀} (h₀ : Kept L₀ t₀ s) (hs₀ : sliceSub [.ports] L₀ = true) :
    Kept L₀ t₀ (outOf s (execCalRxStart p s)) := by
  refine h₀.step (M := [.ports]) ?_ hs₀
  clear h₀ hs₀ t₀ L₀
  unfold execCalRxStart
  repeat' (first | (dsimp -zeta -iota -proj only [outOf_next]) | (with_reducible exact Kept.refl _ _) | ((with_reducible apply State.gotRxStart_kept); on_goal 2 => exact rfl))

theorem execCalRxDone_kept {p : Port} {result : Nat} {s : State}
    {L₀ t₀} (h₀ : Kept L₀ t₀ s) (hs₀ : sliceSub [.pfMsix, .irqs, .sends, .ras, .ports, .links, .cal] L₀ = true) :
    Kept L₀ t₀ (outOf s (execCalRxDone p result s)) := by
  refine h₀.step (M := [.pfMsix, .irqs, .sends, .ras, .ports, .links, .cal]) ?_ hs₀
  clear h₀ hs₀ t₀ L₀
  unfold execCalRxDone
  repeat' (first | (dsimp -zeta -iota -proj only [outOf_next]) | (with_reducible exact Kept.refl _ _) | ((with_reducible apply State.gotRxDone_kept); on_goal 2 => exact rfl))

theorem execCalAbort_kept {p : Port} {cause : Nat} {s : State}
    {L₀ t₀} (h₀ : Kept L₀ t₀ s) (hs₀ : sliceSub [.pfMsix, .irqs, .ras, .ports, .links, .cal] L₀ = true) :
    Kept L₀ t₀ (outOf s (execCalAbort p cause s)) := by
  refine h₀.step (M := [.pfMsix, .irqs, .ras, .ports, .links, .cal]) ?_ hs₀
  clear h₀ hs₀ t₀ L₀
  unfold execCalAbort
  repeat' (first | (dsimp -zeta -iota -proj only [outOf_next]) | (with_reducible exact Kept.refl _ _) | ((with_reducible apply State.slotBack_kept); on_goal 2 => exact rfl))

theorem execSlotLimitExpiry_kept {p : Port} {s : State}
    {L₀ t₀} (h₀ : Kept L₀ t₀ s) (hs₀ : sliceSub [.pfMsix, .irqs, .sends, .ras, .ports, .links, .cal] L₀ = true) :
    Kept L₀ t₀ (outOf s (execSlotLimitExpiry p s)) := by
  refine h₀.step (M := [.pfMsix, .irqs, .sends, .ras, .ports, .links, .cal]) ?_ hs₀
  clear h₀ hs₀ t₀ L₀
  unfold execSlotLimitExpiry
  repeat' (first | (dsimp -zeta -iota -proj only [outOf_next]) | (with_reducible exact Kept.refl _ _) | (with_reducible assumption) | ((with_reducible apply State.slotAbort_kept); on_goal 2 => exact rfl) | ((with_reducible apply State.calCount_kept); on_goal 2 => exact rfl) | ((with_reducible refine Kept.when ?_ (fun _ _ => ?_))) | split)

theorem execRollbackTimeout_kept {p : Port} {s : State}
    {L₀ t₀} (h₀ : Kept L₀ t₀ s) (hs₀ : sliceSub [.pfMsix, .irqs, .ras, .ports, .links] L₀ = true) :
    Kept L₀ t₀ (outOf s (execRollbackTimeout p s)) := by
  refine h₀.step (M := [.pfMsix, .irqs, .ras, .ports, .links]) ?_ hs₀
  clear h₀ hs₀ t₀ L₀
  unfold execRollbackTimeout
  repeat' (first | (dsimp -zeta -iota -proj only [outOf_next]) | (with_reducible exact Kept.refl _ _) | (with_reducible assumption) | ((with_reducible apply State.setFault_kept); on_goal 2 => exact rfl) | ((with_reducible apply State.slotOver_kept); on_goal 2 => exact rfl) | ((with_reducible refine Kept.when ?_ (fun _ _ => ?_))) | split)

theorem execSnapshotCapture_kept {s : State}
    {L₀ t₀} (h₀ : Kept L₀ t₀ s) (hs₀ : sliceSub [.cal] L₀ = true) :
    Kept L₀ t₀ (outOf s (execSnapshotCapture s)) := by
  refine h₀.step (M := [.cal]) ?_ hs₀
  clear h₀ hs₀ t₀ L₀
  unfold execSnapshotCapture
  repeat' (first | (dsimp -zeta -iota -proj only [outOf_next]) | (with_reducible exact Kept.refl _ _) | (with_reducible assumption) | ((with_reducible apply State.capture_kept); on_goal 2 => exact rfl) | ((with_reducible refine Kept.when ?_ (fun _ _ => ?_))))

theorem execSnapshotFlashWrite_kept {ok : Bool} {s : State}
    {L₀ t₀} (h₀ : Kept L₀ t₀ s) (hs₀ : sliceSub [.pfMsix, .irqs, .ras, .cal, .flash, .free] L₀ = true) :
    Kept L₀ t₀ (outOf s (execSnapshotFlashWrite ok s)) := by
  refine h₀.step (M := [.pfMsix, .irqs, .ras, .cal, .flash, .free]) ?_ hs₀
  clear h₀ hs₀ t₀ L₀
  unfold execSnapshotFlashWrite
  repeat' (first | (dsimp -zeta -iota -proj only [outOf_next]) | (with_reducible exact Kept.refl _ _) | (with_reducible assumption) | (rewrite [updateOf_eq]; (with_reducible refine Kept.set_cal ?_ ?h0); (case h0 => exact rfl)) | (extract_lets +onlyGivenNames x; have : x.2 = x.2 := rfl; clear this; subst x) | (extract_lets +onlyGivenNames x; clear_value x) | (with_reducible refine Kept.ite (fun _ => ?_) (fun _ => ?_)) | ((with_reducible apply State.flashErase_kept); on_goal 2 => exact rfl) | ((with_reducible apply State.flashProgram_kept); on_goal 2 => exact rfl) | ((with_reducible apply State.draw_kept); on_goal 2 => exact rfl) | ((with_reducible apply State.log_kept); on_goal 2 => exact rfl) | ((with_reducible refine Kept.when ?_ (fun _ _ => ?_))))

theorem execCalSnapshot_kept {s : State}
    {L₀ t₀} (h₀ : Kept L₀ t₀ s) (hs₀ : sliceSub [.mbx, .pfMsix, .irqs, .cal, .hostMem, .free] L₀ = true) :
    Kept L₀ t₀ (outOf s (execCalSnapshot s)) := by
  refine h₀.step (M := [.mbx, .pfMsix, .irqs, .cal, .hostMem, .free]) ?_ hs₀
  clear h₀ hs₀ t₀ L₀
  unfold execCalSnapshot
  repeat' (first | (dsimp -zeta -iota -proj only [outOf_next]) | (with_reducible exact Kept.refl _ _) | (extract_lets +onlyGivenNames x; have : x.2 = x.2 := rfl; clear this; subst x) | (with_reducible refine Kept.ite (fun _ => ?_) (fun _ => ?_)) | ((with_reducible apply State.mbxAnswer_kept); on_goal 2 => exact rfl) | ((with_reducible apply State.calHint_kept); on_goal 2 => exact rfl) | ((with_reducible apply State.capture_kept); on_goal 2 => exact rfl) | ((with_reducible refine Kept.onRequest ?_ (fun _ => ?_))))

theorem execCalExport_kept {s : State}
    {L₀ t₀} (h₀ : Kept L₀ t₀ s) (hs₀ : sliceSub [.mbx, .pfMsix, .irqs, .hostMem] L₀ = true) :
    Kept L₀ t₀ (outOf s (execCalExport s)) := by
  refine h₀.step (M := [.mbx, .pfMsix, .irqs, .hostMem]) ?_ hs₀
  clear h₀ hs₀ t₀ L₀
  unfold execCalExport
  repeat' (first | (dsimp -zeta -iota -proj only [outOf_next]) | (with_reducible exact Kept.refl _ _) | (extract_lets +onlyGivenNames x; clear_value x) | (with_reducible refine Kept.ite (fun _ => ?_) (fun _ => ?_)) | ((with_reducible apply State.mbxAnswer_kept); on_goal 2 => exact rfl) | ((with_reducible apply State.hostWritePf_kept); on_goal 2 => exact rfl) | ((with_reducible refine Kept.onRequest ?_ (fun _ => ?_))))

theorem execCalImport_kept {bad : Bool} {s : State}
    {L₀ t₀} (h₀ : Kept L₀ t₀ s) (hs₀ : sliceSub [.mbx, .pfMsix, .irqs, .cal, .hostMem, .free] L₀ = true) :
    Kept L₀ t₀ (outOf s (execCalImport bad s)) := by
  refine h₀.step (M := [.mbx, .pfMsix, .irqs, .cal, .hostMem, .free]) ?_ hs₀
  clear h₀ hs₀ t₀ L₀
  unfold execCalImport
  repeat' (first | (dsimp -zeta -iota -proj only [outOf_next]) | (with_reducible exact Kept.refl _ _) | (rewrite [updateOf_eq]; (with_reducible refine Kept.set_cal ?_ ?h0); (case h0 => exact rfl)) | (extract_lets +onlyGivenNames x; have : x.2 = x.2 := rfl; clear this; subst x) | (extract_lets +onlyGivenNames x; clear_value x) | (with_reducible refine Kept.ite (fun _ => ?_) (fun _ => ?_)) | ((with_reducible apply State.mbxAnswer_kept); on_goal 2 => exact rfl) | ((with_reducible apply State.calHint_kept); on_goal 2 => exact rfl) | ((with_reducible refine Kept.onRequest ?_ (fun _ => ?_))))

end Sys2Proof.Machine
end

