-- ==== Sys2Proof/Laws/Crest.lean ====
section
/-! SUPPORT. What each operation of Machine/Crest.lean may change (`Kept`): the parts of the state, listed; every memory stays canonical,
and no bit of Cairn is cleared. -/

set_option linter.unusedTactic false
set_option linter.unreachableTactic false

namespace Sys2Proof.Machine

theorem execEntryStart_kept {q : Quad} {s : State}
    {L₀ t₀} (h₀ : Kept L₀ t₀ s) (hs₀ : sliceSub [.items, .crest, .cornice] L₀ = true) :
    Kept L₀ t₀ (outOf s (execEntryStart q s)) := by
  refine h₀.step (M := [.items, .crest, .cornice]) ?_ hs₀
  clear h₀ hs₀ t₀ L₀
  unfold execEntryStart
  repeat' (first | (dsimp -zeta -iota -proj only [outOf_next]) | (with_reducible exact Kept.refl _ _) | (with_reducible assumption) | (extract_lets +onlyGivenNames x; have : x.2 = x.2 := rfl; clear this; subst x) | (extract_lets +onlyGivenNames x; have : x = fun a => x a := rfl; clear this; subst x; beta_reduce) | (extract_lets +onlyGivenNames x; clear_value x) | ((with_reducible apply State.setCq_kept); on_goal 2 => exact rfl) | ((with_reducible apply State.setEng_kept); on_goal 2 => exact rfl) | ((with_reducible apply State.setItem_kept); on_goal 2 => exact rfl) | ((with_reducible refine Kept.when ?_ (fun _ _ => ?_))) | split)

theorem State.freeQuads_kept {s : State} {i : Item} {finished : Bool}
    {L₀ t₀} (h₀ : Kept L₀ t₀ s) (hs₀ : sliceSub [.quads, .items, .trv, .crest, .cornice] L₀ = true) :
    Kept L₀ t₀ (State.freeQuads s i finished) := by
  refine h₀.step (M := [.quads, .items, .trv, .crest, .cornice]) ?_ hs₀
  clear h₀ hs₀ t₀ L₀
  unfold State.freeQuads
  repeat' (first | (with_reducible exact Kept.refl _ _) | (with_reducible assumption) | (rewrite [updateOf_eq]; (with_reducible refine Kept.set_trv ?_ ?h0); (case h0 => exact rfl)) | (extract_lets +onlyGivenNames x; have : x.2 = x.2 := rfl; clear this; subst x) | ((with_reducible apply State.setCq_kept); on_goal 2 => exact rfl) | ((with_reducible apply State.setEng_kept); on_goal 2 => exact rfl) | ((with_reducible apply State.setQ_kept); on_goal 2 => exact rfl) | ((with_reducible apply State.setItem_kept); on_goal 2 => exact rfl) | ((with_reducible refine Kept.each ?_ (fun _ _ _ => ?_))))

theorem execEntryFinish_kept {id : Nat} {s : State}
    {L₀ t₀} (h₀ : Kept L₀ t₀ s) (hs₀ : sliceSub [.quads, .items, .trv, .crest, .cornice] L₀ = true) :
    Kept L₀ t₀ (outOf s (execEntryFinish id s)) := by
  refine h₀.step (M := [.quads, .items, .trv, .crest, .cornice]) ?_ hs₀
  clear h₀ hs₀ t₀ L₀
  unfold execEntryFinish
  repeat' (first | (dsimp -zeta -iota -proj only [outOf_next]) | (with_reducible exact Kept.refl _ _) | (with_reducible assumption) | (extract_lets +onlyGivenNames x; have : x.2 = x.2 := rfl; clear this; subst x) | (extract_lets +onlyGivenNames x; clear_value x) | ((with_reducible apply State.markFirst_kept); on_goal 2 => exact rfl) | ((with_reducible apply State.freeQuads_kept); on_goal 2 => exact rfl) | ((with_reducible apply State.finish_kept); on_goal 2 => exact rfl) | ((with_reducible refine Kept.when ?_ (fun _ _ => ?_))) | ((with_reducible refine Kept.withItem ?_ (fun _ => ?_))))

theorem State.stopEntry_kept {s : State} {i : Item} {st : Status}
    {L₀ t₀} (h₀ : Kept L₀ t₀ s) (hs₀ : sliceSub [.quads, .parts, .items, .sends, .trv, .crest, .cornice, .spur] L₀ = true) :
    Kept L₀ t₀ (State.stopEntry s i st) := by
  refine h₀.step (M := [.quads, .parts, .items, .sends, .trv, .crest, .cornice, .spur]) ?_ hs₀
  clear h₀ hs₀ t₀ L₀
  unfold State.stopEntry
  repeat' (first | (with_reducible exact Kept.refl _ _) | (rewrite [updateOf_eq]; (with_reducible refine Kept.set_sends ?_ ?h0); (case h0 => exact rfl)) | (extract_lets +onlyGivenNames x; have : x.2 = x.2 := rfl; clear this; subst x) | (extract_lets +onlyGivenNames x; have : x = fun a => x a := rfl; clear this; subst x; beta_reduce) | ((with_reducible apply State.freeQuads_kept); on_goal 2 => exact rfl) | ((with_reducible apply State.dropLanded_kept); on_goal 2 => exact rfl) | ((with_reducible apply State.dropJobs_kept); on_goal 2 => exact rfl) | ((with_reducible apply State.setPart_kept); on_goal 2 => exact rfl) | ((with_reducible apply State.finish_kept); on_goal 2 => exact rfl))

theorem execEntryStop_kept {id : Nat} {s : State}
    {L₀ t₀} (h₀ : Kept L₀ t₀ s) (hs₀ : sliceSub [.quads, .parts, .items, .sends, .trv, .crest, .cornice, .spur] L₀ = true) :
    Kept L₀ t₀ (outOf s (execEntryStop id s)) := by
  refine h₀.step (M := [.quads, .parts, .items, .sends, .trv, .crest, .cornice, .spur]) ?_ hs₀
  clear h₀ hs₀ t₀ L₀
  unfold execEntryStop
  repeat' (first | (dsimp -zeta -iota -proj only [outOf_next]) | (with_reducible exact Kept.refl _ _) | (with_reducible assumption) | ((with_reducible apply State.stopEntry_kept); on_goal 2 => exact rfl) | ((with_reducible refine Kept.when ?_ (fun _ _ => ?_))) | ((with_reducible refine Kept.withItem ?_ (fun _ => ?_))) | split)

theorem execStepLimitExpiry_kept {id : Nat} {s : State}
    {L₀ t₀} (h₀ : Kept L₀ t₀ s) (hs₀ : sliceSub [.items] L₀ = true) :
    Kept L₀ t₀ (outOf s (execStepLimitExpiry id s)) := by
  refine h₀.step (M := [.items]) ?_ hs₀
  clear h₀ hs₀ t₀ L₀
  unfold execStepLimitExpiry
  repeat' (first | (dsimp -zeta -iota -proj only [outOf_next]) | (with_reducible exact Kept.refl _ _) | (with_reducible assumption) | ((with_reducible apply State.askStop_kept); on_goal 2 => exact rfl) | ((with_reducible refine Kept.when ?_ (fun _ _ => ?_))) | ((with_reducible refine Kept.withItem ?_ (fun _ => ?_))) | split)

theorem execSlewGrant_kept {s : State}
    {L₀ t₀} (h₀ : Kept L₀ t₀ s) (hs₀ : sliceSub [.crest] L₀ = true) :
    Kept L₀ t₀ (outOf s (execSlewGrant s)) := by
  refine h₀.step (M := [.crest]) ?_ hs₀
  clear h₀ hs₀ t₀ L₀
  unfold execSlewGrant
  repeat' (first | (dsimp -zeta -iota -proj only [outOf_next]) | (with_reducible exact Kept.refl _ _) | (rewrite [updateOf_eq]; (with_reducible refine Kept.set_crest ?_ ?h0 ?m0); (case h0 => exact rfl); (case m0 => exact ⟨MemOk.same rfl, MemOk.same rfl, MemOk.same rfl, MemOk.same rfl, MemOk.same rfl, MemOk.same rfl⟩)) | (extract_lets +onlyGivenNames x; have : x.2 = x.2 := rfl; clear this; subst x) | (extract_lets +onlyGivenNames x; have : x = fun a => x a := rfl; clear this; subst x; beta_reduce) | (extract_lets +onlyGivenNames x; clear_value x) | ((with_reducible apply State.setCq_kept); on_goal 2 => exact rfl) | split)

theorem execCrestNop_kept {q : Quad} {t : Fin 4} {s : State}
    {L₀ t₀} (h₀ : Kept L₀ t₀ s) (hs₀ : sliceSub [.items, .crest] L₀ = true) :
    Kept L₀ t₀ (outOf s (execCrestNop q t s)) := by
  refine h₀.step (M := [.items, .crest]) ?_ hs₀
  clear h₀ hs₀ t₀ L₀
  unfold execCrestNop
  repeat' (first | (dsimp -zeta -iota -proj only [outOf_next]) | (with_reducible exact Kept.refl _ _) | (with_reducible assumption) | ((with_reducible apply State.nextOp_kept); on_goal 2 => exact rfl) | ((with_reducible refine Kept.tileOp ?_ (fun _ _ _ _ _ => ?_) ?hs); case hs => exact rfl))

theorem execMatmul_kept {q : Quad} {t : Fin 4} {s : State}
    {L₀ t₀} (h₀ : Kept L₀ t₀ s) (hs₀ : sliceSub [.quads, .pfMsix, .irqs, .items, .dram, .ras, .trv, .crest] L₀ = true) :
    Kept L₀ t₀ (outOf s (execMatmul q t s)) := by
  refine h₀.step (M := [.quads, .pfMsix, .irqs, .items, .dram, .ras, .trv, .crest]) ?_ hs₀
  clear h₀ hs₀ t₀ L₀
  unfold execMatmul
  repeat' (first | (dsimp -zeta -iota -proj only [outOf_next]) | (with_reducible exact Kept.refl _ _) | (with_reducible assumption) | ((with_reducible apply State.computeOp_kept); on_goal 2 => exact rfl) | ((with_reducible refine Kept.tileOp ?_ (fun _ _ _ _ _ => ?_) ?hs); case hs => exact rfl))

theorem execEltwise_kept {q : Quad} {t : Fin 4} {s : State}
    {L₀ t₀} (h₀ : Kept L₀ t₀ s) (hs₀ : sliceSub [.quads, .pfMsix, .irqs, .items, .dram, .ras, .trv, .crest] L₀ = true) :
    Kept L₀ t₀ (outOf s (execEltwise q t s)) := by
  refine h₀.step (M := [.quads, .pfMsix, .irqs, .items, .dram, .ras, .trv, .crest]) ?_ hs₀
  clear h₀ hs₀ t₀ L₀
  unfold execEltwise
  repeat' (first | (dsimp -zeta -iota -proj only [outOf_next]) | (with_reducible exact Kept.refl _ _) | (with_reducible assumption) | (extract_lets +onlyGivenNames x; clear_value x) | ((with_reducible apply State.computeOp_kept); on_goal 2 => exact rfl) | ((with_reducible refine Kept.tileOp ?_ (fun _ _ _ _ _ => ?_) ?hs); case hs => exact rfl))

theorem execConvert_kept {q : Quad} {t : Fin 4} {s : State}
    {L₀ t₀} (h₀ : Kept L₀ t₀ s) (hs₀ : sliceSub [.quads, .pfMsix, .irqs, .items, .dram, .ras, .trv, .crest] L₀ = true) :
    Kept L₀ t₀ (outOf s (execConvert q t s)) := by
  refine h₀.step (M := [.quads, .pfMsix, .irqs, .items, .dram, .ras, .trv, .crest]) ?_ hs₀
  clear h₀ hs₀ t₀ L₀
  unfold execConvert
  repeat' (first | (dsimp -zeta -iota -proj only [outOf_next]) | (with_reducible exact Kept.refl _ _) | (with_reducible assumption) | ((with_reducible apply State.computeOp_kept); on_goal 2 => exact rfl) | ((with_reducible refine Kept.tileOp ?_ (fun _ _ _ _ _ => ?_) ?hs); case hs => exact rfl))

theorem State.moveOut_kept {s back : State} {q n i o pc bs pz L t} (h : Kept L t s)
    (hb : Kept L t back) (hs : sliceSub [.quads, .parts, .pfMsix, .irqs, .items, .dram, .ras, .trv, .crest, .spur] L = true) : Kept L t (s.moveOut q n i o pc bs pz back) := by
  have sub : ∀ M, sliceSub M [.quads, .parts, .pfMsix, .irqs, .items, .dram, .ras, .trv, .crest, .spur] = true → sliceSub M L = true := fun M hm => by
    simp only [sliceSub, List.all_eq_true, List.contains_eq_mem, decide_eq_true_eq] at *
    exact fun x hx => hs x (hm x hx)
  have done : ∀ v, Kept L t v → Kept L t ((v.consume i.id pz).nextOp q n (some (pc + 32))) := fun v hv =>
    State.nextOp_kept (State.consume_kept hv (sub _ rfl)) (sub _ rfl)
  unfold State.moveOut
  extract_lets op fin
  split
  · split
    · split
      · exact hb
      · split
        · exact done _ (State.landing_kept (State.winWrite_kept h (sub _ rfl)) (sub _ rfl))
        · exact State.kernelFault_kept hb (sub _ rfl)
    · exact h
  · split
    · exact done _ (State.opWrite_kept_ok h (sub _ rfl) (by assumption))
    · exact State.opWrite_kept_wait h (sub _ rfl) (by assumption)
    · exact State.kernelFault_kept hb (sub _ rfl)

theorem execMove_kept {q : Quad} {t : Fin 4} {s : State}
    {L₀ t₀} (h₀ : Kept L₀ t₀ s) (hs₀ : sliceSub [.quads, .parts, .pfMsix, .irqs, .items, .dram, .ras, .trv, .crest, .spur] L₀ = true) :
    Kept L₀ t₀ (outOf s (execMove q t s)) := by
  refine h₀.step (M := [.quads, .parts, .pfMsix, .irqs, .items, .dram, .ras, .trv, .crest, .spur]) ?_ hs₀
  clear h₀ hs₀ t₀ L₀
  unfold execMove
  repeat' (first | (dsimp -zeta -iota -proj only [outOf_next]) | (with_reducible exact Kept.refl _ _) | (with_reducible assumption) | ((with_reducible refine State.moveOut_kept ?_ ?_ ?hs); case hs => exact rfl) | (extract_lets +onlyGivenNames x; clear_value x) | (with_reducible refine Kept.ite (fun _ => ?_) (fun _ => ?_)) | ((with_reducible apply State.winRead_kept); on_goal 2 => exact rfl) | ((with_reducible apply State.kernelFault_kept); on_goal 2 => exact rfl) | (with_reducible refine State.opRead_kept_ok ?_ rfl (by assumption)) | (with_reducible refine State.opRead_kept_wait ?_ rfl (by assumption)) | ((with_reducible refine Kept.tileOp ?_ (fun _ _ _ _ _ => ?_) ?hs); case hs => exact rfl) | split)

theorem execCrestWait_kept {q : Quad} {t : Fin 4} {s : State}
    {L₀ t₀} (h₀ : Kept L₀ t₀ s) (hs₀ : sliceSub [.pfMsix, .irqs, .items, .ras, .crest] L₀ = true) :
    Kept L₀ t₀ (outOf s (execCrestWait q t s)) := by
  refine h₀.step (M := [.pfMsix, .irqs, .items, .ras, .crest]) ?_ hs₀
  clear h₀ hs₀ t₀ L₀
  unfold execCrestWait
  repeat' (first | (dsimp -zeta -iota -proj only [outOf_next]) | (with_reducible exact Kept.refl _ _) | (with_reducible assumption) | (extract_lets +onlyGivenNames x; have : x.2 = x.2 := rfl; clear this; subst x) | (with_reducible refine Kept.ite (fun _ => ?_) (fun _ => ?_)) | ((with_reducible apply State.nextOp_kept); on_goal 2 => exact rfl) | ((with_reducible apply State.setCq_kept); on_goal 2 => exact rfl) | ((with_reducible apply State.kernelFault_kept); on_goal 2 => exact rfl) | ((with_reducible refine Kept.tileOp ?_ (fun _ _ _ _ _ => ?_) ?hs); case hs => exact rfl))

theorem execCrestSignal_kept {q : Quad} {t : Fin 4} {s : State}
    {L₀ t₀} (h₀ : Kept L₀ t₀ s) (hs₀ : sliceSub [.pfMsix, .irqs, .items, .ras, .crest] L₀ = true) :
    Kept L₀ t₀ (outOf s (execCrestSignal q t s)) := by
  refine h₀.step (M := [.pfMsix, .irqs, .items, .ras, .crest]) ?_ hs₀
  clear h₀ hs₀ t₀ L₀
  unfold execCrestSignal
  repeat' (first | (dsimp -zeta -iota -proj only [outOf_next]) | (with_reducible exact Kept.refl _ _) | (with_reducible assumption) | (extract_lets +onlyGivenNames x; have : x.2 = x.2 := rfl; clear this; subst x) | (with_reducible refine Kept.ite (fun _ => ?_) (fun _ => ?_)) | ((with_reducible apply State.kernelFault_kept); on_goal 2 => exact rfl) | ((with_reducible apply State.nextOp_kept); on_goal 2 => exact rfl) | ((with_reducible apply State.setCq_kept); on_goal 2 => exact rfl) | ((with_reducible refine Kept.tileOp ?_ (fun _ _ _ _ _ => ?_) ?hs); case hs => exact rfl))

theorem execResult_kept {q : Quad} {t : Fin 4} {s : State}
    {L₀ t₀} (h₀ : Kept L₀ t₀ s) (hs₀ : sliceSub [.items, .crest] L₀ = true) :
    Kept L₀ t₀ (outOf s (execResult q t s)) := by
  refine h₀.step (M := [.items, .crest]) ?_ hs₀
  clear h₀ hs₀ t₀ L₀
  unfold execResult
  repeat' (first | (dsimp -zeta -iota -proj only [outOf_next]) | (with_reducible exact Kept.refl _ _) | (with_reducible assumption) | ((with_reducible apply State.nextOp_kept); on_goal 2 => exact rfl) | ((with_reducible apply State.setItem_kept); on_goal 2 => exact rfl) | ((with_reducible refine Kept.tileOp ?_ (fun _ _ _ _ _ => ?_) ?hs); case hs => exact rfl))

theorem execCrestEnd_kept {q : Quad} {t : Fin 4} {s : State}
    {L₀ t₀} (h₀ : Kept L₀ t₀ s) (hs₀ : sliceSub [.items, .crest] L₀ = true) :
    Kept L₀ t₀ (outOf s (execCrestEnd q t s)) := by
  refine h₀.step (M := [.items, .crest]) ?_ hs₀
  clear h₀ hs₀ t₀ L₀
  unfold execCrestEnd
  repeat' (first | (dsimp -zeta -iota -proj only [outOf_next]) | (with_reducible exact Kept.refl _ _) | (with_reducible assumption) | ((with_reducible apply State.nextOp_kept); on_goal 2 => exact rfl) | ((with_reducible refine Kept.tileOp ?_ (fun _ _ _ _ _ => ?_) ?hs); case hs => exact rfl))

end Sys2Proof.Machine
end

