-- ==== Sys2Proof/Laws/Cornice.lean ====
section
/-! SUPPORT. What each operation of Machine/Cornice.lean may change (`Kept`): the parts of the state, listed; every memory stays canonical,
and no bit of Cairn is cleared. -/

set_option linter.unusedTactic false
set_option linter.unreachableTactic false

namespace Sys2Proof.Machine

theorem State.cncFault_kept {s : State} {e : Quad} {op : Nat} {cause : Nat}
    {L₀ t₀} (h₀ : Kept L₀ t₀ s) (hs₀ : sliceSub [.pfMsix, .irqs, .items, .ras, .cornice] L₀ = true) :
    Kept L₀ t₀ (State.cncFault s e op cause) := by
  refine h₀.step (M := [.pfMsix, .irqs, .items, .ras, .cornice]) ?_ hs₀
  clear h₀ hs₀ t₀ L₀
  unfold State.cncFault
  repeat' (first | (with_reducible exact Kept.refl _ _) | (extract_lets +onlyGivenNames x; have : x.2 = x.2 := rfl; clear this; subst x) | (extract_lets +onlyGivenNames x; clear_value x) | ((with_reducible apply State.setEng_kept); on_goal 2 => exact rfl) | ((with_reducible apply State.setItem_kept); on_goal 2 => exact rfl) | ((with_reducible apply State.log_kept); on_goal 2 => exact rfl) | ((with_reducible apply State.askStop_kept); on_goal 2 => exact rfl) | split)

theorem State.lineBuf_kept {s : State} {e : Quad} {op : Nat}
    {L₀ t₀} (h₀ : Kept L₀ t₀ s) (hs₀ : sliceSub [.pfMsix, .irqs, .ras, .cornice] L₀ = true) :
    Kept L₀ t₀ (State.lineBuf s e op).2 := by
  refine h₀.step (M := [.pfMsix, .irqs, .ras, .cornice]) ?_ hs₀
  clear h₀ hs₀ t₀ L₀
  unfold State.lineBuf
  repeat' (first | (with_reducible exact Kept.refl _ _) | (extract_lets +onlyGivenNames x; have : x.2 = x.2 := rfl; clear this; subst x) | ((with_reducible apply State.setEng_kept); on_goal 2 => exact rfl) | ((with_reducible apply State.log_kept); on_goal 2 => exact rfl) | split)

theorem State.cRead_kept {s : State} {e : Quad} {i : Item} {win : Bool} {a : Nat} {n : Nat}
    {L₀ t₀} (h₀ : Kept L₀ t₀ s) (hs₀ : sliceSub [.pfMsix, .irqs, .dram, .ras, .crest] L₀ = true) :
    Kept L₀ t₀ (exOf s (State.cRead s e i win a n)) := by
  refine h₀.step (M := [.pfMsix, .irqs, .dram, .ras, .crest]) ?_ hs₀
  clear h₀ hs₀ t₀ L₀
  unfold State.cRead
  repeat' (first | (dsimp -zeta -iota -proj only [exOf_ok, exOf_error]) | (with_reducible exact Kept.refl _ _) | (extract_lets +onlyGivenNames x; clear_value x) | ((with_reducible apply State.winRead_kept); on_goal 2 => exact rfl) | (with_reducible refine State.opRead_kept_ok ?_ rfl (by assumption)) | (with_reducible refine State.opRead_kept_wait ?_ rfl (by assumption)) | split)

theorem State.cRead_kept_ok {s : State} {e : Quad} {i : Item} {win : Bool} {a : Nat} {n : Nat} {b₀} {p₀} {r₀} {L₀ t₀} (h₀ : Kept L₀ t₀ s) (hs₀ : sliceSub [.pfMsix, .irqs, .dram, .ras, .crest] L₀ = true)
    (e₀ : State.cRead s e i win a n = .ok (b₀, p₀, r₀)) : Kept L₀ t₀ r₀ := by
  have k := State.cRead_kept (s := s) (e := e) (i := i) (win := win) (a := a) (n := n) h₀ hs₀
  rw [e₀] at k; exact k

theorem State.cWrite_kept {s : State} {e : Quad} {i : Item} {win : Bool} {a : Nat} {bs : List Byte} {pz : Nat}
    {L₀ t₀} (h₀ : Kept L₀ t₀ s) (hs₀ : sliceSub [.quads, .pfMsix, .irqs, .items, .dram, .ras, .trv, .crest] L₀ = true) :
    Kept L₀ t₀ (accOf s (State.cWrite s e i win a bs pz)) := by
  refine h₀.step (M := [.quads, .pfMsix, .irqs, .items, .dram, .ras, .trv, .crest]) ?_ hs₀
  clear h₀ hs₀ t₀ L₀
  unfold State.cWrite
  repeat' (first | (dsimp -zeta -iota -proj only [accOf_ok, accOf_wait, accOf_fault]) | (with_reducible exact Kept.refl _ _) | ((with_reducible apply State.winWrite_kept); on_goal 2 => exact rfl) | ((with_reducible apply State.opWrite_kept); on_goal 2 => exact rfl) | split)

theorem State.cWrite_kept_ok {s : State} {e : Quad} {i : Item} {win : Bool} {a : Nat} {bs : List Byte} {pz : Nat} {b₀} {p₀} {r₀} {L₀ t₀} (h₀ : Kept L₀ t₀ s) (hs₀ : sliceSub [.quads, .pfMsix, .irqs, .items, .dram, .ras, .trv, .crest] L₀ = true)
    (e₀ : State.cWrite s e i win a bs pz = .ok b₀ p₀ r₀) : Kept L₀ t₀ r₀ := by
  have k := State.cWrite_kept (s := s) (e := e) (i := i) (win := win) (a := a) (bs := bs) (pz := pz) h₀ hs₀
  rw [e₀] at k; exact k

theorem State.cWrite_kept_wait {s : State} {e : Quad} {i : Item} {win : Bool} {a : Nat} {bs : List Byte} {pz : Nat} {r₀} {L₀ t₀} (h₀ : Kept L₀ t₀ s) (hs₀ : sliceSub [.quads, .pfMsix, .irqs, .items, .dram, .ras, .trv, .crest] L₀ = true)
    (e₀ : State.cWrite s e i win a bs pz = .wait r₀) : Kept L₀ t₀ r₀ := by
  have k := State.cWrite_kept (s := s) (e := e) (i := i) (win := win) (a := a) (bs := bs) (pz := pz) h₀ hs₀
  rw [e₀] at k; exact k

theorem State.screeRow_kept {s : State} {e i o r n k L t} (h : Kept L t s)
    (hs : sliceSub [.pfMsix, .irqs, .dram, .ras, .crest] L = true) : Kept L t (exOf t (s.screeRow e i o r n k)) := by
  induction n generalizing s k with
  | zero => unfold State.screeRow; exact Kept.refl _ _
  | succ n ih =>
    unfold State.screeRow
    repeat' (first | (with_reducible exact Kept.refl _ _) | (with_reducible assumption) | (dsimp -zeta -iota -proj only [exOf_ok, exOf_error]) | (with_reducible apply ih) | (with_reducible refine State.cRead_kept_ok ?_ hs (by assumption)) | (extract_lets +onlyGivenNames x; clear_value x) | split)
theorem State.screeRow_kept_ok {s : State} {e i o q n k b p r L t} (h : Kept L t s)
    (hs : sliceSub [.pfMsix, .irqs, .dram, .ras, .crest] L = true) (g : s.screeRow e i o q n k = .ok (b, p, r)) : Kept L t r := by
  have k := State.screeRow_kept (e := e) (i := i) (o := o) (r := q) (n := n) (k := k) h hs
  rw [g] at k; exact k

theorem State.planeRow_kept {s : State} {e : Quad} {i : Item} {o : COp} {r : Nat}
    {L₀ t₀} (h₀ : Kept L₀ t₀ s) (hs₀ : sliceSub [.pfMsix, .irqs, .dram, .ras, .crest] L₀ = true) :
    Kept L₀ t₀ (exOf s (State.planeRow s e i o r)) := by
  refine h₀.step (M := [.pfMsix, .irqs, .dram, .ras, .crest]) ?_ hs₀
  clear h₀ hs₀ t₀ L₀
  unfold State.planeRow
  repeat' (first | (with_reducible exact Kept.refl _ _) | (extract_lets +onlyGivenNames x; clear_value x) | ((with_reducible apply State.screeRow_kept); on_goal 2 => exact rfl) | ((with_reducible apply State.cRead_kept); on_goal 2 => exact rfl) | split)

theorem State.planeRow_kept_ok {s : State} {e : Quad} {i : Item} {o : COp} {r : Nat} {b₀} {p₀} {r₀} {L₀ t₀} (h₀ : Kept L₀ t₀ s) (hs₀ : sliceSub [.pfMsix, .irqs, .dram, .ras, .crest] L₀ = true)
    (e₀ : State.planeRow s e i o r = .ok (b₀, p₀, r₀)) : Kept L₀ t₀ r₀ := by
  have k := State.planeRow_kept (s := s) (e := e) (i := i) (o := o) (r := r) h₀ hs₀
  rw [e₀] at k; exact k

theorem State.planeRows_kept_ok {s : State} {e i o l b p r L t} (h : Kept L t s)
    (hs : sliceSub [.pfMsix, .irqs, .dram, .ras, .crest] L = true) (q : s.planeRows e i o l = .ok (b, p, r)) : Kept L t r := by
  induction l generalizing s b p with
  | nil => unfold State.planeRows at q; injection q with q; injection q with _ q; injection q with _ q; exact q ▸ h
  | cons a r' ih =>
    unfold State.planeRows at q
    split at q
    · cases q
    · split at q
      · cases q
      · injection q with q; injection q with _ q; injection q with _ q
        subst q
        exact ih (State.planeRow_kept_ok h hs (by assumption)) (by assumption)

theorem State.nextCnc_kept {s : State} {e : Quad} {pc : Option Nat}
    {L₀ t₀} (h₀ : Kept L₀ t₀ s) (hs₀ : sliceSub [.crest, .cornice] L₀ = true) :
    Kept L₀ t₀ (State.nextCnc s e pc) := by
  refine h₀.step (M := [.crest, .cornice]) ?_ hs₀
  clear h₀ hs₀ t₀ L₀
  unfold State.nextCnc
  repeat' (first | (with_reducible exact Kept.refl _ _) | (extract_lets +onlyGivenNames x; have : x.2 = x.2 := rfl; clear this; subst x) | ((with_reducible apply State.setCq_kept); on_goal 2 => exact rfl) | ((with_reducible apply State.setEng_kept); on_goal 2 => exact rfl))

theorem State.endWait_kept {s : State} {e : Quad}
    {L₀ t₀} (h₀ : Kept L₀ t₀ s) (hs₀ : sliceSub [.cornice] L₀ = true) :
    Kept L₀ t₀ (State.endWait s e) := by
  refine h₀.step (M := [.cornice]) ?_ hs₀
  clear h₀ hs₀ t₀ L₀
  unfold State.endWait
  repeat' (first | (with_reducible exact Kept.refl _ _) | (extract_lets +onlyGivenNames x; clear_value x) | ((with_reducible apply State.setEng_kept); on_goal 2 => exact rfl) | split)

theorem State.beginWait_kept {s : State} {e : Quad} {st : CncState}
    {L₀ t₀} (h₀ : Kept L₀ t₀ s) (hs₀ : sliceSub [.cornice] L₀ = true) :
    Kept L₀ t₀ (State.beginWait s e st) := by
  refine h₀.step (M := [.cornice]) ?_ hs₀
  clear h₀ hs₀ t₀ L₀
  unfold State.beginWait
  repeat' (first | (with_reducible exact Kept.refl _ _) | ((with_reducible apply State.setEng_kept); on_goal 2 => exact rfl))

theorem Kept.engOp {L s u e opc} {f : State → Item → COp → Nat → Nat → State} (h : Kept L s u)
    (k : ∀ v i o a b, Kept L s v → Kept L s (f v i o a b)) (hs : sliceSub [.items] L = true) : Kept L s (u.engOp e opc f) := by
  unfold State.engOp
  dsimp only
  split
  · exact h
  · split
    · exact Kept.when h (fun v hv => k _ _ _ _ _ (State.markFirst_kept hv hs))
    · exact h

theorem State.cncDone_kept {s back : State} {e i o pc op bs a pz sat} {after : State → State} {L t} (h : Kept L t s)
    (hb : Kept L t back) (k : ∀ v, Kept L t v → Kept L t (after v)) (hs : sliceSub [.quads, .pfMsix, .irqs, .items, .dram, .ras, .trv, .crest, .cornice] L = true) :
    Kept L t (s.cncDone back e i o pc op bs a pz sat after) := by
  have sub : ∀ M, sliceSub M [.quads, .pfMsix, .irqs, .items, .dram, .ras, .trv, .crest, .cornice] = true → sliceSub M L = true := fun M hm => by
    simp only [sliceSub, List.all_eq_true, List.contains_eq_mem, decide_eq_true_eq] at *
    exact fun x hx => hs x (hm x hx)
  unfold State.cncDone
  split
  · exact State.cncFault_kept hb (sub _ rfl)
  · exact State.cWrite_kept_wait h (sub _ rfl) (by assumption)
  · apply k
    apply State.nextCnc_kept _ (sub _ rfl)
    apply State.consume_kept _ (sub _ rfl)
    apply State.satCount_kept _ (sub _ rfl)
    apply State.endWait_kept _ (sub _ rfl)
    exact State.cWrite_kept_ok h (sub _ rfl) (by assumption)

theorem execCorniceNop_kept {e : Quad} {s : State}
    {L₀ t₀} (h₀ : Kept L₀ t₀ s) (hs₀ : sliceSub [.items, .crest, .cornice] L₀ = true) :
    Kept L₀ t₀ (outOf s (execCorniceNop e s)) := by
  refine h₀.step (M := [.items, .crest, .cornice]) ?_ hs₀
  clear h₀ hs₀ t₀ L₀
  unfold execCorniceNop
  repeat' (first | (dsimp -zeta -iota -proj only [outOf_next]) | (with_reducible exact Kept.refl _ _) | (with_reducible assumption) | ((with_reducible apply State.nextCnc_kept); on_goal 2 => exact rfl) | ((with_reducible refine Kept.engOp ?_ (fun _ _ _ _ _ _ => ?_) ?hs); case hs => exact rfl))

theorem State.convStart_kept {s : State} {e : Quad} {i : Item} {o : COp} {st : Stripe}
    {L₀ t₀} (h₀ : Kept L₀ t₀ s) (hs₀ : sliceSub [.pfMsix, .irqs, .dram, .ras, .crest, .cornice] L₀ = true) :
    Kept L₀ t₀ (exOf1 s (State.convStart s e i o st)) := by
  refine h₀.step (M := [.pfMsix, .irqs, .dram, .ras, .crest, .cornice]) ?_ hs₀
  clear h₀ hs₀ t₀ L₀
  unfold State.convStart
  repeat' (first | (dsimp -zeta -iota -proj only [exOf1_ok, exOf1_error]) | (with_reducible exact Kept.refl _ _) | (extract_lets +onlyGivenNames x; have : x.2 = x.2 := rfl; clear this; subst x) | (extract_lets +onlyGivenNames x; have : x = fun a => x a := rfl; clear this; subst x; beta_reduce) | (extract_lets +onlyGivenNames x; clear_value x) | ((with_reducible apply State.setEng_kept); on_goal 2 => exact rfl) | (with_reducible refine State.planeRows_kept_ok ?_ rfl (by assumption)) | split)

theorem State.convStart_kept_ok {s : State} {e : Quad} {i : Item} {o : COp} {st : Stripe} {r₀} {L₀ t₀} (h₀ : Kept L₀ t₀ s) (hs₀ : sliceSub [.pfMsix, .irqs, .dram, .ras, .crest, .cornice] L₀ = true)
    (e₀ : State.convStart s e i o st = .ok r₀) : Kept L₀ t₀ r₀ := by
  have k := State.convStart_kept (s := s) (e := e) (i := i) (o := o) (st := st) h₀ hs₀
  rw [e₀] at k; exact k

theorem State.haloAck_kept {s : State} {e : Quad} {o : COp} {st : Stripe}
    {L₀ t₀} (h₀ : Kept L₀ t₀ s) (hs₀ : sliceSub [.cornice] L₀ = true) :
    Kept L₀ t₀ (State.haloAck s e o st) := by
  refine h₀.step (M := [.cornice]) ?_ hs₀
  clear h₀ hs₀ t₀ L₀
  unfold State.haloAck
  repeat' (first | (with_reducible exact Kept.refl _ _) | (extract_lets +onlyGivenNames x; have : x.2 = x.2 := rfl; clear this; subst x) | (with_reducible refine Kept.ite (fun _ => ?_) (fun _ => ?_)) | ((with_reducible apply State.setEng_kept); on_goal 2 => exact rfl) | split)

theorem State.convRun_kept {s : State} {e : Quad} {i : Item} {o : COp} {st : Stripe} {pc : Nat} {op : Nat}
    {L₀ t₀} (h₀ : Kept L₀ t₀ s) (hs₀ : sliceSub [.quads, .pfMsix, .irqs, .items, .dram, .ras, .trv, .crest, .cornice] L₀ = true) :
    Kept L₀ t₀ (State.convRun s e i o st pc op) := by
  refine h₀.step (M := [.quads, .pfMsix, .irqs, .items, .dram, .ras, .trv, .crest, .cornice]) ?_ hs₀
  clear h₀ hs₀ t₀ L₀
  unfold State.convRun
  repeat' (first | (with_reducible exact Kept.refl _ _) | (with_reducible assumption) | ((with_reducible refine State.cncDone_kept ?_ ?_ (fun _ _ => ?_) ?hs); case hs => exact rfl) | (extract_lets +onlyGivenNames x; have : x.2 = x.2 := rfl; clear this; subst x) | (extract_lets +onlyGivenNames x; clear_value x) | (with_reducible refine Kept.ite (fun _ => ?_) (fun _ => ?_)) | ((with_reducible apply State.nextCnc_kept); on_goal 2 => exact rfl) | ((with_reducible apply State.endWait_kept); on_goal 2 => exact rfl) | (with_reducible refine State.planeRows_kept_ok ?_ rfl (by assumption)) | (with_reducible refine State.cRead_kept_ok ?_ rfl (by assumption)) | ((with_reducible apply State.lineBuf_kept); on_goal 2 => exact rfl) | ((with_reducible apply State.haloAck_kept); on_goal 2 => exact rfl) | ((with_reducible apply State.cncFault_kept); on_goal 2 => exact rfl) | (refine Kept.iteOk ‹(if o.acc = true then _ else _) = _› (fun _ => ?_) ?_) | split)

theorem execConv_kept {e : Quad} {s : State}
    {L₀ t₀} (h₀ : Kept L₀ t₀ s) (hs₀ : sliceSub [.quads, .pfMsix, .irqs, .items, .dram, .ras, .trv, .crest, .cornice] L₀ = true) :
    Kept L₀ t₀ (outOf s (execConv e s)) := by
  refine h₀.step (M := [.quads, .pfMsix, .irqs, .items, .dram, .ras, .trv, .crest, .cornice]) ?_ hs₀
  clear h₀ hs₀ t₀ L₀
  unfold execConv
  repeat' (first | (dsimp -zeta -iota -proj only [outOf_next]) | (with_reducible exact Kept.refl _ _) | (with_reducible assumption) | (extract_lets +onlyGivenNames x; have : x.2 = x.2 := rfl; clear this; subst x) | (extract_lets +onlyGivenNames x; have : x = fun a => x a := rfl; clear this; subst x; beta_reduce) | (with_reducible refine Kept.ite (fun _ => ?_) (fun _ => ?_)) | ((with_reducible apply State.convRun_kept); on_goal 2 => exact rfl) | ((with_reducible apply State.beginWait_kept); on_goal 2 => exact rfl) | (with_reducible refine State.convStart_kept_ok ?_ rfl (by assumption)) | ((with_reducible apply State.endWait_kept); on_goal 2 => exact rfl) | ((with_reducible apply State.cncFault_kept); on_goal 2 => exact rfl) | ((with_reducible refine Kept.engOp ?_ (fun _ _ _ _ _ _ => ?_) ?hs); case hs => exact rfl) | split)

theorem execRecode_kept {e : Quad} {s : State}
    {L₀ t₀} (h₀ : Kept L₀ t₀ s) (hs₀ : sliceSub [.quads, .pfMsix, .irqs, .items, .dram, .ras, .trv, .crest, .cornice] L₀ = true) :
    Kept L₀ t₀ (outOf s (execRecode e s)) := by
  refine h₀.step (M := [.quads, .pfMsix, .irqs, .items, .dram, .ras, .trv, .crest, .cornice]) ?_ hs₀
  clear h₀ hs₀ t₀ L₀
  unfold execRecode
  repeat' (first | (dsimp -zeta -iota -proj only [outOf_next]) | (with_reducible exact Kept.refl _ _) | (with_reducible assumption) | ((with_reducible refine State.cncDone_kept ?_ ?_ (fun _ _ => ?_) ?hs); case hs => exact rfl) | (with_reducible refine State.planeRows_kept_ok ?_ rfl (by assumption)) | ((with_reducible apply State.cncFault_kept); on_goal 2 => exact rfl) | ((with_reducible apply State.lineBuf_kept); on_goal 2 => exact rfl) | ((with_reducible apply State.setEng_kept); on_goal 2 => exact rfl) | ((with_reducible refine Kept.engOp ?_ (fun _ _ _ _ _ _ => ?_) ?hs); case hs => exact rfl) | (with_reducible refine Kept.idS ?_) | split)

theorem State.cropBoxes_kept {s back : State} {e i o rows pz pc op l L t} (h : Kept L t s)
    (hb : Kept L t back) (hs : sliceSub [.quads, .pfMsix, .irqs, .items, .dram, .ras, .trv, .crest, .cornice] L = true) :
    Kept L t (s.cropBoxes back e i o rows pz pc op l) := by
  have sub : ∀ M, sliceSub M [.quads, .pfMsix, .irqs, .items, .dram, .ras, .trv, .crest, .cornice] = true → sliceSub M L = true := fun M hm => by
    simp only [sliceSub, List.all_eq_true, List.contains_eq_mem, decide_eq_true_eq] at *
    exact fun x hx => hs x (hm x hx)
  induction l generalizing s with
  | nil => unfold State.cropBoxes; exact State.nextCnc_kept (State.consume_kept h (sub _ rfl)) (sub _ rfl)
  | cons b r ih =>
    unfold State.cropBoxes
    dsimp only
    split
    · exact State.cncFault_kept hb (sub _ rfl)
    · exact State.cWrite_kept_wait h (sub _ rfl) (by assumption)
    · apply ih
      apply State.setEng_kept _ (sub _ rfl)
      apply State.satCount_kept _ (sub _ rfl)
      exact State.cWrite_kept_ok h (sub _ rfl) (by assumption)

theorem execCrop_kept {e : Quad} {s : State}
    {L₀ t₀} (h₀ : Kept L₀ t₀ s) (hs₀ : sliceSub [.quads, .pfMsix, .irqs, .items, .dram, .ras, .trv, .crest, .cornice] L₀ = true) :
    Kept L₀ t₀ (outOf s (execCrop e s)) := by
  refine h₀.step (M := [.quads, .pfMsix, .irqs, .items, .dram, .ras, .trv, .crest, .cornice]) ?_ hs₀
  clear h₀ hs₀ t₀ L₀
  unfold execCrop
  repeat' (first | (dsimp -zeta -iota -proj only [outOf_next]) | (with_reducible exact Kept.refl _ _) | (with_reducible assumption) | ((with_reducible refine State.cropBoxes_kept ?_ ?_ ?hs); case hs => exact rfl) | (with_reducible refine State.planeRows_kept_ok ?_ rfl (by assumption)) | ((with_reducible apply State.cncFault_kept); on_goal 2 => exact rfl) | (with_reducible refine State.cRead_kept_ok ?_ rfl (by assumption)) | ((with_reducible apply State.lineBuf_kept); on_goal 2 => exact rfl) | ((with_reducible apply State.setEng_kept); on_goal 2 => exact rfl) | ((with_reducible refine Kept.engOp ?_ (fun _ _ _ _ _ _ => ?_) ?hs); case hs => exact rfl) | split)

theorem execCorniceWait_kept {e : Quad} {s : State}
    {L₀ t₀} (h₀ : Kept L₀ t₀ s) (hs₀ : sliceSub [.pfMsix, .irqs, .items, .ras, .crest, .cornice] L₀ = true) :
    Kept L₀ t₀ (outOf s (execCorniceWait e s)) := by
  refine h₀.step (M := [.pfMsix, .irqs, .items, .ras, .crest, .cornice]) ?_ hs₀
  clear h₀ hs₀ t₀ L₀
  unfold execCorniceWait
  repeat' (first | (dsimp -zeta -iota -proj only [outOf_next]) | (with_reducible exact Kept.refl _ _) | (with_reducible assumption) | (extract_lets +onlyGivenNames x; have : x.2 = x.2 := rfl; clear this; subst x) | (with_reducible refine Kept.ite (fun _ => ?_) (fun _ => ?_)) | ((with_reducible apply State.nextCnc_kept); on_goal 2 => exact rfl) | ((with_reducible apply State.setCq_kept); on_goal 2 => exact rfl) | ((with_reducible apply State.cncFault_kept); on_goal 2 => exact rfl) | ((with_reducible apply State.setEng_kept); on_goal 2 => exact rfl) | ((with_reducible refine Kept.engOp ?_ (fun _ _ _ _ _ _ => ?_) ?hs); case hs => exact rfl))

theorem execCorniceSignal_kept {e : Quad} {s : State}
    {L₀ t₀} (h₀ : Kept L₀ t₀ s) (hs₀ : sliceSub [.pfMsix, .irqs, .items, .ras, .crest, .cornice] L₀ = true) :
    Kept L₀ t₀ (outOf s (execCorniceSignal e s)) := by
  refine h₀.step (M := [.pfMsix, .irqs, .items, .ras, .crest, .cornice]) ?_ hs₀
  clear h₀ hs₀ t₀ L₀
  unfold execCorniceSignal
  repeat' (first | (dsimp -zeta -iota -proj only [outOf_next]) | (with_reducible exact Kept.refl _ _) | (with_reducible assumption) | (extract_lets +onlyGivenNames x; have : x.2 = x.2 := rfl; clear this; subst x) | (with_reducible refine Kept.ite (fun _ => ?_) (fun _ => ?_)) | ((with_reducible apply State.cncFault_kept); on_goal 2 => exact rfl) | ((with_reducible apply State.nextCnc_kept); on_goal 2 => exact rfl) | ((with_reducible apply State.setCq_kept); on_goal 2 => exact rfl) | ((with_reducible refine Kept.engOp ?_ (fun _ _ _ _ _ _ => ?_) ?hs); case hs => exact rfl))

theorem execCorniceEnd_kept {e : Quad} {s : State}
    {L₀ t₀} (h₀ : Kept L₀ t₀ s) (hs₀ : sliceSub [.items, .crest, .cornice] L₀ = true) :
    Kept L₀ t₀ (outOf s (execCorniceEnd e s)) := by
  refine h₀.step (M := [.items, .crest, .cornice]) ?_ hs₀
  clear h₀ hs₀ t₀ L₀
  unfold execCorniceEnd
  repeat' (first | (dsimp -zeta -iota -proj only [outOf_next]) | (with_reducible exact Kept.refl _ _) | (with_reducible assumption) | ((with_reducible apply State.nextCnc_kept); on_goal 2 => exact rfl) | ((with_reducible refine Kept.engOp ?_ (fun _ _ _ _ _ _ => ?_) ?hs); case hs => exact rfl))

theorem execHaloPublish_kept {e : Quad} {down : Bool} {s : State}
    {L₀ t₀} (h₀ : Kept L₀ t₀ s) (hs₀ : sliceSub [.cornice] L₀ = true) :
    Kept L₀ t₀ (outOf s (execHaloPublish e down s)) := by
  refine h₀.step (M := [.cornice]) ?_ hs₀
  clear h₀ hs₀ t₀ L₀
  unfold execHaloPublish
  repeat' (first | (dsimp -zeta -iota -proj only [outOf_next]) | (with_reducible exact Kept.refl _ _) | (with_reducible assumption) | (extract_lets +onlyGivenNames x; have : x.2 = x.2 := rfl; clear this; subst x) | (extract_lets +onlyGivenNames x; clear_value x) | (with_reducible refine Kept.ite (fun _ => ?_) (fun _ => ?_)) | ((with_reducible apply State.setEng_kept); on_goal 2 => exact rfl) | ((with_reducible refine Kept.when ?_ (fun _ _ => ?_))) | split)

end Sys2Proof.Machine
end

