-- ==== Sys2Proof/Laws/Traverse.lean ====
section
/-! SUPPORT. What each operation of Machine/Traverse.lean may change (`Kept`): the parts of the state, listed; every memory stays canonical,
and no bit of Cairn is cleared. -/

set_option linter.unusedTactic false
set_option linter.unreachableTactic false

namespace Sys2Proof.Machine

theorem State.setAdv_kept {s : State} {n : Nat} {i : Item} {st : Status}
    {L₀ t₀} (h₀ : Kept L₀ t₀ s) (hs₀ : sliceSub [.trv] L₀ = true) :
    Kept L₀ t₀ (State.setAdv s n i st) := by
  refine h₀.step (M := [.trv]) ?_ hs₀
  clear h₀ hs₀ t₀ L₀
  unfold State.setAdv
  repeat' (first | (with_reducible exact Kept.refl _ _) | (extract_lets +onlyGivenNames x; have : x.2 = x.2 := rfl; clear this; subst x) | (extract_lets +onlyGivenNames x; clear_value x) | ((with_reducible apply State.setSess_kept); on_goal 2 => exact rfl) | ((with_reducible refine Kept.withSess ?_ (fun _ => ?_))))

theorem State.stepOutcome_kept {s : State} {i : Item} {r : StepRec} {st : Status}
    {L₀ t₀} (h₀ : Kept L₀ t₀ s) (hs₀ : sliceSub [.pfMsix, .irqs, .items, .dram, .ras, .trv] L₀ = true) :
    Kept L₀ t₀ (State.stepOutcome s i r st) := by
  refine h₀.step (M := [.pfMsix, .irqs, .items, .dram, .ras, .trv]) ?_ hs₀
  clear h₀ hs₀ t₀ L₀
  unfold State.stepOutcome
  repeat' (first | (with_reducible exact Kept.refl _ _) | (extract_lets +onlyGivenNames x; have : x.2 = x.2 := rfl; clear this; subst x) | (extract_lets +onlyGivenNames x; clear_value x) | (with_reducible refine Kept.ite (fun _ => ?_) (fun _ => ?_)) | ((with_reducible apply State.winWrite_kept); on_goal 2 => exact rfl) | ((with_reducible apply State.setSess_kept); on_goal 2 => exact rfl) | ((with_reducible apply State.setAdv_kept); on_goal 2 => exact rfl) | ((with_reducible apply State.relink_kept); on_goal 2 => exact rfl) | ((with_reducible apply State.setItem_kept); on_goal 2 => exact rfl))

theorem State.stepHeader_kept {s : State} {r : StepRec}
    {L₀ t₀} (h₀ : Kept L₀ t₀ s) (hs₀ : sliceSub [.pfMsix, .irqs, .dram, .ras, .trv] L₀ = true) :
    Kept L₀ t₀ (State.stepHeader s r) := by
  refine h₀.step (M := [.pfMsix, .irqs, .dram, .ras, .trv]) ?_ hs₀
  clear h₀ hs₀ t₀ L₀
  unfold State.stepHeader
  repeat' (first | (with_reducible exact Kept.refl _ _) | ((with_reducible apply State.putHeader_kept); on_goal 2 => exact rfl) | ((with_reducible apply State.setSess_kept); on_goal 2 => exact rfl))

theorem execSessionOpen_kept {id : Nat} {s : State}
    {L₀ t₀} (h₀ : Kept L₀ t₀ s) (hs₀ : sliceSub [.items, .trv] L₀ = true) :
    Kept L₀ t₀ (outOf s (execSessionOpen id s)) := by
  refine h₀.step (M := [.items, .trv]) ?_ hs₀
  clear h₀ hs₀ t₀ L₀
  unfold execSessionOpen
  repeat' (first | (dsimp -zeta -iota -proj only [outOf_next]) | (with_reducible exact Kept.refl _ _) | (with_reducible assumption) | (extract_lets +onlyGivenNames x; have : x.2 = x.2 := rfl; clear this; subst x) | (extract_lets +onlyGivenNames x; clear_value x) | (with_reducible refine Kept.ite (fun _ => ?_) (fun _ => ?_)) | ((with_reducible apply State.finish_kept); on_goal 2 => exact rfl) | ((with_reducible apply State.putSess_kept); on_goal 2 => exact rfl) | ((with_reducible refine Kept.when ?_ (fun _ _ => ?_))) | ((with_reducible refine Kept.withItem ?_ (fun _ => ?_))) | split)

theorem Kept.sessCtrl {L s u id op} {f : State → Item → Int → Int → State} (h : Kept L s u)
    (k : ∀ v i a b, Kept L s v → Kept L s (f v i a b)) (hs : sliceSub [.items] L = true) : Kept L s (u.sessCtrl id op f) := by
  unfold State.sessCtrl
  refine Kept.withItem h (fun i => ?_)
  split
  · refine Kept.when h (fun v hv => ?_)
    split
    · exact State.finish_kept hv hs
    · exact k _ _ _ _ hv
  · exact h

theorem execSetHold_kept {id : Nat} {s : State}
    {L₀ t₀} (h₀ : Kept L₀ t₀ s) (hs₀ : sliceSub [.items, .trv] L₀ = true) :
    Kept L₀ t₀ (outOf s (execSetHold id s)) := by
  refine h₀.step (M := [.items, .trv]) ?_ hs₀
  clear h₀ hs₀ t₀ L₀
  unfold execSetHold
  repeat' (first | (dsimp -zeta -iota -proj only [outOf_next]) | (with_reducible exact Kept.refl _ _) | (with_reducible assumption) | ((with_reducible apply State.finish_kept); on_goal 2 => exact rfl) | ((with_reducible apply State.setSess_kept); on_goal 2 => exact rfl) | ((with_reducible refine Kept.sessCtrl ?_ (fun _ _ _ _ _ => ?_) ?hs); case hs => exact rfl))

theorem execClearHold_kept {id : Nat} {s : State}
    {L₀ t₀} (h₀ : Kept L₀ t₀ s) (hs₀ : sliceSub [.items, .trv] L₀ = true) :
    Kept L₀ t₀ (outOf s (execClearHold id s)) := by
  refine h₀.step (M := [.items, .trv]) ?_ hs₀
  clear h₀ hs₀ t₀ L₀
  unfold execClearHold
  repeat' (first | (dsimp -zeta -iota -proj only [outOf_next]) | (with_reducible exact Kept.refl _ _) | (with_reducible assumption) | ((with_reducible apply State.finish_kept); on_goal 2 => exact rfl) | ((with_reducible apply State.setSess_kept); on_goal 2 => exact rfl) | ((with_reducible refine Kept.sessCtrl ?_ (fun _ _ _ _ _ => ?_) ?hs); case hs => exact rfl))

theorem execSetGone_kept {id : Nat} {s : State}
    {L₀ t₀} (h₀ : Kept L₀ t₀ s) (hs₀ : sliceSub [.items, .trv] L₀ = true) :
    Kept L₀ t₀ (outOf s (execSetGone id s)) := by
  refine h₀.step (M := [.items, .trv]) ?_ hs₀
  clear h₀ hs₀ t₀ L₀
  unfold execSetGone
  repeat' (first | (dsimp -zeta -iota -proj only [outOf_next]) | (with_reducible exact Kept.refl _ _) | (with_reducible assumption) | ((with_reducible apply State.finish_kept); on_goal 2 => exact rfl) | ((with_reducible apply State.setSess_kept); on_goal 2 => exact rfl) | ((with_reducible refine Kept.sessCtrl ?_ (fun _ _ _ _ _ => ?_) ?hs); case hs => exact rfl))

theorem execSetAlignment_kept {id : Nat} {s : State}
    {L₀ t₀} (h₀ : Kept L₀ t₀ s) (hs₀ : sliceSub [.items, .trv] L₀ = true) :
    Kept L₀ t₀ (outOf s (execSetAlignment id s)) := by
  refine h₀.step (M := [.items, .trv]) ?_ hs₀
  clear h₀ hs₀ t₀ L₀
  unfold execSetAlignment
  repeat' (first | (dsimp -zeta -iota -proj only [outOf_next]) | (with_reducible exact Kept.refl _ _) | (with_reducible assumption) | ((with_reducible apply State.finish_kept); on_goal 2 => exact rfl) | ((with_reducible apply State.setSess_kept); on_goal 2 => exact rfl) | ((with_reducible refine Kept.sessCtrl ?_ (fun _ _ _ _ _ => ?_) ?hs); case hs => exact rfl))

theorem execSessionClose_kept {id : Nat} {s : State}
    {L₀ t₀} (h₀ : Kept L₀ t₀ s) (hs₀ : sliceSub [.items, .trv] L₀ = true) :
    Kept L₀ t₀ (outOf s (execSessionClose id s)) := by
  refine h₀.step (M := [.items, .trv]) ?_ hs₀
  clear h₀ hs₀ t₀ L₀
  unfold execSessionClose
  repeat' (first | (dsimp -zeta -iota -proj only [outOf_next]) | (with_reducible exact Kept.refl _ _) | (with_reducible assumption) | (extract_lets +onlyGivenNames x; have : x.2 = x.2 := rfl; clear this; subst x) | ((with_reducible apply State.setItem_kept); on_goal 2 => exact rfl) | ((with_reducible apply State.closeIfDone_kept); on_goal 2 => exact rfl) | ((with_reducible apply State.setSess_kept); on_goal 2 => exact rfl) | ((with_reducible refine Kept.sessCtrl ?_ (fun _ _ _ _ _ => ?_) ?hs); case hs => exact rfl))

theorem State.offerFrame_kept {s : State} {n : Nat} {f : Nat} {samples : List Int}
    {L₀ t₀} (h₀ : Kept L₀ t₀ s) (hs₀ : sliceSub [.pfMsix, .irqs, .dram, .ras, .trv] L₀ = true) :
    Kept L₀ t₀ (State.offerFrame s n f samples) := by
  refine h₀.step (M := [.pfMsix, .irqs, .dram, .ras, .trv]) ?_ hs₀
  clear h₀ hs₀ t₀ L₀
  unfold State.offerFrame
  repeat' (first | (with_reducible exact Kept.refl _ _) | (extract_lets +onlyGivenNames x; have : x.2 = x.2 := rfl; clear this; subst x) | (with_reducible refine Kept.ite (fun _ => ?_) (fun _ => ?_)) | ((with_reducible apply State.memWrite_kept); on_goal 2 => exact rfl) | ((with_reducible apply State.setSess_kept); on_goal 2 => exact rfl) | ((with_reducible apply State.trvCount_kept); on_goal 2 => exact rfl) | ((with_reducible refine Kept.withSess ?_ (fun _ => ?_))))

theorem execAudioIn_kept {id : Nat} {bad : Bool} {s : State}
    {L₀ t₀} (h₀ : Kept L₀ t₀ s) (hs₀ : sliceSub [.pfMsix, .irqs, .items, .dram, .ras, .trv] L₀ = true) :
    Kept L₀ t₀ (outOf s (execAudioIn id bad s)) := by
  refine h₀.step (M := [.pfMsix, .irqs, .items, .dram, .ras, .trv]) ?_ hs₀
  clear h₀ hs₀ t₀ L₀
  unfold execAudioIn
  repeat' (first | (dsimp -zeta -iota -proj only [outOf_next]) | (with_reducible exact Kept.refl _ _) | (with_reducible assumption) | (extract_lets +onlyGivenNames x; have : x.2 = x.2 := rfl; clear this; subst x) | (extract_lets +onlyGivenNames x; clear_value x) | (with_reducible refine Kept.ite (fun _ => ?_) (fun _ => ?_)) | ((with_reducible apply State.finish_kept); on_goal 2 => exact rfl) | ((with_reducible apply State.offerFrame_kept); on_goal 2 => exact rfl) | ((with_reducible refine Kept.each ?_ (fun _ _ _ => ?_))) | ((with_reducible refine Kept.when ?_ (fun _ _ => ?_))) | ((with_reducible refine Kept.withItem ?_ (fun _ => ?_))) | split)

theorem execAudioOut_kept {id : Nat} {bad : Bool} {s : State}
    {L₀ t₀} (h₀ : Kept L₀ t₀ s) (hs₀ : sliceSub [.pfMsix, .irqs, .items, .dram, .ras, .trv] L₀ = true) :
    Kept L₀ t₀ (outOf s (execAudioOut id bad s)) := by
  refine h₀.step (M := [.pfMsix, .irqs, .items, .dram, .ras, .trv]) ?_ hs₀
  clear h₀ hs₀ t₀ L₀
  unfold execAudioOut
  repeat' (first | (dsimp -zeta -iota -proj only [outOf_next]) | (with_reducible exact Kept.refl _ _) | (with_reducible assumption) | (with_reducible refine Kept.ite (fun _ => ?_) (fun _ => ?_)) | ((with_reducible apply State.finish_kept); on_goal 2 => exact rfl) | ((with_reducible apply State.append_kept); on_goal 2 => exact rfl) | ((with_reducible refine Kept.when ?_ (fun _ _ => ?_))) | ((with_reducible refine Kept.withItem ?_ (fun _ => ?_))) | split)

theorem execTraverseEpochStart_kept {s : State}
    {L₀ t₀} (h₀ : Kept L₀ t₀ s) (hs₀ : sliceSub [.trv] L₀ = true) :
    Kept L₀ t₀ (outOf s (execTraverseEpochStart s)) := by
  refine h₀.step (M := [.trv]) ?_ hs₀
  clear h₀ hs₀ t₀ L₀
  unfold execTraverseEpochStart
  repeat' (first | (dsimp -zeta -iota -proj only [outOf_next]) | (with_reducible exact Kept.refl _ _) | (with_reducible assumption) | (rewrite [updateOf_eq]; (with_reducible refine Kept.set_trv ?_ ?h0); (case h0 => exact rfl)) | ((with_reducible refine Kept.when ?_ (fun _ _ => ?_))) | split)

theorem execTraverseTick_kept {phase : Fin 16} {s : State}
    {L₀ t₀} (h₀ : Kept L₀ t₀ s) (hs₀ : sliceSub [.pfMsix, .irqs, .items, .nextItem, .dram, .ras, .trv] L₀ = true) :
    Kept L₀ t₀ (outOf s (execTraverseTick phase s)) := by
  refine h₀.step (M := [.pfMsix, .irqs, .items, .nextItem, .dram, .ras, .trv]) ?_ hs₀
  clear h₀ hs₀ t₀ L₀
  unfold execTraverseTick
  repeat' (first | (dsimp -zeta -iota -proj only [outOf_next]) | (with_reducible exact Kept.refl _ _) | (with_reducible assumption) | (rewrite [updateOf_eq]; (with_reducible refine Kept.set_trv ?_ ?h0); (case h0 => exact rfl)) | (extract_lets +onlyGivenNames x; clear_value x) | ((with_reducible apply State.sessTick_kept); on_goal 2 => exact rfl) | ((with_reducible refine Kept.each ?_ (fun _ _ _ => ?_))) | ((with_reducible refine Kept.when ?_ (fun _ _ => ?_))))

theorem execContinuityWaitExpiry_kept {id : Nat} {s : State}
    {L₀ t₀} (h₀ : Kept L₀ t₀ s) (hs₀ : sliceSub [.items, .trv] L₀ = true) :
    Kept L₀ t₀ (outOf s (execContinuityWaitExpiry id s)) := by
  refine h₀.step (M := [.items, .trv]) ?_ hs₀
  clear h₀ hs₀ t₀ L₀
  unfold execContinuityWaitExpiry
  repeat' (first | (dsimp -zeta -iota -proj only [outOf_next]) | (with_reducible exact Kept.refl _ _) | (with_reducible assumption) | ((with_reducible apply State.breakCont_kept); on_goal 2 => exact rfl) | ((with_reducible apply State.breakServed_kept); on_goal 2 => exact rfl) | ((with_reducible refine Kept.when ?_ (fun _ _ => ?_))) | ((with_reducible refine Kept.withItem ?_ (fun _ => ?_))) | split)

theorem execStepComplete_kept {id : Nat} {s : State}
    {L₀ t₀} (h₀ : Kept L₀ t₀ s) (hs₀ : sliceSub [.parts, .vfs, .pfMsix, .irqs, .items, .dram, .ras, .trv, .hostMem] L₀ = true) :
    Kept L₀ t₀ (outOf s (execStepComplete id s)) := by
  refine h₀.step (M := [.parts, .vfs, .pfMsix, .irqs, .items, .dram, .ras, .trv, .hostMem]) ?_ hs₀
  clear h₀ hs₀ t₀ L₀
  unfold execStepComplete
  repeat' (first | (dsimp -zeta -iota -proj only [outOf_next]) | (with_reducible exact Kept.refl _ _) | (with_reducible assumption) | (rewrite [updateOf_eq]; (with_reducible refine Kept.set_items ?_ ?h0); (case h0 => exact rfl)) | (extract_lets +onlyGivenNames x; have : x.2 = x.2 := rfl; clear this; subst x) | (extract_lets +onlyGivenNames x; have : x = fun a => x a := rfl; clear this; subst x; beta_reduce) | (extract_lets +onlyGivenNames x; clear_value x) | (with_reducible refine Kept.ite (fun _ => ?_) (fun _ => ?_)) | ((with_reducible apply State.stepOutcome_kept); on_goal 2 => exact rfl) | ((with_reducible apply State.closeIfDone_kept); on_goal 2 => exact rfl) | ((with_reducible apply State.stepSlots_kept); on_goal 2 => exact rfl) | ((with_reducible apply State.stepHeader_kept); on_goal 2 => exact rfl) | ((with_reducible apply State.stepEntry_kept); on_goal 2 => exact rfl) | ((with_reducible refine Kept.when ?_ (fun _ _ => ?_))) | ((with_reducible refine Kept.withItem ?_ (fun _ => ?_))) | split)

theorem execVadSubframe_kept {n : Sess} {s : State}
    {L₀ t₀} (h₀ : Kept L₀ t₀ s) (hs₀ : sliceSub [.pfMsix, .irqs, .dram, .ras, .trv, .free] L₀ = true) :
    Kept L₀ t₀ (outOf s (execVadSubframe n s)) := by
  refine h₀.step (M := [.pfMsix, .irqs, .dram, .ras, .trv, .free]) ?_ hs₀
  clear h₀ hs₀ t₀ L₀
  unfold execVadSubframe
  repeat' (first | (dsimp -zeta -iota -proj only [outOf_next]) | (with_reducible exact Kept.refl _ _) | (with_reducible assumption) | (extract_lets +onlyGivenNames x; clear_value x) | (with_reducible refine Kept.ite (fun _ => ?_) (fun _ => ?_)) | ((with_reducible apply State.ringFrame_kept); on_goal 2 => exact rfl) | ((with_reducible apply State.energy_kept); on_goal 2 => exact rfl) | ((with_reducible apply State.setSess_kept); on_goal 2 => exact rfl) | ((with_reducible apply State.trvCount_kept); on_goal 2 => exact rfl) | ((with_reducible refine Kept.when ?_ (fun _ _ => ?_))) | split)

theorem execGateSweepVisit_kept {n : Sess} {s : State}
    {L₀ t₀} (h₀ : Kept L₀ t₀ s) (hs₀ : sliceSub [.pfMsix, .irqs, .items, .dram, .ras, .trv] L₀ = true) :
    Kept L₀ t₀ (outOf s (execGateSweepVisit n s)) := by
  refine h₀.step (M := [.pfMsix, .irqs, .items, .dram, .ras, .trv]) ?_ hs₀
  clear h₀ hs₀ t₀ L₀
  unfold execGateSweepVisit
  repeat' (first | (dsimp -zeta -iota -proj only [outOf_next]) | (with_reducible exact Kept.refl _ _) | (extract_lets +onlyGivenNames x; have : x.2 = x.2 := rfl; clear this; subst x) | (extract_lets +onlyGivenNames x; clear_value x) | (with_reducible refine Kept.ite (fun _ => ?_) (fun _ => ?_)) | ((with_reducible apply State.setGoneGate_kept); on_goal 2 => exact rfl) | ((with_reducible apply State.setSess_kept); on_goal 2 => exact rfl) | ((with_reducible apply State.setHoldGate_kept); on_goal 2 => exact rfl) | ((with_reducible apply State.clearHoldGate_kept); on_goal 2 => exact rfl) | ((with_reducible apply State.bargeSweep_kept); on_goal 2 => exact rfl) | ((with_reducible apply State.putHeader_kept); on_goal 2 => exact rfl) | ((with_reducible apply State.closeIfDone_kept); on_goal 2 => exact rfl) | split)

theorem State.lateCheck_kept {s : State} {n : Nat} {x : SessSt}
    {L₀ t₀} (h₀ : Kept L₀ t₀ s) (hs₀ : sliceSub [.pfMsix, .irqs, .dram, .ras, .trv] L₀ = true) :
    Kept L₀ t₀ (State.lateCheck s n x) := by
  refine h₀.step (M := [.pfMsix, .irqs, .dram, .ras, .trv]) ?_ hs₀
  clear h₀ hs₀ t₀ L₀
  unfold State.lateCheck
  repeat' (first | (with_reducible exact Kept.refl _ _) | (extract_lets +onlyGivenNames x; have : x.2 = x.2 := rfl; clear this; subst x) | (extract_lets +onlyGivenNames x; clear_value x) | (with_reducible refine State.present_kept_eq ?_ rfl (by assumption)) | ((with_reducible apply State.setOut_kept); on_goal 2 => exact rfl) | split)

theorem State.fillCheck_kept {s : State} {n : Nat} {x : SessSt}
    {L₀ t₀} (h₀ : Kept L₀ t₀ s) (hs₀ : sliceSub [.pfMsix, .irqs, .dram, .ras, .trv] L₀ = true) :
    Kept L₀ t₀ (State.fillCheck s n x) := by
  refine h₀.step (M := [.pfMsix, .irqs, .dram, .ras, .trv]) ?_ hs₀
  clear h₀ hs₀ t₀ L₀
  unfold State.fillCheck
  repeat' (first | (with_reducible exact Kept.refl _ _) | (extract_lets +onlyGivenNames x; have : x.2 = x.2 := rfl; clear this; subst x) | (extract_lets +onlyGivenNames x; clear_value x) | (with_reducible refine State.present_kept_eq ?_ rfl (by assumption)) | ((with_reducible apply State.setOut_kept); on_goal 2 => exact rfl) | split)

theorem execLateCheck_kept {n : Sess} {s : State}
    {L₀ t₀} (h₀ : Kept L₀ t₀ s) (hs₀ : sliceSub [.pfMsix, .irqs, .dram, .ras, .trv] L₀ = true) :
    Kept L₀ t₀ (outOf s (execLateCheck n s)) := by
  refine h₀.step (M := [.pfMsix, .irqs, .dram, .ras, .trv]) ?_ hs₀
  clear h₀ hs₀ t₀ L₀
  unfold execLateCheck
  repeat' (first | (dsimp -zeta -iota -proj only [outOf_next]) | (with_reducible exact Kept.refl _ _) | (with_reducible assumption) | (extract_lets +onlyGivenNames x; have : x.2 = x.2 := rfl; clear this; subst x) | (with_reducible refine Kept.ite (fun _ => ?_) (fun _ => ?_)) | ((with_reducible apply State.setOut_kept); on_goal 2 => exact rfl) | ((with_reducible apply State.lateCheck_kept); on_goal 2 => exact rfl) | ((with_reducible apply State.fillCheck_kept); on_goal 2 => exact rfl) | ((with_reducible refine Kept.when ?_ (fun _ _ => ?_))) | split)

theorem execPlayoutBlockCommit_kept {n : Sess} {s : State}
    {L₀ t₀} (h₀ : Kept L₀ t₀ s) (hs₀ : sliceSub [.pfMsix, .irqs, .dram, .ras, .trv, .free] L₀ = true) :
    Kept L₀ t₀ (outOf s (execPlayoutBlockCommit n s)) := by
  refine h₀.step (M := [.pfMsix, .irqs, .dram, .ras, .trv, .free]) ?_ hs₀
  clear h₀ hs₀ t₀ L₀
  unfold execPlayoutBlockCommit
  repeat' (first | (dsimp -zeta -iota -proj only [outOf_next]) | (with_reducible exact Kept.refl _ _) | (with_reducible assumption) | (extract_lets +onlyGivenNames x; have : x.2 = x.2 := rfl; clear this; subst x) | (extract_lets +onlyGivenNames x; clear_value x) | (with_reducible refine Kept.ite (fun _ => ?_) (fun _ => ?_)) | ((with_reducible apply State.beginTick_kept); on_goal 2 => exact rfl) | ((with_reducible apply State.renderOne_kept); on_goal 2 => exact rfl) | ((with_reducible refine Kept.each ?_ (fun _ _ _ => ?_))) | ((with_reducible refine Kept.when ?_ (fun _ _ => ?_))) | ((with_reducible refine Kept.withSess ?_ (fun _ => ?_))) | split)

theorem State.putQuarter_kept {s : State} {x : SessSt} {tick : Nat} {qflags : Nat} {j : Nat} {samples : List Int}
    {L₀ t₀} (h₀ : Kept L₀ t₀ s) (hs₀ : sliceSub [.vfs, .hostMem] L₀ = true) :
    Kept L₀ t₀ (State.putQuarter s x tick qflags j samples) := by
  refine h₀.step (M := [.vfs, .hostMem]) ?_ hs₀
  clear h₀ hs₀ t₀ L₀
  unfold State.putQuarter
  repeat' (first | (with_reducible exact Kept.refl _ _) | (extract_lets +onlyGivenNames x; have : x.2 = x.2 := rfl; clear this; subst x) | (extract_lets +onlyGivenNames x; clear_value x) | ((with_reducible apply State.hostWrite_kept); on_goal 2 => exact rfl))

theorem execPlayoutQuarterWrite_kept {n : Sess} {s : State}
    {L₀ t₀} (h₀ : Kept L₀ t₀ s) (hs₀ : sliceSub [.vfs, .trv, .hostMem] L₀ = true) :
    Kept L₀ t₀ (outOf s (execPlayoutQuarterWrite n s)) := by
  refine h₀.step (M := [.vfs, .trv, .hostMem]) ?_ hs₀
  clear h₀ hs₀ t₀ L₀
  unfold execPlayoutQuarterWrite
  repeat' (first | (dsimp -zeta -iota -proj only [outOf_next]) | (with_reducible exact Kept.refl _ _) | (with_reducible assumption) | (extract_lets +onlyGivenNames x; have : x.2 = x.2 := rfl; clear this; subst x) | (extract_lets +onlyGivenNames x; clear_value x) | (with_reducible refine Kept.ite (fun _ => ?_) (fun _ => ?_)) | ((with_reducible apply State.putQuarter_kept); on_goal 2 => exact rfl) | ((with_reducible apply State.setOut_kept); on_goal 2 => exact rfl) | ((with_reducible apply State.dropSess_kept); on_goal 2 => exact rfl) | ((with_reducible refine Kept.when ?_ (fun _ _ => ?_))) | ((with_reducible refine Kept.withSess ?_ (fun _ => ?_))) | split)

theorem execSessionStateLost_kept {n : Sess} {s : State}
    {L₀ t₀} (h₀ : Kept L₀ t₀ s) (hs₀ : sliceSub [.pfMsix, .irqs, .items, .dram, .ras, .trv] L₀ = true) :
    Kept L₀ t₀ (outOf s (execSessionStateLost n s)) := by
  refine h₀.step (M := [.pfMsix, .irqs, .items, .dram, .ras, .trv]) ?_ hs₀
  clear h₀ hs₀ t₀ L₀
  unfold execSessionStateLost
  repeat' (first | (dsimp -zeta -iota -proj only [outOf_next]) | (with_reducible exact Kept.refl _ _) | (extract_lets +onlyGivenNames x; have : x.2 = x.2 := rfl; clear this; subst x) | ((with_reducible apply State.log_kept); on_goal 2 => exact rfl) | ((with_reducible apply State.putHeader_kept); on_goal 2 => exact rfl) | ((with_reducible apply State.setGoneGate_kept); on_goal 2 => exact rfl) | split)

end Sys2Proof.Machine
end

