-- ==== Sys2Proof/Laws/WholeOps.lean ====
section
/-! SUPPORT. What each operation of Machine/WholeOps.lean may change (`Kept`): the parts of the state, listed; every memory stays canonical,
and no bit of Cairn is cleared. -/

set_option linter.unusedTactic false
set_option linter.unreachableTactic false

namespace Sys2Proof.Machine

theorem State.stopEntries_kept {s : State} {st : Status}
    {L₀ t₀} (h₀ : Kept L₀ t₀ s) (hs₀ : sliceSub [.quads, .parts, .items, .sends, .trv, .crest, .cornice, .spur] L₀ = true) :
    Kept L₀ t₀ (State.stopEntries s st) := by
  refine h₀.step (M := [.quads, .parts, .items, .sends, .trv, .crest, .cornice, .spur]) ?_ hs₀
  clear h₀ hs₀ t₀ L₀
  unfold State.stopEntries
  repeat' (first | (with_reducible exact Kept.refl _ _) | (with_reducible assumption) | (extract_lets +onlyGivenNames x; have : x.2 = x.2 := rfl; clear this; subst x) | ((with_reducible apply State.stopEntry_kept); on_goal 2 => exact rfl) | ((with_reducible apply State.dropJobs_kept); on_goal 2 => exact rfl) | ((with_reducible apply State.setPart_kept); on_goal 2 => exact rfl) | ((with_reducible apply State.dropLanded_kept); on_goal 2 => exact rfl) | ((with_reducible refine Kept.each ?_ (fun _ _ _ => ?_))))

theorem State.setLoader_kept {s : State} {st : LoadState}
    {L₀ t₀} (h₀ : Kept L₀ t₀ s) (hs₀ : sliceSub [.loader] L₀ = true) :
    Kept L₀ t₀ (State.setLoader s st) := by
  refine h₀.step (M := [.loader]) ?_ hs₀
  clear h₀ hs₀ t₀ L₀
  unfold State.setLoader
  repeat' (first | (with_reducible exact Kept.refl _ _) | (rewrite [updateOf_eq]; (with_reducible refine Kept.set_loader ?_ ?h0); (case h0 => exact rfl)))

theorem State.loadReply_kept {s : State}
    {L₀ t₀} (h₀ : Kept L₀ t₀ s) (hs₀ : sliceSub [.mbx, .pfMsix, .irqs, .hostMem] L₀ = true) :
    Kept L₀ t₀ (State.loadReply s) := by
  refine h₀.step (M := [.mbx, .pfMsix, .irqs, .hostMem]) ?_ hs₀
  clear h₀ hs₀ t₀ L₀
  unfold State.loadReply
  repeat' (first | (with_reducible exact Kept.refl _ _) | (with_reducible refine Kept.ite (fun _ => ?_) (fun _ => ?_)) | ((with_reducible apply State.mbxDone_kept); on_goal 2 => exact rfl))

theorem State.loadFail_kept {s : State} {err : Nat}
    {L₀ t₀} (h₀ : Kept L₀ t₀ s) (hs₀ : sliceSub [.loader, .mbx, .pfMsix, .irqs, .ras, .hostMem] L₀ = true) :
    Kept L₀ t₀ (State.loadFail s err) := by
  refine h₀.step (M := [.loader, .mbx, .pfMsix, .irqs, .ras, .hostMem]) ?_ hs₀
  clear h₀ hs₀ t₀ L₀
  unfold State.loadFail
  repeat' (first | (with_reducible exact Kept.refl _ _) | (rewrite [updateOf_eq]; (with_reducible refine Kept.set_loader ?_ ?h0); (case h0 => exact rfl)) | (extract_lets +onlyGivenNames x; have : x.2 = x.2 := rfl; clear this; subst x) | ((with_reducible apply State.setLoader_kept); on_goal 2 => exact rfl) | ((with_reducible apply State.log_kept); on_goal 2 => exact rfl) | ((with_reducible apply State.loadReply_kept); on_goal 2 => exact rfl))

theorem State.stopRequests_kept {s : State} {st : Status}
    {L₀ t₀} (h₀ : Kept L₀ t₀ s) (hs₀ : sliceSub [.cairn, .loader, .mbx, .pfMsix, .irqs, .ras, .hostMem, .free] L₀ = true) :
    Kept L₀ t₀ (State.stopRequests s st) := by
  refine h₀.step (M := [.cairn, .loader, .mbx, .pfMsix, .irqs, .ras, .hostMem, .free]) ?_ hs₀
  clear h₀ hs₀ t₀ L₀
  unfold State.stopRequests
  repeat' (first | (with_reducible exact Kept.refl _ _) | (extract_lets +onlyGivenNames x; have : x.2 = x.2 := rfl; clear this; subst x) | (with_reducible refine Kept.ite (fun _ => ?_) (fun _ => ?_)) | ((with_reducible apply State.progReply_kept); on_goal 2 => exact rfl) | ((with_reducible apply State.progAbort_kept); on_goal 2 => exact rfl) | ((with_reducible apply State.loadFail_kept); on_goal 2 => exact rfl) | ((with_reducible apply State.mbxDone_kept); on_goal 2 => exact rfl) | split)

theorem State.stopItem_kept {s : State} {st : Status} {i : Item}
    {L₀ t₀} (h₀ : Kept L₀ t₀ s) (hs₀ : sliceSub [.parts, .vfs, .pfMsix, .irqs, .items, .nextItem, .sends, .dram, .ras, .trv, .links, .hostMem] L₀ = true) :
    Kept L₀ t₀ (State.stopItem s st i) := by
  refine h₀.step (M := [.parts, .vfs, .pfMsix, .irqs, .items, .nextItem, .sends, .dram, .ras, .trv, .links, .hostMem]) ?_ hs₀
  clear h₀ hs₀ t₀ L₀
  unfold State.stopItem
  repeat' (first | (with_reducible exact Kept.refl _ _) | (rewrite [updateOf_eq]; (with_reducible refine Kept.set_items ?_ ?h0); (case h0 => exact rfl)) | (extract_lets +onlyGivenNames x; have : x.2 = x.2 := rfl; clear this; subst x) | (extract_lets +onlyGivenNames x; have : x = fun a => x a := rfl; clear this; subst x; beta_reduce) | (with_reducible refine Kept.ite (fun _ => ?_) (fun _ => ?_)) | ((with_reducible apply State.descEntry_kept); on_goal 2 => exact rfl) | ((with_reducible apply State.stepOutcome_kept); on_goal 2 => exact rfl) | ((with_reducible apply State.stepEntry_kept); on_goal 2 => exact rfl) | ((with_reducible apply State.stepHeader_kept); on_goal 2 => exact rfl) | ((with_reducible apply State.answerHandoff_kept); on_goal 2 => exact rfl) | split)

theorem State.stopItems_kept {s : State} {st : Status}
    {L₀ t₀} (h₀ : Kept L₀ t₀ s) (hs₀ : sliceSub [.parts, .vfs, .pfMsix, .irqs, .items, .nextItem, .sends, .dram, .ras, .trv, .crest, .links, .hostMem] L₀ = true) :
    Kept L₀ t₀ (State.stopItems s st) := by
  refine h₀.step (M := [.parts, .vfs, .pfMsix, .irqs, .items, .nextItem, .sends, .dram, .ras, .trv, .crest, .links, .hostMem]) ?_ hs₀
  clear h₀ hs₀ t₀ L₀
  unfold State.stopItems
  repeat' (first | (with_reducible exact Kept.refl _ _) | (with_reducible assumption) | (extract_lets +onlyGivenNames x; have : x.2 = x.2 := rfl; clear this; subst x) | (with_reducible refine Kept.ite (fun _ => ?_) (fun _ => ?_)) | ((with_reducible apply State.sendDone_kept); on_goal 2 => exact rfl) | ((with_reducible apply State.stopItem_kept); on_goal 2 => exact rfl) | ((with_reducible apply State.signalVf_kept); on_goal 2 => exact rfl) | ((with_reducible apply State.setQueue_kept); on_goal 2 => exact rfl) | ((with_reducible refine Kept.each ?_ (fun _ _ _ => ?_))))

theorem State.stopWaits_kept {s : State} {st : Status}
    {L₀ t₀} (h₀ : Kept L₀ t₀ s) (hs₀ : sliceSub [.parts, .sends, .links] L₀ = true) :
    Kept L₀ t₀ (State.stopWaits s st) := by
  refine h₀.step (M := [.parts, .sends, .links]) ?_ hs₀
  clear h₀ hs₀ t₀ L₀
  unfold State.stopWaits
  repeat' (first | (with_reducible exact Kept.refl _ _) | (with_reducible assumption) | (extract_lets +onlyGivenNames x; have : x.2 = x.2 := rfl; clear this; subst x) | ((with_reducible apply State.setPart_kept); on_goal 2 => exact rfl) | ((with_reducible apply State.sendReply_kept); on_goal 2 => exact rfl) | ((with_reducible refine Kept.each ?_ (fun _ _ _ => ?_))))

theorem State.stopSessions_kept {s : State}
    {L₀ t₀} (h₀ : Kept L₀ t₀ s) (hs₀ : sliceSub [.trv] L₀ = true) :
    Kept L₀ t₀ (State.stopSessions s) := by
  refine h₀.step (M := [.trv]) ?_ hs₀
  clear h₀ hs₀ t₀ L₀
  unfold State.stopSessions
  repeat' (first | (with_reducible exact Kept.refl _ _) | (with_reducible assumption) | ((with_reducible apply State.setSess_kept); on_goal 2 => exact rfl) | ((with_reducible refine Kept.each ?_ (fun _ _ _ => ?_))))

theorem State.stopRings_kept {s : State} {cause : StopCause}
    {L₀ t₀} (h₀ : Kept L₀ t₀ s) (hs₀ : sliceSub [.ports, .links, .cal] L₀ = true) :
    Kept L₀ t₀ (State.stopRings s cause) := by
  refine h₀.step (M := [.ports, .links, .cal]) ?_ hs₀
  clear h₀ hs₀ t₀ L₀
  unfold State.stopRings
  repeat' (first | (with_reducible exact Kept.refl _ _) | (with_reducible assumption) | (rewrite [updateOf_eq]; (with_reducible refine Kept.set_cal ?_ ?h0); (case h0 => exact rfl)) | (extract_lets +onlyGivenNames x; have : x.2 = x.2 := rfl; clear this; subst x) | (extract_lets +onlyGivenNames x; clear_value x) | (with_reducible refine Kept.ite (fun _ => ?_) (fun _ => ?_)) | ((with_reducible apply State.setPort_kept); on_goal 2 => exact rfl) | ((with_reducible apply State.setLink_kept); on_goal 2 => exact rfl) | ((with_reducible apply State.captureStop_kept); on_goal 2 => exact rfl) | ((with_reducible refine Kept.each ?_ (fun _ _ _ => ?_))))

theorem State.selfRefresh_kept {s : State} {k : Stack}
    {L₀ t₀} (h₀ : Kept L₀ t₀ s) (hs₀ : sliceSub [.col, .dram] L₀ = true) :
    Kept L₀ t₀ (State.selfRefresh s k) := by
  refine h₀.step (M := [.col, .dram]) ?_ hs₀
  clear h₀ hs₀ t₀ L₀
  unfold State.selfRefresh
  repeat' (first | (with_reducible exact Kept.refl _ _) | (with_reducible assumption) | (rewrite [updateOf_eq]; (with_reducible refine Kept.set_col ?_ ?h0); (case h0 => exact rfl)) | (extract_lets +onlyGivenNames x; have : x.2 = x.2 := rfl; clear this; subst x) | (with_reducible refine Kept.ite (fun _ => ?_) (fun _ => ?_)) | ((with_reducible apply State.setChan_kept); on_goal 2 => exact rfl) | ((with_reducible apply State.setStack_kept); on_goal 2 => exact rfl) | ((with_reducible refine Kept.each ?_ (fun _ _ _ => ?_))))

theorem State.stopSteps_kept {s : State} {cause : StopCause}
    {L₀ t₀} (h₀ : Kept L₀ t₀ s) (hs₀ : sliceSub (slicesBut [.pins, .start, .lockLoss, .committed, .str, .ret, .numVfs, .turns, .nextMid, .linkHoldMs, .replyMs, .pmsg, .laser, .thm, .flash, .bus, .pending]) L₀ = true) :
    Kept L₀ t₀ (State.stopSteps s cause) := by
  refine h₀.step (M := (slicesBut [.pins, .start, .lockLoss, .committed, .str, .ret, .numVfs, .turns, .nextMid, .linkHoldMs, .replyMs, .pmsg, .laser, .thm, .flash, .bus, .pending])) ?_ hs₀
  clear h₀ hs₀ t₀ L₀
  unfold State.stopSteps
  repeat' (first | (with_reducible exact Kept.refl _ _) | (with_reducible assumption) | (extract_lets +onlyGivenNames x; have : x.2 = x.2 := rfl; clear this; subst x) | (with_reducible refine Kept.ite (fun _ => ?_) (fun _ => ?_)) | ((with_reducible apply State.stopEntries_kept); on_goal 2 => exact rfl) | ((with_reducible apply State.stopRequests_kept); on_goal 2 => exact rfl) | ((with_reducible apply State.stopItems_kept); on_goal 2 => exact rfl) | ((with_reducible apply State.stopWaits_kept); on_goal 2 => exact rfl) | ((with_reducible apply State.stopSessions_kept); on_goal 2 => exact rfl) | ((with_reducible apply State.stopRings_kept); on_goal 2 => exact rfl) | ((with_reducible apply State.selfRefresh_kept); on_goal 2 => exact rfl) | ((with_reducible refine Kept.each ?_ (fun _ _ _ => ?_))))

theorem State.orderlyStop_kept {s : State} {cause : StopCause}
    {L₀ t₀} (h₀ : Kept L₀ t₀ s) (hs₀ : sliceSub (slicesBut [.pins, .lockLoss, .committed, .str, .ret, .numVfs, .turns, .nextMid, .linkHoldMs, .replyMs, .pmsg, .laser, .thm, .flash, .bus, .pending]) L₀ = true) :
    Kept L₀ t₀ (State.orderlyStop s cause) := by
  refine h₀.step (M := (slicesBut [.pins, .lockLoss, .committed, .str, .ret, .numVfs, .turns, .nextMid, .linkHoldMs, .replyMs, .pmsg, .laser, .thm, .flash, .bus, .pending])) ?_ hs₀
  clear h₀ hs₀ t₀ L₀
  unfold State.orderlyStop
  repeat' (first | (with_reducible exact Kept.refl _ _) | (rewrite [updateOf_eq]; (with_reducible refine Kept.set_start ?_ ?h0); (case h0 => exact rfl)) | (extract_lets +onlyGivenNames x; have : x.2 = x.2 := rfl; clear this; subst x) | (with_reducible refine Kept.ite (fun _ => ?_) (fun _ => ?_)) | ((with_reducible apply State.stopSteps_kept); on_goal 2 => exact rfl) | ((with_reducible apply State.setPhase_kept); on_goal 2 => exact rfl))

theorem State.setCause_kept {s : State} {c : Nat}
    {L₀ t₀} (h₀ : Kept L₀ t₀ s) (hs₀ : sliceSub [.start] L₀ = true) :
    Kept L₀ t₀ (State.setCause s c) := by
  refine h₀.step (M := [.start]) ?_ hs₀
  clear h₀ hs₀ t₀ L₀
  unfold State.setCause
  repeat' (first | (with_reducible exact Kept.refl _ _) | (rewrite [updateOf_eq]; (with_reducible refine Kept.set_start ?_ ?h0); (case h0 => exact rfl)))

theorem State.startDue_kept {s : State} {k : Fin 4}
    {L₀ t₀} (h₀ : Kept L₀ t₀ s) (hs₀ : sliceSub [.col, .start] L₀ = true) :
    Kept L₀ t₀ (State.startDue s k) := by
  refine h₀.step (M := [.col, .start]) ?_ hs₀
  clear h₀ hs₀ t₀ L₀
  unfold State.startDue
  repeat' (first | (with_reducible exact Kept.refl _ _) | (rewrite [updateOf_eq]; (with_reducible refine Kept.set_col_start ?_ ?h0 ?h1); (case h0 => exact rfl); (case h1 => exact rfl)) | (extract_lets +onlyGivenNames x; have : x.2 = x.2 := rfl; clear this; subst x) | ((with_reducible apply State.setPhase_kept); on_goal 2 => exact rfl))

theorem State.stopEnd_kept {s : State} {cause : StopCause}
    {L₀ t₀} (h₀ : Kept L₀ t₀ s) (hs₀ : sliceSub [.col, .start, .thm] L₀ = true) :
    Kept L₀ t₀ (State.stopEnd s cause) := by
  refine h₀.step (M := [.col, .start, .thm]) ?_ hs₀
  clear h₀ hs₀ t₀ L₀
  unfold State.stopEnd
  repeat' (first | (with_reducible exact Kept.refl _ _) | (rewrite [updateOf_eq]; (with_reducible refine Kept.set_start ?_ ?h0); (case h0 => exact rfl)) | (extract_lets +onlyGivenNames x; have : x.2 = x.2 := rfl; clear this; subst x) | (extract_lets +onlyGivenNames x; clear_value x) | (with_reducible refine Kept.ite (fun _ => ?_) (fun _ => ?_)) | ((with_reducible apply State.startDue_kept); on_goal 2 => exact rfl) | ((with_reducible apply State.alertNow_kept); on_goal 2 => exact rfl) | split)

theorem State.lasersIdle_kept {s : State}
    {L₀ t₀} (h₀ : Kept L₀ t₀ s) (hs₀ : sliceSub [.laser] L₀ = true) :
    Kept L₀ t₀ (State.lasersIdle s) := by
  refine h₀.step (M := [.laser]) ?_ hs₀
  clear h₀ hs₀ t₀ L₀
  unfold State.lasersIdle
  repeat' (first | (with_reducible exact Kept.refl _ _) | (with_reducible assumption) | (extract_lets +onlyGivenNames x; (refine Kept.cut (x := x) ?_ (fun _ => ?_); (on_goal 1 => (unfold x; clear x)); (on_goal 2 => clear_value x))) | (rewrite [updateOf_eq]; (with_reducible refine Kept.set_laser ?_ ?h0 ?m0); (case h0 => exact rfl); (case m0 => exact MemOk.same rfl)) | (with_reducible refine Kept.ite (fun _ => ?_) (fun _ => ?_)) | ((with_reducible apply State.laserTo_kept); on_goal 2 => exact rfl) | ((with_reducible refine Kept.each ?_ (fun _ _ _ => ?_))))

theorem State.domainReset_kept {s : State} {L t} (h : Kept L t s) (hs : sliceSub (slicesBut [.pending]) L = true) :
    Kept L t (s.domainReset) := by
  refine h.step (M := (slicesBut [.pending])) ⟨⟨?_⟩, fun c => ⟨⟨c.words, c.weak, c.mem, c.poison, c.flaws, rfl, rfl, rfl, rfl, rfl, rfl,
    c.eeprom, rfl, rfl, c.flash, c.hostMem⟩, OtpGrows.refl _⟩⟩ hs
  intro x hx; cases x <;> first | exact absurd (by decide) hx | rfl

theorem State.cut_kept {s : State} {restart : Bool}
    {L₀ t₀} (h₀ : Kept L₀ t₀ s) (hs₀ : sliceSub (slicesBut [.pending]) L₀ = true) :
    Kept L₀ t₀ (State.cut s restart) := by
  refine h₀.step (M := (slicesBut [.pending])) ?_ hs₀
  clear h₀ hs₀ t₀ L₀
  unfold State.cut
  repeat' (first | (with_reducible exact Kept.refl _ _) | (rewrite [updateOf_eq]; (with_reducible refine Kept.set_col ?_ ?h0); (case h0 => exact rfl)) | (extract_lets +onlyGivenNames x; have : x.2 = x.2 := rfl; clear this; subst x) | (extract_lets +onlyGivenNames x; clear_value x) | (with_reducible refine Kept.ite (fun _ => ?_) (fun _ => ?_)) | ((with_reducible apply State.lasersIdle_kept); on_goal 2 => exact rfl) | ((with_reducible apply State.lasersDark_kept); on_goal 2 => exact rfl) | ((with_reducible apply State.domainReset_kept); on_goal 2 => exact rfl))

theorem State.cutNow_kept {s : State} {cause : StopCause}
    {L₀ t₀} (h₀ : Kept L₀ t₀ s) (hs₀ : sliceSub (slicesBut [.pending]) L₀ = true) :
    Kept L₀ t₀ (State.cutNow s cause) := by
  refine h₀.step (M := (slicesBut [.pending])) ?_ hs₀
  clear h₀ hs₀ t₀ L₀
  unfold State.cutNow
  repeat' (first | (with_reducible exact Kept.refl _ _) | (rewrite [updateOf_eq]; (with_reducible refine Kept.set_col ?_ ?h0); (case h0 => exact rfl)) | (extract_lets +onlyGivenNames x; have : x.2 = x.2 := rfl; clear this; subst x) | ((with_reducible apply State.progAbort_kept); on_goal 2 => exact rfl) | ((with_reducible apply State.stopEnd_kept); on_goal 2 => exact rfl) | ((with_reducible apply State.setPhase_kept); on_goal 2 => exact rfl) | ((with_reducible apply State.cut_kept); on_goal 2 => exact rfl) | split)

theorem State.failStart_kept {s : State} {c : Nat}
    {L₀ t₀} (h₀ : Kept L₀ t₀ s) (hs₀ : sliceSub (slicesBut [.pins, .lockLoss, .committed, .str, .ret, .numVfs, .turns, .nextMid, .linkHoldMs, .replyMs, .pmsg, .laser, .thm, .flash, .bus, .pending]) L₀ = true) :
    Kept L₀ t₀ (State.failStart s c) := by
  refine h₀.step (M := (slicesBut [.pins, .lockLoss, .committed, .str, .ret, .numVfs, .turns, .nextMid, .linkHoldMs, .replyMs, .pmsg, .laser, .thm, .flash, .bus, .pending])) ?_ hs₀
  clear h₀ hs₀ t₀ L₀
  unfold State.failStart
  repeat' (first | (with_reducible exact Kept.refl _ _) | ((with_reducible apply State.orderlyStop_kept); on_goal 2 => exact rfl) | ((with_reducible apply State.setCause_kept); on_goal 2 => exact rfl))

theorem State.deviceFatal_kept {s : State}
    {L₀ t₀} (h₀ : Kept L₀ t₀ s) (hs₀ : sliceSub (slicesBut [.pins, .lockLoss, .committed, .str, .ret, .numVfs, .turns, .nextMid, .linkHoldMs, .replyMs, .pmsg, .laser, .thm, .flash, .bus, .pending]) L₀ = true) :
    Kept L₀ t₀ (State.deviceFatal s) := by
  refine h₀.step (M := (slicesBut [.pins, .lockLoss, .committed, .str, .ret, .numVfs, .turns, .nextMid, .linkHoldMs, .replyMs, .pmsg, .laser, .thm, .flash, .bus, .pending])) ?_ hs₀
  clear h₀ hs₀ t₀ L₀
  unfold State.deviceFatal
  repeat' (first | (with_reducible exact Kept.refl _ _) | (with_reducible refine Kept.ite (fun _ => ?_) (fun _ => ?_)) | ((with_reducible apply State.orderlyStop_kept); on_goal 2 => exact rfl) | ((with_reducible apply State.setCause_kept); on_goal 2 => exact rfl))

theorem State.fatalSince_kept {s old : State} {L t} (h : Kept L t s)
    (hs : sliceSub (slicesBut [.pins, .lockLoss, .committed, .str, .ret, .numVfs, .turns, .nextMid, .linkHoldMs, .replyMs, .pmsg, .laser, .thm, .flash, .bus, .pending]) L = true) : Kept L t (s.fatalSince old) := by
  unfold State.fatalSince
  split
  · exact h
  · exact State.deviceFatal_kept h hs

theorem State.countLock_kept {s : State}
    {L₀ t₀} (h₀ : Kept L₀ t₀ s) (hs₀ : sliceSub [.lockLoss] L₀ = true) :
    Kept L₀ t₀ (State.countLock s) := by
  refine h₀.step (M := [.lockLoss]) ?_ hs₀
  clear h₀ hs₀ t₀ L₀
  unfold State.countLock
  repeat' (first | (with_reducible exact Kept.refl _ _) | (rewrite [updateOf_eq]; (with_reducible refine Kept.set_lockLoss ?_ ?h0); (case h0 => exact rfl)))

end Sys2Proof.Machine
end

