-- ==== Sys2Proof/Laws/Dram.lean ====
section
/-! SUPPORT. What each operation of Machine/Dram.lean may change (`Kept`): the parts of the state, listed; every memory stays canonical,
and no bit of Cairn is cleared. -/

set_option linter.unusedTactic false
set_option linter.unreachableTactic false

namespace Sys2Proof.Machine

theorem State.stackBack_kept {s : State} {k : Stack} {temp : Option Int} {keep : Fin 5}
    {L₀ t₀} (h₀ : Kept L₀ t₀ s) (hs₀ : sliceSub [.col, .dram] L₀ = true) :
    Kept L₀ t₀ (State.stackBack s k temp keep) := by
  refine h₀.step (M := [.col, .dram]) ?_ hs₀
  clear h₀ hs₀ t₀ L₀
  unfold State.stackBack
  repeat' (first | (with_reducible exact Kept.refl _ _) | (with_reducible assumption) | (rewrite [updateOf_eq]; (with_reducible refine Kept.set_col ?_ ?h0); (case h0 => exact rfl)) | (rewrite [updateOf_eq]; (with_reducible refine Kept.set_dram ?_ ?h0 ?m0); (case h0 => exact rfl); (case m0 => exact ⟨MemOk.same rfl, MemOk.same rfl, MemOk.same rfl⟩)) | ((with_reducible apply State.setChan_kept); on_goal 2 => exact rfl) | ((with_reducible apply State.setStack_kept); on_goal 2 => exact rfl) | ((with_reducible refine Kept.each ?_ (fun _ _ _ => ?_))))

theorem State.stackExit_kept {s : State} {k : Stack} {temp : Option Int}
    {L₀ t₀} (h₀ : Kept L₀ t₀ s) (hs₀ : sliceSub [.col, .pfMsix, .irqs, .dram, .ras] L₀ = true) :
    Kept L₀ t₀ (State.stackExit s k temp).1 := by
  refine h₀.step (M := [.col, .pfMsix, .irqs, .dram, .ras]) ?_ hs₀
  clear h₀ hs₀ t₀ L₀
  unfold State.stackExit
  repeat' (first | (with_reducible exact Kept.refl _ _) | (extract_lets +onlyGivenNames x; have : x.2 = x.2 := rfl; clear this; subst x) | (extract_lets +onlyGivenNames x; clear_value x) | ((with_reducible apply State.stackBack_kept); on_goal 2 => exact rfl) | ((with_reducible apply State.log_kept); on_goal 2 => exact rfl) | split)

theorem State.owe_kept {s : State} {g : Group} {d : Int}
    {L₀ t₀} (h₀ : Kept L₀ t₀ s) (hs₀ : sliceSub [.dram] L₀ = true) :
    Kept L₀ t₀ (State.owe s g d) := by
  refine h₀.step (M := [.dram]) ?_ hs₀
  clear h₀ hs₀ t₀ L₀
  unfold State.owe
  repeat' (first | (with_reducible exact Kept.refl _ _) | (rewrite [updateOf_eq]; (with_reducible refine Kept.set_dram ?_ ?h0 ?m0); (case h0 => exact rfl); (case m0 => exact ⟨MemOk.same rfl, MemOk.same rfl, MemOk.same rfl⟩)))

theorem execRefreshDue_kept {g : Group} {s : State}
    {L₀ t₀} (h₀ : Kept L₀ t₀ s) (hs₀ : sliceSub [.dram] L₀ = true) :
    Kept L₀ t₀ (outOf s (execRefreshDue g s)) := by
  refine h₀.step (M := [.dram]) ?_ hs₀
  clear h₀ hs₀ t₀ L₀
  unfold execRefreshDue
  repeat' (first | (dsimp -zeta -iota -proj only [outOf_next]) | (with_reducible exact Kept.refl _ _) | (with_reducible assumption) | (extract_lets +onlyGivenNames x; have : x.2 = x.2 := rfl; clear this; subst x) | ((with_reducible apply State.owe_kept); on_goal 2 => exact rfl) | ((with_reducible apply State.setStack_kept); on_goal 2 => exact rfl) | ((with_reducible refine Kept.when ?_ (fun _ _ => ?_))))

theorem execGroupRefresh_kept {g : Group} {s : State}
    {L₀ t₀} (h₀ : Kept L₀ t₀ s) (hs₀ : sliceSub [.dram] L₀ = true) :
    Kept L₀ t₀ (outOf s (execGroupRefresh g s)) := by
  refine h₀.step (M := [.dram]) ?_ hs₀
  clear h₀ hs₀ t₀ L₀
  unfold execGroupRefresh
  repeat' (first | (dsimp -zeta -iota -proj only [outOf_next]) | (with_reducible exact Kept.refl _ _) | (with_reducible assumption) | (extract_lets +onlyGivenNames x; clear_value x) | ((with_reducible apply State.owe_kept); on_goal 2 => exact rfl) | ((with_reducible refine Kept.when ?_ (fun _ _ => ?_))))

theorem execWriteDrainTimeout_kept {c : Chan} {s : State}
    {L₀ t₀} (h₀ : Kept L₀ t₀ s) (hs₀ : sliceSub [.dram] L₀ = true) :
    Kept L₀ t₀ (outOf s (execWriteDrainTimeout c s)) := by
  refine h₀.step (M := [.dram]) ?_ hs₀
  clear h₀ hs₀ t₀ L₀
  unfold execWriteDrainTimeout
  repeat' (first | (dsimp -zeta -iota -proj only [outOf_next]) | (with_reducible exact Kept.refl _ _) | (with_reducible assumption) | ((with_reducible apply State.setChan_kept); on_goal 2 => exact rfl) | ((with_reducible refine Kept.when ?_ (fun _ _ => ?_))))

theorem execBandSwitch_kept {k : Stack} {band : Fin 5} {s : State}
    {L₀ t₀} (h₀ : Kept L₀ t₀ s) (hs₀ : sliceSub [.dram] L₀ = true) :
    Kept L₀ t₀ (outOf s (execBandSwitch k band s)) := by
  refine h₀.step (M := [.dram]) ?_ hs₀
  clear h₀ hs₀ t₀ L₀
  unfold execBandSwitch
  repeat' (first | (dsimp -zeta -iota -proj only [outOf_next]) | (with_reducible exact Kept.refl _ _) | (with_reducible assumption) | (extract_lets +onlyGivenNames x; have : x.2 = x.2 := rfl; clear this; subst x) | ((with_reducible apply State.setChan_kept); on_goal 2 => exact rfl) | ((with_reducible apply State.setStack_kept); on_goal 2 => exact rfl) | ((with_reducible refine Kept.each ?_ (fun _ _ _ => ?_))) | ((with_reducible refine Kept.when ?_ (fun _ _ => ?_))))

theorem execBandSwitchWindow_kept {k : Stack} {s : State}
    {L₀ t₀} (h₀ : Kept L₀ t₀ s) (hs₀ : sliceSub [.dram] L₀ = true) :
    Kept L₀ t₀ (outOf s (execBandSwitchWindow k s)) := by
  refine h₀.step (M := [.dram]) ?_ hs₀
  clear h₀ hs₀ t₀ L₀
  unfold execBandSwitchWindow
  repeat' (first | (dsimp -zeta -iota -proj only [outOf_next]) | (with_reducible exact Kept.refl _ _) | (with_reducible assumption) | (extract_lets +onlyGivenNames x; have : x.2 = x.2 := rfl; clear this; subst x) | ((with_reducible apply State.owe_kept); on_goal 2 => exact rfl) | ((with_reducible apply State.setChan_kept); on_goal 2 => exact rfl) | ((with_reducible apply State.setStack_kept); on_goal 2 => exact rfl) | ((with_reducible refine Kept.each ?_ (fun _ _ _ => ?_))) | ((with_reducible refine Kept.when ?_ (fun _ _ => ?_))) | split)

theorem State.scrubCol_kept {s : State} {loc : Nat}
    {L₀ t₀} (h₀ : Kept L₀ t₀ s) (hs₀ : sliceSub [.pfMsix, .irqs, .dram, .ras] L₀ = true) :
    Kept L₀ t₀ (State.scrubCol s loc) := by
  refine h₀.step (M := [.pfMsix, .irqs, .dram, .ras]) ?_ hs₀
  clear h₀ hs₀ t₀ L₀
  unfold State.scrubCol
  repeat' (first | (with_reducible exact Kept.refl _ _) | (extract_lets +onlyGivenNames x; clear_value x) | (with_reducible refine Kept.ite (fun _ => ?_) (fun _ => ?_)) | ((with_reducible apply State.clearFlaws_kept); on_goal 2 => exact rfl) | ((with_reducible apply State.setColPoison_kept); on_goal 2 => exact rfl) | ((with_reducible apply State.ueFound_kept); on_goal 2 => exact rfl) | ((with_reducible apply State.setChan_kept); on_goal 2 => exact rfl))

theorem execScrubStep_kept {c : Chan} {s : State}
    {L₀ t₀} (h₀ : Kept L₀ t₀ s) (hs₀ : sliceSub (slicesBut [.pins, .lockLoss, .committed, .str, .ret, .numVfs, .turns, .nextMid, .linkHoldMs, .replyMs, .pmsg, .laser, .thm, .flash, .bus, .pending]) L₀ = true) :
    Kept L₀ t₀ (outOf s (execScrubStep c s)) := by
  refine h₀.step (M := (slicesBut [.pins, .lockLoss, .committed, .str, .ret, .numVfs, .turns, .nextMid, .linkHoldMs, .replyMs, .pmsg, .laser, .thm, .flash, .bus, .pending])) ?_ hs₀
  clear h₀ hs₀ t₀ L₀
  unfold execScrubStep
  repeat' (first | (dsimp -zeta -iota -proj only [outOf_next]) | (with_reducible exact Kept.refl _ _) | (with_reducible assumption) | (extract_lets +onlyGivenNames x; (refine Kept.cut (x := x) ?_ (fun _ => ?_); (on_goal 1 => (unfold x; clear x)); (on_goal 2 => clear_value x))) | (rewrite [updateOf_eq]; (with_reducible refine Kept.set_dram ?_ ?h0 ?m0); (case h0 => exact rfl); (case m0 => exact ⟨MemOk.same rfl, MemOk.same rfl, MemOk.same rfl⟩)) | (extract_lets +onlyGivenNames x; have : DramSt := x; clear this; subst x) | (extract_lets +onlyGivenNames x; have : x.2 = x.2 := rfl; clear this; subst x) | (extract_lets +onlyGivenNames x; clear_value x) | (with_reducible refine Kept.ite (fun _ => ?_) (fun _ => ?_)) | ((with_reducible apply State.scrubCol_kept); on_goal 2 => exact rfl) | ((with_reducible apply State.setChan_kept); on_goal 2 => exact rfl) | ((with_reducible apply State.fatalSince_kept); on_goal 2 => exact rfl) | ((with_reducible refine Kept.each ?_ (fun _ _ _ => ?_))) | ((with_reducible refine Kept.when ?_ (fun _ _ => ?_))))

theorem execSelfRefreshExit_kept {k : Stack} {temp : Option Int} {s : State}
    {L₀ t₀} (h₀ : Kept L₀ t₀ s) (hs₀ : sliceSub (slicesBut [.pins, .lockLoss, .committed, .str, .ret, .numVfs, .turns, .nextMid, .linkHoldMs, .replyMs, .pmsg, .laser, .thm, .flash, .bus, .pending]) L₀ = true) :
    Kept L₀ t₀ (outOf s (execSelfRefreshExit k temp s)) := by
  refine h₀.step (M := (slicesBut [.pins, .lockLoss, .committed, .str, .ret, .numVfs, .turns, .nextMid, .linkHoldMs, .replyMs, .pmsg, .laser, .thm, .flash, .bus, .pending])) ?_ hs₀
  clear h₀ hs₀ t₀ L₀
  unfold execSelfRefreshExit
  repeat' (first | (dsimp -zeta -iota -proj only [outOf_next]) | (with_reducible exact Kept.refl _ _) | (with_reducible assumption) | (with_reducible refine Kept.ite (fun _ => ?_) (fun _ => ?_)) | ((with_reducible apply State.stackExit_kept); on_goal 2 => exact rfl) | ((with_reducible apply State.logFlush_kept); on_goal 2 => exact rfl) | ((with_reducible apply State.failStart_kept); on_goal 2 => exact rfl) | ((with_reducible refine Kept.when ?_ (fun _ _ => ?_))))

theorem State.refire_kept {s : State} {g : Group}
    {L₀ t₀} (h₀ : Kept L₀ t₀ s) (hs₀ : sliceSub [.spur] L₀ = true) :
    Kept L₀ t₀ (State.refire s g) := by
  refine h₀.step (M := [.spur]) ?_ hs₀
  clear h₀ hs₀ t₀ L₀
  unfold State.refire
  repeat' (first | (with_reducible exact Kept.refl _ _) | (extract_lets +onlyGivenNames x; have : x.2 = x.2 := rfl; clear this; subst x) | (with_reducible refine Kept.ite (fun _ => ?_) (fun _ => ?_)) | ((with_reducible apply State.setGroup_kept); on_goal 2 => exact rfl) | ((with_reducible apply State.setSpurQ_kept); on_goal 2 => exact rfl) | ((with_reducible apply State.settleLedger_kept); on_goal 2 => exact rfl) | split)

theorem execDramPllLockLost_kept {k : Stack} {s : State}
    {L₀ t₀} (h₀ : Kept L₀ t₀ s) (hs₀ : sliceSub [.lockLoss, .pfMsix, .irqs, .dram, .ras, .spur] L₀ = true) :
    Kept L₀ t₀ (outOf s (execDramPllLockLost k s)) := by
  refine h₀.step (M := [.lockLoss, .pfMsix, .irqs, .dram, .ras, .spur]) ?_ hs₀
  clear h₀ hs₀ t₀ L₀
  unfold execDramPllLockLost
  repeat' (first | (dsimp -zeta -iota -proj only [outOf_next]) | (with_reducible exact Kept.refl _ _) | (with_reducible assumption) | (extract_lets +onlyGivenNames x; have : x.2 = x.2 := rfl; clear this; subst x) | ((with_reducible apply State.setStack_kept); on_goal 2 => exact rfl) | ((with_reducible apply State.countLock_kept); on_goal 2 => exact rfl) | ((with_reducible apply State.log_kept); on_goal 2 => exact rfl) | ((with_reducible apply State.refire_kept); on_goal 2 => exact rfl) | ((with_reducible refine Kept.each ?_ (fun _ _ _ => ?_))) | ((with_reducible refine Kept.when ?_ (fun _ _ => ?_))))

theorem execDramPllRelockDone_kept {k : Stack} {ok : Bool} {temp : Option Int} {s : State}
    {L₀ t₀} (h₀ : Kept L₀ t₀ s) (hs₀ : sliceSub (slicesBut [.pins, .lockLoss, .committed, .str, .ret, .numVfs, .turns, .nextMid, .linkHoldMs, .replyMs, .pmsg, .laser, .thm, .flash, .bus, .pending]) L₀ = true) :
    Kept L₀ t₀ (outOf s (execDramPllRelockDone k ok temp s)) := by
  refine h₀.step (M := (slicesBut [.pins, .lockLoss, .committed, .str, .ret, .numVfs, .turns, .nextMid, .linkHoldMs, .replyMs, .pmsg, .laser, .thm, .flash, .bus, .pending])) ?_ hs₀
  clear h₀ hs₀ t₀ L₀
  unfold execDramPllRelockDone
  repeat' (first | (dsimp -zeta -iota -proj only [outOf_next]) | (with_reducible exact Kept.refl _ _) | (extract_lets +onlyGivenNames x; have : x.2 = x.2 := rfl; clear this; subst x) | (with_reducible refine Kept.ite (fun _ => ?_) (fun _ => ?_)) | ((with_reducible apply State.logFlush_kept); on_goal 2 => exact rfl) | ((with_reducible apply State.stackBack_kept); on_goal 2 => exact rfl) | ((with_reducible apply State.setStack_kept); on_goal 2 => exact rfl) | ((with_reducible apply State.deviceFatal_kept); on_goal 2 => exact rfl) | ((with_reducible apply State.log_kept); on_goal 2 => exact rfl) | split)

end Sys2Proof.Machine
end

