-- ==== Sys2Proof/Laws/Host.lean ====
section
/-! SUPPORT. What each operation of Machine/Host.lean may change (`Kept`): the parts of the state, listed; every memory stays canonical,
and no bit of Cairn is cleared. -/

set_option linter.unusedTactic false
set_option linter.unreachableTactic false

namespace Sys2Proof.Machine

theorem State.doorbell_kept {s : State} {p : Part} {q : Queue} {v : Nat} {f : QueueSt → Nat → QueueSt}
    {L₀ t₀} (h₀ : Kept L₀ t₀ s) (hs₀ : sliceSub [.parts, .vfs, .irqs] L₀ = true) :
    Kept L₀ t₀ (State.doorbell s p q v f) := by
  refine h₀.step (M := [.parts, .vfs, .irqs]) ?_ hs₀
  clear h₀ hs₀ t₀ L₀
  unfold State.doorbell
  repeat' (first | (with_reducible exact Kept.refl _ _) | (with_reducible refine Kept.ite (fun _ => ?_) (fun _ => ?_)) | ((with_reducible apply State.discarded_kept); on_goal 2 => exact rfl) | ((with_reducible apply State.queueError_kept); on_goal 2 => exact rfl) | ((with_reducible apply State.setQueue_kept); on_goal 2 => exact rfl))

theorem State.qCtrlWrite_kept {s : State} {p : Part} {q : Queue} {v : Nat}
    {L₀ t₀} (h₀ : Kept L₀ t₀ s) (hs₀ : sliceSub [.vfs] L₀ = true) :
    Kept L₀ t₀ (State.qCtrlWrite s p q v) := by
  refine h₀.step (M := [.vfs]) ?_ hs₀
  clear h₀ hs₀ t₀ L₀
  unfold State.qCtrlWrite
  repeat' (first | (with_reducible exact Kept.refl _ _) | (extract_lets +onlyGivenNames x; clear_value x) | (with_reducible refine Kept.ite (fun _ => ?_) (fun _ => ?_)) | ((with_reducible apply State.setQueue_kept); on_goal 2 => exact rfl))

theorem execSqDoorbell_kept {p : Part} {q : Queue} {val : W32} {s : State}
    {L₀ t₀} (h₀ : Kept L₀ t₀ s) (hs₀ : sliceSub [.parts, .vfs, .irqs] L₀ = true) :
    Kept L₀ t₀ (outOf s (execSqDoorbell p q val s)) := by
  refine h₀.step (M := [.parts, .vfs, .irqs]) ?_ hs₀
  clear h₀ hs₀ t₀ L₀
  unfold execSqDoorbell
  repeat' (first | (dsimp -zeta -iota -proj only [outOf_next]) | (with_reducible exact Kept.refl _ _) | ((with_reducible apply State.doorbell_kept); on_goal 2 => exact rfl))

theorem execCqDoorbell_kept {p : Part} {q : Queue} {val : W32} {s : State}
    {L₀ t₀} (h₀ : Kept L₀ t₀ s) (hs₀ : sliceSub [.parts, .vfs, .irqs] L₀ = true) :
    Kept L₀ t₀ (outOf s (execCqDoorbell p q val s)) := by
  refine h₀.step (M := [.parts, .vfs, .irqs]) ?_ hs₀
  clear h₀ hs₀ t₀ L₀
  unfold execCqDoorbell
  repeat' (first | (dsimp -zeta -iota -proj only [outOf_next]) | (with_reducible exact Kept.refl _ _) | ((with_reducible apply State.doorbell_kept); on_goal 2 => exact rfl))

theorem execQueueEnable_kept {p : Part} {q : Queue} {val : W32} {s : State}
    {L₀ t₀} (h₀ : Kept L₀ t₀ s) (hs₀ : sliceSub [.vfs] L₀ = true) :
    Kept L₀ t₀ (outOf s (execQueueEnable p q val s)) := by
  refine h₀.step (M := [.vfs]) ?_ hs₀
  clear h₀ hs₀ t₀ L₀
  unfold execQueueEnable
  repeat' (first | (dsimp -zeta -iota -proj only [outOf_next]) | (with_reducible exact Kept.refl _ _) | (with_reducible assumption) | ((with_reducible apply State.qCtrlWrite_kept); on_goal 2 => exact rfl) | ((with_reducible refine Kept.when ?_ (fun _ _ => ?_))))

theorem execQueueDisable_kept {p : Part} {q : Queue} {val : W32} {s : State}
    {L₀ t₀} (h₀ : Kept L₀ t₀ s) (hs₀ : sliceSub [.vfs] L₀ = true) :
    Kept L₀ t₀ (outOf s (execQueueDisable p q val s)) := by
  refine h₀.step (M := [.vfs]) ?_ hs₀
  clear h₀ hs₀ t₀ L₀
  unfold execQueueDisable
  repeat' (first | (dsimp -zeta -iota -proj only [outOf_next]) | (with_reducible exact Kept.refl _ _) | (with_reducible assumption) | ((with_reducible apply State.qCtrlWrite_kept); on_goal 2 => exact rfl) | ((with_reducible refine Kept.when ?_ (fun _ _ => ?_))))

theorem State.fetched_kept {s : State} {id : Nat} {q : Queue} {hdrOk : Bool}
    {L₀ t₀} (h₀ : Kept L₀ t₀ s) (hs₀ : sliceSub [.vfs, .items] L₀ = true) :
    Kept L₀ t₀ (State.fetched s id q hdrOk) := by
  refine h₀.step (M := [.vfs, .items]) ?_ hs₀
  clear h₀ hs₀ t₀ L₀
  unfold State.fetched
  repeat' (first | (with_reducible exact Kept.refl _ _) | (extract_lets +onlyGivenNames x; have : x.2 = x.2 := rfl; clear this; subst x) | (extract_lets +onlyGivenNames x; clear_value x) | (with_reducible refine Kept.ite (fun _ => ?_) (fun _ => ?_)) | ((with_reducible apply State.finish_kept); on_goal 2 => exact rfl) | ((with_reducible apply State.setQueue_kept); on_goal 2 => exact rfl) | ((with_reducible apply State.setItem_kept); on_goal 2 => exact rfl) | ((with_reducible refine Kept.withItem ?_ (fun _ => ?_))) | split)

theorem execDescriptorFetch_kept {p : Part} {bad : Bool} {s : State}
    {L₀ t₀} (h₀ : Kept L₀ t₀ s) (hs₀ : sliceSub [.vfs, .pfMsix, .irqs, .items, .nextItem, .ras] L₀ = true) :
    Kept L₀ t₀ (outOf s (execDescriptorFetch p bad s)) := by
  refine h₀.step (M := [.vfs, .pfMsix, .irqs, .items, .nextItem, .ras]) ?_ hs₀
  clear h₀ hs₀ t₀ L₀
  unfold execDescriptorFetch
  repeat' (first | (dsimp -zeta -iota -proj only [outOf_next]) | (with_reducible exact Kept.refl _ _) | (with_reducible assumption) | (extract_lets +onlyGivenNames x; have : x.2 = x.2 := rfl; clear this; subst x) | (extract_lets +onlyGivenNames x; clear_value x) | (with_reducible refine Kept.ite (fun _ => ?_) (fun _ => ?_)) | ((with_reducible apply State.setVf_kept); on_goal 2 => exact rfl) | ((with_reducible apply State.addItem_kept); on_goal 2 => exact rfl) | ((with_reducible apply State.finish_kept); on_goal 2 => exact rfl) | ((with_reducible apply State.setQueue_kept); on_goal 2 => exact rfl) | ((with_reducible apply State.queueError_kept); on_goal 2 => exact rfl) | ((with_reducible apply State.log_kept); on_goal 2 => exact rfl) | ((with_reducible apply State.fetched_kept); on_goal 2 => exact rfl) | ((with_reducible refine Kept.when ?_ (fun _ _ => ?_))) | split)

theorem execNop_kept {id : Nat} {s : State}
    {L₀ t₀} (h₀ : Kept L₀ t₀ s) (hs₀ : sliceSub [.items] L₀ = true) :
    Kept L₀ t₀ (outOf s (execNop id s)) := by
  refine h₀.step (M := [.items]) ?_ hs₀
  clear h₀ hs₀ t₀ L₀
  unfold execNop
  repeat' (first | (dsimp -zeta -iota -proj only [outOf_next]) | (with_reducible exact Kept.refl _ _) | (with_reducible assumption) | ((with_reducible apply State.finish_kept); on_goal 2 => exact rfl) | ((with_reducible refine Kept.when ?_ (fun _ _ => ?_))) | ((with_reducible refine Kept.withItem ?_ (fun _ => ?_))))

theorem execCopy_kept {id : Nat} {bad : Bool} {s : State}
    {L₀ t₀} (h₀ : Kept L₀ t₀ s) (hs₀ : sliceSub [.items] L₀ = true) :
    Kept L₀ t₀ (outOf s (execCopy id bad s)) := by
  refine h₀.step (M := [.items]) ?_ hs₀
  clear h₀ hs₀ t₀ L₀
  unfold execCopy
  repeat' (first | (dsimp -zeta -iota -proj only [outOf_next]) | (with_reducible exact Kept.refl _ _) | (with_reducible assumption) | (with_reducible refine Kept.ite (fun _ => ?_) (fun _ => ?_)) | ((with_reducible apply State.finish_kept); on_goal 2 => exact rfl) | ((with_reducible apply State.setItem_kept); on_goal 2 => exact rfl) | ((with_reducible refine Kept.when ?_ (fun _ _ => ?_))) | ((with_reducible refine Kept.withItem ?_ (fun _ => ?_))) | split)

theorem State.winReadMarked_kept {s : State} {p : Part} {o : Nat} {n : Nat}
    {L₀ t₀} (h₀ : Kept L₀ t₀ s) (hs₀ : sliceSub [.pfMsix, .irqs, .dram, .ras] L₀ = true) :
    Kept L₀ t₀ (State.winReadMarked s p o n).2 := by
  refine h₀.step (M := [.pfMsix, .irqs, .dram, .ras]) ?_ hs₀
  clear h₀ hs₀ t₀ L₀
  unfold State.winReadMarked
  repeat' (first | (with_reducible exact Kept.refl _ _) | (with_reducible assumption) | ((with_reducible apply State.winRead_kept); on_goal 2 => exact rfl) | (with_reducible refine Kept.fold2 ?_ (fun _ _ _ => ?_)))

theorem State.winWriteMarked_kept {s : State} {p : Part} {o : Nat} {l : List (Byte × Nat)}
    {L₀ t₀} (h₀ : Kept L₀ t₀ s) (hs₀ : sliceSub [.pfMsix, .irqs, .dram, .ras] L₀ = true) :
    Kept L₀ t₀ (State.winWriteMarked s p o l) := by
  refine h₀.step (M := [.pfMsix, .irqs, .dram, .ras]) ?_ hs₀
  clear h₀ hs₀ t₀ L₀
  unfold State.winWriteMarked
  repeat' (first | (with_reducible exact Kept.refl _ _) | (with_reducible assumption) | (extract_lets +onlyGivenNames x; clear_value x) | ((with_reducible apply State.winWrite_kept); on_goal 2 => exact rfl) | ((with_reducible refine Kept.each ?_ (fun _ _ _ => ?_))))

theorem execCopyDone_kept {id : Nat} {s : State}
    {L₀ t₀} (h₀ : Kept L₀ t₀ s) (hs₀ : sliceSub [.parts, .vfs, .pfMsix, .irqs, .items, .dram, .ras, .spur, .hostMem] L₀ = true) :
    Kept L₀ t₀ (outOf s (execCopyDone id s)) := by
  refine h₀.step (M := [.parts, .vfs, .pfMsix, .irqs, .items, .dram, .ras, .spur, .hostMem]) ?_ hs₀
  clear h₀ hs₀ t₀ L₀
  unfold execCopyDone
  repeat' (first | (dsimp -zeta -iota -proj only [outOf_next]) | (with_reducible exact Kept.refl _ _) | (with_reducible assumption) | (extract_lets +onlyGivenNames x; have : x.2 = x.2 := rfl; clear this; subst x) | (with_reducible refine Kept.ite (fun _ => ?_) (fun _ => ?_)) | ((with_reducible apply State.winReadMarked_kept); on_goal 2 => exact rfl) | ((with_reducible apply State.hostWrite_kept); on_goal 2 => exact rfl) | ((with_reducible apply State.landing_kept); on_goal 2 => exact rfl) | ((with_reducible apply State.winWriteMarked_kept); on_goal 2 => exact rfl) | ((with_reducible apply State.finish_kept); on_goal 2 => exact rfl) | ((with_reducible refine Kept.when ?_ (fun _ _ => ?_))) | ((with_reducible refine Kept.withItem ?_ (fun _ => ?_))) | split)

theorem execRun_kept {id : Nat} {s : State}
    {L₀ t₀} (h₀ : Kept L₀ t₀ s) (hs₀ : sliceSub [.items] L₀ = true) :
    Kept L₀ t₀ (outOf s (execRun id s)) := by
  refine h₀.step (M := [.items]) ?_ hs₀
  clear h₀ hs₀ t₀ L₀
  unfold execRun
  repeat' (first | (dsimp -zeta -iota -proj only [outOf_next]) | (with_reducible exact Kept.refl _ _) | (with_reducible assumption) | (extract_lets +onlyGivenNames x; have : x.2 = x.2 := rfl; clear this; subst x) | (extract_lets +onlyGivenNames x; clear_value x) | (with_reducible refine Kept.ite (fun _ => ?_) (fun _ => ?_)) | ((with_reducible apply State.finish_kept); on_goal 2 => exact rfl) | ((with_reducible apply State.placeEntry_kept); on_goal 2 => exact rfl) | ((with_reducible apply State.markFirst_kept); on_goal 2 => exact rfl) | ((with_reducible refine Kept.when ?_ (fun _ _ => ?_))) | ((with_reducible refine Kept.withItem ?_ (fun _ => ?_))) | split)

theorem execRunLimitExpiry_kept {id : Nat} {s : State}
    {L₀ t₀} (h₀ : Kept L₀ t₀ s) (hs₀ : sliceSub [.items] L₀ = true) :
    Kept L₀ t₀ (outOf s (execRunLimitExpiry id s)) := by
  refine h₀.step (M := [.items]) ?_ hs₀
  clear h₀ hs₀ t₀ L₀
  unfold execRunLimitExpiry
  repeat' (first | (dsimp -zeta -iota -proj only [outOf_next]) | (with_reducible exact Kept.refl _ _) | (with_reducible assumption) | ((with_reducible apply State.askStop_kept); on_goal 2 => exact rfl) | ((with_reducible refine Kept.when ?_ (fun _ _ => ?_))) | ((with_reducible refine Kept.withItem ?_ (fun _ => ?_))) | split)

theorem execFence_kept {id : Nat} {s : State}
    {L₀ t₀} (h₀ : Kept L₀ t₀ s) (hs₀ : sliceSub [.items] L₀ = true) :
    Kept L₀ t₀ (outOf s (execFence id s)) := by
  refine h₀.step (M := [.items]) ?_ hs₀
  clear h₀ hs₀ t₀ L₀
  unfold execFence
  repeat' (first | (dsimp -zeta -iota -proj only [outOf_next]) | (with_reducible exact Kept.refl _ _) | (with_reducible assumption) | ((with_reducible apply State.finish_kept); on_goal 2 => exact rfl) | ((with_reducible refine Kept.when ?_ (fun _ _ => ?_))) | ((with_reducible refine Kept.withItem ?_ (fun _ => ?_))) | split)

theorem execFenceSatisfied_kept {id : Nat} {s : State}
    {L₀ t₀} (h₀ : Kept L₀ t₀ s) (hs₀ : sliceSub [.items] L₀ = true) :
    Kept L₀ t₀ (outOf s (execFenceSatisfied id s)) := by
  refine h₀.step (M := [.items]) ?_ hs₀
  clear h₀ hs₀ t₀ L₀
  unfold execFenceSatisfied
  repeat' (first | (dsimp -zeta -iota -proj only [outOf_next]) | (with_reducible exact Kept.refl _ _) | (with_reducible assumption) | ((with_reducible apply State.finish_kept); on_goal 2 => exact rfl) | ((with_reducible refine Kept.when ?_ (fun _ _ => ?_))) | ((with_reducible refine Kept.withItem ?_ (fun _ => ?_))) | split)

theorem execFenceTimeout_kept {id : Nat} {s : State}
    {L₀ t₀} (h₀ : Kept L₀ t₀ s) (hs₀ : sliceSub [.items] L₀ = true) :
    Kept L₀ t₀ (outOf s (execFenceTimeout id s)) := by
  refine h₀.step (M := [.items]) ?_ hs₀
  clear h₀ hs₀ t₀ L₀
  unfold execFenceTimeout
  repeat' (first | (dsimp -zeta -iota -proj only [outOf_next]) | (with_reducible exact Kept.refl _ _) | (with_reducible assumption) | ((with_reducible apply State.finish_kept); on_goal 2 => exact rfl) | ((with_reducible refine Kept.when ?_ (fun _ _ => ?_))) | ((with_reducible refine Kept.withItem ?_ (fun _ => ?_))) | split)

theorem execCompletionWrite_kept {id : Nat} {s : State}
    {L₀ t₀} (h₀ : Kept L₀ t₀ s) (hs₀ : sliceSub [.parts, .vfs, .irqs, .items, .nextItem, .sends, .ras, .links, .hostMem] L₀ = true) :
    Kept L₀ t₀ (outOf s (execCompletionWrite id s)) := by
  refine h₀.step (M := [.parts, .vfs, .irqs, .items, .nextItem, .sends, .ras, .links, .hostMem]) ?_ hs₀
  clear h₀ hs₀ t₀ L₀
  unfold execCompletionWrite
  repeat' (first | (dsimp -zeta -iota -proj only [outOf_next]) | (with_reducible exact Kept.refl _ _) | (with_reducible assumption) | (rewrite [updateOf_eq]; (with_reducible refine Kept.set_items ?_ ?h0); (case h0 => exact rfl)) | (with_reducible refine Kept.ite (fun _ => ?_) (fun _ => ?_)) | ((with_reducible apply State.grantSlots_kept); on_goal 2 => exact rfl) | ((with_reducible apply State.descEntry_kept); on_goal 2 => exact rfl) | ((with_reducible apply State.answerHandoff_kept); on_goal 2 => exact rfl) | ((with_reducible refine Kept.when ?_ (fun _ _ => ?_))) | ((with_reducible refine Kept.withItem ?_ (fun _ => ?_))) | split)

theorem execCoalesceTimeout_kept {p : Part} {q : Queue} {s : State}
    {L₀ t₀} (h₀ : Kept L₀ t₀ s) (hs₀ : sliceSub [.vfs, .irqs] L₀ = true) :
    Kept L₀ t₀ (outOf s (execCoalesceTimeout p q s)) := by
  refine h₀.step (M := [.vfs, .irqs]) ?_ hs₀
  clear h₀ hs₀ t₀ L₀
  unfold execCoalesceTimeout
  repeat' (first | (dsimp -zeta -iota -proj only [outOf_next]) | (with_reducible exact Kept.refl _ _) | (with_reducible assumption) | (extract_lets +onlyGivenNames x; have : x.2 = x.2 := rfl; clear this; subst x) | ((with_reducible apply State.signalVf_kept); on_goal 2 => exact rfl) | ((with_reducible apply State.setQueue_kept); on_goal 2 => exact rfl) | ((with_reducible refine Kept.when ?_ (fun _ _ => ?_))))

theorem execVfFlr_kept {p : Part} {s : State}
    {L₀ t₀} (h₀ : Kept L₀ t₀ s) (hs₀ : sliceSub [.vfs, .items, .sends, .trv] L₀ = true) :
    Kept L₀ t₀ (outOf s (execVfFlr p s)) := by
  refine h₀.step (M := [.vfs, .items, .sends, .trv]) ?_ hs₀
  clear h₀ hs₀ t₀ L₀
  unfold execVfFlr
  repeat' (first | (dsimp -zeta -iota -proj only [outOf_next]) | (with_reducible exact Kept.refl _ _) | (with_reducible assumption) | (rewrite [updateOf_eq]; (with_reducible refine Kept.set_items_sends ?_ ?h0 ?h1); (case h0 => exact rfl); (case h1 => exact rfl)) | (extract_lets +onlyGivenNames x; have : x.2 = x.2 := rfl; clear this; subst x) | ((with_reducible apply State.setVf_kept); on_goal 2 => exact rfl) | ((with_reducible apply State.closeIfDone_kept); on_goal 2 => exact rfl) | ((with_reducible apply State.setSess_kept); on_goal 2 => exact rfl) | ((with_reducible refine Kept.each ?_ (fun _ _ _ => ?_))) | ((with_reducible refine Kept.when ?_ (fun _ _ => ?_))))

theorem execVfBusMasterOff_kept {p : Part} {_d3 : Bool} {s : State}
    {L₀ t₀} (h₀ : Kept L₀ t₀ s) (hs₀ : sliceSub [.vfs] L₀ = true) :
    Kept L₀ t₀ (outOf s (execVfBusMasterOff p _d3 s)) := by
  refine h₀.step (M := [.vfs]) ?_ hs₀
  clear h₀ hs₀ t₀ L₀
  unfold execVfBusMasterOff
  repeat' (first | (dsimp -zeta -iota -proj only [outOf_next]) | (with_reducible exact Kept.refl _ _) | (with_reducible assumption) | ((with_reducible apply State.setVf_kept); on_goal 2 => exact rfl) | ((with_reducible refine Kept.when ?_ (fun _ _ => ?_))))

theorem State.mbxReset_kept {s : State}
    {L₀ t₀} (h₀ : Kept L₀ t₀ s) (hs₀ : sliceSub [.mbx] L₀ = true) :
    Kept L₀ t₀ (State.mbxReset s) := by
  refine h₀.step (M := [.mbx]) ?_ hs₀
  clear h₀ hs₀ t₀ L₀
  unfold State.mbxReset
  repeat' (first | (with_reducible exact Kept.refl _ _) | (rewrite [updateOf_eq]; (with_reducible refine Kept.set_mbx ?_ ?h0); (case h0 => exact rfl)))

theorem execPfReset_kept {_kind : PfResetKind} {s : State}
    {L₀ t₀} (h₀ : Kept L₀ t₀ s) (hs₀ : sliceSub (slicesBut [.pins, .lockLoss, .committed, .str, .ret, .numVfs, .turns, .nextMid, .linkHoldMs, .replyMs, .pmsg, .laser, .thm, .flash, .bus, .pending]) L₀ = true) :
    Kept L₀ t₀ (outOf s (execPfReset _kind s)) := by
  refine h₀.step (M := (slicesBut [.pins, .lockLoss, .committed, .str, .ret, .numVfs, .turns, .nextMid, .linkHoldMs, .replyMs, .pmsg, .laser, .thm, .flash, .bus, .pending])) ?_ hs₀
  clear h₀ hs₀ t₀ L₀
  unfold execPfReset
  repeat' (first | (dsimp -zeta -iota -proj only [outOf_next]) | (with_reducible exact Kept.refl _ _) | (with_reducible refine Kept.ite (fun _ => ?_) (fun _ => ?_)) | ((with_reducible apply State.orderlyStop_kept); on_goal 2 => exact rfl) | ((with_reducible apply State.mbxReset_kept); on_goal 2 => exact rfl))

theorem execBar2Access_kept {write : Bool} {off : Fin 268435456} {data : List Byte} {len : Nat} {poison : Bool} {s : State}
    {L₀ t₀} (h₀ : Kept L₀ t₀ s) (hs₀ : sliceSub [.pfMsix, .irqs, .dram, .ras, .bus] L₀ = true) :
    Kept L₀ t₀ (outOf s (execBar2Access write off data len poison s)) := by
  refine h₀.step (M := [.pfMsix, .irqs, .dram, .ras, .bus]) ?_ hs₀
  clear h₀ hs₀ t₀ L₀
  unfold execBar2Access
  repeat' (first | (dsimp -zeta -iota -proj only [outOf_next]) | (with_reducible exact Kept.refl _ _) | (with_reducible assumption) | (rewrite [updateOf_eq]; (with_reducible refine Kept.set_bus ?_ ?h0 ?m0); (case h0 => exact rfl); (case m0 => exact ⟨MemOk.same rfl, MemOk.same rfl⟩)) | (extract_lets +onlyGivenNames x; have : x.2 = x.2 := rfl; clear this; subst x) | (extract_lets +onlyGivenNames x; clear_value x) | (with_reducible refine Kept.ite (fun _ => ?_) (fun _ => ?_)) | ((with_reducible apply State.memWrite_kept); on_goal 2 => exact rfl) | ((with_reducible apply State.memRead_kept); on_goal 2 => exact rfl) | ((with_reducible apply State.log_kept); on_goal 2 => exact rfl) | ((with_reducible refine Kept.each ?_ (fun _ _ _ => ?_))) | ((with_reducible refine Kept.when ?_ (fun _ _ => ?_))) | (with_reducible refine Kept.fold22_eq (by assumption) ?_ (fun _ _ _ => ?_)) | split)

theorem execVfBusMasterOn_kept {p : Part} {s : State}
    {L₀ t₀} (h₀ : Kept L₀ t₀ s) (hs₀ : sliceSub [.vfs, .irqs, .hostMem] L₀ = true) :
    Kept L₀ t₀ (outOf s (execVfBusMasterOn p s)) := by
  refine h₀.step (M := [.vfs, .irqs, .hostMem]) ?_ hs₀
  clear h₀ hs₀ t₀ L₀
  unfold execVfBusMasterOn
  repeat' (first | (dsimp -zeta -iota -proj only [outOf_next]) | (with_reducible exact Kept.refl _ _) | (with_reducible assumption) | (extract_lets +onlyGivenNames x; have : x.2 = x.2 := rfl; clear this; subst x) | (extract_lets +onlyGivenNames x; clear_value x) | ((with_reducible apply State.setVf_kept); on_goal 2 => exact rfl) | ((with_reducible apply State.hostWritePf_kept); on_goal 2 => exact rfl) | ((with_reducible apply State.signalVf_kept); on_goal 2 => exact rfl) | ((with_reducible refine Kept.each ?_ (fun _ _ _ => ?_))) | ((with_reducible refine Kept.when ?_ (fun _ _ => ?_))) | split)

end Sys2Proof.Machine
end

