-- ==== Sys2Proof/Laws/Mailbox.lean ====
section
/-! SUPPORT. What each operation of Machine/Mailbox.lean may change (`Kept`): the parts of the state, listed; every memory stays canonical,
and no bit of Cairn is cleared. -/

set_option linter.unusedTactic false
set_option linter.unreachableTactic false

namespace Sys2Proof.Machine

theorem State.mbxBell_kept {s : State} {v : Nat} {f : MbxSt → MbxSt}
    {L₀ t₀} (h₀ : Kept L₀ t₀ s) (hs₀ : sliceSub [.mbx] L₀ = true) :
    Kept L₀ t₀ (State.mbxBell s v f) := by
  refine h₀.step (M := [.mbx]) ?_ hs₀
  clear h₀ hs₀ t₀ L₀
  unfold State.mbxBell
  repeat' (first | (with_reducible exact Kept.refl _ _) | (rewrite [updateOf_eq]; (with_reducible refine Kept.set_mbx ?_ ?h0); (case h0 => exact rfl)) | (extract_lets +onlyGivenNames x; have : x.2 = x.2 := rfl; clear this; subst x) | (with_reducible refine Kept.ite (fun _ => ?_) (fun _ => ?_)))

theorem State.mbxTail_kept {s : State} {v : Nat} {bad : Bool}
    {L₀ t₀} (h₀ : Kept L₀ t₀ s) (hs₀ : sliceSub [.mbx, .pfMsix, .irqs, .hostMem] L₀ = true) :
    Kept L₀ t₀ (State.mbxTail s v bad) := by
  refine h₀.step (M := [.mbx, .pfMsix, .irqs, .hostMem]) ?_ hs₀
  clear h₀ hs₀ t₀ L₀
  unfold State.mbxTail
  repeat' (first | (with_reducible exact Kept.refl _ _) | (rewrite [updateOf_eq]; (with_reducible refine Kept.set_mbx ?_ ?h0); (case h0 => exact rfl)) | (extract_lets +onlyGivenNames x; have : x.2 = x.2 := rfl; clear this; subst x) | (with_reducible refine Kept.ite (fun _ => ?_) (fun _ => ?_)) | ((with_reducible apply State.mbxBell_kept); on_goal 2 => exact rfl) | ((with_reducible apply State.mbxUnknown_kept); on_goal 2 => exact rfl))

theorem execMbxDoorbell_kept {val : W32} {bad : Bool} {s : State}
    {L₀ t₀} (h₀ : Kept L₀ t₀ s) (hs₀ : sliceSub [.mbx, .pfMsix, .irqs, .hostMem] L₀ = true) :
    Kept L₀ t₀ (outOf s (execMbxDoorbell val bad s)) := by
  refine h₀.step (M := [.mbx, .pfMsix, .irqs, .hostMem]) ?_ hs₀
  clear h₀ hs₀ t₀ L₀
  unfold execMbxDoorbell
  repeat' (first | (dsimp -zeta -iota -proj only [outOf_next]) | (with_reducible exact Kept.refl _ _) | (with_reducible assumption) | ((with_reducible apply State.mbxTail_kept); on_goal 2 => exact rfl) | ((with_reducible refine Kept.when ?_ (fun _ _ => ?_))))

theorem State.takeLog_kept {s : State} {n : Nat}
    {L₀ t₀} (h₀ : Kept L₀ t₀ s) (hs₀ : sliceSub [.ras] L₀ = true) :
    Kept L₀ t₀ (State.takeLog s n).2 := by
  refine h₀.step (M := [.ras]) ?_ hs₀
  clear h₀ hs₀ t₀ L₀
  unfold State.takeLog
  repeat' (first | (with_reducible exact Kept.refl _ _) | (rewrite [updateOf_eq]; (with_reducible refine Kept.set_ras ?_ ?h0); (case h0 => exact rfl)) | (extract_lets +onlyGivenNames x; have : x.2 = x.2 := rfl; clear this; subst x) | (extract_lets +onlyGivenNames x; clear_value x) | split)

theorem execErrlogRead_kept {s : State}
    {L₀ t₀} (h₀ : Kept L₀ t₀ s) (hs₀ : sliceSub [.mbx, .pfMsix, .irqs, .ras, .hostMem] L₀ = true) :
    Kept L₀ t₀ (outOf s (execErrlogRead s)) := by
  refine h₀.step (M := [.mbx, .pfMsix, .irqs, .ras, .hostMem]) ?_ hs₀
  clear h₀ hs₀ t₀ L₀
  unfold execErrlogRead
  repeat' (first | (dsimp -zeta -iota -proj only [outOf_next]) | (with_reducible exact Kept.refl _ _) | (with_reducible assumption) | ((with_reducible apply State.takeLog_kept); on_goal 2 => exact rfl) | ((with_reducible apply State.mbxAnswer_kept); on_goal 2 => exact rfl) | ((with_reducible apply State.hostWritePf_kept); on_goal 2 => exact rfl) | ((with_reducible refine Kept.when ?_ (fun _ _ => ?_))) | ((with_reducible refine Kept.onRequest ?_ (fun _ => ?_))))

theorem execColRead_kept {s : State}
    {L₀ t₀} (h₀ : Kept L₀ t₀ s) (hs₀ : sliceSub [.mbx, .pfMsix, .irqs, .hostMem] L₀ = true) :
    Kept L₀ t₀ (outOf s (execColRead s)) := by
  refine h₀.step (M := [.mbx, .pfMsix, .irqs, .hostMem]) ?_ hs₀
  clear h₀ hs₀ t₀ L₀
  unfold execColRead
  repeat' (first | (dsimp -zeta -iota -proj only [outOf_next]) | (with_reducible exact Kept.refl _ _) | ((with_reducible apply State.mbxAnswer_kept); on_goal 2 => exact rfl) | ((with_reducible refine Kept.onRequest ?_ (fun _ => ?_))))

theorem execCairnIdRead_kept {s : State}
    {L₀ t₀} (h₀ : Kept L₀ t₀ s) (hs₀ : sliceSub [.mbx, .pfMsix, .irqs, .hostMem] L₀ = true) :
    Kept L₀ t₀ (outOf s (execCairnIdRead s)) := by
  refine h₀.step (M := [.mbx, .pfMsix, .irqs, .hostMem]) ?_ hs₀
  clear h₀ hs₀ t₀ L₀
  unfold execCairnIdRead
  repeat' (first | (dsimp -zeta -iota -proj only [outOf_next]) | (with_reducible exact Kept.refl _ _) | ((with_reducible apply State.mbxAnswer_kept); on_goal 2 => exact rfl) | ((with_reducible refine Kept.onRequest ?_ (fun _ => ?_))))

theorem Kept.flashRequest {L s u req unit} {f : State → Nat → Nat → State} (h : Kept L s u)
    (k : ∀ v a n, Kept L s v → Kept L s (f v a n)) (hs : sliceSub [.mbx, .pfMsix, .irqs, .hostMem] L = true) :
    Kept L s (u.flashRequest req unit f) := by
  unfold State.flashRequest
  dsimp only
  split
  · exact State.mbxAnswer_kept h hs
  · split
    · exact State.mbxAnswer_kept h hs
    · split
      · exact State.mbxAnswer_kept h hs
      · exact k _ _ _ h

theorem execFlashRead_kept {s : State}
    {L₀ t₀} (h₀ : Kept L₀ t₀ s) (hs₀ : sliceSub [.mbx, .pfMsix, .irqs, .hostMem] L₀ = true) :
    Kept L₀ t₀ (outOf s (execFlashRead s)) := by
  refine h₀.step (M := [.mbx, .pfMsix, .irqs, .hostMem]) ?_ hs₀
  clear h₀ hs₀ t₀ L₀
  unfold execFlashRead
  repeat' (first | (dsimp -zeta -iota -proj only [outOf_next]) | (with_reducible exact Kept.refl _ _) | (with_reducible assumption) | ((with_reducible apply State.mbxAnswer_kept); on_goal 2 => exact rfl) | ((with_reducible apply State.hostWritePf_kept); on_goal 2 => exact rfl) | ((with_reducible refine Kept.onRequest ?_ (fun _ => ?_))) | ((with_reducible refine Kept.flashRequest ?_ (fun _ _ _ _ => ?_) ?hs); case hs => exact rfl))

theorem State.flashTorn_kept {s : State} {a : Nat} {n : Nat}
    {L₀ t₀} (h₀ : Kept L₀ t₀ s) (hs₀ : sliceSub [.flash, .free] L₀ = true) :
    Kept L₀ t₀ (State.flashTorn s a n) := by
  refine h₀.step (M := [.flash, .free]) ?_ hs₀
  clear h₀ hs₀ t₀ L₀
  unfold State.flashTorn
  repeat' (first | (with_reducible exact Kept.refl _ _) | (rewrite [updateOf_eq]; (with_reducible refine Kept.set_flash ?_ ?h0 ?m0); (case h0 => exact rfl); (case m0 => exact ⟨spWriteD_wf⟩)) | (with_reducible refine State.draw_kept_eq ?_ rfl (by assumption)) | split)

theorem execFlashErase_kept {ok : Bool} {s : State}
    {L₀ t₀} (h₀ : Kept L₀ t₀ s) (hs₀ : sliceSub [.mbx, .pfMsix, .irqs, .flash, .hostMem, .free] L₀ = true) :
    Kept L₀ t₀ (outOf s (execFlashErase ok s)) := by
  refine h₀.step (M := [.mbx, .pfMsix, .irqs, .flash, .hostMem, .free]) ?_ hs₀
  clear h₀ hs₀ t₀ L₀
  unfold execFlashErase
  repeat' (first | (dsimp -zeta -iota -proj only [outOf_next]) | (with_reducible exact Kept.refl _ _) | (with_reducible assumption) | (with_reducible refine Kept.ite (fun _ => ?_) (fun _ => ?_)) | ((with_reducible apply State.mbxAnswer_kept); on_goal 2 => exact rfl) | ((with_reducible apply State.flashErase_kept); on_goal 2 => exact rfl) | ((with_reducible apply State.flashTorn_kept); on_goal 2 => exact rfl) | ((with_reducible refine Kept.onRequest ?_ (fun _ => ?_))) | ((with_reducible refine Kept.flashRequest ?_ (fun _ _ _ _ => ?_) ?hs); case hs => exact rfl))

theorem execFlashProgram_kept {ok : Bool} {bad : Bool} {s : State}
    {L₀ t₀} (h₀ : Kept L₀ t₀ s) (hs₀ : sliceSub [.mbx, .pfMsix, .irqs, .flash, .hostMem, .free] L₀ = true) :
    Kept L₀ t₀ (outOf s (execFlashProgram ok bad s)) := by
  refine h₀.step (M := [.mbx, .pfMsix, .irqs, .flash, .hostMem, .free]) ?_ hs₀
  clear h₀ hs₀ t₀ L₀
  unfold execFlashProgram
  repeat' (first | (dsimp -zeta -iota -proj only [outOf_next]) | (with_reducible exact Kept.refl _ _) | (with_reducible assumption) | (extract_lets +onlyGivenNames x; have : x.2 = x.2 := rfl; clear this; subst x) | (extract_lets +onlyGivenNames x; clear_value x) | (with_reducible refine Kept.ite (fun _ => ?_) (fun _ => ?_)) | ((with_reducible apply State.mbxAnswer_kept); on_goal 2 => exact rfl) | ((with_reducible apply State.flashTorn_kept); on_goal 2 => exact rfl) | ((with_reducible apply State.flashProgram_kept); on_goal 2 => exact rfl) | ((with_reducible refine Kept.onRequest ?_ (fun _ => ?_))) | ((with_reducible refine Kept.flashRequest ?_ (fun _ _ _ _ => ?_) ?hs); case hs => exact rfl))

end Sys2Proof.Machine
end

