-- ==== Sys2Proof/Laws/Quad.lean ====
section
/-! SUPPORT. What each operation of Machine/Quad.lean may change (`Kept`): the parts of the state, listed; every memory stays canonical,
and no bit of Cairn is cleared. -/

set_option linter.unusedTactic false
set_option linter.unreachableTactic false

namespace Sys2Proof.Machine

theorem State.wakeOne_kept {s : State} {q : Quad}
    {L₀ t₀} (h₀ : Kept L₀ t₀ s) (hs₀ : sliceSub [.quads] L₀ = true) :
    Kept L₀ t₀ (State.wakeOne s q) := by
  refine h₀.step (M := [.quads]) ?_ hs₀
  clear h₀ hs₀ t₀ L₀
  unfold State.wakeOne
  repeat' (first | (with_reducible exact Kept.refl _ _) | (extract_lets +onlyGivenNames x; have : x.2 = x.2 := rfl; clear this; subst x) | (extract_lets +onlyGivenNames x; clear_value x) | (with_reducible refine Kept.ite (fun _ => ?_) (fun _ => ?_)) | ((with_reducible apply State.setQ_kept); on_goal 2 => exact rfl) | split)

theorem State.wake_kept {s : State} {q : Quad}
    {L₀ t₀} (h₀ : Kept L₀ t₀ s) (hs₀ : sliceSub [.quads] L₀ = true) :
    Kept L₀ t₀ (State.wake s q) := by
  refine h₀.step (M := [.quads]) ?_ hs₀
  clear h₀ hs₀ t₀ L₀
  unfold State.wake
  repeat' (first | (with_reducible exact Kept.refl _ _) | (with_reducible assumption) | ((with_reducible apply State.wakeOne_kept); on_goal 2 => exact rfl) | ((with_reducible refine Kept.each ?_ (fun _ _ _ => ?_))))

theorem State.qpolWrite_kept {s : State} {q : Quad} {v : Nat}
    {L₀ t₀} (h₀ : Kept L₀ t₀ s) (hs₀ : sliceSub [.quads] L₀ = true) :
    Kept L₀ t₀ (State.qpolWrite s q v) := by
  refine h₀.step (M := [.quads]) ?_ hs₀
  clear h₀ hs₀ t₀ L₀
  unfold State.qpolWrite
  repeat' (first | (with_reducible exact Kept.refl _ _) | (extract_lets +onlyGivenNames x; have : x.2 = x.2 := rfl; clear this; subst x) | (with_reducible refine Kept.ite (fun _ => ?_) (fun _ => ?_)) | ((with_reducible apply State.setQ_kept); on_goal 2 => exact rfl) | ((with_reducible apply State.wake_kept); on_goal 2 => exact rfl))

theorem State.qforceWrite_kept {s : State} {v : Nat}
    {L₀ t₀} (h₀ : Kept L₀ t₀ s) (hs₀ : sliceSub [.quads] L₀ = true) :
    Kept L₀ t₀ (State.qforceWrite s v) := by
  refine h₀.step (M := [.quads]) ?_ hs₀
  clear h₀ hs₀ t₀ L₀
  unfold State.qforceWrite
  repeat' (first | (with_reducible exact Kept.refl _ _) | (with_reducible assumption) | (extract_lets +onlyGivenNames x; have : x.2 = x.2 := rfl; clear this; subst x) | (extract_lets +onlyGivenNames x; clear_value x) | (with_reducible refine Kept.ite (fun _ => ?_) (fun _ => ?_)) | ((with_reducible apply State.setQ_kept); on_goal 2 => exact rfl) | ((with_reducible apply State.wake_kept); on_goal 2 => exact rfl) | ((with_reducible refine Kept.each ?_ (fun _ _ _ => ?_))))

theorem execQuadPllLockLost_kept {q : Quad} {s : State}
    {L₀ t₀} (h₀ : Kept L₀ t₀ s) (hs₀ : sliceSub [.quads, .lockLoss, .pfMsix, .irqs, .items, .ras, .crest] L₀ = true) :
    Kept L₀ t₀ (outOf s (execQuadPllLockLost q s)) := by
  refine h₀.step (M := [.quads, .lockLoss, .pfMsix, .irqs, .items, .ras, .crest]) ?_ hs₀
  clear h₀ hs₀ t₀ L₀
  unfold execQuadPllLockLost
  repeat' (first | (dsimp -zeta -iota -proj only [outOf_next]) | (with_reducible exact Kept.refl _ _) | (with_reducible assumption) | (extract_lets +onlyGivenNames x; have : x.2 = x.2 := rfl; clear this; subst x) | (extract_lets +onlyGivenNames x; clear_value x) | ((with_reducible apply State.log_kept); on_goal 2 => exact rfl) | ((with_reducible apply State.countLock_kept); on_goal 2 => exact rfl) | ((with_reducible apply State.setQ_kept); on_goal 2 => exact rfl) | ((with_reducible apply State.setCq_kept); on_goal 2 => exact rfl) | ((with_reducible apply State.askStop_kept); on_goal 2 => exact rfl) | ((with_reducible refine Kept.when ?_ (fun _ _ => ?_))) | split)

theorem State.retireQuad_kept {s : State} {q : Quad}
    {L₀ t₀} (h₀ : Kept L₀ t₀ s) (hs₀ : sliceSub [.quads, .pfMsix, .irqs, .items, .ras] L₀ = true) :
    Kept L₀ t₀ (State.retireQuad s q) := by
  refine h₀.step (M := [.quads, .pfMsix, .irqs, .items, .ras]) ?_ hs₀
  clear h₀ hs₀ t₀ L₀
  unfold State.retireQuad
  repeat' (first | (with_reducible exact Kept.refl _ _) | (with_reducible assumption) | (extract_lets +onlyGivenNames x; have : x.2 = x.2 := rfl; clear this; subst x) | (with_reducible refine Kept.ite (fun _ => ?_) (fun _ => ?_)) | ((with_reducible apply State.setQ_kept); on_goal 2 => exact rfl) | ((with_reducible apply State.log_kept); on_goal 2 => exact rfl) | ((with_reducible apply State.finish_kept); on_goal 2 => exact rfl) | ((with_reducible apply State.askStop_kept); on_goal 2 => exact rfl) | ((with_reducible refine Kept.each ?_ (fun _ _ _ => ?_))))

theorem execQuadPllRelockDone_kept {q : Quad} {ok : Bool} {s : State}
    {L₀ t₀} (h₀ : Kept L₀ t₀ s) (hs₀ : sliceSub [.quads, .pfMsix, .irqs, .items, .ras] L₀ = true) :
    Kept L₀ t₀ (outOf s (execQuadPllRelockDone q ok s)) := by
  refine h₀.step (M := [.quads, .pfMsix, .irqs, .items, .ras]) ?_ hs₀
  clear h₀ hs₀ t₀ L₀
  unfold execQuadPllRelockDone
  repeat' (first | (dsimp -zeta -iota -proj only [outOf_next]) | (with_reducible exact Kept.refl _ _) | (with_reducible refine Kept.ite (fun _ => ?_) (fun _ => ?_)) | ((with_reducible apply State.setQ_kept); on_goal 2 => exact rfl) | ((with_reducible apply State.retireQuad_kept); on_goal 2 => exact rfl) | split)

theorem execQuadDemote_kept {q : Quad} {s : State}
    {L₀ t₀} (h₀ : Kept L₀ t₀ s) (hs₀ : sliceSub [.quads] L₀ = true) :
    Kept L₀ t₀ (outOf s (execQuadDemote q s)) := by
  refine h₀.step (M := [.quads]) ?_ hs₀
  clear h₀ hs₀ t₀ L₀
  unfold execQuadDemote
  repeat' (first | (dsimp -zeta -iota -proj only [outOf_next]) | (with_reducible exact Kept.refl _ _) | (with_reducible assumption) | (extract_lets +onlyGivenNames x; clear_value x) | ((with_reducible apply State.setQ_kept); on_goal 2 => exact rfl) | ((with_reducible refine Kept.each ?_ (fun _ _ _ => ?_))) | ((with_reducible refine Kept.when ?_ (fun _ _ => ?_))))

theorem State.quadLose_kept {s : State} {q : Quad} {t : QState}
    {L₀ t₀} (h₀ : Kept L₀ t₀ s) (hs₀ : sliceSub [.crest, .cornice] L₀ = true) :
    Kept L₀ t₀ (State.quadLose s q t) := by
  refine h₀.step (M := [.crest, .cornice]) ?_ hs₀
  clear h₀ hs₀ t₀ L₀
  unfold State.quadLose
  repeat' (first | (with_reducible exact Kept.refl _ _) | (extract_lets +onlyGivenNames x; have : x.2 = x.2 := rfl; clear this; subst x) | (with_reducible refine Kept.ite (fun _ => ?_) (fun _ => ?_)) | ((with_reducible apply State.setCq_kept); on_goal 2 => exact rfl) | ((with_reducible apply State.setEng_kept); on_goal 2 => exact rfl) | ((with_reducible apply State.clearQuadSram_kept); on_goal 2 => exact rfl))

theorem execQuadEntryDone_kept {q : Quad} {s : State}
    {L₀ t₀} (h₀ : Kept L₀ t₀ s) (hs₀ : sliceSub [.quads, .crest, .cornice] L₀ = true) :
    Kept L₀ t₀ (outOf s (execQuadEntryDone q s)) := by
  refine h₀.step (M := [.quads, .crest, .cornice]) ?_ hs₀
  clear h₀ hs₀ t₀ L₀
  unfold execQuadEntryDone
  repeat' (first | (dsimp -zeta -iota -proj only [outOf_next]) | (with_reducible exact Kept.refl _ _) | (with_reducible assumption) | (extract_lets +onlyGivenNames x; have : x.2 = x.2 := rfl; clear this; subst x) | (extract_lets +onlyGivenNames x; clear_value x) | (with_reducible refine Kept.ite (fun _ => ?_) (fun _ => ?_)) | ((with_reducible apply State.quadLose_kept); on_goal 2 => exact rfl) | ((with_reducible apply State.setQ_kept); on_goal 2 => exact rfl) | ((with_reducible apply State.wake_kept); on_goal 2 => exact rfl) | ((with_reducible refine Kept.each ?_ (fun _ _ _ => ?_))) | ((with_reducible refine Kept.when ?_ (fun _ _ => ?_))))

theorem execQuadWakeRequest_kept {q : Quad} {src : WakeSrc} {s : State}
    {L₀ t₀} (h₀ : Kept L₀ t₀ s) (hs₀ : sliceSub [.quads] L₀ = true) :
    Kept L₀ t₀ (outOf s (execQuadWakeRequest q src s)) := by
  refine h₀.step (M := [.quads]) ?_ hs₀
  clear h₀ hs₀ t₀ L₀
  unfold execQuadWakeRequest
  repeat' (first | (dsimp -zeta -iota -proj only [outOf_next]) | (with_reducible exact Kept.refl _ _) | (with_reducible assumption) | (extract_lets +onlyGivenNames x; have : x.2 = x.2 := rfl; clear this; subst x) | (with_reducible refine Kept.ite (fun _ => ?_) (fun _ => ?_)) | ((with_reducible apply State.setQ_kept); on_goal 2 => exact rfl) | ((with_reducible apply State.wake_kept); on_goal 2 => exact rfl) | ((with_reducible refine Kept.when ?_ (fun _ _ => ?_))) | split)

theorem execQuadPrewake_kept {q : Quad} {s : State}
    {L₀ t₀} (h₀ : Kept L₀ t₀ s) (hs₀ : sliceSub [.quads] L₀ = true) :
    Kept L₀ t₀ (outOf s (execQuadPrewake q s)) := by
  refine h₀.step (M := [.quads]) ?_ hs₀
  clear h₀ hs₀ t₀ L₀
  unfold execQuadPrewake
  repeat' (first | (dsimp -zeta -iota -proj only [outOf_next]) | (with_reducible exact Kept.refl _ _) | (with_reducible assumption) | (extract_lets +onlyGivenNames x; have : x.2 = x.2 := rfl; clear this; subst x) | (extract_lets +onlyGivenNames x; clear_value x) | ((with_reducible apply State.wake_kept); on_goal 2 => exact rfl) | ((with_reducible apply State.setQ_kept); on_goal 2 => exact rfl) | ((with_reducible refine Kept.each ?_ (fun _ _ _ => ?_))) | ((with_reducible refine Kept.when ?_ (fun _ _ => ?_))) | split)

theorem State.wakeServed_kept {s : State} {q : Quad}
    {L₀ t₀} (h₀ : Kept L₀ t₀ s) (hs₀ : sliceSub [.quads] L₀ = true) :
    Kept L₀ t₀ (State.wakeServed s q) := by
  refine h₀.step (M := [.quads]) ?_ hs₀
  clear h₀ hs₀ t₀ L₀
  unfold State.wakeServed
  repeat' (first | (with_reducible exact Kept.refl _ _) | ((with_reducible apply State.setQ_kept); on_goal 2 => exact rfl))

theorem State.wakeEnds_kept {s : State} {q : Quad}
    {L₀ t₀} (h₀ : Kept L₀ t₀ s) (hs₀ : sliceSub [.quads] L₀ = true) :
    Kept L₀ t₀ (State.wakeEnds s q) := by
  refine h₀.step (M := [.quads]) ?_ hs₀
  clear h₀ hs₀ t₀ L₀
  unfold State.wakeEnds
  repeat' (first | (with_reducible exact Kept.refl _ _) | (extract_lets +onlyGivenNames x; have : x.2 = x.2 := rfl; clear this; subst x) | (extract_lets +onlyGivenNames x; clear_value x) | (with_reducible refine Kept.ite (fun _ => ?_) (fun _ => ?_)) | ((with_reducible apply State.setQ_kept); on_goal 2 => exact rfl) | ((with_reducible apply State.wakeServed_kept); on_goal 2 => exact rfl) | split)

theorem execQuadWakeDone_kept {q : Quad} {s : State}
    {L₀ t₀} (h₀ : Kept L₀ t₀ s) (hs₀ : sliceSub [.quads] L₀ = true) :
    Kept L₀ t₀ (outOf s (execQuadWakeDone q s)) := by
  refine h₀.step (M := [.quads]) ?_ hs₀
  clear h₀ hs₀ t₀ L₀
  unfold execQuadWakeDone
  repeat' (first | (dsimp -zeta -iota -proj only [outOf_next]) | (with_reducible exact Kept.refl _ _) | (with_reducible assumption) | ((with_reducible apply State.wakeEnds_kept); on_goal 2 => exact rfl) | ((with_reducible refine Kept.each ?_ (fun _ _ _ => ?_))) | ((with_reducible refine Kept.when ?_ (fun _ _ => ?_))))

theorem State.reloadQuad_kept {s : State} {p : Part} {q : Quad}
    {L₀ t₀} (h₀ : Kept L₀ t₀ s) (hs₀ : sliceSub [.pfMsix, .irqs, .dram, .ras, .crest] L₀ = true) :
    Kept L₀ t₀ (State.reloadQuad s p q) := by
  refine h₀.step (M := [.pfMsix, .irqs, .dram, .ras, .crest]) ?_ hs₀
  clear h₀ hs₀ t₀ L₀
  unfold State.reloadQuad
  repeat' (first | (with_reducible exact Kept.refl _ _) | (with_reducible assumption) | ((with_reducible apply State.winRead_kept); on_goal 2 => exact rfl) | ((with_reducible apply State.setCq_kept); on_goal 2 => exact rfl) | ((with_reducible apply State.sramWrite_kept); on_goal 2 => exact rfl) | ((with_reducible refine Kept.each ?_ (fun _ _ _ => ?_))) | split)

theorem execQuadReloadDone_kept {q : Quad} {s : State}
    {L₀ t₀} (h₀ : Kept L₀ t₀ s) (hs₀ : sliceSub [.quads, .parts, .turns, .pfMsix, .irqs, .dram, .ras, .crest] L₀ = true) :
    Kept L₀ t₀ (outOf s (execQuadReloadDone q s)) := by
  refine h₀.step (M := [.quads, .parts, .turns, .pfMsix, .irqs, .dram, .ras, .crest]) ?_ hs₀
  clear h₀ hs₀ t₀ L₀
  unfold execQuadReloadDone
  repeat' (first | (dsimp -zeta -iota -proj only [outOf_next]) | (with_reducible exact Kept.refl _ _) | (with_reducible assumption) | (extract_lets +onlyGivenNames x; have : x.2 = x.2 := rfl; clear this; subst x) | ((with_reducible apply State.reloadQuad_kept); on_goal 2 => exact rfl) | ((with_reducible apply State.takeTurn_kept); on_goal 2 => exact rfl) | ((with_reducible apply State.wakeServed_kept); on_goal 2 => exact rfl) | ((with_reducible apply State.setQ_kept); on_goal 2 => exact rfl) | ((with_reducible refine Kept.when ?_ (fun _ _ => ?_))) | split)

theorem execClkQpolWrite_kept {q : Quad} {val : W64} {s : State}
    {L₀ t₀} (h₀ : Kept L₀ t₀ s) (hs₀ : sliceSub [.quads] L₀ = true) :
    Kept L₀ t₀ (outOf s (execClkQpolWrite q val s)) := by
  refine h₀.step (M := [.quads]) ?_ hs₀
  clear h₀ hs₀ t₀ L₀
  unfold execClkQpolWrite
  repeat' (first | (dsimp -zeta -iota -proj only [outOf_next]) | (with_reducible exact Kept.refl _ _) | (with_reducible assumption) | ((with_reducible apply State.qpolWrite_kept); on_goal 2 => exact rfl) | ((with_reducible refine Kept.when ?_ (fun _ _ => ?_))))

theorem execClkQforceWrite_kept {val : W32} {s : State}
    {L₀ t₀} (h₀ : Kept L₀ t₀ s) (hs₀ : sliceSub [.quads] L₀ = true) :
    Kept L₀ t₀ (outOf s (execClkQforceWrite val s)) := by
  refine h₀.step (M := [.quads]) ?_ hs₀
  clear h₀ hs₀ t₀ L₀
  unfold execClkQforceWrite
  repeat' (first | (dsimp -zeta -iota -proj only [outOf_next]) | (with_reducible exact Kept.refl _ _) | (with_reducible assumption) | ((with_reducible apply State.qforceWrite_kept); on_goal 2 => exact rfl) | ((with_reducible refine Kept.when ?_ (fun _ _ => ?_))))

end Sys2Proof.Machine
end

