-- ==== Sys2Proof/Laws/Partition.lean ====
section
/-! SUPPORT. What each operation of Machine/Partition.lean may change (`Kept`): the parts of the state, listed; every memory stays canonical,
and no bit of Cairn is cleared. -/

set_option linter.unusedTactic false
set_option linter.unreachableTactic false

namespace Sys2Proof.Machine

theorem State.placeImages_kept {s : State} {l : List (Bool × Nat × List Byte)}
    {L₀ t₀} (h₀ : Kept L₀ t₀ s) (hs₀ : sliceSub [.pfMsix, .irqs, .dram, .ras] L₀ = true) :
    Kept L₀ t₀ (State.placeImages s l) := by
  refine h₀.step (M := [.pfMsix, .irqs, .dram, .ras]) ?_ hs₀
  clear h₀ hs₀ t₀ L₀
  unfold State.placeImages
  repeat' (first | (with_reducible exact Kept.refl _ _) | (with_reducible assumption) | (extract_lets +onlyGivenNames x; have : x.2 = x.2 := rfl; clear this; subst x) | (extract_lets +onlyGivenNames x; clear_value x) | ((with_reducible apply State.winWrite_kept); on_goal 2 => exact rfl) | ((with_reducible refine Kept.each ?_ (fun _ _ _ => ?_))) | split)

theorem State.quadOff_kept {s : State} {q : Quad}
    {L₀ t₀} (h₀ : Kept L₀ t₀ s) (hs₀ : sliceSub [.quads, .crest, .cornice] L₀ = true) :
    Kept L₀ t₀ (State.quadOff s q) := by
  refine h₀.step (M := [.quads, .crest, .cornice]) ?_ hs₀
  clear h₀ hs₀ t₀ L₀
  unfold State.quadOff
  repeat' (first | (with_reducible exact Kept.refl _ _) | (extract_lets +onlyGivenNames x; have : x.2 = x.2 := rfl; clear this; subst x) | ((with_reducible apply State.setQ_kept); on_goal 2 => exact rfl) | ((with_reducible apply State.setCq_kept); on_goal 2 => exact rfl) | ((with_reducible apply State.setEng_kept); on_goal 2 => exact rfl))

theorem State.partState_kept {s : State} {p : Part} {st : PState}
    {L₀ t₀} (h₀ : Kept L₀ t₀ s) (hs₀ : sliceSub [.parts, .vfs, .irqs] L₀ = true) :
    Kept L₀ t₀ (State.partState s p st) := by
  refine h₀.step (M := [.parts, .vfs, .irqs]) ?_ hs₀
  clear h₀ hs₀ t₀ L₀
  unfold State.partState
  repeat' (first | (with_reducible exact Kept.refl _ _) | (with_reducible refine Kept.ite (fun _ => ?_) (fun _ => ?_)) | ((with_reducible apply State.event_kept); on_goal 2 => exact rfl) | ((with_reducible apply State.setVf_kept); on_goal 2 => exact rfl) | ((with_reducible apply State.setPart_kept); on_goal 2 => exact rfl))

theorem State.commitPart_kept {s : State} {p : Part} {quads : List Quad}
    {L₀ t₀} (h₀ : Kept L₀ t₀ s) (hs₀ : sliceSub [.quads, .parts, .vfs, .irqs, .items, .sends, .trv, .crest, .cornice, .spur, .links] L₀ = true) :
    Kept L₀ t₀ (State.commitPart s p quads) := by
  refine h₀.step (M := [.quads, .parts, .vfs, .irqs, .items, .sends, .trv, .crest, .cornice, .spur, .links]) ?_ hs₀
  clear h₀ hs₀ t₀ L₀
  unfold State.commitPart
  repeat' (first | (with_reducible exact Kept.refl _ _) | (with_reducible assumption) | (rewrite [updateOf_eq]; (with_reducible refine Kept.set_items_sends ?_ ?h0 ?h1); (case h0 => exact rfl); (case h1 => exact rfl)) | (extract_lets +onlyGivenNames x; have : x.2 = x.2 := rfl; clear this; subst x) | ((with_reducible apply State.sendReply_kept); on_goal 2 => exact rfl) | ((with_reducible apply State.setPart_kept); on_goal 2 => exact rfl) | ((with_reducible apply State.dropLanded_kept); on_goal 2 => exact rfl) | ((with_reducible apply State.dropJobs_kept); on_goal 2 => exact rfl) | ((with_reducible apply State.setVf_kept); on_goal 2 => exact rfl) | ((with_reducible apply State.endSessions_kept); on_goal 2 => exact rfl) | ((with_reducible apply State.quadOff_kept); on_goal 2 => exact rfl) | ((with_reducible apply State.partState_kept); on_goal 2 => exact rfl) | ((with_reducible refine Kept.each ?_ (fun _ _ _ => ?_))))

theorem State.commitPort_kept {s : State} {p : Port}
    {L₀ t₀} (h₀ : Kept L₀ t₀ s) (hs₀ : sliceSub [.mbx, .pfMsix, .irqs, .ras, .ports, .links, .cal, .hostMem] L₀ = true) :
    Kept L₀ t₀ (State.commitPort s p) := by
  refine h₀.step (M := [.mbx, .pfMsix, .irqs, .ras, .ports, .links, .cal, .hostMem]) ?_ hs₀
  clear h₀ hs₀ t₀ L₀
  unfold State.commitPort
  repeat' (first | (with_reducible exact Kept.refl _ _) | (extract_lets +onlyGivenNames x; have : x.2 = x.2 := rfl; clear this; subst x) | (extract_lets +onlyGivenNames x; clear_value x) | (with_reducible refine Kept.ite (fun _ => ?_) (fun _ => ?_)) | ((with_reducible apply State.linkDown_kept); on_goal 2 => exact rfl) | ((with_reducible apply State.portDark_kept); on_goal 2 => exact rfl) | ((with_reducible apply State.setLink_kept); on_goal 2 => exact rfl) | ((with_reducible apply State.portTry_kept); on_goal 2 => exact rfl) | ((with_reducible apply State.setPort_kept); on_goal 2 => exact rfl))

theorem State.commitNow_kept {s : State} {t : Structure} {images : List (Bool × Nat × List Byte)} {full : Bool} {target : Part}
    {L₀ t₀} (h₀ : Kept L₀ t₀ s) (hs₀ : sliceSub (slicesBut [.pins, .col, .cairn, .lockLoss, .loader, .numVfs, .turns, .nextItem, .nextMid, .linkHoldMs, .replyMs, .pmsg, .laser, .thm, .flash, .bus, .pending, .free]) L₀ = true) :
    Kept L₀ t₀ (State.commitNow s t images full target) := by
  refine h₀.step (M := (slicesBut [.pins, .col, .cairn, .lockLoss, .loader, .numVfs, .turns, .nextItem, .nextMid, .linkHoldMs, .replyMs, .pmsg, .laser, .thm, .flash, .bus, .pending, .free])) ?_ hs₀
  clear h₀ hs₀ t₀ L₀
  unfold State.commitNow
  repeat' (first | (with_reducible exact Kept.refl _ _) | (with_reducible assumption) | (rewrite [updateOf_eq]; (with_reducible refine Kept.set_ret ?_ ?h0); (case h0 => exact rfl)) | (rewrite [updateOf_eq]; (with_reducible refine Kept.set_start_mbx_pfMsix_trv ?_ ?h0 ?h1 ?h2 ?h3); (case h0 => exact rfl); (case h1 => exact rfl); (case h2 => exact rfl); (case h3 => exact rfl)) | (rewrite [updateOf_eq]; (with_reducible refine Kept.set_committed_str ?_ ?h0 ?h1); (case h0 => exact rfl); (case h1 => exact rfl)) | (extract_lets +onlyGivenNames x; have : x.2 = x.2 := rfl; clear this; subst x) | (extract_lets +onlyGivenNames x; have : x = fun a => x a := rfl; clear this; subst x; beta_reduce) | (extract_lets +onlyGivenNames x; clear_value x) | (with_reducible refine Kept.ite (fun _ => ?_) (fun _ => ?_)) | ((with_reducible apply State.placeImages_kept); on_goal 2 => exact rfl) | ((with_reducible apply State.commitPart_kept); on_goal 2 => exact rfl) | ((with_reducible apply State.quadOff_kept); on_goal 2 => exact rfl) | ((with_reducible apply State.commitPort_kept); on_goal 2 => exact rfl) | ((with_reducible apply State.allowances_kept); on_goal 2 => exact rfl) | ((with_reducible apply State.memWrite_kept); on_goal 2 => exact rfl) | ((with_reducible apply State.wake_kept); on_goal 2 => exact rfl) | ((with_reducible refine Kept.each ?_ (fun _ _ _ => ?_))))

theorem State.notStarted_kept {s : State} {i : Item}
    {L₀ t₀} (h₀ : Kept L₀ t₀ s) (hs₀ : sliceSub [.quads, .parts, .items, .sends, .trv, .crest, .cornice, .spur] L₀ = true) :
    Kept L₀ t₀ (State.notStarted s i) := by
  refine h₀.step (M := [.quads, .parts, .items, .sends, .trv, .crest, .cornice, .spur]) ?_ hs₀
  clear h₀ hs₀ t₀ L₀
  unfold State.notStarted
  repeat' (first | (with_reducible exact Kept.refl _ _) | (with_reducible refine Kept.ite (fun _ => ?_) (fun _ => ?_)) | ((with_reducible apply State.finish_kept); on_goal 2 => exact rfl) | ((with_reducible apply State.stopEntry_kept); on_goal 2 => exact rfl))

theorem State.quiesceSess_kept {s : State} {n : Nat} {x : SessSt}
    {L₀ t₀} (h₀ : Kept L₀ t₀ s) (hs₀ : sliceSub [.parts, .trv] L₀ = true) :
    Kept L₀ t₀ (State.quiesceSess s n x) := by
  refine h₀.step (M := [.parts, .trv]) ?_ hs₀
  clear h₀ hs₀ t₀ L₀
  unfold State.quiesceSess
  repeat' (first | (with_reducible exact Kept.refl _ _) | ((with_reducible apply State.setSess_kept); on_goal 2 => exact rfl) | ((with_reducible apply State.discarded_kept); on_goal 2 => exact rfl))

theorem State.quiesce_kept {s : State} {p : Part}
    {L₀ t₀} (h₀ : Kept L₀ t₀ s) (hs₀ : sliceSub [.quads, .parts, .vfs, .irqs, .items, .sends, .trv, .crest, .cornice, .spur, .links] L₀ = true) :
    Kept L₀ t₀ (State.quiesce s p) := by
  refine h₀.step (M := [.quads, .parts, .vfs, .irqs, .items, .sends, .trv, .crest, .cornice, .spur, .links]) ?_ hs₀
  clear h₀ hs₀ t₀ L₀
  unfold State.quiesce
  repeat' (first | (with_reducible exact Kept.refl _ _) | (with_reducible assumption) | (extract_lets +onlyGivenNames x; have : x.2 = x.2 := rfl; clear this; subst x) | (extract_lets +onlyGivenNames x; clear_value x) | (with_reducible refine Kept.ite (fun _ => ?_) (fun _ => ?_)) | ((with_reducible apply State.setPart_kept); on_goal 2 => exact rfl) | ((with_reducible apply State.partState_kept); on_goal 2 => exact rfl) | ((with_reducible apply State.discarded_kept); on_goal 2 => exact rfl) | ((with_reducible apply State.notStarted_kept); on_goal 2 => exact rfl) | ((with_reducible apply State.sendReply_kept); on_goal 2 => exact rfl) | ((with_reducible apply State.freeCellOf_kept); on_goal 2 => exact rfl) | ((with_reducible apply State.quiesceSess_kept); on_goal 2 => exact rfl) | ((with_reducible refine Kept.each ?_ (fun _ _ _ => ?_))))

theorem State.dropRecord_kept {s : State} {i : Item}
    {L₀ t₀} (h₀ : Kept L₀ t₀ s) (hs₀ : sliceSub [.parts, .items] L₀ = true) :
    Kept L₀ t₀ (State.dropRecord s i) := by
  refine h₀.step (M := [.parts, .items]) ?_ hs₀
  clear h₀ hs₀ t₀ L₀
  unfold State.dropRecord
  repeat' (first | (with_reducible exact Kept.refl _ _) | (rewrite [updateOf_eq]; (with_reducible refine Kept.set_items ?_ ?h0); (case h0 => exact rfl)) | ((with_reducible apply State.discarded_kept); on_goal 2 => exact rfl))

theorem State.lastRecord_kept {s : State} {i : Item}
    {L₀ t₀} (h₀ : Kept L₀ t₀ s) (hs₀ : sliceSub (slicesBut [.pins, .col, .start, .cairn, .lockLoss, .loader, .committed, .str, .ret, .numVfs, .turns, .mbx, .nextMid, .ports, .linkHoldMs, .replyMs, .pmsg, .laser, .cal, .thm, .flash, .bus, .pending, .free]) L₀ = true) :
    Kept L₀ t₀ (State.lastRecord s i) := by
  refine h₀.step (M := (slicesBut [.pins, .col, .start, .cairn, .lockLoss, .loader, .committed, .str, .ret, .numVfs, .turns, .mbx, .nextMid, .ports, .linkHoldMs, .replyMs, .pmsg, .laser, .cal, .thm, .flash, .bus, .pending, .free])) ?_ hs₀
  clear h₀ hs₀ t₀ L₀
  unfold State.lastRecord
  repeat' (first | (with_reducible exact Kept.refl _ _) | (extract_lets +onlyGivenNames x; have : x.2 = x.2 := rfl; clear this; subst x) | (with_reducible refine Kept.ite (fun _ => ?_) (fun _ => ?_)) | ((with_reducible apply State.stopEntry_kept); on_goal 2 => exact rfl) | ((with_reducible apply State.stopItem_kept); on_goal 2 => exact rfl) | ((with_reducible apply State.dropRecord_kept); on_goal 2 => exact rfl) | ((with_reducible refine Kept.withItem ?_ (fun _ => ?_))) | split)

theorem execQuiesceHoldEnd_kept {p : Part} {s : State}
    {L₀ t₀} (h₀ : Kept L₀ t₀ s) (hs₀ : sliceSub (slicesBut [.pins, .col, .start, .cairn, .lockLoss, .loader, .committed, .str, .ret, .numVfs, .turns, .mbx, .nextMid, .ports, .linkHoldMs, .replyMs, .pmsg, .laser, .cal, .thm, .flash, .bus, .pending, .free]) L₀ = true) :
    Kept L₀ t₀ (outOf s (execQuiesceHoldEnd p s)) := by
  refine h₀.step (M := (slicesBut [.pins, .col, .start, .cairn, .lockLoss, .loader, .committed, .str, .ret, .numVfs, .turns, .mbx, .nextMid, .ports, .linkHoldMs, .replyMs, .pmsg, .laser, .cal, .thm, .flash, .bus, .pending, .free])) ?_ hs₀
  clear h₀ hs₀ t₀ L₀
  unfold execQuiesceHoldEnd
  repeat' (first | (dsimp -zeta -iota -proj only [outOf_next]) | (with_reducible exact Kept.refl _ _) | (with_reducible assumption) | (extract_lets +onlyGivenNames x; have : x.2 = x.2 := rfl; clear this; subst x) | (extract_lets +onlyGivenNames x; clear_value x) | ((with_reducible apply State.lastRecord_kept); on_goal 2 => exact rfl) | ((with_reducible apply State.partState_kept); on_goal 2 => exact rfl) | ((with_reducible apply State.setPart_kept); on_goal 2 => exact rfl) | ((with_reducible refine Kept.each ?_ (fun _ _ _ => ?_))) | ((with_reducible refine Kept.when ?_ (fun _ _ => ?_))))

theorem execDrainLimitExpiry_kept {p : Part} {s : State}
    {L₀ t₀} (h₀ : Kept L₀ t₀ s) (hs₀ : sliceSub [.parts, .items] L₀ = true) :
    Kept L₀ t₀ (outOf s (execDrainLimitExpiry p s)) := by
  refine h₀.step (M := [.parts, .items]) ?_ hs₀
  clear h₀ hs₀ t₀ L₀
  unfold execDrainLimitExpiry
  repeat' (first | (dsimp -zeta -iota -proj only [outOf_next]) | (with_reducible exact Kept.refl _ _) | (with_reducible assumption) | (extract_lets +onlyGivenNames x; have : x.2 = x.2 := rfl; clear this; subst x) | (extract_lets +onlyGivenNames x; have : x = fun a => x a := rfl; clear this; subst x; beta_reduce) | (extract_lets +onlyGivenNames x; clear_value x) | (with_reducible refine Kept.ite (fun _ => ?_) (fun _ => ?_)) | ((with_reducible apply State.dropRecord_kept); on_goal 2 => exact rfl) | ((with_reducible apply State.askStop_kept); on_goal 2 => exact rfl) | ((with_reducible apply State.setItem_kept); on_goal 2 => exact rfl) | ((with_reducible apply State.discarded_kept); on_goal 2 => exact rfl) | ((with_reducible refine Kept.each ?_ (fun _ _ _ => ?_))) | ((with_reducible refine Kept.when ?_ (fun _ _ => ?_))))

theorem State.clearQuads_kept {s : State} {l : List Quad}
    {L₀ t₀} (h₀ : Kept L₀ t₀ s) (hs₀ : sliceSub [.crest, .cornice] L₀ = true) :
    Kept L₀ t₀ (State.clearQuads s l) := by
  refine h₀.step (M := [.crest, .cornice]) ?_ hs₀
  clear h₀ hs₀ t₀ L₀
  unfold State.clearQuads
  repeat' (first | (with_reducible exact Kept.refl _ _) | (with_reducible assumption) | ((with_reducible apply State.setEng_kept); on_goal 2 => exact rfl) | ((with_reducible apply State.setCq_kept); on_goal 2 => exact rfl) | ((with_reducible apply State.clearQuadSram_kept); on_goal 2 => exact rfl) | ((with_reducible refine Kept.each ?_ (fun _ _ _ => ?_))))

theorem State.clearSessions_kept {s : State} {c : PartCfg}
    {L₀ t₀} (h₀ : Kept L₀ t₀ s) (hs₀ : sliceSub [.dram] L₀ = true) :
    Kept L₀ t₀ (State.clearSessions s c) := by
  refine h₀.step (M := [.dram]) ?_ hs₀
  clear h₀ hs₀ t₀ L₀
  unfold State.clearSessions
  repeat' (first | (with_reducible exact Kept.refl _ _) | ((with_reducible apply State.clearRing_kept); on_goal 2 => exact rfl))

theorem State.zeroize_kept {s : State} {p : Part}
    {L₀ t₀} (h₀ : Kept L₀ t₀ s) (hs₀ : sliceSub [.dram, .crest, .cornice, .spur] L₀ = true) :
    Kept L₀ t₀ (State.zeroize s p) := by
  refine h₀.step (M := [.dram, .crest, .cornice, .spur]) ?_ hs₀
  clear h₀ hs₀ t₀ L₀
  unfold State.zeroize
  repeat' (first | (with_reducible exact Kept.refl _ _) | (with_reducible assumption) | (extract_lets +onlyGivenNames x; have : x.2 = x.2 := rfl; clear this; subst x) | ((with_reducible apply State.clearQuads_kept); on_goal 2 => exact rfl) | ((with_reducible apply State.clearWindow_kept); on_goal 2 => exact rfl) | ((with_reducible apply State.setGroup_kept); on_goal 2 => exact rfl) | ((with_reducible apply State.clearSessions_kept); on_goal 2 => exact rfl) | ((with_reducible refine Kept.each ?_ (fun _ _ _ => ?_))) | split)

theorem State.zeroizeAll_kept {s : State}
    {L₀ t₀} (h₀ : Kept L₀ t₀ s) (hs₀ : sliceSub [.dram, .crest, .cornice, .spur] L₀ = true) :
    Kept L₀ t₀ (State.zeroizeAll s) := by
  refine h₀.step (M := [.dram, .crest, .cornice, .spur]) ?_ hs₀
  clear h₀ hs₀ t₀ L₀
  unfold State.zeroizeAll
  repeat' (first | (with_reducible exact Kept.refl _ _) | (with_reducible assumption) | (extract_lets +onlyGivenNames x; have : x.2 = x.2 := rfl; clear this; subst x) | ((with_reducible apply State.clearQuads_kept); on_goal 2 => exact rfl) | ((with_reducible apply State.clearWindows_kept); on_goal 2 => exact rfl) | ((with_reducible apply State.setGroup_kept); on_goal 2 => exact rfl) | ((with_reducible apply State.clearRing_kept); on_goal 2 => exact rfl) | ((with_reducible refine Kept.each ?_ (fun _ _ _ => ?_))))

theorem execZeroizationDone_kept {p : Part} {s : State}
    {L₀ t₀} (h₀ : Kept L₀ t₀ s) (hs₀ : sliceSub [.loader, .parts, .dram, .crest, .cornice, .spur] L₀ = true) :
    Kept L₀ t₀ (outOf s (execZeroizationDone p s)) := by
  refine h₀.step (M := [.loader, .parts, .dram, .crest, .cornice, .spur]) ?_ hs₀
  clear h₀ hs₀ t₀ L₀
  unfold execZeroizationDone
  repeat' (first | (dsimp -zeta -iota -proj only [outOf_next]) | (with_reducible exact Kept.refl _ _) | (with_reducible assumption) | (rewrite [updateOf_eq]; (with_reducible refine Kept.set_loader ?_ ?h0); (case h0 => exact rfl)) | (extract_lets +onlyGivenNames x; clear_value x) | (with_reducible refine Kept.ite (fun _ => ?_) (fun _ => ?_)) | ((with_reducible apply State.setPart_kept); on_goal 2 => exact rfl) | ((with_reducible apply State.zeroize_kept); on_goal 2 => exact rfl) | ((with_reducible apply State.zeroizeAll_kept); on_goal 2 => exact rfl) | ((with_reducible refine Kept.each ?_ (fun _ _ _ => ?_))) | ((with_reducible refine Kept.when ?_ (fun _ _ => ?_))))

theorem execHoldTimeout_kept {p : Part} {s : State}
    {L₀ t₀} (h₀ : Kept L₀ t₀ s) (hs₀ : sliceSub [.parts, .sends, .links, .free] L₀ = true) :
    Kept L₀ t₀ (outOf s (execHoldTimeout p s)) := by
  refine h₀.step (M := [.parts, .sends, .links, .free]) ?_ hs₀
  clear h₀ hs₀ t₀ L₀
  unfold execHoldTimeout
  repeat' (first | (dsimp -zeta -iota -proj only [outOf_next]) | (with_reducible exact Kept.refl _ _) | (with_reducible assumption) | (extract_lets +onlyGivenNames x; have : x.2 = x.2 := rfl; clear this; subst x) | (extract_lets +onlyGivenNames x; have : x = fun a => x a := rfl; clear this; subst x; beta_reduce) | ((with_reducible apply State.setPart_kept); on_goal 2 => exact rfl) | ((with_reducible apply State.draw_kept); on_goal 2 => exact rfl) | ((with_reducible apply State.sendReply_kept); on_goal 2 => exact rfl) | ((with_reducible refine Kept.each ?_ (fun _ _ _ => ?_))) | ((with_reducible refine Kept.when ?_ (fun _ _ => ?_))))

theorem execHandoffSlotTimeout_kept {p : Part} {s : State}
    {L₀ t₀} (h₀ : Kept L₀ t₀ s) (hs₀ : sliceSub [.parts, .items, .sends, .links, .free] L₀ = true) :
    Kept L₀ t₀ (outOf s (execHandoffSlotTimeout p s)) := by
  refine h₀.step (M := [.parts, .items, .sends, .links, .free]) ?_ hs₀
  clear h₀ hs₀ t₀ L₀
  unfold execHandoffSlotTimeout
  repeat' (first | (dsimp -zeta -iota -proj only [outOf_next]) | (with_reducible exact Kept.refl _ _) | (with_reducible assumption) | (extract_lets +onlyGivenNames x; have : x.2 = x.2 := rfl; clear this; subst x) | (extract_lets +onlyGivenNames x; have : x = fun a => x a := rfl; clear this; subst x; beta_reduce) | ((with_reducible apply State.setPart_kept); on_goal 2 => exact rfl) | ((with_reducible apply State.draw_kept); on_goal 2 => exact rfl) | ((with_reducible apply State.freeCellOf_kept); on_goal 2 => exact rfl) | ((with_reducible apply State.servedDecide_kept); on_goal 2 => exact rfl) | ((with_reducible apply State.sendReply_kept); on_goal 2 => exact rfl) | ((with_reducible refine Kept.each ?_ (fun _ _ _ => ?_))))

theorem execTimeSliceExpiry_kept {r : Fin 129} {s : State}
    {L₀ t₀} (h₀ : Kept L₀ t₀ s) (hs₀ : sliceSub [.turns] L₀ = true) :
    Kept L₀ t₀ (outOf s (execTimeSliceExpiry r s)) := by
  refine h₀.step (M := [.turns]) ?_ hs₀
  clear h₀ hs₀ t₀ L₀
  unfold execTimeSliceExpiry
  repeat' (first | (dsimp -zeta -iota -proj only [outOf_next]) | (with_reducible exact Kept.refl _ _) | (with_reducible assumption) | (rewrite [updateOf_eq]; (with_reducible refine Kept.set_turns ?_ ?h0); (case h0 => exact rfl)) | (extract_lets +onlyGivenNames x; have : x.2 = x.2 := rfl; clear this; subst x) | (extract_lets +onlyGivenNames x; clear_value x) | ((with_reducible refine Kept.when ?_ (fun _ _ => ?_))) | split)

end Sys2Proof.Machine
end

