-- ==== Sys2Proof/Laws/Loader.lean ====
section
/-! SUPPORT. What each operation of Machine/Loader.lean may change (`Kept`): the parts of the state, listed; every memory stays canonical,
and no bit of Cairn is cleared. -/

set_option linter.unusedTactic false
set_option linter.unreachableTactic false

namespace Sys2Proof.Machine

theorem State.headerIn_kept {s : State} {bad : Bool}
    {L₀ t₀} (h₀ : Kept L₀ t₀ s) (hs₀ : sliceSub [.loader, .mbx, .pfMsix, .irqs, .ras, .hostMem] L₀ = true) :
    Kept L₀ t₀ (State.headerIn s bad) := by
  refine h₀.step (M := [.loader, .mbx, .pfMsix, .irqs, .ras, .hostMem]) ?_ hs₀
  clear h₀ hs₀ t₀ L₀
  unfold State.headerIn
  repeat' (first | (with_reducible exact Kept.refl _ _) | (rewrite [updateOf_eq]; (with_reducible refine Kept.set_loader ?_ ?h0); (case h0 => exact rfl)) | (with_reducible refine Kept.ite (fun _ => ?_) (fun _ => ?_)) | ((with_reducible apply State.loadFail_kept); on_goal 2 => exact rfl))

theorem State.beginLoad_kept {s : State}
    {L₀ t₀} (h₀ : Kept L₀ t₀ s) (hs₀ : sliceSub [.loader] L₀ = true) :
    Kept L₀ t₀ (State.beginLoad s) := by
  refine h₀.step (M := [.loader]) ?_ hs₀
  clear h₀ hs₀ t₀ L₀
  unfold State.beginLoad
  repeat' (first | (with_reducible exact Kept.refl _ _) | (rewrite [updateOf_eq]; (with_reducible refine Kept.set_loader ?_ ?h0); (case h0 => exact rfl)) | (extract_lets +onlyGivenNames x; have : x.2 = x.2 := rfl; clear this; subst x) | ((with_reducible apply State.setLoader_kept); on_goal 2 => exact rfl))

theorem State.copyIn_kept {s : State}
    {L₀ t₀} (h₀ : Kept L₀ t₀ s) (hs₀ : sliceSub [.loader] L₀ = true) :
    Kept L₀ t₀ (State.copyIn s) := by
  refine h₀.step (M := [.loader]) ?_ hs₀
  clear h₀ hs₀ t₀ L₀
  unfold State.copyIn
  repeat' (first | (with_reducible exact Kept.refl _ _) | (rewrite [updateOf_eq]; (with_reducible refine Kept.set_loader ?_ ?h0); (case h0 => exact rfl)))

theorem State.stageCRun_kept {s : State}
    {L₀ t₀} (h₀ : Kept L₀ t₀ s) (hs₀ : sliceSub [.loader, .mbx, .pfMsix, .irqs, .ras, .hostMem] L₀ = true) :
    Kept L₀ t₀ (State.stageCRun s).1 := by
  refine h₀.step (M := [.loader, .mbx, .pfMsix, .irqs, .ras, .hostMem]) ?_ hs₀
  clear h₀ hs₀ t₀ L₀
  unfold State.stageCRun
  repeat' (first | (with_reducible exact Kept.refl _ _) | (rewrite [updateOf_eq]; (with_reducible refine Kept.set_loader ?_ ?h0); (case h0 => exact rfl)) | (extract_lets +onlyGivenNames x; have : x.2 = x.2 := rfl; clear this; subst x) | ((with_reducible apply State.loadFail_kept); on_goal 2 => exact rfl) | split)

theorem State.loadRefuse_kept {s : State} {req : List Byte} {err : Nat}
    {L₀ t₀} (h₀ : Kept L₀ t₀ s) (hs₀ : sliceSub [.loader, .mbx, .pfMsix, .irqs, .hostMem, .free] L₀ = true) :
    Kept L₀ t₀ (State.loadRefuse s req err) := by
  refine h₀.step (M := [.loader, .mbx, .pfMsix, .irqs, .hostMem, .free]) ?_ hs₀
  clear h₀ hs₀ t₀ L₀
  unfold State.loadRefuse
  repeat' (first | (with_reducible exact Kept.refl _ _) | (rewrite [updateOf_eq]; (with_reducible refine Kept.set_loader ?_ ?h0); (case h0 => exact rfl)) | ((with_reducible apply State.draw_kept); on_goal 2 => exact rfl) | ((with_reducible apply State.mbxAnswer_kept); on_goal 2 => exact rfl))

theorem execStructLoad_kept {bad : Bool} {s : State}
    {L₀ t₀} (h₀ : Kept L₀ t₀ s) (hs₀ : sliceSub [.loader, .mbx, .pfMsix, .irqs, .ras, .hostMem, .free] L₀ = true) :
    Kept L₀ t₀ (outOf s (execStructLoad bad s)) := by
  refine h₀.step (M := [.loader, .mbx, .pfMsix, .irqs, .ras, .hostMem, .free]) ?_ hs₀
  clear h₀ hs₀ t₀ L₀
  unfold execStructLoad
  repeat' (first | (dsimp -zeta -iota -proj only [outOf_next]) | (with_reducible exact Kept.refl _ _) | (rewrite [updateOf_eq]; (with_reducible refine Kept.set_loader ?_ ?h0); (case h0 => exact rfl)) | (extract_lets +onlyGivenNames x; have : x.2 = x.2 := rfl; clear this; subst x) | (with_reducible refine Kept.ite (fun _ => ?_) (fun _ => ?_)) | ((with_reducible apply State.mbxAnswer_kept); on_goal 2 => exact rfl) | ((with_reducible apply State.loadRefuse_kept); on_goal 2 => exact rfl) | ((with_reducible apply State.mbxStart_kept); on_goal 2 => exact rfl) | ((with_reducible apply State.headerIn_kept); on_goal 2 => exact rfl) | ((with_reducible apply State.beginLoad_kept); on_goal 2 => exact rfl) | ((with_reducible refine Kept.onRequest ?_ (fun _ => ?_))))

theorem State.stageBRun_kept {s : State}
    {L₀ t₀} (h₀ : Kept L₀ t₀ s) (hs₀ : sliceSub [.loader, .mbx, .pfMsix, .irqs, .ras, .hostMem] L₀ = true) :
    Kept L₀ t₀ (State.stageBRun s) := by
  refine h₀.step (M := [.loader, .mbx, .pfMsix, .irqs, .ras, .hostMem]) ?_ hs₀
  clear h₀ hs₀ t₀ L₀
  unfold State.stageBRun
  repeat' (first | (with_reducible exact Kept.refl _ _) | (with_reducible refine Kept.ite (fun _ => ?_) (fun _ => ?_)) | ((with_reducible apply State.loadFail_kept); on_goal 2 => exact rfl) | ((with_reducible apply State.setLoader_kept); on_goal 2 => exact rfl))

theorem State.prepare_kept {s : State}
    {L₀ t₀} (h₀ : Kept L₀ t₀ s) (hs₀ : sliceSub [.quads, .loader, .ret, .parts, .vfs, .irqs, .items, .sends, .trv, .crest, .cornice, .spur, .links] L₀ = true) :
    Kept L₀ t₀ (State.prepare s) := by
  refine h₀.step (M := [.quads, .loader, .ret, .parts, .vfs, .irqs, .items, .sends, .trv, .crest, .cornice, .spur, .links]) ?_ hs₀
  clear h₀ hs₀ t₀ L₀
  unfold State.prepare
  repeat' (first | (with_reducible exact Kept.refl _ _) | (with_reducible assumption) | (rewrite [updateOf_eq]; (with_reducible refine Kept.set_loader_ret ?_ ?h0 ?h1); (case h0 => exact rfl); (case h1 => exact rfl)) | (extract_lets +onlyGivenNames x; have : x.2 = x.2 := rfl; clear this; subst x) | ((with_reducible apply State.setLoader_kept); on_goal 2 => exact rfl) | ((with_reducible apply State.quiesce_kept); on_goal 2 => exact rfl) | ((with_reducible refine Kept.each ?_ (fun _ _ _ => ?_))))

theorem State.stagedNow_kept {s : State}
    {L₀ t₀} (h₀ : Kept L₀ t₀ s) (hs₀ : sliceSub (slicesBut [.pins, .col, .start, .cairn, .lockLoss, .committed, .str, .numVfs, .turns, .nextItem, .nextMid, .dram, .ras, .ports, .linkHoldMs, .replyMs, .pmsg, .laser, .cal, .thm, .flash, .bus, .pending, .free]) L₀ = true) :
    Kept L₀ t₀ (State.stagedNow s) := by
  refine h₀.step (M := (slicesBut [.pins, .col, .start, .cairn, .lockLoss, .committed, .str, .numVfs, .turns, .nextItem, .nextMid, .dram, .ras, .ports, .linkHoldMs, .replyMs, .pmsg, .laser, .cal, .thm, .flash, .bus, .pending, .free])) ?_ hs₀
  clear h₀ hs₀ t₀ L₀
  unfold State.stagedNow
  repeat' (first | (with_reducible exact Kept.refl _ _) | (rewrite [updateOf_eq]; (with_reducible refine Kept.set_loader ?_ ?h0); (case h0 => exact rfl)) | (extract_lets +onlyGivenNames x; have : x.2 = x.2 := rfl; clear this; subst x) | (with_reducible refine Kept.ite (fun _ => ?_) (fun _ => ?_)) | ((with_reducible apply State.setLoader_kept); on_goal 2 => exact rfl) | ((with_reducible apply State.loadReply_kept); on_goal 2 => exact rfl) | ((with_reducible apply State.prepare_kept); on_goal 2 => exact rfl))

theorem execStructLoadStageDone_kept {bad : Bool} {s : State}
    {L₀ t₀} (h₀ : Kept L₀ t₀ s) (hs₀ : sliceSub (slicesBut [.pins, .lockLoss, .committed, .str, .numVfs, .turns, .nextMid, .linkHoldMs, .replyMs, .pmsg, .laser, .thm, .flash, .bus, .pending]) L₀ = true) :
    Kept L₀ t₀ (outOf s (execStructLoadStageDone bad s)) := by
  refine h₀.step (M := (slicesBut [.pins, .lockLoss, .committed, .str, .numVfs, .turns, .nextMid, .linkHoldMs, .replyMs, .pmsg, .laser, .thm, .flash, .bus, .pending])) ?_ hs₀
  clear h₀ hs₀ t₀ L₀
  unfold execStructLoadStageDone
  repeat' (first | (dsimp -zeta -iota -proj only [outOf_next]) | (with_reducible exact Kept.refl _ _) | (with_reducible assumption) | (rewrite [updateOf_eq]; (with_reducible refine Kept.set_loader ?_ ?h0); (case h0 => exact rfl)) | (extract_lets +onlyGivenNames x; have : x.2 = x.2 := rfl; clear this; subst x) | (with_reducible refine Kept.ite (fun _ => ?_) (fun _ => ?_)) | ((with_reducible apply State.setLoader_kept); on_goal 2 => exact rfl) | ((with_reducible apply State.loadFail_kept); on_goal 2 => exact rfl) | ((with_reducible apply State.copyIn_kept); on_goal 2 => exact rfl) | ((with_reducible apply State.stageBRun_kept); on_goal 2 => exact rfl) | ((with_reducible apply State.stageCRun_kept); on_goal 2 => exact rfl) | ((with_reducible apply State.stagedNow_kept); on_goal 2 => exact rfl) | ((with_reducible apply State.deviceFatal_kept); on_goal 2 => exact rfl) | ((with_reducible apply State.log_kept); on_goal 2 => exact rfl) | ((with_reducible refine Kept.when ?_ (fun _ _ => ?_))) | split)

theorem execStructCommit_kept {s : State}
    {L₀ t₀} (h₀ : Kept L₀ t₀ s) (hs₀ : sliceSub (slicesBut [.pins, .col, .start, .cairn, .lockLoss, .committed, .str, .numVfs, .turns, .nextItem, .nextMid, .dram, .ras, .ports, .linkHoldMs, .replyMs, .pmsg, .laser, .cal, .thm, .flash, .bus, .pending]) L₀ = true) :
    Kept L₀ t₀ (outOf s (execStructCommit s)) := by
  refine h₀.step (M := (slicesBut [.pins, .col, .start, .cairn, .lockLoss, .committed, .str, .numVfs, .turns, .nextItem, .nextMid, .dram, .ras, .ports, .linkHoldMs, .replyMs, .pmsg, .laser, .cal, .thm, .flash, .bus, .pending])) ?_ hs₀
  clear h₀ hs₀ t₀ L₀
  unfold execStructCommit
  repeat' (first | (dsimp -zeta -iota -proj only [outOf_next]) | (with_reducible exact Kept.refl _ _) | (rewrite [updateOf_eq]; (with_reducible refine Kept.set_loader ?_ ?h0); (case h0 => exact rfl)) | (extract_lets +onlyGivenNames x; have : x.2 = x.2 := rfl; clear this; subst x) | (with_reducible refine Kept.ite (fun _ => ?_) (fun _ => ?_)) | ((with_reducible apply State.mbxAnswer_kept); on_goal 2 => exact rfl) | ((with_reducible apply State.loadRefuse_kept); on_goal 2 => exact rfl) | ((with_reducible apply State.mbxStart_kept); on_goal 2 => exact rfl) | ((with_reducible apply State.prepare_kept); on_goal 2 => exact rfl) | ((with_reducible refine Kept.onRequest ?_ (fun _ => ?_))))

theorem State.release_kept {s : State}
    {L₀ t₀} (h₀ : Kept L₀ t₀ s) (hs₀ : sliceSub [.loader, .pfMsix, .irqs, .ras] L₀ = true) :
    Kept L₀ t₀ (State.release s) := by
  refine h₀.step (M := [.loader, .pfMsix, .irqs, .ras]) ?_ hs₀
  clear h₀ hs₀ t₀ L₀
  unfold State.release
  repeat' (first | (with_reducible exact Kept.refl _ _) | (rewrite [updateOf_eq]; (with_reducible refine Kept.set_loader ?_ ?h0); (case h0 => exact rfl)) | (extract_lets +onlyGivenNames x; have : x.2 = x.2 := rfl; clear this; subst x) | ((with_reducible apply State.setLoader_kept); on_goal 2 => exact rfl) | ((with_reducible apply State.log_kept); on_goal 2 => exact rfl))

theorem execStructAbort_kept {s : State}
    {L₀ t₀} (h₀ : Kept L₀ t₀ s) (hs₀ : sliceSub [.loader, .mbx, .pfMsix, .irqs, .ras, .hostMem, .free] L₀ = true) :
    Kept L₀ t₀ (outOf s (execStructAbort s)) := by
  refine h₀.step (M := [.loader, .mbx, .pfMsix, .irqs, .ras, .hostMem, .free]) ?_ hs₀
  clear h₀ hs₀ t₀ L₀
  unfold execStructAbort
  repeat' (first | (dsimp -zeta -iota -proj only [outOf_next]) | (with_reducible exact Kept.refl _ _) | (with_reducible refine Kept.ite (fun _ => ?_) (fun _ => ?_)) | ((with_reducible apply State.mbxAnswer_kept); on_goal 2 => exact rfl) | ((with_reducible apply State.loadRefuse_kept); on_goal 2 => exact rfl) | ((with_reducible apply State.release_kept); on_goal 2 => exact rfl) | ((with_reducible refine Kept.onRequest ?_ (fun _ => ?_))))

theorem execStagedHoldExpiry_kept {s : State}
    {L₀ t₀} (h₀ : Kept L₀ t₀ s) (hs₀ : sliceSub [.loader, .pfMsix, .irqs, .ras] L₀ = true) :
    Kept L₀ t₀ (outOf s (execStagedHoldExpiry s)) := by
  refine h₀.step (M := [.loader, .pfMsix, .irqs, .ras]) ?_ hs₀
  clear h₀ hs₀ t₀ L₀
  unfold execStagedHoldExpiry
  repeat' (first | (dsimp -zeta -iota -proj only [outOf_next]) | (with_reducible exact Kept.refl _ _) | (with_reducible assumption) | ((with_reducible apply State.release_kept); on_goal 2 => exact rfl) | ((with_reducible refine Kept.when ?_ (fun _ _ => ?_))))

theorem execStructLoadTimeout_kept {s : State}
    {L₀ t₀} (h₀ : Kept L₀ t₀ s) (hs₀ : sliceSub [.loader, .mbx, .pfMsix, .irqs, .ras, .hostMem] L₀ = true) :
    Kept L₀ t₀ (outOf s (execStructLoadTimeout s)) := by
  refine h₀.step (M := [.loader, .mbx, .pfMsix, .irqs, .ras, .hostMem]) ?_ hs₀
  clear h₀ hs₀ t₀ L₀
  unfold execStructLoadTimeout
  repeat' (first | (dsimp -zeta -iota -proj only [outOf_next]) | (with_reducible exact Kept.refl _ _) | (with_reducible assumption) | (extract_lets +onlyGivenNames x; clear_value x) | ((with_reducible apply State.loadFail_kept); on_goal 2 => exact rfl) | ((with_reducible refine Kept.when ?_ (fun _ _ => ?_))))

theorem State.switchNow_kept {s : State} {t : Structure} {images : List (Bool × Nat × List Byte)}
    {L₀ t₀} (h₀ : Kept L₀ t₀ s) (hs₀ : sliceSub (slicesBut [.pins, .col, .cairn, .lockLoss, .numVfs, .turns, .nextItem, .nextMid, .linkHoldMs, .replyMs, .pmsg, .laser, .thm, .flash, .bus, .pending, .free]) L₀ = true) :
    Kept L₀ t₀ (State.switchNow s t images) := by
  refine h₀.step (M := (slicesBut [.pins, .col, .cairn, .lockLoss, .numVfs, .turns, .nextItem, .nextMid, .linkHoldMs, .replyMs, .pmsg, .laser, .thm, .flash, .bus, .pending, .free])) ?_ hs₀
  clear h₀ hs₀ t₀ L₀
  unfold State.switchNow
  repeat' (first | (with_reducible exact Kept.refl _ _) | (rewrite [updateOf_eq]; (with_reducible refine Kept.set_loader ?_ ?h0); (case h0 => exact rfl)) | (extract_lets +onlyGivenNames x; have : x.2 = x.2 := rfl; clear this; subst x) | (extract_lets +onlyGivenNames x; clear_value x) | ((with_reducible apply State.setLoader_kept); on_goal 2 => exact rfl) | ((with_reducible apply State.loadReply_kept); on_goal 2 => exact rfl) | ((with_reducible apply State.commitNow_kept); on_goal 2 => exact rfl))

theorem execStructSwitch_kept {s : State}
    {L₀ t₀} (h₀ : Kept L₀ t₀ s) (hs₀ : sliceSub (slicesBut [.pins, .col, .cairn, .lockLoss, .numVfs, .turns, .nextItem, .nextMid, .linkHoldMs, .replyMs, .pmsg, .laser, .thm, .flash, .bus, .pending, .free]) L₀ = true) :
    Kept L₀ t₀ (outOf s (execStructSwitch s)) := by
  refine h₀.step (M := (slicesBut [.pins, .col, .cairn, .lockLoss, .numVfs, .turns, .nextItem, .nextMid, .linkHoldMs, .replyMs, .pmsg, .laser, .thm, .flash, .bus, .pending, .free])) ?_ hs₀
  clear h₀ hs₀ t₀ L₀
  unfold execStructSwitch
  repeat' (first | (dsimp -zeta -iota -proj only [outOf_next]) | (with_reducible exact Kept.refl _ _) | (with_reducible assumption) | (extract_lets +onlyGivenNames x; have : x.2 = x.2 := rfl; clear this; subst x) | (with_reducible refine Kept.ite (fun _ => ?_) (fun _ => ?_)) | ((with_reducible apply State.switchNow_kept); on_goal 2 => exact rfl) | ((with_reducible apply State.setPhase_kept); on_goal 2 => exact rfl) | ((with_reducible refine Kept.when ?_ (fun _ _ => ?_))) | split)

end Sys2Proof.Machine
end

