-- ==== Sys2Proof/Laws/Msg.lean ====
section
/-! SUPPORT. What each operation of Machine/Msg.lean may change (`Kept`): the parts of the state, listed; every memory stays canonical,
and no bit of Cairn is cleared. -/

set_option linter.unusedTactic false
set_option linter.unreachableTactic false

namespace Sys2Proof.Machine

theorem execMsgSend_kept {id : Nat} {s : State}
    {L₀ t₀} (h₀ : Kept L₀ t₀ s) (hs₀ : sliceSub [.parts, .vfs, .pfMsix, .irqs, .items, .sends, .nextMid, .dram, .ras, .crest, .links, .hostMem] L₀ = true) :
    Kept L₀ t₀ (outOf s (execMsgSend id s)) := by
  refine h₀.step (M := [.parts, .vfs, .pfMsix, .irqs, .items, .sends, .nextMid, .dram, .ras, .crest, .links, .hostMem]) ?_ hs₀
  clear h₀ hs₀ t₀ L₀
  unfold execMsgSend
  repeat' (first | (dsimp -zeta -iota -proj only [outOf_next]) | (with_reducible exact Kept.refl _ _) | (with_reducible assumption) | (extract_lets +onlyGivenNames x; have : x.2 = x.2 := rfl; clear this; subst x) | (extract_lets +onlyGivenNames x; clear_value x) | (with_reducible refine Kept.ite (fun _ => ?_) (fun _ => ?_)) | ((with_reducible apply State.finish_kept); on_goal 2 => exact rfl) | ((with_reducible apply State.winRead_kept); on_goal 2 => exact rfl) | ((with_reducible apply State.issueSend_kept); on_goal 2 => exact rfl) | ((with_reducible refine Kept.when ?_ (fun _ _ => ?_))) | ((with_reducible refine Kept.withItem ?_ (fun _ => ?_))) | split)

theorem execOutboundAppend_kept {k : Nat} {s : State}
    {L₀ t₀} (h₀ : Kept L₀ t₀ s) (hs₀ : sliceSub [.pfMsix, .irqs, .dram, .ras, .trv] L₀ = true) :
    Kept L₀ t₀ (outOf s (execOutboundAppend k s)) := by
  refine h₀.step (M := [.pfMsix, .irqs, .dram, .ras, .trv]) ?_ hs₀
  clear h₀ hs₀ t₀ L₀
  unfold execOutboundAppend
  repeat' (first | (dsimp -zeta -iota -proj only [outOf_next]) | (with_reducible exact Kept.refl _ _) | (with_reducible assumption) | (rewrite [updateOf_eq]; (with_reducible refine Kept.set_trv ?_ ?h0); (case h0 => exact rfl)) | (extract_lets +onlyGivenNames x; have : x.2 = x.2 := rfl; clear this; subst x) | (extract_lets +onlyGivenNames x; have : x = fun a => x a := rfl; clear this; subst x; beta_reduce) | (extract_lets +onlyGivenNames x; clear_value x) | (with_reducible refine Kept.ite (fun _ => ?_) (fun _ => ?_)) | ((with_reducible apply State.trvCount_kept); on_goal 2 => exact rfl) | ((with_reducible apply State.setOut_kept); on_goal 2 => exact rfl) | ((with_reducible apply State.append_kept); on_goal 2 => exact rfl) | ((with_reducible refine Kept.when ?_ (fun _ _ => ?_))) | split)

theorem execSendRecord_kept {p : Part} {s : State}
    {L₀ t₀} (h₀ : Kept L₀ t₀ s) (hs₀ : sliceSub [.parts, .vfs, .pfMsix, .irqs, .items, .sends, .nextMid, .dram, .ras, .crest, .spur, .links, .hostMem] L₀ = true) :
    Kept L₀ t₀ (outOf s (execSendRecord p s)) := by
  refine h₀.step (M := [.parts, .vfs, .pfMsix, .irqs, .items, .sends, .nextMid, .dram, .ras, .crest, .spur, .links, .hostMem]) ?_ hs₀
  clear h₀ hs₀ t₀ L₀
  unfold execSendRecord
  repeat' (first | (dsimp -zeta -iota -proj only [outOf_next]) | (with_reducible exact Kept.refl _ _) | (with_reducible assumption) | (extract_lets +onlyGivenNames x; have : x.2 = x.2 := rfl; clear this; subst x) | (extract_lets +onlyGivenNames x; have : x = fun a => x a := rfl; clear this; subst x; beta_reduce) | (extract_lets +onlyGivenNames x; clear_value x) | (with_reducible refine Kept.ite (fun _ => ?_) (fun _ => ?_)) | ((with_reducible apply State.setPart_kept); on_goal 2 => exact rfl) | ((with_reducible apply State.sendDone_kept); on_goal 2 => exact rfl) | ((with_reducible apply State.spurFault_kept); on_goal 2 => exact rfl) | ((with_reducible apply State.winRead_kept); on_goal 2 => exact rfl) | ((with_reducible apply State.setItem_kept); on_goal 2 => exact rfl) | ((with_reducible apply State.issueSend_kept); on_goal 2 => exact rfl) | ((with_reducible refine Kept.when ?_ (fun _ _ => ?_))) | split)

theorem execHandoffArrival_kept {p : Part} {s : State}
    {L₀ t₀} (h₀ : Kept L₀ t₀ s) (hs₀ : sliceSub [.parts, .pfMsix, .irqs, .items, .nextItem, .sends, .dram, .ras, .links, .free] L₀ = true) :
    Kept L₀ t₀ (outOf s (execHandoffArrival p s)) := by
  refine h₀.step (M := [.parts, .pfMsix, .irqs, .items, .nextItem, .sends, .dram, .ras, .links, .free]) ?_ hs₀
  clear h₀ hs₀ t₀ L₀
  unfold execHandoffArrival
  repeat' (first | (dsimp -zeta -iota -proj only [outOf_next]) | (with_reducible exact Kept.refl _ _) | ((with_reducible apply State.takeRequest_kept); on_goal 2 => exact rfl) | ((with_reducible apply State.setPart_kept); on_goal 2 => exact rfl) | split)

theorem execHandoffReply_kept {p : Part} {s : State}
    {L₀ t₀} (h₀ : Kept L₀ t₀ s) (hs₀ : sliceSub [.parts, .vfs, .pfMsix, .irqs, .items, .sends, .dram, .ras, .trv, .crest, .pmsg, .hostMem] L₀ = true) :
    Kept L₀ t₀ (outOf s (execHandoffReply p s)) := by
  refine h₀.step (M := [.parts, .vfs, .pfMsix, .irqs, .items, .sends, .dram, .ras, .trv, .crest, .pmsg, .hostMem]) ?_ hs₀
  clear h₀ hs₀ t₀ L₀
  unfold execHandoffReply
  repeat' (first | (dsimp -zeta -iota -proj only [outOf_next]) | (with_reducible exact Kept.refl _ _) | (rewrite [updateOf_eq]; (with_reducible refine Kept.set_trv ?_ ?h0); (case h0 => exact rfl)) | (extract_lets +onlyGivenNames x; have : x.2 = x.2 := rfl; clear this; subst x) | (extract_lets +onlyGivenNames x; clear_value x) | (with_reducible refine Kept.ite (fun _ => ?_) (fun _ => ?_)) | ((with_reducible apply State.setPart_kept); on_goal 2 => exact rfl) | ((with_reducible apply State.discarded_kept); on_goal 2 => exact rfl) | ((with_reducible apply State.countLate_kept); on_goal 2 => exact rfl) | ((with_reducible apply State.trvCount_kept); on_goal 2 => exact rfl) | ((with_reducible apply State.sendDone_kept); on_goal 2 => exact rfl) | ((with_reducible apply State.winWrite_kept); on_goal 2 => exact rfl) | split)

theorem execReplyTimeout_kept {p : Part} {tag : Nat} {s : State}
    {L₀ t₀} (h₀ : Kept L₀ t₀ s) (hs₀ : sliceSub [.vfs, .pfMsix, .irqs, .items, .sends, .dram, .ras, .crest, .pmsg, .hostMem] L₀ = true) :
    Kept L₀ t₀ (outOf s (execReplyTimeout p tag s)) := by
  refine h₀.step (M := [.vfs, .pfMsix, .irqs, .items, .sends, .dram, .ras, .crest, .pmsg, .hostMem]) ?_ hs₀
  clear h₀ hs₀ t₀ L₀
  unfold execReplyTimeout
  repeat' (first | (dsimp -zeta -iota -proj only [outOf_next]) | (with_reducible exact Kept.refl _ _) | (with_reducible assumption) | ((with_reducible apply State.sendDone_kept); on_goal 2 => exact rfl) | ((with_reducible apply State.countTimeout_kept); on_goal 2 => exact rfl) | ((with_reducible refine Kept.when ?_ (fun _ _ => ?_))) | split)

end Sys2Proof.Machine
end

