-- ==== Sys2Proof/Laws/Optics.lean ====
section
/-! SUPPORT. What each operation of Machine/Optics.lean may change (`Kept`): the parts of the state, listed; every memory stays canonical,
and no bit of Cairn is cleared. -/

set_option linter.unusedTactic false
set_option linter.unreachableTactic false

namespace Sys2Proof.Machine

theorem State.adcRequest_kept {s : State} {p : Port} {v : Nat}
    {L₀ t₀} (h₀ : Kept L₀ t₀ s) (hs₀ : sliceSub [.ports] L₀ = true) :
    Kept L₀ t₀ (State.adcRequest s p v) := by
  refine h₀.step (M := [.ports]) ?_ hs₀
  clear h₀ hs₀ t₀ L₀
  unfold State.adcRequest
  repeat' (first | (with_reducible exact Kept.refl _ _) | (with_reducible refine Kept.ite (fun _ => ?_) (fun _ => ?_)) | ((with_reducible apply State.setPort_kept); on_goal 2 => exact rfl))

theorem State.ringUnlock_kept {s : State} {p : Port} {k : Fin 36}
    {L₀ t₀} (h₀ : Kept L₀ t₀ s) (hs₀ : sliceSub [.pfMsix, .irqs, .sends, .ras, .ports, .links, .cal] L₀ = true) :
    Kept L₀ t₀ (State.ringUnlock s p k) := by
  refine h₀.step (M := [.pfMsix, .irqs, .sends, .ras, .ports, .links, .cal]) ?_ hs₀
  clear h₀ hs₀ t₀ L₀
  unfold State.ringUnlock
  repeat' (first | (with_reducible exact Kept.refl _ _) | (extract_lets +onlyGivenNames x; have : x.2 = x.2 := rfl; clear this; subst x) | (extract_lets +onlyGivenNames x; clear_value x) | (with_reducible refine Kept.ite (fun _ => ?_) (fun _ => ?_)) | ((with_reducible apply State.setRing_kept); on_goal 2 => exact rfl) | ((with_reducible apply State.setPort_kept); on_goal 2 => exact rfl) | ((with_reducible apply State.log_kept); on_goal 2 => exact rfl) | ((with_reducible apply State.calRingOff_kept); on_goal 2 => exact rfl) | ((with_reducible apply State.acqFail_kept); on_goal 2 => exact rfl) | ((with_reducible apply State.posFault_kept); on_goal 2 => exact rfl) | split)

theorem State.txRested_kept {s : State} {p : Port}
    {L₀ t₀} (h₀ : Kept L₀ t₀ s) (hs₀ : sliceSub [.pfMsix, .irqs, .sends, .ras, .ports, .links, .cal] L₀ = true) :
    Kept L₀ t₀ (State.txRested s p) := by
  refine h₀.step (M := [.pfMsix, .irqs, .sends, .ras, .ports, .links, .cal]) ?_ hs₀
  clear h₀ hs₀ t₀ L₀
  unfold State.txRested
  repeat' (first | (with_reducible exact Kept.refl _ _) | (with_reducible assumption) | (with_reducible refine Kept.ite (fun _ => ?_) (fun _ => ?_)) | ((with_reducible apply State.becomeWarm_kept); on_goal 2 => exact rfl) | ((with_reducible refine Kept.each ?_ (fun _ _ _ => ?_))))

theorem State.slotRested_kept {s : State} {p : Port}
    {L₀ t₀} (h₀ : Kept L₀ t₀ s) (hs₀ : sliceSub [.pfMsix, .irqs, .sends, .ras, .ports, .links, .cal] L₀ = true) :
    Kept L₀ t₀ (State.slotRested s p) := by
  refine h₀.step (M := [.pfMsix, .irqs, .sends, .ras, .ports, .links, .cal]) ?_ hs₀
  clear h₀ hs₀ t₀ L₀
  unfold State.slotRested
  repeat' (first | (with_reducible exact Kept.refl _ _) | (with_reducible refine Kept.ite (fun _ => ?_) (fun _ => ?_)) | ((with_reducible apply State.becomeWarm_kept); on_goal 2 => exact rfl) | ((with_reducible apply State.slotOver_kept); on_goal 2 => exact rfl) | split)

theorem State.slotEnter_kept {s : State} {p : Port}
    {L₀ t₀} (h₀ : Kept L₀ t₀ s) (hs₀ : sliceSub [.ports, .links] L₀ = true) :
    Kept L₀ t₀ (State.slotEnter s p) := by
  refine h₀.step (M := [.ports, .links]) ?_ hs₀
  clear h₀ hs₀ t₀ L₀
  unfold State.slotEnter
  repeat' (first | (with_reducible exact Kept.refl _ _) | (extract_lets +onlyGivenNames x; have : x.2 = x.2 := rfl; clear this; subst x) | (extract_lets +onlyGivenNames x; clear_value x) | (with_reducible refine Kept.ite (fun _ => ?_) (fun _ => ?_)) | ((with_reducible apply State.setPos_kept); on_goal 2 => exact rfl) | ((with_reducible apply State.setLink_kept); on_goal 2 => exact rfl) | ((with_reducible apply State.setRing_kept); on_goal 2 => exact rfl) | ((with_reducible apply State.startAcq_kept); on_goal 2 => exact rfl) | split)

theorem State.seatCheck_kept {s : State} {p : Port} {tapFresh : Bool}
    {L₀ t₀} (h₀ : Kept L₀ t₀ s) (hs₀ : sliceSub [.col, .ports, .laser] L₀ = true) :
    Kept L₀ t₀ (State.seatCheck s p tapFresh) := by
  refine h₀.step (M := [.col, .ports, .laser]) ?_ hs₀
  clear h₀ hs₀ t₀ L₀
  unfold State.seatCheck
  repeat' (first | (with_reducible exact Kept.refl _ _) | (with_reducible assumption) | (extract_lets +onlyGivenNames x; have : x.2 = x.2 := rfl; clear this; subst x) | (extract_lets +onlyGivenNames x; clear_value x) | (with_reducible refine Kept.ite (fun _ => ?_) (fun _ => ?_)) | ((with_reducible apply State.setPort_kept); on_goal 2 => exact rfl) | ((with_reducible apply State.seatFault_kept); on_goal 2 => exact rfl) | ((with_reducible refine Kept.each ?_ (fun _ _ _ => ?_))))

theorem State.portFollow_kept {s : State} {p : Port}
    {L₀ t₀} (h₀ : Kept L₀ t₀ s) (hs₀ : sliceSub [.mbx, .pfMsix, .irqs, .sends, .ras, .ports, .links, .cal, .hostMem] L₀ = true) :
    Kept L₀ t₀ (State.portFollow s p) := by
  refine h₀.step (M := [.mbx, .pfMsix, .irqs, .sends, .ras, .ports, .links, .cal, .hostMem]) ?_ hs₀
  clear h₀ hs₀ t₀ L₀
  unfold State.portFollow
  repeat' (first | (with_reducible exact Kept.refl _ _) | (extract_lets +onlyGivenNames x; have : x.2 = x.2 := rfl; clear this; subst x) | (with_reducible refine Kept.ite (fun _ => ?_) (fun _ => ?_)) | ((with_reducible apply State.portDark_kept); on_goal 2 => exact rfl) | ((with_reducible apply State.linkRetrain_kept); on_goal 2 => exact rfl) | ((with_reducible apply State.linkDown_kept); on_goal 2 => exact rfl) | ((with_reducible apply State.portUp_kept); on_goal 2 => exact rfl) | ((with_reducible apply State.portTry_kept); on_goal 2 => exact rfl) | split)

theorem execRingFrame_kept {p : Port} {codes : List Nat} {s : State}
    {L₀ t₀} (h₀ : Kept L₀ t₀ s) (hs₀ : sliceSub [.col, .start, .mbx, .pfMsix, .irqs, .sends, .ras, .ports, .links, .laser, .cal, .hostMem, .free] L₀ = true) :
    Kept L₀ t₀ (outOf s (execRingFrame p codes s)) := by
  refine h₀.step (M := [.col, .start, .mbx, .pfMsix, .irqs, .sends, .ras, .ports, .links, .laser, .cal, .hostMem, .free]) ?_ hs₀
  clear h₀ hs₀ t₀ L₀
  unfold execRingFrame
  repeat' (first | (dsimp -zeta -iota -proj only [outOf_next]) | (with_reducible exact Kept.refl _ _) | (with_reducible assumption) | (extract_lets +onlyGivenNames x; have : x.2 = x.2 := rfl; clear this; subst x) | (with_reducible refine Kept.ite (fun _ => ?_) (fun _ => ?_)) | ((with_reducible apply State.setPort_kept); on_goal 2 => exact rfl) | ((with_reducible apply State.calFrame_kept); on_goal 2 => exact rfl) | ((with_reducible apply State.acqFrames_kept); on_goal 2 => exact rfl) | ((with_reducible apply State.ringUnlock_kept); on_goal 2 => exact rfl) | ((with_reducible apply State.txRested_kept); on_goal 2 => exact rfl) | ((with_reducible apply State.slotRested_kept); on_goal 2 => exact rfl) | ((with_reducible apply State.slotEnter_kept); on_goal 2 => exact rfl) | ((with_reducible apply State.seatCheck_kept); on_goal 2 => exact rfl) | ((with_reducible apply State.seatRetry_kept); on_goal 2 => exact rfl) | ((with_reducible apply State.portFollow_kept); on_goal 2 => exact rfl) | ((with_reducible refine Kept.each ?_ (fun _ _ _ => ?_))) | ((with_reducible refine Kept.when ?_ (fun _ _ => ?_))))

theorem execAdcRequest_kept {p : Port} {val : W32} {s : State}
    {L₀ t₀} (h₀ : Kept L₀ t₀ s) (hs₀ : sliceSub [.ports] L₀ = true) :
    Kept L₀ t₀ (outOf s (execAdcRequest p val s)) := by
  refine h₀.step (M := [.ports]) ?_ hs₀
  clear h₀ hs₀ t₀ L₀
  unfold execAdcRequest
  repeat' (first | (dsimp -zeta -iota -proj only [outOf_next]) | (with_reducible exact Kept.refl _ _) | (with_reducible assumption) | ((with_reducible apply State.adcRequest_kept); on_goal 2 => exact rfl) | ((with_reducible refine Kept.when ?_ (fun _ _ => ?_))))

theorem State.rxRetrain_kept {s : State} {p : Port} {g : Pos}
    {L₀ t₀} (h₀ : Kept L₀ t₀ s) (hs₀ : sliceSub [.ports] L₀ = true) :
    Kept L₀ t₀ (State.rxRetrain s p g) := by
  refine h₀.step (M := [.ports]) ?_ hs₀
  clear h₀ hs₀ t₀ L₀
  unfold State.rxRetrain
  repeat' (first | (with_reducible exact Kept.refl _ _) | ((with_reducible apply State.setPort_kept); on_goal 2 => exact rfl) | ((with_reducible apply State.setPos_kept); on_goal 2 => exact rfl))

theorem State.leavePos_kept {s : State} {p : Port} {rx : Bool} {g : Pos} {cause : Nat}
    {L₀ t₀} (h₀ : Kept L₀ t₀ s) (hs₀ : sliceSub [.pfMsix, .irqs, .ras, .ports, .links] L₀ = true) :
    Kept L₀ t₀ (State.leavePos s p rx g cause) := by
  refine h₀.step (M := [.pfMsix, .irqs, .ras, .ports, .links]) ?_ hs₀
  clear h₀ hs₀ t₀ L₀
  unfold State.leavePos
  repeat' (first | (with_reducible exact Kept.refl _ _) | (with_reducible refine Kept.ite (fun _ => ?_) (fun _ => ?_)) | ((with_reducible apply State.rxRetrain_kept); on_goal 2 => exact rfl) | ((with_reducible apply State.setPort_kept); on_goal 2 => exact rfl) | ((with_reducible apply State.setPos_kept); on_goal 2 => exact rfl) | ((with_reducible apply State.slotEnter_kept); on_goal 2 => exact rfl) | ((with_reducible apply State.setFault_kept); on_goal 2 => exact rfl))

theorem State.moveDone_kept {s : State} {p : Port} {rx : Bool} {m : LaneMove}
    {L₀ t₀} (h₀ : Kept L₀ t₀ s) (hs₀ : sliceSub [.pfMsix, .irqs, .ras, .ports, .links] L₀ = true) :
    Kept L₀ t₀ (State.moveDone s p rx m) := by
  refine h₀.step (M := [.pfMsix, .irqs, .ras, .ports, .links]) ?_ hs₀
  clear h₀ hs₀ t₀ L₀
  unfold State.moveDone
  repeat' (first | (with_reducible exact Kept.refl _ _) | (extract_lets +onlyGivenNames x; have : x.2 = x.2 := rfl; clear this; subst x) | ((with_reducible apply State.setPort_kept); on_goal 2 => exact rfl) | ((with_reducible apply State.leavePos_kept); on_goal 2 => exact rfl))

theorem execLaneMoveSwitch_kept {p : Port} {rx : Bool} {s : State}
    {L₀ t₀} (h₀ : Kept L₀ t₀ s) (hs₀ : sliceSub [.mbx, .pfMsix, .irqs, .ras, .ports, .links, .cal, .hostMem] L₀ = true) :
    Kept L₀ t₀ (outOf s (execLaneMoveSwitch p rx s)) := by
  refine h₀.step (M := [.mbx, .pfMsix, .irqs, .ras, .ports, .links, .cal, .hostMem]) ?_ hs₀
  clear h₀ hs₀ t₀ L₀
  unfold execLaneMoveSwitch
  repeat' (first | (dsimp -zeta -iota -proj only [outOf_next]) | (with_reducible exact Kept.refl _ _) | (extract_lets +onlyGivenNames x; have : x.2 = x.2 := rfl; clear this; subst x) | (with_reducible refine Kept.ite (fun _ => ?_) (fun _ => ?_)) | ((with_reducible apply State.moveDone_kept); on_goal 2 => exact rfl) | ((with_reducible apply State.dirRetrain_kept); on_goal 2 => exact rfl) | split)

theorem State.aligned_kept {s : State} {p : Port} {g : Pos} {h : List Byte}
    {L₀ t₀} (h₀ : Kept L₀ t₀ s) (hs₀ : sliceSub [.pfMsix, .irqs, .sends, .ras, .ports, .links, .cal] L₀ = true) :
    Kept L₀ t₀ (State.aligned s p g h) := by
  refine h₀.step (M := [.pfMsix, .irqs, .sends, .ras, .ports, .links, .cal]) ?_ hs₀
  clear h₀ hs₀ t₀ L₀
  unfold State.aligned
  repeat' (first | (with_reducible exact Kept.refl _ _) | (extract_lets +onlyGivenNames x; have : x.2 = x.2 := rfl; clear this; subst x) | (extract_lets +onlyGivenNames x; clear_value x) | (with_reducible refine Kept.ite (fun _ => ?_) (fun _ => ?_)) | ((with_reducible apply State.acqDone_kept); on_goal 2 => exact rfl) | ((with_reducible apply State.setPort_kept); on_goal 2 => exact rfl) | ((with_reducible apply State.becomeWarm_kept); on_goal 2 => exact rfl) | ((with_reducible apply State.portUp_kept); on_goal 2 => exact rfl) | ((with_reducible apply State.slotOver_kept); on_goal 2 => exact rfl) | split)

theorem execFrameAligned_kept {p : Port} {g : Pos} {hdrs : List (List Byte)} {s : State}
    {L₀ t₀} (h₀ : Kept L₀ t₀ s) (hs₀ : sliceSub [.pfMsix, .irqs, .sends, .ras, .ports, .links, .cal] L₀ = true) :
    Kept L₀ t₀ (outOf s (execFrameAligned p g hdrs s)) := by
  refine h₀.step (M := [.pfMsix, .irqs, .sends, .ras, .ports, .links, .cal]) ?_ hs₀
  clear h₀ hs₀ t₀ L₀
  unfold execFrameAligned
  repeat' (first | (dsimp -zeta -iota -proj only [outOf_next]) | (with_reducible exact Kept.refl _ _) | (with_reducible assumption) | (extract_lets +onlyGivenNames x; have : x.2 = x.2 := rfl; clear this; subst x) | (extract_lets +onlyGivenNames x; clear_value x) | (with_reducible refine Kept.ite (fun _ => ?_) (fun _ => ?_)) | ((with_reducible apply State.setPort_kept); on_goal 2 => exact rfl) | ((with_reducible apply State.setRing_kept); on_goal 2 => exact rfl) | ((with_reducible apply State.acqFail_kept); on_goal 2 => exact rfl) | ((with_reducible apply State.posFault_kept); on_goal 2 => exact rfl) | ((with_reducible apply State.aligned_kept); on_goal 2 => exact rfl) | ((with_reducible refine Kept.when ?_ (fun _ _ => ?_))) | split)

theorem execTrackerDoubleStep_kept {p : Port} {g : Pos} {s : State}
    {L₀ t₀} (h₀ : Kept L₀ t₀ s) (hs₀ : sliceSub [.pfMsix, .irqs, .sends, .ras, .ports, .links, .cal] L₀ = true) :
    Kept L₀ t₀ (outOf s (execTrackerDoubleStep p g s)) := by
  refine h₀.step (M := [.pfMsix, .irqs, .sends, .ras, .ports, .links, .cal]) ?_ hs₀
  clear h₀ hs₀ t₀ L₀
  unfold execTrackerDoubleStep
  repeat' (first | (dsimp -zeta -iota -proj only [outOf_next]) | (with_reducible exact Kept.refl _ _) | (with_reducible assumption) | (extract_lets +onlyGivenNames x; have : x.2 = x.2 := rfl; clear this; subst x) | (extract_lets +onlyGivenNames x; clear_value x) | (with_reducible refine Kept.ite (fun _ => ?_) (fun _ => ?_)) | ((with_reducible apply State.setPort_kept); on_goal 2 => exact rfl) | ((with_reducible apply State.rxRetrain_kept); on_goal 2 => exact rfl) | ((with_reducible apply State.posFault_kept); on_goal 2 => exact rfl) | ((with_reducible refine Kept.when ?_ (fun _ _ => ?_))))

theorem execPositionRetrainTimeout_kept {p : Port} {g : Pos} {s : State}
    {L₀ t₀} (h₀ : Kept L₀ t₀ s) (hs₀ : sliceSub [.pfMsix, .irqs, .ras, .ports] L₀ = true) :
    Kept L₀ t₀ (outOf s (execPositionRetrainTimeout p g s)) := by
  refine h₀.step (M := [.pfMsix, .irqs, .ras, .ports]) ?_ hs₀
  clear h₀ hs₀ t₀ L₀
  unfold execPositionRetrainTimeout
  repeat' (first | (dsimp -zeta -iota -proj only [outOf_next]) | (with_reducible exact Kept.refl _ _) | (with_reducible assumption) | ((with_reducible apply State.setFault_kept); on_goal 2 => exact rfl) | ((with_reducible apply State.setPort_kept); on_goal 2 => exact rfl) | ((with_reducible refine Kept.when ?_ (fun _ _ => ?_))) | split)

theorem execDirectionRetrain_kept {p : Port} {rx : Bool} {s : State}
    {L₀ t₀} (h₀ : Kept L₀ t₀ s) (hs₀ : sliceSub [.mbx, .pfMsix, .irqs, .ras, .ports, .links, .cal, .hostMem] L₀ = true) :
    Kept L₀ t₀ (outOf s (execDirectionRetrain p rx s)) := by
  refine h₀.step (M := [.mbx, .pfMsix, .irqs, .ras, .ports, .links, .cal, .hostMem]) ?_ hs₀
  clear h₀ hs₀ t₀ L₀
  unfold execDirectionRetrain
  repeat' (first | (dsimp -zeta -iota -proj only [outOf_next]) | (with_reducible exact Kept.refl _ _) | (with_reducible assumption) | (extract_lets +onlyGivenNames x; have : x.2 = x.2 := rfl; clear this; subst x) | (extract_lets +onlyGivenNames x; clear_value x) | ((with_reducible apply State.dirRetrain_kept); on_goal 2 => exact rfl) | ((with_reducible refine Kept.when ?_ (fun _ _ => ?_))))

theorem execLinkPllLockLost_kept {p : Port} {s : State}
    {L₀ t₀} (h₀ : Kept L₀ t₀ s) (hs₀ : sliceSub [.mbx, .pfMsix, .irqs, .ras, .ports, .links, .cal, .hostMem] L₀ = true) :
    Kept L₀ t₀ (outOf s (execLinkPllLockLost p s)) := by
  refine h₀.step (M := [.mbx, .pfMsix, .irqs, .ras, .ports, .links, .cal, .hostMem]) ?_ hs₀
  clear h₀ hs₀ t₀ L₀
  unfold execLinkPllLockLost
  repeat' (first | (dsimp -zeta -iota -proj only [outOf_next]) | (with_reducible exact Kept.refl _ _) | (with_reducible assumption) | (extract_lets +onlyGivenNames x; have : x.2 = x.2 := rfl; clear this; subst x) | ((with_reducible apply State.portDark_kept); on_goal 2 => exact rfl) | ((with_reducible apply State.setPort_kept); on_goal 2 => exact rfl) | ((with_reducible apply State.setLink_kept); on_goal 2 => exact rfl) | ((with_reducible apply State.linkRetrain_kept); on_goal 2 => exact rfl) | ((with_reducible apply State.linkDown_kept); on_goal 2 => exact rfl) | ((with_reducible refine Kept.when ?_ (fun _ _ => ?_))) | split)

theorem execLinkPllRelockDone_kept {p : Port} {ok : Bool} {s : State}
    {L₀ t₀} (h₀ : Kept L₀ t₀ s) (hs₀ : sliceSub [.mbx, .pfMsix, .irqs, .ras, .ports, .links, .cal, .hostMem] L₀ = true) :
    Kept L₀ t₀ (outOf s (execLinkPllRelockDone p ok s)) := by
  refine h₀.step (M := [.mbx, .pfMsix, .irqs, .ras, .ports, .links, .cal, .hostMem]) ?_ hs₀
  clear h₀ hs₀ t₀ L₀
  unfold execLinkPllRelockDone
  repeat' (first | (dsimp -zeta -iota -proj only [outOf_next]) | (with_reducible exact Kept.refl _ _) | (with_reducible assumption) | (extract_lets +onlyGivenNames x; have : x.2 = x.2 := rfl; clear this; subst x) | (with_reducible refine Kept.ite (fun _ => ?_) (fun _ => ?_)) | ((with_reducible apply State.setPort_kept); on_goal 2 => exact rfl) | ((with_reducible apply State.portTry_kept); on_goal 2 => exact rfl) | ((with_reducible apply State.linkLeave_kept); on_goal 2 => exact rfl) | ((with_reducible apply State.log_kept); on_goal 2 => exact rfl) | ((with_reducible refine Kept.when ?_ (fun _ _ => ?_))))

theorem execLinkPllLocked_kept {p : Port} {s : State}
    {L₀ t₀} (h₀ : Kept L₀ t₀ s) (hs₀ : sliceSub [.ports] L₀ = true) :
    Kept L₀ t₀ (outOf s (execLinkPllLocked p s)) := by
  refine h₀.step (M := [.ports]) ?_ hs₀
  clear h₀ hs₀ t₀ L₀
  unfold execLinkPllLocked
  repeat' (first | (dsimp -zeta -iota -proj only [outOf_next]) | (with_reducible exact Kept.refl _ _) | (with_reducible assumption) | (extract_lets +onlyGivenNames x; have : x.2 = x.2 := rfl; clear this; subst x) | ((with_reducible apply State.portTry_kept); on_goal 2 => exact rfl) | ((with_reducible apply State.setPort_kept); on_goal 2 => exact rfl) | ((with_reducible refine Kept.when ?_ (fun _ _ => ?_))))

end Sys2Proof.Machine
end

