-- ==== Sys2Proof/Laws/Ras.lean ====
section
/-! SUPPORT. What each operation of Machine/Ras.lean may change (`Kept`): the parts of the state, listed; every memory stays canonical,
and no bit of Cairn is cleared. -/

set_option linter.unusedTactic false
set_option linter.unreachableTactic false

namespace Sys2Proof.Machine

theorem State.sysPllLost_kept {s : State}
    {L₀ t₀} (h₀ : Kept L₀ t₀ s) (hs₀ : sliceSub (slicesBut [.pending]) L₀ = true) :
    Kept L₀ t₀ (State.sysPllLost s) := by
  refine h₀.step (M := (slicesBut [.pending])) ?_ hs₀
  clear h₀ hs₀ t₀ L₀
  unfold State.sysPllLost
  repeat' (first | (with_reducible exact Kept.refl _ _) | (with_reducible refine Kept.ite (fun _ => ?_) (fun _ => ?_)) | ((with_reducible apply State.cutNow_kept); on_goal 2 => exact rfl) | ((with_reducible apply State.setCause_kept); on_goal 2 => exact rfl) | ((with_reducible apply State.log_kept); on_goal 2 => exact rfl) | ((with_reducible apply State.countLock_kept); on_goal 2 => exact rfl))

theorem State.watchdogFatal_kept {s : State}
    {L₀ t₀} (h₀ : Kept L₀ t₀ s) (hs₀ : sliceSub (slicesBut [.pins, .lockLoss, .committed, .str, .ret, .numVfs, .turns, .nextMid, .linkHoldMs, .replyMs, .pmsg, .laser, .thm, .flash, .bus, .pending]) L₀ = true) :
    Kept L₀ t₀ (State.watchdogFatal s) := by
  refine h₀.step (M := (slicesBut [.pins, .lockLoss, .committed, .str, .ret, .numVfs, .turns, .nextMid, .linkHoldMs, .replyMs, .pmsg, .laser, .thm, .flash, .bus, .pending])) ?_ hs₀
  clear h₀ hs₀ t₀ L₀
  unfold State.watchdogFatal
  repeat' (first | (with_reducible exact Kept.refl _ _) | (with_reducible refine Kept.ite (fun _ => ?_) (fun _ => ?_)) | ((with_reducible apply State.deviceFatal_kept); on_goal 2 => exact rfl) | ((with_reducible apply State.log_kept); on_goal 2 => exact rfl))

theorem execDeviceFatal_kept {c : FatalCause} {s : State}
    {L₀ t₀} (h₀ : Kept L₀ t₀ s) (hs₀ : sliceSub (slicesBut [.pending]) L₀ = true) :
    Kept L₀ t₀ (outOf s (execDeviceFatal c s)) := by
  refine h₀.step (M := (slicesBut [.pending])) ?_ hs₀
  clear h₀ hs₀ t₀ L₀
  unfold execDeviceFatal
  repeat' (first | (dsimp -zeta -iota -proj only [outOf_next]) | (with_reducible exact Kept.refl _ _) | (with_reducible assumption) | (rewrite [updateOf_eq]; (with_reducible refine Kept.set_start ?_ ?h0); (case h0 => exact rfl)) | (extract_lets +onlyGivenNames x; have : x.2 = x.2 := rfl; clear this; subst x) | ((with_reducible apply State.sysPllLost_kept); on_goal 2 => exact rfl) | ((with_reducible apply State.log_kept); on_goal 2 => exact rfl) | ((with_reducible apply State.countLock_kept); on_goal 2 => exact rfl) | ((with_reducible apply State.deviceFatal_kept); on_goal 2 => exact rfl) | ((with_reducible apply State.watchdogFatal_kept); on_goal 2 => exact rfl) | ((with_reducible refine Kept.when ?_ (fun _ _ => ?_))) | split)

theorem execMgmtWatchdogExpiry_kept {s : State}
    {L₀ t₀} (h₀ : Kept L₀ t₀ s) (hs₀ : sliceSub (slicesBut [.pins, .lockLoss, .committed, .str, .ret, .numVfs, .turns, .nextMid, .linkHoldMs, .replyMs, .pmsg, .laser, .thm, .flash, .bus, .pending]) L₀ = true) :
    Kept L₀ t₀ (outOf s (execMgmtWatchdogExpiry s)) := by
  refine h₀.step (M := (slicesBut [.pins, .lockLoss, .committed, .str, .ret, .numVfs, .turns, .nextMid, .linkHoldMs, .replyMs, .pmsg, .laser, .thm, .flash, .bus, .pending])) ?_ hs₀
  clear h₀ hs₀ t₀ L₀
  unfold execMgmtWatchdogExpiry
  repeat' (first | (dsimp -zeta -iota -proj only [outOf_next]) | (with_reducible exact Kept.refl _ _) | ((with_reducible apply State.watchdogFatal_kept); on_goal 2 => exact rfl))

end Sys2Proof.Machine
end

