-- ==== Sys2Proof/Laws/Thermal.lean ====
section
/-! SUPPORT. What each operation of Machine/Thermal.lean may change (`Kept`): the parts of the state, listed; every memory stays canonical,
and no bit of Cairn is cleared. -/

set_option linter.unusedTactic false
set_option linter.unreachableTactic false

namespace Sys2Proof.Machine

theorem State.thmReqWrite_kept {s : State} {v : Nat}
    {L₀ t₀} (h₀ : Kept L₀ t₀ s) (hs₀ : sliceSub [.thm] L₀ = true) :
    Kept L₀ t₀ (State.thmReqWrite s v) := by
  refine h₀.step (M := [.thm]) ?_ hs₀
  clear h₀ hs₀ t₀ L₀
  unfold State.thmReqWrite
  repeat' (first | (with_reducible exact Kept.refl _ _) | (rewrite [updateOf_eq]; (with_reducible refine Kept.set_thm ?_ ?h0); (case h0 => exact rfl)) | (extract_lets +onlyGivenNames x; have : x.2 = x.2 := rfl; clear this; subst x) | (extract_lets +onlyGivenNames x; clear_value x) | (with_reducible refine Kept.ite (fun _ => ?_) (fun _ => ?_)))

theorem State.keepReading_kept {s : State} {sel : Fin 113} {temp : Int} {fault : Bool}
    {L₀ t₀} (h₀ : Kept L₀ t₀ s) (hs₀ : sliceSub [.thm] L₀ = true) :
    Kept L₀ t₀ (State.keepReading s sel temp fault) := by
  refine h₀.step (M := [.thm]) ?_ hs₀
  clear h₀ hs₀ t₀ L₀
  unfold State.keepReading
  repeat' (first | (with_reducible exact Kept.refl _ _) | (rewrite [updateOf_eq]; (with_reducible refine Kept.set_thm ?_ ?h0); (case h0 => exact rfl)))

theorem State.hostReading_kept {s : State} {sel : Nat} {temp : Int} {fault : Bool}
    {L₀ t₀} (h₀ : Kept L₀ t₀ s) (hs₀ : sliceSub [.thm] L₀ = true) :
    Kept L₀ t₀ (State.hostReading s sel temp fault) := by
  refine h₀.step (M := [.thm]) ?_ hs₀
  clear h₀ hs₀ t₀ L₀
  unfold State.hostReading
  repeat' (first | (with_reducible exact Kept.refl _ _) | (rewrite [updateOf_eq]; (with_reducible refine Kept.set_thm ?_ ?h0); (case h0 => exact rfl)) | (extract_lets +onlyGivenNames x; have : x.2 = x.2 := rfl; clear this; subst x) | (with_reducible refine Kept.ite (fun _ => ?_) (fun _ => ?_)))

theorem State.stackReading_kept {s : State} {sel : Nat} {temp : Int}
    {L₀ t₀} (h₀ : Kept L₀ t₀ s) (hs₀ : sliceSub [.dram] L₀ = true) :
    Kept L₀ t₀ (State.stackReading s sel temp) := by
  refine h₀.step (M := [.dram]) ?_ hs₀
  clear h₀ hs₀ t₀ L₀
  unfold State.stackReading
  repeat' (first | (with_reducible exact Kept.refl _ _) | (with_reducible refine Kept.ite (fun _ => ?_) (fun _ => ?_)) | ((with_reducible apply State.setStack_kept); on_goal 2 => exact rfl))

theorem State.throttle_kept {s : State} {sel : Fin 113} {temp : Int}
    {L₀ t₀} (h₀ : Kept L₀ t₀ s) (hs₀ : sliceSub [.thm] L₀ = true) :
    Kept L₀ t₀ (State.throttle s sel temp) := by
  refine h₀.step (M := [.thm]) ?_ hs₀
  clear h₀ hs₀ t₀ L₀
  unfold State.throttle
  repeat' (first | (with_reducible exact Kept.refl _ _) | (rewrite [updateOf_eq]; (with_reducible refine Kept.set_thm ?_ ?h0); (case h0 => exact rfl)) | (extract_lets +onlyGivenNames x; have : x.2 = x.2 := rfl; clear this; subst x) | (extract_lets +onlyGivenNames x; clear_value x) | (with_reducible refine Kept.ite (fun _ => ?_) (fun _ => ?_)))

theorem State.restoreTimer_kept {s : State}
    {L₀ t₀} (h₀ : Kept L₀ t₀ s) (hs₀ : sliceSub [.thm] L₀ = true) :
    Kept L₀ t₀ (State.restoreTimer s) := by
  refine h₀.step (M := [.thm]) ?_ hs₀
  clear h₀ hs₀ t₀ L₀
  unfold State.restoreTimer
  repeat' (first | (with_reducible exact Kept.refl _ _) | (rewrite [updateOf_eq]; (with_reducible refine Kept.set_thm ?_ ?h0); (case h0 => exact rfl)))

theorem State.shutdown_kept {s : State} {sel : Nat} {temp : Int} {num : Int} {den : Nat} {kind : Nat}
    {L₀ t₀} (h₀ : Kept L₀ t₀ s) (hs₀ : sliceSub (slicesBut [.pending]) L₀ = true) :
    Kept L₀ t₀ (State.shutdown s sel temp num den kind) := by
  refine h₀.step (M := (slicesBut [.pending])) ?_ hs₀
  clear h₀ hs₀ t₀ L₀
  unfold State.shutdown
  repeat' (first | (with_reducible exact Kept.refl _ _) | (rewrite [updateOf_eq]; (with_reducible refine Kept.set_start ?_ ?h0); (case h0 => exact rfl)) | (rewrite [updateOf_eq]; (with_reducible refine Kept.set_thm ?_ ?h0); (case h0 => exact rfl)) | (extract_lets +onlyGivenNames x; have : x.2 = x.2 := rfl; clear this; subst x) | (with_reducible refine Kept.ite (fun _ => ?_) (fun _ => ?_)) | ((with_reducible apply State.setCause_kept); on_goal 2 => exact rfl) | ((with_reducible apply State.log_kept); on_goal 2 => exact rfl) | ((with_reducible apply State.cutNow_kept); on_goal 2 => exact rfl) | ((with_reducible apply State.setPhase_kept); on_goal 2 => exact rfl) | ((with_reducible apply State.orderlyStop_kept); on_goal 2 => exact rfl))

theorem State.reading_kept {s : State} {sel : Fin 113} {temp : Int} {fault : Bool}
    {L₀ t₀} (h₀ : Kept L₀ t₀ s) (hs₀ : sliceSub (slicesBut [.pending]) L₀ = true) :
    Kept L₀ t₀ (State.reading s sel temp fault) := by
  refine h₀.step (M := (slicesBut [.pending])) ?_ hs₀
  clear h₀ hs₀ t₀ L₀
  unfold State.reading
  repeat' (first | (with_reducible exact Kept.refl _ _) | (rewrite [updateOf_eq]; (with_reducible refine Kept.set_thm ?_ ?h0); (case h0 => exact rfl)) | (rewrite [updateOf_eq]; (with_reducible refine Kept.set_laser ?_ ?h0 ?m0); (case h0 => exact rfl); (case m0 => exact MemOk.same rfl)) | (extract_lets +onlyGivenNames x; have : LaserBlk := x; clear this; subst x) | (extract_lets +onlyGivenNames x; have : x.2 = x.2 := rfl; clear this; subst x) | (extract_lets +onlyGivenNames x; clear_value x) | (with_reducible refine Kept.ite (fun _ => ?_) (fun _ => ?_)) | ((with_reducible apply State.keepReading_kept); on_goal 2 => exact rfl) | ((with_reducible apply State.hostReading_kept); on_goal 2 => exact rfl) | ((with_reducible apply State.alertNow_kept); on_goal 2 => exact rfl) | ((with_reducible apply State.stackReading_kept); on_goal 2 => exact rfl) | ((with_reducible apply State.lasersDark_kept); on_goal 2 => exact rfl) | ((with_reducible apply State.throttle_kept); on_goal 2 => exact rfl) | ((with_reducible apply State.restoreTimer_kept); on_goal 2 => exact rfl) | ((with_reducible apply State.shutdown_kept); on_goal 2 => exact rfl))

theorem execThmReadAll_kept {readings : List Reading} {s : State}
    {L₀ t₀} (h₀ : Kept L₀ t₀ s) (hs₀ : sliceSub (slicesBut [.pending]) L₀ = true) :
    Kept L₀ t₀ (outOf s (execThmReadAll readings s)) := by
  refine h₀.step (M := (slicesBut [.pending])) ?_ hs₀
  clear h₀ hs₀ t₀ L₀
  unfold execThmReadAll
  repeat' (first | (dsimp -zeta -iota -proj only [outOf_next]) | (with_reducible exact Kept.refl _ _) | (with_reducible assumption) | (extract_lets +onlyGivenNames x; have : x.2 = x.2 := rfl; clear this; subst x) | (extract_lets +onlyGivenNames x; clear_value x) | (with_reducible refine Kept.ite (fun _ => ?_) (fun _ => ?_)) | ((with_reducible apply State.mbxAnswer_kept); on_goal 2 => exact rfl) | ((with_reducible apply State.mbxStart_kept); on_goal 2 => exact rfl) | ((with_reducible apply State.reading_kept); on_goal 2 => exact rfl) | ((with_reducible apply State.mbxDone_kept); on_goal 2 => exact rfl) | ((with_reducible apply State.hostWritePf_kept); on_goal 2 => exact rfl) | ((with_reducible refine Kept.each ?_ (fun _ _ _ => ?_))) | ((with_reducible refine Kept.onRequest ?_ (fun _ => ?_))))

theorem execThmRequest_kept {val : W32} {s : State}
    {L₀ t₀} (h₀ : Kept L₀ t₀ s) (hs₀ : sliceSub [.thm] L₀ = true) :
    Kept L₀ t₀ (outOf s (execThmRequest val s)) := by
  refine h₀.step (M := [.thm]) ?_ hs₀
  clear h₀ hs₀ t₀ L₀
  unfold execThmRequest
  repeat' (first | (dsimp -zeta -iota -proj only [outOf_next]) | (with_reducible exact Kept.refl _ _) | (with_reducible assumption) | ((with_reducible apply State.thmReqWrite_kept); on_goal 2 => exact rfl) | ((with_reducible refine Kept.when ?_ (fun _ _ => ?_))))

theorem execSensorReading_kept {r : Reading} {s : State}
    {L₀ t₀} (h₀ : Kept L₀ t₀ s) (hs₀ : sliceSub (slicesBut [.pending]) L₀ = true) :
    Kept L₀ t₀ (outOf s (execSensorReading r s)) := by
  refine h₀.step (M := (slicesBut [.pending])) ?_ hs₀
  clear h₀ hs₀ t₀ L₀
  unfold execSensorReading
  repeat' (first | (dsimp -zeta -iota -proj only [outOf_next]) | (with_reducible exact Kept.refl _ _) | ((with_reducible apply State.reading_kept); on_goal 2 => exact rfl))

theorem execThermalLapse_kept {n : Nat} {s : State}
    {L₀ t₀} (h₀ : Kept L₀ t₀ s) (hs₀ : sliceSub [.pfMsix, .irqs, .ras, .thm] L₀ = true) :
    Kept L₀ t₀ (outOf s (execThermalLapse n s)) := by
  refine h₀.step (M := [.pfMsix, .irqs, .ras, .thm]) ?_ hs₀
  clear h₀ hs₀ t₀ L₀
  unfold execThermalLapse
  repeat' (first | (dsimp -zeta -iota -proj only [outOf_next]) | (with_reducible exact Kept.refl _ _) | (with_reducible assumption) | (rewrite [updateOf_eq]; (with_reducible refine Kept.set_thm ?_ ?h0); (case h0 => exact rfl)) | (extract_lets +onlyGivenNames x; have : x.2 = x.2 := rfl; clear this; subst x) | ((with_reducible apply State.alertNow_kept); on_goal 2 => exact rfl) | ((with_reducible apply State.log_kept); on_goal 2 => exact rfl) | ((with_reducible refine Kept.when ?_ (fun _ _ => ?_))))

theorem execLimitStepDown_kept {s : State}
    {L₀ t₀} (h₀ : Kept L₀ t₀ s) (hs₀ : sliceSub [.crest, .spur, .thm] L₀ = true) :
    Kept L₀ t₀ (outOf s (execLimitStepDown s)) := by
  refine h₀.step (M := [.crest, .spur, .thm]) ?_ hs₀
  clear h₀ hs₀ t₀ L₀
  unfold execLimitStepDown
  repeat' (first | (dsimp -zeta -iota -proj only [outOf_next]) | (with_reducible exact Kept.refl _ _) | (with_reducible assumption) | (rewrite [updateOf_eq]; (with_reducible refine Kept.set_thm ?_ ?h0); (case h0 => exact rfl)) | (extract_lets +onlyGivenNames x; clear_value x) | ((with_reducible apply State.setLimit_kept); on_goal 2 => exact rfl) | ((with_reducible refine Kept.when ?_ (fun _ _ => ?_))))

theorem State.restoreStep_kept {s : State}
    {L₀ t₀} (h₀ : Kept L₀ t₀ s) (hs₀ : sliceSub [.thm] L₀ = true) :
    Kept L₀ t₀ (State.restoreStep s) := by
  refine h₀.step (M := [.thm]) ?_ hs₀
  clear h₀ hs₀ t₀ L₀
  unfold State.restoreStep
  repeat' (first | (with_reducible exact Kept.refl _ _) | (rewrite [updateOf_eq]; (with_reducible refine Kept.set_thm ?_ ?h0); (case h0 => exact rfl)) | (extract_lets +onlyGivenNames x; have : x.2 = x.2 := rfl; clear this; subst x) | (with_reducible refine Kept.ite (fun _ => ?_) (fun _ => ?_)) | split)

theorem execLimitStepUp_kept {s : State}
    {L₀ t₀} (h₀ : Kept L₀ t₀ s) (hs₀ : sliceSub [.crest, .spur, .thm] L₀ = true) :
    Kept L₀ t₀ (outOf s (execLimitStepUp s)) := by
  refine h₀.step (M := [.crest, .spur, .thm]) ?_ hs₀
  clear h₀ hs₀ t₀ L₀
  unfold execLimitStepUp
  repeat' (first | (dsimp -zeta -iota -proj only [outOf_next]) | (with_reducible exact Kept.refl _ _) | (with_reducible assumption) | (rewrite [updateOf_eq]; (with_reducible refine Kept.set_thm ?_ ?h0); (case h0 => exact rfl)) | (extract_lets +onlyGivenNames x; have : x.2 = x.2 := rfl; clear this; subst x) | (extract_lets +onlyGivenNames x; clear_value x) | ((with_reducible apply State.restoreStep_kept); on_goal 2 => exact rfl) | ((with_reducible apply State.setLimit_kept); on_goal 2 => exact rfl) | ((with_reducible apply State.alertNow_kept); on_goal 2 => exact rfl) | ((with_reducible refine Kept.when ?_ (fun _ _ => ?_))))

end Sys2Proof.Machine
end

