-- ==== Sys2Proof/Laws/Start.lean ====
section
/-! SUPPORT. What each operation of Machine/Start.lean may change (`Kept`): the parts of the state, listed; every memory stays canonical,
and no bit of Cairn is cleared. -/

set_option linter.unusedTactic false
set_option linter.unreachableTactic false

namespace Sys2Proof.Machine

theorem State.restartWrite_kept {s : State} {v : Nat}
    {L₀ t₀} (h₀ : Kept L₀ t₀ s) (hs₀ : sliceSub (slicesBut [.pins, .lockLoss, .committed, .str, .ret, .numVfs, .turns, .nextMid, .linkHoldMs, .replyMs, .pmsg, .laser, .thm, .flash, .bus, .pending]) L₀ = true) :
    Kept L₀ t₀ (State.restartWrite s v) := by
  refine h₀.step (M := (slicesBut [.pins, .lockLoss, .committed, .str, .ret, .numVfs, .turns, .nextMid, .linkHoldMs, .replyMs, .pmsg, .laser, .thm, .flash, .bus, .pending])) ?_ hs₀
  clear h₀ hs₀ t₀ L₀
  unfold State.restartWrite
  repeat' (first | (with_reducible exact Kept.refl _ _) | (rewrite [updateOf_eq]; (with_reducible refine Kept.set_start ?_ ?h0); (case h0 => exact rfl)) | (extract_lets +onlyGivenNames x; have : x.2 = x.2 := rfl; clear this; subst x) | (extract_lets +onlyGivenNames x; clear_value x) | (with_reducible refine Kept.ite (fun _ => ?_) (fun _ => ?_)) | ((with_reducible apply State.orderlyStop_kept); on_goal 2 => exact rfl))

theorem execColPowerOnResetExit_kept {pwrGood : Bool} {resetN : Bool} {tripN : Bool} {envSel : Bool} {smb1 : Bool} {smb0 : Bool} {s : State}
    {L₀ t₀} (h₀ : Kept L₀ t₀ s) (hs₀ : sliceSub [.pins, .col, .pfMsix, .irqs, .ras, .laser, .thm, .free] L₀ = true) :
    Kept L₀ t₀ (outOf s (execColPowerOnResetExit pwrGood resetN tripN envSel smb1 smb0 s)) := by
  refine h₀.step (M := [.pins, .col, .pfMsix, .irqs, .ras, .laser, .thm, .free]) ?_ hs₀
  clear h₀ hs₀ t₀ L₀
  unfold execColPowerOnResetExit
  repeat' (first | (dsimp -zeta -iota -proj only [outOf_next]) | (with_reducible exact Kept.refl _ _) | (with_reducible assumption) | (rewrite [updateOf_eq]; (with_reducible refine Kept.set_pins_col_laser ?_ ?h0 ?h1 ?h2 ?m0); (case h0 => exact rfl); (case h1 => exact rfl); (case h2 => exact rfl); (case m0 => exact MemOk.same rfl)) | (extract_lets +onlyGivenNames x; have : LaserBlk := x; clear this; subst x) | (extract_lets +onlyGivenNames x; have : x.2 = x.2 := rfl; clear this; subst x) | (with_reducible refine Kept.ite (fun _ => ?_) (fun _ => ?_)) | ((with_reducible apply State.draw_kept); on_goal 2 => exact rfl) | ((with_reducible apply State.tripAssert_kept); on_goal 2 => exact rfl) | ((with_reducible refine Kept.when ?_ (fun _ _ => ?_))))

theorem execVddColLoss_kept {s : State} {L t} (h : Kept L t s) (hs : sliceSub (slicesBut [.pending]) L = true) :
    Kept L t (outOf s (execVddColLoss s)) := by
  have sub : ∀ M, sliceSub M (slicesBut [.pending]) = true → sliceSub M L = true := fun M hm => by
    simp only [sliceSub, List.all_eq_true, List.contains_eq_mem, decide_eq_true_eq] at *
    exact fun x hx => hs x (hm x hx)
  have k : Kept L t (s.progAbort 9) := State.progAbort_kept h (sub _ rfl)
  unfold execVddColLoss
  revert k
  generalize s.progAbort 9 = u
  intro k
  refine Kept.step (M := (slicesBut [.pending])) k ⟨⟨?_⟩, fun c => ⟨⟨c.words, c.weak, c.mem, c.poison, c.flaws, rfl, rfl, rfl, rfl, rfl, rfl,
    c.eeprom, rfl, rfl, c.flash, c.hostMem⟩, OtpGrows.refl _⟩⟩ hs
  intro x hx; cases x <;> first | exact absurd (by decide) hx | rfl

theorem State.edge_kept {s : State} {xtalOk : Bool}
    {L₀ t₀} (h₀ : Kept L₀ t₀ s) (hs₀ : sliceSub [.col, .start, .thm] L₀ = true) :
    Kept L₀ t₀ (State.edge s xtalOk) := by
  refine h₀.step (M := [.col, .start, .thm]) ?_ hs₀
  clear h₀ hs₀ t₀ L₀
  unfold State.edge
  repeat' (first | (with_reducible exact Kept.refl _ _) | (rewrite [updateOf_eq]; (with_reducible refine Kept.set_col_start ?_ ?h0 ?h1); (case h0 => exact rfl); (case h1 => exact rfl)) | (extract_lets +onlyGivenNames x; have : x.2 = x.2 := rfl; clear this; subst x) | ((with_reducible apply State.alertNow_kept); on_goal 2 => exact rfl))

theorem execPwrGoodRise_kept {envSel : Bool} {xtalOk : Bool} {s : State}
    {L₀ t₀} (h₀ : Kept L₀ t₀ s) (hs₀ : sliceSub [.pins, .col, .start, .thm] L₀ = true) :
    Kept L₀ t₀ (outOf s (execPwrGoodRise envSel xtalOk s)) := by
  refine h₀.step (M := [.pins, .col, .start, .thm]) ?_ hs₀
  clear h₀ hs₀ t₀ L₀
  unfold execPwrGoodRise
  repeat' (first | (dsimp -zeta -iota -proj only [outOf_next]) | (with_reducible exact Kept.refl _ _) | (with_reducible assumption) | (rewrite [updateOf_eq]; (with_reducible refine Kept.set_pins_col_start ?_ ?h0 ?h1 ?h2); (case h0 => exact rfl); (case h1 => exact rfl); (case h2 => exact rfl)) | (extract_lets +onlyGivenNames x; have : x.2 = x.2 := rfl; clear this; subst x) | ((with_reducible apply State.edge_kept); on_goal 2 => exact rfl) | ((with_reducible refine Kept.when ?_ (fun _ _ => ?_))))

theorem State.powerLost_kept {s : State}
    {L₀ t₀} (h₀ : Kept L₀ t₀ s) (hs₀ : sliceSub [.col] L₀ = true) :
    Kept L₀ t₀ (State.powerLost s) := by
  refine h₀.step (M := [.col]) ?_ hs₀
  clear h₀ hs₀ t₀ L₀
  unfold State.powerLost
  repeat' (first | (with_reducible exact Kept.refl _ _) | (rewrite [updateOf_eq]; (with_reducible refine Kept.set_col ?_ ?h0); (case h0 => exact rfl)))

theorem State.startEnded_kept {s : State} {c : Nat}
    {L₀ t₀} (h₀ : Kept L₀ t₀ s) (hs₀ : sliceSub [.start] L₀ = true) :
    Kept L₀ t₀ (State.startEnded s c) := by
  refine h₀.step (M := [.start]) ?_ hs₀
  clear h₀ hs₀ t₀ L₀
  unfold State.startEnded
  repeat' (first | (with_reducible exact Kept.refl _ _) | (with_reducible refine Kept.ite (fun _ => ?_) (fun _ => ?_)) | ((with_reducible apply State.setCause_kept); on_goal 2 => exact rfl))

theorem State.holdReset_kept {s : State}
    {L₀ t₀} (h₀ : Kept L₀ t₀ s) (hs₀ : sliceSub [.start] L₀ = true) :
    Kept L₀ t₀ (State.holdReset s) := by
  refine h₀.step (M := [.start]) ?_ hs₀
  clear h₀ hs₀ t₀ L₀
  unfold State.holdReset
  repeat' (first | (with_reducible exact Kept.refl _ _) | (rewrite [updateOf_eq]; (with_reducible refine Kept.set_start ?_ ?h0); (case h0 => exact rfl)))

theorem execPwrGoodFall_kept {s : State}
    {L₀ t₀} (h₀ : Kept L₀ t₀ s) (hs₀ : sliceSub (slicesBut [.lockLoss, .committed, .str, .ret, .numVfs, .turns, .nextMid, .linkHoldMs, .replyMs, .pmsg, .thm, .flash, .bus, .pending]) L₀ = true) :
    Kept L₀ t₀ (outOf s (execPwrGoodFall s)) := by
  refine h₀.step (M := (slicesBut [.lockLoss, .committed, .str, .ret, .numVfs, .turns, .nextMid, .linkHoldMs, .replyMs, .pmsg, .thm, .flash, .bus, .pending])) ?_ hs₀
  clear h₀ hs₀ t₀ L₀
  unfold execPwrGoodFall
  repeat' (first | (dsimp -zeta -iota -proj only [outOf_next]) | (with_reducible exact Kept.refl _ _) | (with_reducible assumption) | (rewrite [updateOf_eq]; (with_reducible refine Kept.set_pins ?_ ?h0); (case h0 => exact rfl)) | (extract_lets +onlyGivenNames x; have : x.2 = x.2 := rfl; clear this; subst x) | (with_reducible refine Kept.ite (fun _ => ?_) (fun _ => ?_)) | ((with_reducible apply State.powerLost_kept); on_goal 2 => exact rfl) | ((with_reducible apply State.lasersDark_kept); on_goal 2 => exact rfl) | ((with_reducible apply State.startEnded_kept); on_goal 2 => exact rfl) | ((with_reducible apply State.orderlyStop_kept); on_goal 2 => exact rfl) | ((with_reducible apply State.holdReset_kept); on_goal 2 => exact rfl) | ((with_reducible refine Kept.when ?_ (fun _ _ => ?_))))

theorem execResetNFall_kept {s : State}
    {L₀ t₀} (h₀ : Kept L₀ t₀ s) (hs₀ : sliceSub (slicesBut [.lockLoss, .committed, .str, .ret, .numVfs, .turns, .nextMid, .linkHoldMs, .replyMs, .pmsg, .laser, .thm, .flash, .bus, .pending]) L₀ = true) :
    Kept L₀ t₀ (outOf s (execResetNFall s)) := by
  refine h₀.step (M := (slicesBut [.lockLoss, .committed, .str, .ret, .numVfs, .turns, .nextMid, .linkHoldMs, .replyMs, .pmsg, .laser, .thm, .flash, .bus, .pending])) ?_ hs₀
  clear h₀ hs₀ t₀ L₀
  unfold execResetNFall
  repeat' (first | (dsimp -zeta -iota -proj only [outOf_next]) | (with_reducible exact Kept.refl _ _) | (with_reducible assumption) | (rewrite [updateOf_eq]; (with_reducible refine Kept.set_start ?_ ?h0); (case h0 => exact rfl)) | (rewrite [updateOf_eq]; (with_reducible refine Kept.set_pins ?_ ?h0); (case h0 => exact rfl)) | (extract_lets +onlyGivenNames x; have : x.2 = x.2 := rfl; clear this; subst x) | (with_reducible refine Kept.ite (fun _ => ?_) (fun _ => ?_)) | ((with_reducible apply State.startEnded_kept); on_goal 2 => exact rfl) | ((with_reducible apply State.orderlyStop_kept); on_goal 2 => exact rfl) | ((with_reducible apply State.holdReset_kept); on_goal 2 => exact rfl) | ((with_reducible refine Kept.when ?_ (fun _ _ => ?_))) | split)

theorem execResetNRise_kept {xtalOk : Bool} {s : State}
    {L₀ t₀} (h₀ : Kept L₀ t₀ s) (hs₀ : sliceSub [.pins, .col, .start, .thm] L₀ = true) :
    Kept L₀ t₀ (outOf s (execResetNRise xtalOk s)) := by
  refine h₀.step (M := [.pins, .col, .start, .thm]) ?_ hs₀
  clear h₀ hs₀ t₀ L₀
  unfold execResetNRise
  repeat' (first | (dsimp -zeta -iota -proj only [outOf_next]) | (with_reducible exact Kept.refl _ _) | (with_reducible assumption) | (rewrite [updateOf_eq]; (with_reducible refine Kept.set_pins ?_ ?h0); (case h0 => exact rfl)) | (extract_lets +onlyGivenNames x; have : x.2 = x.2 := rfl; clear this; subst x) | ((with_reducible apply State.edge_kept); on_goal 2 => exact rfl) | ((with_reducible refine Kept.when ?_ (fun _ _ => ?_))))

theorem execInternalResetRelease_kept {s : State}
    {L₀ t₀} (h₀ : Kept L₀ t₀ s) (hs₀ : sliceSub [.col, .start] L₀ = true) :
    Kept L₀ t₀ (outOf s (execInternalResetRelease s)) := by
  refine h₀.step (M := [.col, .start]) ?_ hs₀
  clear h₀ hs₀ t₀ L₀
  unfold execInternalResetRelease
  repeat' (first | (dsimp -zeta -iota -proj only [outOf_next]) | (with_reducible exact Kept.refl _ _) | (with_reducible assumption) | (rewrite [updateOf_eq]; (with_reducible refine Kept.set_start ?_ ?h0); (case h0 => exact rfl)) | (extract_lets +onlyGivenNames x; have : x.2 = x.2 := rfl; clear this; subst x) | ((with_reducible apply State.startDue_kept); on_goal 2 => exact rfl) | ((with_reducible refine Kept.when ?_ (fun _ _ => ?_))))

theorem execUndervoltageTrip_kept {rail : Rail} {s : State}
    {L₀ t₀} (h₀ : Kept L₀ t₀ s) (hs₀ : sliceSub (slicesBut [.pending]) L₀ = true) :
    Kept L₀ t₀ (outOf s (execUndervoltageTrip rail s)) := by
  refine h₀.step (M := (slicesBut [.pending])) ?_ hs₀
  clear h₀ hs₀ t₀ L₀
  unfold execUndervoltageTrip
  repeat' (first | (dsimp -zeta -iota -proj only [outOf_next]) | (with_reducible exact Kept.refl _ _) | (with_reducible assumption) | (rewrite [updateOf_eq]; (with_reducible refine Kept.set_start ?_ ?h0); (case h0 => exact rfl)) | (rewrite [updateOf_eq]; (with_reducible refine Kept.set_col ?_ ?h0); (case h0 => exact rfl)) | (extract_lets +onlyGivenNames x; have : x.2 = x.2 := rfl; clear this; subst x) | ((with_reducible apply State.powerLost_kept); on_goal 2 => exact rfl) | ((with_reducible apply State.startEnded_kept); on_goal 2 => exact rfl) | ((with_reducible apply State.log_kept); on_goal 2 => exact rfl) | ((with_reducible apply State.cutNow_kept); on_goal 2 => exact rfl) | ((with_reducible refine Kept.when ?_ (fun _ _ => ?_))))

theorem execCrystalFault_kept {s : State}
    {L₀ t₀} (h₀ : Kept L₀ t₀ s) (hs₀ : sliceSub (slicesBut [.pins, .lockLoss, .committed, .str, .ret, .numVfs, .turns, .nextMid, .linkHoldMs, .replyMs, .pmsg, .thm, .flash, .bus, .pending]) L₀ = true) :
    Kept L₀ t₀ (outOf s (execCrystalFault s)) := by
  refine h₀.step (M := (slicesBut [.pins, .lockLoss, .committed, .str, .ret, .numVfs, .turns, .nextMid, .linkHoldMs, .replyMs, .pmsg, .thm, .flash, .bus, .pending])) ?_ hs₀
  clear h₀ hs₀ t₀ L₀
  unfold execCrystalFault
  repeat' (first | (dsimp -zeta -iota -proj only [outOf_next]) | (with_reducible exact Kept.refl _ _) | (with_reducible assumption) | (rewrite [updateOf_eq]; (with_reducible refine Kept.set_col ?_ ?h0); (case h0 => exact rfl)) | (extract_lets +onlyGivenNames x; have : x.2 = x.2 := rfl; clear this; subst x) | (with_reducible refine Kept.ite (fun _ => ?_) (fun _ => ?_)) | ((with_reducible apply State.lasersDark_kept); on_goal 2 => exact rfl) | ((with_reducible apply State.startEnded_kept); on_goal 2 => exact rfl) | ((with_reducible apply State.log_kept); on_goal 2 => exact rfl) | ((with_reducible apply State.orderlyStop_kept); on_goal 2 => exact rfl) | ((with_reducible apply State.holdReset_kept); on_goal 2 => exact rfl) | ((with_reducible refine Kept.when ?_ (fun _ _ => ?_))))

theorem execOrderlyStopDone_kept {s : State}
    {L₀ t₀} (h₀ : Kept L₀ t₀ s) (hs₀ : sliceSub (slicesBut [.pending]) L₀ = true) :
    Kept L₀ t₀ (outOf s (execOrderlyStopDone s)) := by
  refine h₀.step (M := (slicesBut [.pending])) ?_ hs₀
  clear h₀ hs₀ t₀ L₀
  unfold execOrderlyStopDone
  repeat' (first | (dsimp -zeta -iota -proj only [outOf_next]) | (with_reducible exact Kept.refl _ _) | ((with_reducible apply State.stopEnd_kept); on_goal 2 => exact rfl) | ((with_reducible apply State.cut_kept); on_goal 2 => exact rfl) | split)

theorem execStartBegin_kept {s : State}
    {L₀ t₀} (h₀ : Kept L₀ t₀ s) (hs₀ : sliceSub [.col, .start, .dram, .ras, .spur, .thm] L₀ = true) :
    Kept L₀ t₀ (outOf s (execStartBegin s)) := by
  refine h₀.step (M := [.col, .start, .dram, .ras, .spur, .thm]) ?_ hs₀
  clear h₀ hs₀ t₀ L₀
  unfold execStartBegin
  repeat' (first | (dsimp -zeta -iota -proj only [outOf_next]) | (with_reducible exact Kept.refl _ _) | (with_reducible assumption) | (rewrite [updateOf_eq]; (with_reducible refine Kept.set_dram ?_ ?h0 ?m0); (case h0 => exact rfl); (case m0 => exact ⟨MemOk.same rfl, MemOk.same rfl, MemOk.same rfl⟩)) | (rewrite [updateOf_eq]; (with_reducible refine Kept.set_ras ?_ ?h0); (case h0 => exact rfl)) | (rewrite [updateOf_eq]; (with_reducible refine Kept.set_col_start_spur_thm ?_ ?h0 ?h1 ?h2 ?h3); (case h0 => exact rfl); (case h1 => exact rfl); (case h2 => exact rfl); (case h3 => exact rfl)) | (extract_lets +onlyGivenNames x; have : DramSt := x; clear this; subst x) | (extract_lets +onlyGivenNames x; have : x.2 = x.2 := rfl; clear this; subst x) | (with_reducible refine Kept.ite (fun _ => ?_) (fun _ => ?_)) | ((with_reducible apply State.setPhase_kept); on_goal 2 => exact rfl) | ((with_reducible refine Kept.when ?_ (fun _ _ => ?_))))

theorem State.stepsCheck_kept {s : State}
    {L₀ t₀} (h₀ : Kept L₀ t₀ s) (hs₀ : sliceSub (slicesBut [.pins, .col, .cairn, .lockLoss, .numVfs, .turns, .nextItem, .nextMid, .linkHoldMs, .replyMs, .pmsg, .laser, .thm, .flash, .bus, .pending, .free]) L₀ = true) :
    Kept L₀ t₀ (State.stepsCheck s) := by
  refine h₀.step (M := (slicesBut [.pins, .col, .cairn, .lockLoss, .numVfs, .turns, .nextItem, .nextMid, .linkHoldMs, .replyMs, .pmsg, .laser, .thm, .flash, .bus, .pending, .free])) ?_ hs₀
  clear h₀ hs₀ t₀ L₀
  unfold State.stepsCheck
  repeat' (first | (with_reducible exact Kept.refl _ _) | (rewrite [updateOf_eq]; (with_reducible refine Kept.set_ret ?_ ?h0); (case h0 => exact rfl)) | (rewrite [updateOf_eq]; (with_reducible refine Kept.set_loader ?_ ?h0); (case h0 => exact rfl)) | (extract_lets +onlyGivenNames x; have : x.2 = x.2 := rfl; clear this; subst x) | (with_reducible refine Kept.ite (fun _ => ?_) (fun _ => ?_)) | ((with_reducible apply State.setLoader_kept); on_goal 2 => exact rfl) | ((with_reducible apply State.setPhase_kept); on_goal 2 => exact rfl) | ((with_reducible apply State.commitNow_kept); on_goal 2 => exact rfl) | split)

theorem State.skip_kept {s : State} {i : Fin 5}
    {L₀ t₀} (h₀ : Kept L₀ t₀ s) (hs₀ : sliceSub [.start] L₀ = true) :
    Kept L₀ t₀ (State.skip s i) := by
  refine h₀.step (M := [.start]) ?_ hs₀
  clear h₀ hs₀ t₀ L₀
  unfold State.skip
  repeat' (first | (with_reducible exact Kept.refl _ _) | (rewrite [updateOf_eq]; (with_reducible refine Kept.set_start ?_ ?h0); (case h0 => exact rfl)))

theorem State.notSkipped_kept {s : State} {i : Fin 5} {code : Nat}
    {L₀ t₀} (h₀ : Kept L₀ t₀ s) (hs₀ : sliceSub [.start] L₀ = true) :
    Kept L₀ t₀ (State.notSkipped s i code) := by
  refine h₀.step (M := [.start]) ?_ hs₀
  clear h₀ hs₀ t₀ L₀
  unfold State.notSkipped
  repeat' (first | (with_reducible exact Kept.refl _ _) | (rewrite [updateOf_eq]; (with_reducible refine Kept.set_start ?_ ?h0); (case h0 => exact rfl)) | (extract_lets +onlyGivenNames x; have : x.2 = x.2 := rfl; clear this; subst x) | (with_reducible refine Kept.ite (fun _ => ?_) (fun _ => ?_)))

theorem State.stepFirmware_kept {s : State}
    {L₀ t₀} (h₀ : Kept L₀ t₀ s) (hs₀ : sliceSub (slicesBut [.pins, .lockLoss, .committed, .str, .ret, .numVfs, .turns, .nextMid, .linkHoldMs, .replyMs, .pmsg, .laser, .thm, .flash, .bus, .pending]) L₀ = true) :
    Kept L₀ t₀ (State.stepFirmware s) := by
  refine h₀.step (M := (slicesBut [.pins, .lockLoss, .committed, .str, .ret, .numVfs, .turns, .nextMid, .linkHoldMs, .replyMs, .pmsg, .laser, .thm, .flash, .bus, .pending])) ?_ hs₀
  clear h₀ hs₀ t₀ L₀
  unfold State.stepFirmware
  repeat' (first | (with_reducible exact Kept.refl _ _) | (rewrite [updateOf_eq]; (with_reducible refine Kept.set_start ?_ ?h0); (case h0 => exact rfl)) | (extract_lets +onlyGivenNames x; have : x.2 = x.2 := rfl; clear this; subst x) | (with_reducible refine Kept.ite (fun _ => ?_) (fun _ => ?_)) | ((with_reducible apply State.failStart_kept); on_goal 2 => exact rfl) | ((with_reducible apply State.setPhase_kept); on_goal 2 => exact rfl) | ((with_reducible apply State.skip_kept); on_goal 2 => exact rfl) | ((with_reducible apply State.notSkipped_kept); on_goal 2 => exact rfl) | split)

theorem State.stepDone_kept {s : State} {i : Fin 5}
    {L₀ t₀} (h₀ : Kept L₀ t₀ s) (hs₀ : sliceSub [.start] L₀ = true) :
    Kept L₀ t₀ (State.stepDone s i) := by
  refine h₀.step (M := [.start]) ?_ hs₀
  clear h₀ hs₀ t₀ L₀
  unfold State.stepDone
  repeat' (first | (with_reducible exact Kept.refl _ _) | (rewrite [updateOf_eq]; (with_reducible refine Kept.set_start ?_ ?h0); (case h0 => exact rfl)))

theorem State.stepCairn_kept {s : State}
    {L₀ t₀} (h₀ : Kept L₀ t₀ s) (hs₀ : sliceSub (slicesBut [.pins, .lockLoss, .committed, .str, .ret, .numVfs, .turns, .nextMid, .linkHoldMs, .replyMs, .pmsg, .laser, .thm, .flash, .bus, .pending]) L₀ = true) :
    Kept L₀ t₀ (State.stepCairn s) := by
  refine h₀.step (M := (slicesBut [.pins, .lockLoss, .committed, .str, .ret, .numVfs, .turns, .nextMid, .linkHoldMs, .replyMs, .pmsg, .laser, .thm, .flash, .bus, .pending])) ?_ hs₀
  clear h₀ hs₀ t₀ L₀
  unfold State.stepCairn
  repeat' (first | (with_reducible exact Kept.refl _ _) | (with_reducible refine Kept.ite (fun _ => ?_) (fun _ => ?_)) | ((with_reducible apply State.sweep_kept); on_goal 2 => exact rfl) | ((with_reducible apply State.setPhase_kept); on_goal 2 => exact rfl) | ((with_reducible apply State.stepDone_kept); on_goal 2 => exact rfl) | ((with_reducible apply State.failStart_kept); on_goal 2 => exact rfl))

theorem State.dramWarm_kept {s : State} {temps : Vector (Option Int) 8}
    {L₀ t₀} (h₀ : Kept L₀ t₀ s) (hs₀ : sliceSub [.col, .pfMsix, .irqs, .dram, .ras] L₀ = true) :
    Kept L₀ t₀ (State.dramWarm s temps).1 := by
  refine h₀.step (M := [.col, .pfMsix, .irqs, .dram, .ras]) ?_ hs₀
  clear h₀ hs₀ t₀ L₀
  unfold State.dramWarm
  repeat' (first | (with_reducible exact Kept.refl _ _) | (with_reducible assumption) | ((with_reducible apply State.stackExit_kept); on_goal 2 => exact rfl) | (with_reducible refine Kept.fold1 ?_ (fun _ _ _ => ?_)))

theorem State.dramCold_kept {s : State} {temps : Vector (Option Int) 8}
    {L₀ t₀} (h₀ : Kept L₀ t₀ s) (hs₀ : sliceSub [.col, .dram, .free] L₀ = true) :
    Kept L₀ t₀ (State.dramCold s temps) := by
  refine h₀.step (M := [.col, .dram, .free]) ?_ hs₀
  clear h₀ hs₀ t₀ L₀
  unfold State.dramCold
  repeat' (first | (with_reducible exact Kept.refl _ _) | (with_reducible assumption) | (extract_lets +onlyGivenNames x; have : x.2 = x.2 := rfl; clear this; subst x) | ((with_reducible apply State.eccFill_kept); on_goal 2 => exact rfl) | ((with_reducible apply State.draw_kept); on_goal 2 => exact rfl) | ((with_reducible apply State.stackBack_kept); on_goal 2 => exact rfl) | ((with_reducible apply State.setStack_kept); on_goal 2 => exact rfl) | ((with_reducible refine Kept.each ?_ (fun _ _ _ => ?_))))

theorem State.applyDefects_kept {s : State} {tests : List (Group × Nat)}
    {L₀ t₀} (h₀ : Kept L₀ t₀ s) (hs₀ : sliceSub [.pfMsix, .irqs, .ras, .spur] L₀ = true) :
    Kept L₀ t₀ (State.applyDefects s tests) := by
  refine h₀.step (M := [.pfMsix, .irqs, .ras, .spur]) ?_ hs₀
  clear h₀ hs₀ t₀ L₀
  unfold State.applyDefects
  repeat' (first | (with_reducible exact Kept.refl _ _) | (with_reducible assumption) | (rewrite [updateOf_eq]; (with_reducible refine Kept.set_spur ?_ ?h0); (case h0 => exact rfl)) | (extract_lets +onlyGivenNames x; have : x.2 = x.2 := rfl; clear this; subst x) | (extract_lets +onlyGivenNames x; clear_value x) | ((with_reducible apply State.maskBanks_kept); on_goal 2 => exact rfl) | ((with_reducible refine Kept.each ?_ (fun _ _ _ => ?_))))

theorem State.stepDram_kept {s : State} {fails : Nat} {temps : Vector (Option Int) 8} {tests : List (Group × Nat)}
    {L₀ t₀} (h₀ : Kept L₀ t₀ s) (hs₀ : sliceSub (slicesBut [.pins, .lockLoss, .committed, .str, .ret, .numVfs, .turns, .nextMid, .linkHoldMs, .replyMs, .pmsg, .laser, .thm, .flash, .bus, .pending]) L₀ = true) :
    Kept L₀ t₀ (State.stepDram s fails temps tests) := by
  refine h₀.step (M := (slicesBut [.pins, .lockLoss, .committed, .str, .ret, .numVfs, .turns, .nextMid, .linkHoldMs, .replyMs, .pmsg, .laser, .thm, .flash, .bus, .pending])) ?_ hs₀
  clear h₀ hs₀ t₀ L₀
  unfold State.stepDram
  repeat' (first | (with_reducible exact Kept.refl _ _) | (extract_lets +onlyGivenNames x; have : x.2 = x.2 := rfl; clear this; subst x) | (extract_lets +onlyGivenNames x; clear_value x) | (with_reducible refine Kept.ite (fun _ => ?_) (fun _ => ?_)) | ((with_reducible apply State.dramWarm_kept); on_goal 2 => exact rfl) | ((with_reducible apply State.dramCold_kept); on_goal 2 => exact rfl) | ((with_reducible apply State.logFlush_kept); on_goal 2 => exact rfl) | ((with_reducible apply State.applyDefects_kept); on_goal 2 => exact rfl) | ((with_reducible apply State.skip_kept); on_goal 2 => exact rfl) | ((with_reducible apply State.stepDone_kept); on_goal 2 => exact rfl) | ((with_reducible apply State.failStart_kept); on_goal 2 => exact rfl) | split)

theorem State.dieTemps_kept {s : State} {d0 : Option Int} {d1 : Option Int}
    {L₀ t₀} (h₀ : Kept L₀ t₀ s) (hs₀ : sliceSub [.ports] L₀ = true) :
    Kept L₀ t₀ (State.dieTemps s d0 d1) := by
  refine h₀.step (M := [.ports]) ?_ hs₀
  clear h₀ hs₀ t₀ L₀
  unfold State.dieTemps
  repeat' (first | (with_reducible exact Kept.refl _ _) | (with_reducible assumption) | ((with_reducible apply State.setPort_kept); on_goal 2 => exact rfl) | ((with_reducible refine Kept.each ?_ (fun _ _ _ => ?_))) | split)

theorem State.noLight_kept {s : State}
    {L₀ t₀} (h₀ : Kept L₀ t₀ s) (hs₀ : sliceSub [.start] L₀ = true) :
    Kept L₀ t₀ (State.noLight s) := by
  refine h₀.step (M := [.start]) ?_ hs₀
  clear h₀ hs₀ t₀ L₀
  unfold State.noLight
  repeat' (first | (with_reducible exact Kept.refl _ _) | (rewrite [updateOf_eq]; (with_reducible refine Kept.set_start ?_ ?h0); (case h0 => exact rfl)) | (extract_lets +onlyGivenNames x; have : x.2 = x.2 := rfl; clear this; subst x) | ((with_reducible apply State.notSkipped_kept); on_goal 2 => exact rfl))

theorem State.opticsKept_kept {s : State}
    {L₀ t₀} (h₀ : Kept L₀ t₀ s) (hs₀ : sliceSub (slicesBut [.pins, .col, .quads, .cairn, .lockLoss, .loader, .committed, .str, .ret, .numVfs, .turns, .nextItem, .nextMid, .trv, .cornice, .spur, .linkHoldMs, .replyMs, .thm, .flash, .bus, .pending, .free]) L₀ = true) :
    Kept L₀ t₀ (State.opticsKept s) := by
  refine h₀.step (M := (slicesBut [.pins, .col, .quads, .cairn, .lockLoss, .loader, .committed, .str, .ret, .numVfs, .turns, .nextItem, .nextMid, .trv, .cornice, .spur, .linkHoldMs, .replyMs, .thm, .flash, .bus, .pending, .free])) ?_ hs₀
  clear h₀ hs₀ t₀ L₀
  unfold State.opticsKept
  repeat' (first | (with_reducible exact Kept.refl _ _) | (with_reducible assumption) | (extract_lets +onlyGivenNames x; (refine Kept.cut (x := x) ?_ (fun _ => ?_); (on_goal 1 => (unfold x; clear x)); (on_goal 2 => clear_value x))) | (rewrite [updateOf_eq]; (with_reducible refine Kept.set_start ?_ ?h0); (case h0 => exact rfl)) | (rewrite [updateOf_eq]; (with_reducible refine Kept.set_laser ?_ ?h0 ?m0); (case h0 => exact rfl); (case m0 => exact MemOk.same rfl)) | (extract_lets +onlyGivenNames x; have : LaserBlk := x; clear this; subst x) | ((with_reducible apply State.skip_kept); on_goal 2 => exact rfl) | ((with_reducible apply State.warmTo_kept); on_goal 2 => exact rfl) | ((with_reducible apply State.restoreSnap_kept); on_goal 2 => exact rfl) | ((with_reducible apply State.fullStart_kept); on_goal 2 => exact rfl) | ((with_reducible apply State.notSkipped_kept); on_goal 2 => exact rfl) | split)

theorem State.stepOptics_kept {s : State} {seat : SeatInput} {d0 : Option Int} {d1 : Option Int}
    {L₀ t₀} (h₀ : Kept L₀ t₀ s) (hs₀ : sliceSub (slicesBut [.pins, .col, .quads, .cairn, .lockLoss, .loader, .committed, .str, .ret, .numVfs, .turns, .nextItem, .nextMid, .trv, .cornice, .spur, .linkHoldMs, .replyMs, .thm, .flash, .bus, .pending, .free]) L₀ = true) :
    Kept L₀ t₀ (State.stepOptics s seat d0 d1) := by
  refine h₀.step (M := (slicesBut [.pins, .col, .quads, .cairn, .lockLoss, .loader, .committed, .str, .ret, .numVfs, .turns, .nextItem, .nextMid, .trv, .cornice, .spur, .linkHoldMs, .replyMs, .thm, .flash, .bus, .pending, .free])) ?_ hs₀
  clear h₀ hs₀ t₀ L₀
  unfold State.stepOptics
  repeat' (first | (with_reducible exact Kept.refl _ _) | (rewrite [updateOf_eq]; (with_reducible refine Kept.set_laser ?_ ?h0 ?m0); (case h0 => exact rfl); (case m0 => exact MemOk.same rfl)) | (extract_lets +onlyGivenNames x; have : LaserBlk := x; clear this; subst x) | (extract_lets +onlyGivenNames x; have : x.2 = x.2 := rfl; clear this; subst x) | (with_reducible refine Kept.ite (fun _ => ?_) (fun _ => ?_)) | ((with_reducible apply State.dieTemps_kept); on_goal 2 => exact rfl) | ((with_reducible apply State.authenticate_kept); on_goal 2 => exact rfl) | ((with_reducible apply State.noLight_kept); on_goal 2 => exact rfl) | ((with_reducible apply State.opticsKept_kept); on_goal 2 => exact rfl) | ((with_reducible apply State.notSkipped_kept); on_goal 2 => exact rfl) | ((with_reducible apply State.warmUp_kept); on_goal 2 => exact rfl))

theorem State.retReason_kept {s : State}
    {L₀ t₀} (h₀ : Kept L₀ t₀ s) (hs₀ : sliceSub [.ret, .pfMsix, .irqs, .dram, .ras] L₀ = true) :
    Kept L₀ t₀ (State.retReason s).2 := by
  refine h₀.step (M := [.ret, .pfMsix, .irqs, .dram, .ras]) ?_ hs₀
  clear h₀ hs₀ t₀ L₀
  unfold State.retReason
  repeat' (first | (with_reducible exact Kept.refl _ _) | (rewrite [updateOf_eq]; (with_reducible refine Kept.set_ret ?_ ?h0); (case h0 => exact rfl)) | (extract_lets +onlyGivenNames x; have : x.2 = x.2 := rfl; clear this; subst x) | (with_reducible refine State.memRead_kept_eq ?_ rfl (by assumption)) | split)

theorem State.staged_kept {s : State}
    {L₀ t₀} (h₀ : Kept L₀ t₀ s) (hs₀ : sliceSub [.start] L₀ = true) :
    Kept L₀ t₀ (State.staged s) := by
  refine h₀.step (M := [.start]) ?_ hs₀
  clear h₀ hs₀ t₀ L₀
  unfold State.staged
  repeat' (first | (with_reducible exact Kept.refl _ _) | (rewrite [updateOf_eq]; (with_reducible refine Kept.set_start ?_ ?h0); (case h0 => exact rfl)) | (extract_lets +onlyGivenNames x; have : x.2 = x.2 := rfl; clear this; subst x) | ((with_reducible apply State.stepDone_kept); on_goal 2 => exact rfl) | split)

theorem State.defaultLoad_kept {s : State}
    {L₀ t₀} (h₀ : Kept L₀ t₀ s) (hs₀ : sliceSub [.loader, .mbx, .pfMsix, .irqs, .ras, .hostMem] L₀ = true) :
    Kept L₀ t₀ (State.defaultLoad s) := by
  refine h₀.step (M := [.loader, .mbx, .pfMsix, .irqs, .ras, .hostMem]) ?_ hs₀
  clear h₀ hs₀ t₀ L₀
  unfold State.defaultLoad
  repeat' (first | (with_reducible exact Kept.refl _ _) | (rewrite [updateOf_eq]; (with_reducible refine Kept.set_loader ?_ ?h0); (case h0 => exact rfl)) | (extract_lets +onlyGivenNames x; have : x.2 = x.2 := rfl; clear this; subst x) | (with_reducible refine Kept.ite (fun _ => ?_) (fun _ => ?_)) | ((with_reducible apply State.headerIn_kept); on_goal 2 => exact rfl) | ((with_reducible apply State.beginLoad_kept); on_goal 2 => exact rfl) | ((with_reducible apply State.copyIn_kept); on_goal 2 => exact rfl) | ((with_reducible apply State.loadFail_kept); on_goal 2 => exact rfl) | ((with_reducible apply State.stageCRun_kept); on_goal 2 => exact rfl) | ((with_reducible apply State.setLoader_kept); on_goal 2 => exact rfl))

theorem State.stepStructure_kept {s : State}
    {L₀ t₀} (h₀ : Kept L₀ t₀ s) (hs₀ : sliceSub (slicesBut [.pins, .lockLoss, .committed, .str, .numVfs, .turns, .nextMid, .linkHoldMs, .replyMs, .pmsg, .laser, .thm, .flash, .bus, .pending]) L₀ = true) :
    Kept L₀ t₀ (State.stepStructure s) := by
  refine h₀.step (M := (slicesBut [.pins, .lockLoss, .committed, .str, .numVfs, .turns, .nextMid, .linkHoldMs, .replyMs, .pmsg, .laser, .thm, .flash, .bus, .pending])) ?_ hs₀
  clear h₀ hs₀ t₀ L₀
  unfold State.stepStructure
  repeat' (first | (with_reducible exact Kept.refl _ _) | (rewrite [updateOf_eq]; (with_reducible refine Kept.set_loader ?_ ?h0); (case h0 => exact rfl)) | (extract_lets +onlyGivenNames x; have : x.2 = x.2 := rfl; clear this; subst x) | (with_reducible refine Kept.ite (fun _ => ?_) (fun _ => ?_)) | ((with_reducible apply State.retReason_kept); on_goal 2 => exact rfl) | ((with_reducible apply State.fatalSince_kept); on_goal 2 => exact rfl) | ((with_reducible apply State.skip_kept); on_goal 2 => exact rfl) | ((with_reducible apply State.staged_kept); on_goal 2 => exact rfl) | ((with_reducible apply State.defaultLoad_kept); on_goal 2 => exact rfl) | ((with_reducible apply State.eccFill_kept); on_goal 2 => exact rfl) | ((with_reducible apply State.notSkipped_kept); on_goal 2 => exact rfl) | split)

theorem execStartStepDone_kept {st : StartStep} {s : State}
    {L₀ t₀} (h₀ : Kept L₀ t₀ s) (hs₀ : sliceSub (slicesBut [.pins, .lockLoss, .numVfs, .turns, .nextMid, .linkHoldMs, .replyMs, .thm, .flash, .bus, .pending]) L₀ = true) :
    Kept L₀ t₀ (outOf s (execStartStepDone st s)) := by
  refine h₀.step (M := (slicesBut [.pins, .lockLoss, .numVfs, .turns, .nextMid, .linkHoldMs, .replyMs, .thm, .flash, .bus, .pending])) ?_ hs₀
  clear h₀ hs₀ t₀ L₀
  unfold execStartStepDone
  repeat' (first | (dsimp -zeta -iota -proj only [outOf_next]) | (with_reducible exact Kept.refl _ _) | (with_reducible assumption) | (extract_lets +onlyGivenNames x; clear_value x) | ((with_reducible apply State.stepsCheck_kept); on_goal 2 => exact rfl) | ((with_reducible apply State.stepFirmware_kept); on_goal 2 => exact rfl) | ((with_reducible apply State.stepCairn_kept); on_goal 2 => exact rfl) | ((with_reducible apply State.stepDram_kept); on_goal 2 => exact rfl) | ((with_reducible apply State.stepOptics_kept); on_goal 2 => exact rfl) | ((with_reducible apply State.stepStructure_kept); on_goal 2 => exact rfl) | ((with_reducible refine Kept.when ?_ (fun _ _ => ?_))) | split)

theorem State.nowReady_kept {s : State} {ph : Phase}
    {L₀ t₀} (h₀ : Kept L₀ t₀ s) (hs₀ : sliceSub [.col, .start] L₀ = true) :
    Kept L₀ t₀ (State.nowReady s ph) := by
  refine h₀.step (M := [.col, .start]) ?_ hs₀
  clear h₀ hs₀ t₀ L₀
  unfold State.nowReady
  repeat' (first | (with_reducible exact Kept.refl _ _) | (rewrite [updateOf_eq]; (with_reducible refine Kept.set_col ?_ ?h0); (case h0 => exact rfl)) | (extract_lets +onlyGivenNames x; have : x.2 = x.2 := rfl; clear this; subst x) | (extract_lets +onlyGivenNames x; clear_value x) | ((with_reducible apply State.setPhase_kept); on_goal 2 => exact rfl))

theorem execStartReady_kept {s : State}
    {L₀ t₀} (h₀ : Kept L₀ t₀ s) (hs₀ : sliceSub (slicesBut [.pins, .cairn, .lockLoss, .numVfs, .turns, .nextItem, .nextMid, .linkHoldMs, .replyMs, .pmsg, .laser, .thm, .flash, .bus, .pending, .free]) L₀ = true) :
    Kept L₀ t₀ (outOf s (execStartReady s)) := by
  refine h₀.step (M := (slicesBut [.pins, .cairn, .lockLoss, .numVfs, .turns, .nextItem, .nextMid, .linkHoldMs, .replyMs, .pmsg, .laser, .thm, .flash, .bus, .pending, .free])) ?_ hs₀
  clear h₀ hs₀ t₀ L₀
  unfold execStartReady
  repeat' (first | (dsimp -zeta -iota -proj only [outOf_next]) | (with_reducible exact Kept.refl _ _) | (with_reducible assumption) | (rewrite [updateOf_eq]; (with_reducible refine Kept.set_ret ?_ ?h0); (case h0 => exact rfl)) | (extract_lets +onlyGivenNames x; have : x.2 = x.2 := rfl; clear this; subst x) | (with_reducible refine Kept.ite (fun _ => ?_) (fun _ => ?_)) | ((with_reducible apply State.stepsCheck_kept); on_goal 2 => exact rfl) | ((with_reducible apply State.nowReady_kept); on_goal 2 => exact rfl) | ((with_reducible refine Kept.when ?_ (fun _ _ => ?_))))

theorem execStartWatchdogExpiry_kept {s : State}
    {L₀ t₀} (h₀ : Kept L₀ t₀ s) (hs₀ : sliceSub (slicesBut [.pins, .lockLoss, .committed, .str, .ret, .numVfs, .turns, .nextMid, .linkHoldMs, .replyMs, .pmsg, .laser, .thm, .flash, .bus, .pending]) L₀ = true) :
    Kept L₀ t₀ (outOf s (execStartWatchdogExpiry s)) := by
  refine h₀.step (M := (slicesBut [.pins, .lockLoss, .committed, .str, .ret, .numVfs, .turns, .nextMid, .linkHoldMs, .replyMs, .pmsg, .laser, .thm, .flash, .bus, .pending])) ?_ hs₀
  clear h₀ hs₀ t₀ L₀
  unfold execStartWatchdogExpiry
  repeat' (first | (dsimp -zeta -iota -proj only [outOf_next]) | (with_reducible exact Kept.refl _ _) | (with_reducible assumption) | ((with_reducible apply State.failStart_kept); on_goal 2 => exact rfl) | ((with_reducible refine Kept.when ?_ (fun _ _ => ?_))))

theorem execStartRetry_kept {s : State}
    {L₀ t₀} (h₀ : Kept L₀ t₀ s) (hs₀ : sliceSub [.col, .start] L₀ = true) :
    Kept L₀ t₀ (outOf s (execStartRetry s)) := by
  refine h₀.step (M := [.col, .start]) ?_ hs₀
  clear h₀ hs₀ t₀ L₀
  unfold execStartRetry
  repeat' (first | (dsimp -zeta -iota -proj only [outOf_next]) | (with_reducible exact Kept.refl _ _) | (with_reducible assumption) | ((with_reducible apply State.startDue_kept); on_goal 2 => exact rfl) | ((with_reducible refine Kept.when ?_ (fun _ _ => ?_))) | split)

theorem execOpticsDeadline_kept {s : State}
    {L₀ t₀} (h₀ : Kept L₀ t₀ s) (hs₀ : sliceSub (slicesBut [.pins, .col, .cairn, .lockLoss, .numVfs, .turns, .nextItem, .nextMid, .linkHoldMs, .replyMs, .pmsg, .thm, .flash, .bus, .pending, .free]) L₀ = true) :
    Kept L₀ t₀ (outOf s (execOpticsDeadline s)) := by
  refine h₀.step (M := (slicesBut [.pins, .col, .cairn, .lockLoss, .numVfs, .turns, .nextItem, .nextMid, .linkHoldMs, .replyMs, .pmsg, .thm, .flash, .bus, .pending, .free])) ?_ hs₀
  clear h₀ hs₀ t₀ L₀
  unfold execOpticsDeadline
  repeat' (first | (dsimp -zeta -iota -proj only [outOf_next]) | (with_reducible exact Kept.refl _ _) | (with_reducible assumption) | (rewrite [updateOf_eq]; (with_reducible refine Kept.set_start ?_ ?h0); (case h0 => exact rfl)) | (rewrite [updateOf_eq]; (with_reducible refine Kept.set_cal ?_ ?h0); (case h0 => exact rfl)) | (extract_lets +onlyGivenNames x; have : x.2 = x.2 := rfl; clear this; subst x) | (extract_lets +onlyGivenNames x; clear_value x) | ((with_reducible apply State.setPort_kept); on_goal 2 => exact rfl) | ((with_reducible apply State.lasersIdle_kept); on_goal 2 => exact rfl) | ((with_reducible apply State.stepsCheck_kept); on_goal 2 => exact rfl) | ((with_reducible refine Kept.each ?_ (fun _ _ _ => ?_))) | ((with_reducible refine Kept.when ?_ (fun _ _ => ?_))))

theorem execOpticsResume_kept {ctg : SeatInput} {s : State}
    {L₀ t₀} (h₀ : Kept L₀ t₀ s) (hs₀ : sliceSub (slicesBut [.pins, .col, .start, .quads, .cairn, .lockLoss, .loader, .committed, .str, .ret, .numVfs, .turns, .nextItem, .nextMid, .trv, .cornice, .spur, .linkHoldMs, .replyMs, .thm, .flash, .bus, .pending, .free]) L₀ = true) :
    Kept L₀ t₀ (outOf s (execOpticsResume ctg s)) := by
  refine h₀.step (M := (slicesBut [.pins, .col, .start, .quads, .cairn, .lockLoss, .loader, .committed, .str, .ret, .numVfs, .turns, .nextItem, .nextMid, .trv, .cornice, .spur, .linkHoldMs, .replyMs, .thm, .flash, .bus, .pending, .free])) ?_ hs₀
  clear h₀ hs₀ t₀ L₀
  unfold execOpticsResume
  repeat' (first | (dsimp -zeta -iota -proj only [outOf_next]) | (with_reducible exact Kept.refl _ _) | (with_reducible assumption) | (extract_lets +onlyGivenNames x; have : x.2 = x.2 := rfl; clear this; subst x) | (with_reducible refine Kept.ite (fun _ => ?_) (fun _ => ?_)) | ((with_reducible apply State.authenticate_kept); on_goal 2 => exact rfl) | ((with_reducible apply State.warmUp_kept); on_goal 2 => exact rfl) | ((with_reducible apply State.fullStart_kept); on_goal 2 => exact rfl) | ((with_reducible refine Kept.when ?_ (fun _ _ => ?_))))

theorem execRestartWarm_kept {val : W32} {s : State}
    {L₀ t₀} (h₀ : Kept L₀ t₀ s) (hs₀ : sliceSub (slicesBut [.pins, .lockLoss, .committed, .str, .ret, .numVfs, .turns, .nextMid, .linkHoldMs, .replyMs, .pmsg, .laser, .thm, .flash, .bus, .pending]) L₀ = true) :
    Kept L₀ t₀ (outOf s (execRestartWarm val s)) := by
  refine h₀.step (M := (slicesBut [.pins, .lockLoss, .committed, .str, .ret, .numVfs, .turns, .nextMid, .linkHoldMs, .replyMs, .pmsg, .laser, .thm, .flash, .bus, .pending])) ?_ hs₀
  clear h₀ hs₀ t₀ L₀
  unfold execRestartWarm
  repeat' (first | (dsimp -zeta -iota -proj only [outOf_next]) | (with_reducible exact Kept.refl _ _) | (with_reducible assumption) | ((with_reducible apply State.restartWrite_kept); on_goal 2 => exact rfl) | ((with_reducible refine Kept.when ?_ (fun _ _ => ?_))))

theorem execRestartCold_kept {val : W32} {s : State}
    {L₀ t₀} (h₀ : Kept L₀ t₀ s) (hs₀ : sliceSub (slicesBut [.pins, .lockLoss, .committed, .str, .ret, .numVfs, .turns, .nextMid, .linkHoldMs, .replyMs, .pmsg, .laser, .thm, .flash, .bus, .pending]) L₀ = true) :
    Kept L₀ t₀ (outOf s (execRestartCold val s)) := by
  refine h₀.step (M := (slicesBut [.pins, .lockLoss, .committed, .str, .ret, .numVfs, .turns, .nextMid, .linkHoldMs, .replyMs, .pmsg, .laser, .thm, .flash, .bus, .pending])) ?_ hs₀
  clear h₀ hs₀ t₀ L₀
  unfold execRestartCold
  repeat' (first | (dsimp -zeta -iota -proj only [outOf_next]) | (with_reducible exact Kept.refl _ _) | (with_reducible assumption) | ((with_reducible apply State.restartWrite_kept); on_goal 2 => exact rfl) | ((with_reducible refine Kept.when ?_ (fun _ _ => ?_))))

theorem execClearAndRestart_kept {val : W32} {s : State}
    {L₀ t₀} (h₀ : Kept L₀ t₀ s) (hs₀ : sliceSub (slicesBut [.pins, .lockLoss, .committed, .str, .ret, .numVfs, .turns, .nextMid, .linkHoldMs, .replyMs, .pmsg, .laser, .thm, .flash, .bus, .pending]) L₀ = true) :
    Kept L₀ t₀ (outOf s (execClearAndRestart val s)) := by
  refine h₀.step (M := (slicesBut [.pins, .lockLoss, .committed, .str, .ret, .numVfs, .turns, .nextMid, .linkHoldMs, .replyMs, .pmsg, .laser, .thm, .flash, .bus, .pending])) ?_ hs₀
  clear h₀ hs₀ t₀ L₀
  unfold execClearAndRestart
  repeat' (first | (dsimp -zeta -iota -proj only [outOf_next]) | (with_reducible exact Kept.refl _ _) | (with_reducible assumption) | ((with_reducible apply State.restartWrite_kept); on_goal 2 => exact rfl) | ((with_reducible refine Kept.when ?_ (fun _ _ => ?_))))

end Sys2Proof.Machine
end

