-- ==== Sys2Proof/Laws/Regs.lean ====
section
/-! SUPPORT. What each operation of Machine/Regs.lean may change (`Kept`): the parts of the state, listed; every memory stays canonical,
and no bit of Cairn is cleared. -/

set_option linter.unusedTactic false
set_option linter.unreachableTactic false

namespace Sys2Proof.Machine

theorem State.msixFlush_kept {s : State} {sp : Space}
    {L₀ t₀} (h₀ : Kept L₀ t₀ s) (hs₀ : sliceSub [.vfs, .pfMsix, .irqs] L₀ = true) :
    Kept L₀ t₀ (State.msixFlush s sp) := by
  refine h₀.step (M := [.vfs, .pfMsix, .irqs]) ?_ hs₀
  clear h₀ hs₀ t₀ L₀
  unfold State.msixFlush
  repeat' (first | (with_reducible exact Kept.refl _ _) | (with_reducible assumption) | (rewrite [updateOf_eq]; (with_reducible refine Kept.set_pfMsix ?_ ?h0); (case h0 => exact rfl)) | (extract_lets +onlyGivenNames x; have : x.2 = x.2 := rfl; clear this; subst x) | (with_reducible refine Kept.ite (fun _ => ?_) (fun _ => ?_)) | ((with_reducible apply State.signalPf_kept); on_goal 2 => exact rfl) | ((with_reducible apply State.signalVf_kept); on_goal 2 => exact rfl) | ((with_reducible apply State.setVf_kept); on_goal 2 => exact rfl) | ((with_reducible refine Kept.each ?_ (fun _ _ _ => ?_))) | split)

theorem State.msixWrite_kept {s : State} {sp : Space} {off : Nat} {v : Nat}
    {L₀ t₀} (h₀ : Kept L₀ t₀ s) (hs₀ : sliceSub [.vfs, .pfMsix, .irqs] L₀ = true) :
    Kept L₀ t₀ (State.msixWrite s sp off v) := by
  refine h₀.step (M := [.vfs, .pfMsix, .irqs]) ?_ hs₀
  clear h₀ hs₀ t₀ L₀
  unfold State.msixWrite
  repeat' (first | (with_reducible exact Kept.refl _ _) | (rewrite [updateOf_eq]; (with_reducible refine Kept.set_pfMsix ?_ ?h0); (case h0 => exact rfl)) | (extract_lets +onlyGivenNames x; have : x.2 = x.2 := rfl; clear this; subst x) | (extract_lets +onlyGivenNames x; clear_value x) | ((with_reducible apply State.setVf_kept); on_goal 2 => exact rfl) | ((with_reducible apply State.msixFlush_kept); on_goal 2 => exact rfl) | split)

theorem State.dmcCfgWrite_kept {s : State} {v : Nat}
    {L₀ t₀} (h₀ : Kept L₀ t₀ s) (hs₀ : sliceSub [.dram] L₀ = true) :
    Kept L₀ t₀ (State.dmcCfgWrite s v) := by
  refine h₀.step (M := [.dram]) ?_ hs₀
  clear h₀ hs₀ t₀ L₀
  unfold State.dmcCfgWrite
  repeat' (first | (with_reducible exact Kept.refl _ _) | (rewrite [updateOf_eq]; (with_reducible refine Kept.set_dram ?_ ?h0 ?m0); (case h0 => exact rfl); (case m0 => exact ⟨MemOk.same rfl, MemOk.same rfl, MemOk.same rfl⟩)) | (extract_lets +onlyGivenNames x; have : DramSt := x; clear this; subst x) | (extract_lets +onlyGivenNames x; clear_value x) | (with_reducible refine Kept.ite (fun _ => ?_) (fun _ => ?_)))

theorem State.thmCfgWrite_kept {s : State} {v : Nat}
    {L₀ t₀} (h₀ : Kept L₀ t₀ s) (hs₀ : sliceSub [.spur, .thm] L₀ = true) :
    Kept L₀ t₀ (State.thmCfgWrite s v) := by
  refine h₀.step (M := [.spur, .thm]) ?_ hs₀
  clear h₀ hs₀ t₀ L₀
  unfold State.thmCfgWrite
  repeat' (first | (with_reducible exact Kept.refl _ _) | (rewrite [updateOf_eq]; (with_reducible refine Kept.set_spur_thm ?_ ?h0 ?h1); (case h0 => exact rfl); (case h1 => exact rfl)))

theorem State.ringCtrlWrite_kept {s : State} {v : Nat}
    {L₀ t₀} (h₀ : Kept L₀ t₀ s) (hs₀ : sliceSub [.mbx] L₀ = true) :
    Kept L₀ t₀ (State.ringCtrlWrite s v) := by
  refine h₀.step (M := [.mbx]) ?_ hs₀
  clear h₀ hs₀ t₀ L₀
  unfold State.ringCtrlWrite
  repeat' (first | (with_reducible exact Kept.refl _ _) | (rewrite [updateOf_eq]; (with_reducible refine Kept.set_mbx ?_ ?h0); (case h0 => exact rfl)))

theorem State.vfpWrite_kept {s : State} {r : Reg} {v : Nat}
    {L₀ t₀} (h₀ : Kept L₀ t₀ s) (hs₀ : sliceSub [.vfs] L₀ = true) :
    Kept L₀ t₀ (State.vfpWrite s r v) := by
  refine h₀.step (M := [.vfs]) ?_ hs₀
  clear h₀ hs₀ t₀ L₀
  unfold State.vfpWrite
  repeat' (first | (with_reducible exact Kept.refl _ _) | ((with_reducible apply State.setVf_kept); on_goal 2 => exact rfl) | ((with_reducible apply State.setQueue_kept); on_goal 2 => exact rfl) | ((with_reducible apply State.qCtrlWrite_kept); on_goal 2 => exact rfl) | split)

theorem State.regWrite_kept {s : State} {r : Reg} {v : Nat}
    {L₀ t₀} (h₀ : Kept L₀ t₀ s) (hs₀ : sliceSub (slicesBut [.pins, .lockLoss, .committed, .str, .ret, .numVfs, .turns, .nextMid, .pmsg, .flash, .bus, .pending]) L₀ = true) :
    Kept L₀ t₀ (State.regWrite s r v) := by
  refine h₀.step (M := (slicesBut [.pins, .lockLoss, .committed, .str, .ret, .numVfs, .turns, .nextMid, .pmsg, .flash, .bus, .pending])) ?_ hs₀
  clear h₀ hs₀ t₀ L₀
  unfold State.regWrite
  repeat' (first | (with_reducible exact Kept.refl _ _) | (rewrite [updateOf_eq]; (with_reducible refine Kept.set_mbx ?_ ?h0); (case h0 => exact rfl)) | (rewrite [updateOf_eq]; (with_reducible refine Kept.set_start ?_ ?h0); (case h0 => exact rfl)) | (rewrite [updateOf_eq]; (with_reducible refine Kept.set_ras ?_ ?h0); (case h0 => exact rfl)) | (rewrite [updateOf_eq]; (with_reducible refine Kept.set_thm ?_ ?h0); (case h0 => exact rfl)) | (rewrite [updateOf_eq]; (with_reducible refine Kept.set_cal ?_ ?h0); (case h0 => exact rfl)) | (rewrite [updateOf_eq]; (with_reducible refine Kept.set_laser ?_ ?h0 ?m0); (case h0 => exact rfl); (case m0 => exact MemOk.same rfl)) | (rewrite [updateOf_eq]; (with_reducible refine Kept.set_linkHoldMs_replyMs ?_ ?h0 ?h1); (case h0 => exact rfl); (case h1 => exact rfl)) | (rewrite [updateOf_eq]; (with_reducible refine Kept.set_spur ?_ ?h0); (case h0 => exact rfl)) | (rewrite [updateOf_eq]; (with_reducible refine Kept.set_crest ?_ ?h0 ?m0); (case h0 => exact rfl); (case m0 => exact ⟨MemOk.same rfl, MemOk.same rfl, MemOk.same rfl, MemOk.same rfl, MemOk.same rfl, MemOk.same rfl⟩)) | (rewrite [updateOf_eq]; (with_reducible refine Kept.set_trv ?_ ?h0); (case h0 => exact rfl)) | (rewrite [updateOf_eq]; (with_reducible refine Kept.set_col ?_ ?h0); (case h0 => exact rfl)) | (extract_lets +onlyGivenNames x; have : LaserBlk := x; clear this; subst x) | (extract_lets +onlyGivenNames x; have : x.2 = x.2 := rfl; clear this; subst x) | (with_reducible refine Kept.ite (fun _ => ?_) (fun _ => ?_)) | ((with_reducible apply State.qpolWrite_kept); on_goal 2 => exact rfl) | ((with_reducible apply State.qforceWrite_kept); on_goal 2 => exact rfl) | ((with_reducible apply State.cairnReadOp_kept); on_goal 2 => exact rfl) | ((with_reducible apply State.setPart_kept); on_goal 2 => exact rfl) | ((with_reducible apply State.dmcCfgWrite_kept); on_goal 2 => exact rfl) | ((with_reducible apply State.adcRequest_kept); on_goal 2 => exact rfl) | ((with_reducible apply State.tripClrWrite_kept); on_goal 2 => exact rfl) | ((with_reducible apply State.thmCfgWrite_kept); on_goal 2 => exact rfl) | ((with_reducible apply State.thmReqWrite_kept); on_goal 2 => exact rfl) | ((with_reducible apply State.restartWrite_kept); on_goal 2 => exact rfl) | ((with_reducible apply State.ringCtrlWrite_kept); on_goal 2 => exact rfl) | ((with_reducible apply State.mbxTail_kept); on_goal 2 => exact rfl) | ((with_reducible apply State.mbxUnknown_kept); on_goal 2 => exact rfl) | ((with_reducible apply State.mbxBell_kept); on_goal 2 => exact rfl) | ((with_reducible apply State.doorbell_kept); on_goal 2 => exact rfl) | ((with_reducible apply State.vfpWrite_kept); on_goal 2 => exact rfl) | split)

theorem State.busWrite_kept {s : State} {sp : Space} {off : Nat} {wide : Bool} {v : Nat}
    {L₀ t₀} (h₀ : Kept L₀ t₀ s) (hs₀ : sliceSub (slicesBut [.pins, .lockLoss, .committed, .str, .ret, .numVfs, .turns, .nextMid, .pmsg, .flash, .pending]) L₀ = true) :
    Kept L₀ t₀ (State.busWrite s sp off wide v) := by
  refine h₀.step (M := (slicesBut [.pins, .lockLoss, .committed, .str, .ret, .numVfs, .turns, .nextMid, .pmsg, .flash, .pending])) ?_ hs₀
  clear h₀ hs₀ t₀ L₀
  unfold State.busWrite
  repeat' (first | (with_reducible exact Kept.refl _ _) | (rewrite [updateOf_eq]; (with_reducible refine Kept.set_bus ?_ ?h0 ?m0); (case h0 => exact rfl); (case m0 => refine ⟨?_, ?_⟩ <;> first | exact MemOk.same rfl | exact ⟨spSet_wf⟩ | exact ⟨spClear_wf⟩ | exact ⟨spWrite_wf⟩ | exact ⟨spMarks_wf⟩ | (split <;> first | exact MemOk.same rfl | exact ⟨spSet_wf⟩ | exact ⟨spClear_wf⟩ | exact ⟨spWrite_wf⟩ | exact ⟨spMarks_wf⟩))) | (extract_lets +onlyGivenNames x; have : x.2 = x.2 := rfl; clear this; subst x) | (extract_lets +onlyGivenNames x; clear_value x) | (with_reducible refine Kept.ite (fun _ => ?_) (fun _ => ?_)) | ((with_reducible apply State.regWrite_kept); on_goal 2 => exact rfl) | split)

theorem State.hostRegWrite_kept {s : State} {sp : Space} {off : Nat} {wide : Bool} {v : Nat}
    {L₀ t₀} (h₀ : Kept L₀ t₀ s) (hs₀ : sliceSub (slicesBut [.pins, .lockLoss, .committed, .str, .ret, .numVfs, .turns, .nextMid, .pmsg, .flash, .pending]) L₀ = true) :
    Kept L₀ t₀ (State.hostRegWrite s sp off wide v) := by
  refine h₀.step (M := (slicesBut [.pins, .lockLoss, .committed, .str, .ret, .numVfs, .turns, .nextMid, .pmsg, .flash, .pending])) ?_ hs₀
  clear h₀ hs₀ t₀ L₀
  unfold State.hostRegWrite
  repeat' (first | (with_reducible exact Kept.refl _ _) | (extract_lets +onlyGivenNames x; have : x.2 = x.2 := rfl; clear this; subst x) | (with_reducible refine Kept.ite (fun _ => ?_) (fun _ => ?_)) | ((with_reducible apply State.msixWrite_kept); on_goal 2 => exact rfl) | ((with_reducible apply State.busWrite_kept); on_goal 2 => exact rfl))

theorem execRegisterWrite_kept {sp : Space} {off : Nat} {wide : Bool} {val : W64} {s : State}
    {L₀ t₀} (h₀ : Kept L₀ t₀ s) (hs₀ : sliceSub (slicesBut [.pins, .lockLoss, .committed, .str, .ret, .numVfs, .turns, .nextMid, .pmsg, .flash, .pending]) L₀ = true) :
    Kept L₀ t₀ (outOf s (execRegisterWrite sp off wide val s)) := by
  refine h₀.step (M := (slicesBut [.pins, .lockLoss, .committed, .str, .ret, .numVfs, .turns, .nextMid, .pmsg, .flash, .pending])) ?_ hs₀
  clear h₀ hs₀ t₀ L₀
  unfold execRegisterWrite
  repeat' (first | (dsimp -zeta -iota -proj only [outOf_next]) | (with_reducible exact Kept.refl _ _) | ((with_reducible apply State.hostRegWrite_kept); on_goal 2 => exact rfl))

theorem execLowHalfWrite_kept {sp : Space} {off : Nat} {val : W32} {s : State}
    {L₀ t₀} (h₀ : Kept L₀ t₀ s) (hs₀ : sliceSub (slicesBut [.pins, .lockLoss, .committed, .str, .ret, .numVfs, .turns, .nextMid, .pmsg, .flash, .pending]) L₀ = true) :
    Kept L₀ t₀ (outOf s (execLowHalfWrite sp off val s)) := by
  refine h₀.step (M := (slicesBut [.pins, .lockLoss, .committed, .str, .ret, .numVfs, .turns, .nextMid, .pmsg, .flash, .pending])) ?_ hs₀
  clear h₀ hs₀ t₀ L₀
  unfold execLowHalfWrite
  repeat' (first | (dsimp -zeta -iota -proj only [outOf_next]) | (with_reducible exact Kept.refl _ _) | ((with_reducible apply State.hostRegWrite_kept); on_goal 2 => exact rfl))

theorem execHighHalfWrite_kept {sp : Space} {off : Nat} {val : W32} {s : State}
    {L₀ t₀} (h₀ : Kept L₀ t₀ s) (hs₀ : sliceSub (slicesBut [.pins, .lockLoss, .committed, .str, .ret, .numVfs, .turns, .nextMid, .pmsg, .flash, .pending]) L₀ = true) :
    Kept L₀ t₀ (outOf s (execHighHalfWrite sp off val s)) := by
  refine h₀.step (M := (slicesBut [.pins, .lockLoss, .committed, .str, .ret, .numVfs, .turns, .nextMid, .pmsg, .flash, .pending])) ?_ hs₀
  clear h₀ hs₀ t₀ L₀
  unfold execHighHalfWrite
  repeat' (first | (dsimp -zeta -iota -proj only [outOf_next]) | (with_reducible exact Kept.refl _ _) | ((with_reducible apply State.hostRegWrite_kept); on_goal 2 => exact rfl))

theorem State.regClear_kept {s : State} {r : Reg} {lo : Bool} {hi : Bool}
    {L₀ t₀} (h₀ : Kept L₀ t₀ s) (hs₀ : sliceSub [.quads, .lockLoss, .parts, .dram, .ras, .trv, .crest, .cornice, .spur, .ports, .links, .pmsg, .cal, .thm] L₀ = true) :
    Kept L₀ t₀ (State.regClear s r lo hi) := by
  refine h₀.step (M := [.quads, .lockLoss, .parts, .dram, .ras, .trv, .crest, .cornice, .spur, .ports, .links, .pmsg, .cal, .thm]) ?_ hs₀
  clear h₀ hs₀ t₀ L₀
  unfold State.regClear
  repeat' (first | (with_reducible exact Kept.refl _ _) | (with_reducible assumption) | (rewrite [updateOf_eq]; (with_reducible refine Kept.set_ras ?_ ?h0); (case h0 => exact rfl)) | (rewrite [updateOf_eq]; (with_reducible refine Kept.set_thm ?_ ?h0); (case h0 => exact rfl)) | (rewrite [updateOf_eq]; (with_reducible refine Kept.set_cal ?_ ?h0); (case h0 => exact rfl)) | (rewrite [updateOf_eq]; (with_reducible refine Kept.set_pmsg ?_ ?h0); (case h0 => exact rfl)) | (rewrite [updateOf_eq]; (with_reducible refine Kept.set_trv ?_ ?h0); (case h0 => exact rfl)) | (rewrite [updateOf_eq]; (with_reducible refine Kept.set_lockLoss ?_ ?h0); (case h0 => exact rfl)) | (extract_lets +onlyGivenNames x; have : x.2 = x.2 := rfl; clear this; subst x) | (extract_lets +onlyGivenNames x; have : x = fun a => x a := rfl; clear this; subst x; beta_reduce) | ((with_reducible apply State.setQ_kept); on_goal 2 => exact rfl) | ((with_reducible apply State.setPart_kept); on_goal 2 => exact rfl) | ((with_reducible apply State.setStack_kept); on_goal 2 => exact rfl) | ((with_reducible apply State.setCq_kept); on_goal 2 => exact rfl) | ((with_reducible apply State.setEng_kept); on_goal 2 => exact rfl) | ((with_reducible apply State.setSpurPart_kept); on_goal 2 => exact rfl) | ((with_reducible apply State.setChan_kept); on_goal 2 => exact rfl) | ((with_reducible apply State.setPort_kept); on_goal 2 => exact rfl) | ((with_reducible apply State.setLink_kept); on_goal 2 => exact rfl) | ((with_reducible refine Kept.when ?_ (fun _ _ => ?_))) | split)

theorem State.busRead_kept {s seen : State} {sp off wide} {L t} (h : Kept L t s)
    (hs : sliceSub (slicesBut [.pins, .col, .start, .cairn, .loader, .committed, .str, .ret, .numVfs, .vfs, .turns, .mbx, .pfMsix, .irqs, .items, .nextItem, .sends, .nextMid, .linkHoldMs, .replyMs, .laser, .flash, .hostMem, .pending, .free]) L = true) : Kept L t (s.busRead seen sp off wide) := by
  refine h.step (M := (slicesBut [.pins, .col, .start, .cairn, .loader, .committed, .str, .ret, .numVfs, .vfs, .turns, .mbx, .pfMsix, .irqs, .items, .nextItem, .sends, .nextMid, .linkHoldMs, .replyMs, .laser, .flash, .hostMem, .pending, .free])) ?_ hs
  clear h hs t L
  unfold State.busRead
  dsimp only
  repeat' (first | (with_reducible exact Kept.refl _ _) | ((with_reducible apply State.regClear_kept); on_goal 2 => exact rfl) | (rewrite [updateOf_eq]; (with_reducible refine Kept.set_bus ?_ ?h0 ?m0); (case h0 => exact rfl); (case m0 => refine ⟨?_, ?_⟩ <;> first | exact MemOk.same rfl | exact ⟨spSet_wf⟩)) | split)

theorem State.hostRegRead_kept {s : State} {sp : Space} {off : Nat} {wide : Bool}
    {L₀ t₀} (h₀ : Kept L₀ t₀ s) (hs₀ : sliceSub (slicesBut [.pins, .col, .start, .cairn, .loader, .committed, .str, .ret, .numVfs, .vfs, .turns, .mbx, .pfMsix, .irqs, .items, .nextItem, .sends, .nextMid, .linkHoldMs, .replyMs, .laser, .flash, .hostMem, .pending, .free]) L₀ = true) :
    Kept L₀ t₀ (State.hostRegRead s sp off wide) := by
  refine h₀.step (M := (slicesBut [.pins, .col, .start, .cairn, .loader, .committed, .str, .ret, .numVfs, .vfs, .turns, .mbx, .pfMsix, .irqs, .items, .nextItem, .sends, .nextMid, .linkHoldMs, .replyMs, .laser, .flash, .hostMem, .pending, .free])) ?_ hs₀
  clear h₀ hs₀ t₀ L₀
  unfold State.hostRegRead
  repeat' (first | (with_reducible exact Kept.refl _ _) | (rewrite [updateOf_eq]; (with_reducible refine Kept.set_bus ?_ ?h0 ?m0); (case h0 => exact rfl); (case m0 => exact ⟨MemOk.same rfl, MemOk.same rfl⟩)) | (extract_lets +onlyGivenNames x; have : x.2 = x.2 := rfl; clear this; subst x) | (extract_lets +onlyGivenNames x; have : x = fun a => x a := rfl; clear this; subst x; beta_reduce) | (with_reducible refine Kept.ite (fun _ => ?_) (fun _ => ?_)) | ((with_reducible apply State.busRead_kept); on_goal 2 => exact rfl) | split)

theorem execRcRead_kept {sp : Space} {off : Nat} {wide : Bool} {s : State}
    {L₀ t₀} (h₀ : Kept L₀ t₀ s) (hs₀ : sliceSub (slicesBut [.pins, .col, .start, .cairn, .loader, .committed, .str, .ret, .numVfs, .vfs, .turns, .mbx, .pfMsix, .irqs, .items, .nextItem, .sends, .nextMid, .linkHoldMs, .replyMs, .laser, .flash, .hostMem, .pending, .free]) L₀ = true) :
    Kept L₀ t₀ (outOf s (execRcRead sp off wide s)) := by
  refine h₀.step (M := (slicesBut [.pins, .col, .start, .cairn, .loader, .committed, .str, .ret, .numVfs, .vfs, .turns, .mbx, .pfMsix, .irqs, .items, .nextItem, .sends, .nextMid, .linkHoldMs, .replyMs, .laser, .flash, .hostMem, .pending, .free])) ?_ hs₀
  clear h₀ hs₀ t₀ L₀
  unfold execRcRead
  repeat' (first | (dsimp -zeta -iota -proj only [outOf_next]) | (with_reducible exact Kept.refl _ _) | ((with_reducible apply State.hostRegRead_kept); on_goal 2 => exact rfl))

theorem execLowHalfRead_kept {sp : Space} {off : Nat} {s : State}
    {L₀ t₀} (h₀ : Kept L₀ t₀ s) (hs₀ : sliceSub (slicesBut [.pins, .col, .start, .cairn, .loader, .committed, .str, .ret, .numVfs, .vfs, .turns, .mbx, .pfMsix, .irqs, .items, .nextItem, .sends, .nextMid, .linkHoldMs, .replyMs, .laser, .flash, .hostMem, .pending, .free]) L₀ = true) :
    Kept L₀ t₀ (outOf s (execLowHalfRead sp off s)) := by
  refine h₀.step (M := (slicesBut [.pins, .col, .start, .cairn, .loader, .committed, .str, .ret, .numVfs, .vfs, .turns, .mbx, .pfMsix, .irqs, .items, .nextItem, .sends, .nextMid, .linkHoldMs, .replyMs, .laser, .flash, .hostMem, .pending, .free])) ?_ hs₀
  clear h₀ hs₀ t₀ L₀
  unfold execLowHalfRead
  repeat' (first | (dsimp -zeta -iota -proj only [outOf_next]) | (with_reducible exact Kept.refl _ _) | ((with_reducible apply State.hostRegRead_kept); on_goal 2 => exact rfl))

end Sys2Proof.Machine
end

