-- ==== Sys2Proof/Laws/Tick.lean ====
section
/-! SUPPORT. What each operation of Machine/Tick.lean may change (`Kept`): the parts of the state, listed; every memory stays canonical,
and no bit of Cairn is cleared. -/

set_option linter.unusedTactic false
set_option linter.unreachableTactic false

namespace Sys2Proof.Machine

theorem State.drainChans_kept {s : State}
    {L₀ t₀} (h₀ : Kept L₀ t₀ s) (hs₀ : sliceSub [.dram] L₀ = true) :
    Kept L₀ t₀ (State.drainChans s) := by
  refine h₀.step (M := [.dram]) ?_ hs₀
  clear h₀ hs₀ t₀ L₀
  unfold State.drainChans
  repeat' (first | (with_reducible exact Kept.refl _ _) | (rewrite [updateOf_eq]; (with_reducible refine Kept.set_dram ?_ ?h0 ?m0); (case h0 => exact rfl); (case m0 => exact ⟨MemOk.same rfl, MemOk.same rfl, MemOk.same rfl⟩)))

theorem State.rampLaser_kept {s : State} {n : Fin 20}
    {L₀ t₀} (h₀ : Kept L₀ t₀ s) (hs₀ : sliceSub [.laser] L₀ = true) :
    Kept L₀ t₀ (State.rampLaser s n) := by
  refine h₀.step (M := [.laser]) ?_ hs₀
  clear h₀ hs₀ t₀ L₀
  unfold State.rampLaser
  repeat' (first | (with_reducible exact Kept.refl _ _) | (extract_lets +onlyGivenNames x; have : x.2 = x.2 := rfl; clear this; subst x) | (extract_lets +onlyGivenNames x; clear_value x) | (with_reducible refine Kept.ite (fun _ => ?_) (fun _ => ?_)) | ((with_reducible apply State.laserTo_kept); on_goal 2 => exact rfl))

theorem State.rampTick_kept {s : State}
    {L₀ t₀} (h₀ : Kept L₀ t₀ s) (hs₀ : sliceSub [.laser] L₀ = true) :
    Kept L₀ t₀ (State.rampTick s) := by
  refine h₀.step (M := [.laser]) ?_ hs₀
  clear h₀ hs₀ t₀ L₀
  unfold State.rampTick
  repeat' (first | (with_reducible exact Kept.refl _ _) | (with_reducible assumption) | (with_reducible refine Kept.ite (fun _ => ?_) (fun _ => ?_)) | ((with_reducible apply State.rampLaser_kept); on_goal 2 => exact rfl) | ((with_reducible refine Kept.each ?_ (fun _ _ _ => ?_))) | split)

theorem tick_kept {s : State}
    {L₀ t₀} (h₀ : Kept L₀ t₀ s) (hs₀ : sliceSub [.col, .dram, .laser] L₀ = true) :
    Kept L₀ t₀ (tick s) := by
  refine h₀.step (M := [.col, .dram, .laser]) ?_ hs₀
  clear h₀ hs₀ t₀ L₀
  unfold tick
  repeat' (first | (with_reducible exact Kept.refl _ _) | (rewrite [updateOf_eq]; (with_reducible refine Kept.set_col ?_ ?h0); (case h0 => exact rfl)) | (extract_lets +onlyGivenNames x; have : x.2 = x.2 := rfl; clear this; subst x) | (with_reducible refine Kept.ite (fun _ => ?_) (fun _ => ?_)) | ((with_reducible apply State.drainChans_kept); on_goal 2 => exact rfl) | ((with_reducible apply State.rampTick_kept); on_goal 2 => exact rfl))

end Sys2Proof.Machine
end

