-- ==== Sys2Proof/Laws/Exec.lean ====
section
/-! SUPPORT. Every command, and the tick: no memory leaves its canonical form and no bit of Cairn is cleared. -/

namespace Sys2Proof.Machine

/-- Every part of the state but the queue of commands. -/
def anyPart : List Slice := slicesBut [.pending]

theorem exec_kept {i : Instr} {s : State} : Kept anyPart s (outOf s (exec i s)) := by
  cases i with
  | registerWrite _ _ _ _ => exact execRegisterWrite_kept (Kept.refl _ _) rfl
  | lowHalfWrite _ _ _ => exact execLowHalfWrite_kept (Kept.refl _ _) rfl
  | highHalfWrite _ _ _ => exact execHighHalfWrite_kept (Kept.refl _ _) rfl
  | rcRead _ _ _ => exact execRcRead_kept (Kept.refl _ _) rfl
  | colPowerOnResetExit _ _ _ _ _ _ => exact execColPowerOnResetExit_kept (Kept.refl _ _) rfl
  | vddColLoss => exact execVddColLoss_kept (Kept.refl _ _) rfl
  | pwrGoodRise _ _ => exact execPwrGoodRise_kept (Kept.refl _ _) rfl
  | pwrGoodFall => exact execPwrGoodFall_kept (Kept.refl _ _) rfl
  | resetNFall => exact execResetNFall_kept (Kept.refl _ _) rfl
  | resetNRise _ => exact execResetNRise_kept (Kept.refl _ _) rfl
  | internalResetRelease => exact execInternalResetRelease_kept (Kept.refl _ _) rfl
  | undervoltageTrip _ => exact execUndervoltageTrip_kept (Kept.refl _ _) rfl
  | crystalFault => exact execCrystalFault_kept (Kept.refl _ _) rfl
  | tripNAssert => exact execTripNAssert_kept (Kept.refl _ _) rfl
  | orderlyStopDone => exact execOrderlyStopDone_kept (Kept.refl _ _) rfl
  | startBegin => exact execStartBegin_kept (Kept.refl _ _) rfl
  | startStepDone _ => exact execStartStepDone_kept (Kept.refl _ _) rfl
  | startReady => exact execStartReady_kept (Kept.refl _ _) rfl
  | startWatchdogExpiry => exact execStartWatchdogExpiry_kept (Kept.refl _ _) rfl
  | startRetry => exact execStartRetry_kept (Kept.refl _ _) rfl
  | opticsDeadline => exact execOpticsDeadline_kept (Kept.refl _ _) rfl
  | opticsResume _ => exact execOpticsResume_kept (Kept.refl _ _) rfl
  | restartWarm _ => exact execRestartWarm_kept (Kept.refl _ _) rfl
  | restartCold _ => exact execRestartCold_kept (Kept.refl _ _) rfl
  | clearAndRestart _ => exact execClearAndRestart_kept (Kept.refl _ _) rfl
  | quadPllLockLost _ => exact execQuadPllLockLost_kept (Kept.refl _ _) rfl
  | quadPllRelockDone _ _ => exact execQuadPllRelockDone_kept (Kept.refl _ _) rfl
  | quadDemote _ => exact execQuadDemote_kept (Kept.refl _ _) rfl
  | quadEntryDone _ => exact execQuadEntryDone_kept (Kept.refl _ _) rfl
  | quadWakeRequest _ _ => exact execQuadWakeRequest_kept (Kept.refl _ _) rfl
  | quadPrewake _ => exact execQuadPrewake_kept (Kept.refl _ _) rfl
  | quadWakeDone _ => exact execQuadWakeDone_kept (Kept.refl _ _) rfl
  | quadReloadDone _ => exact execQuadReloadDone_kept (Kept.refl _ _) rfl
  | clkQpolWrite _ _ => exact execClkQpolWrite_kept (Kept.refl _ _) rfl
  | clkQforceWrite _ => exact execClkQforceWrite_kept (Kept.refl _ _) rfl
  | cairnRead _ => exact execCairnRead_kept (Kept.refl _ _) rfl
  | cairnProgram _ _ _ _ => exact execCairnProgram_kept (Kept.refl _ _) rfl
  | cairnProgramDone _ => exact execCairnProgramDone_kept (Kept.refl _ _) rfl
  | structLoad _ => exact execStructLoad_kept (Kept.refl _ _) rfl
  | structLoadStageDone _ => exact execStructLoadStageDone_kept (Kept.refl _ _) rfl
  | structCommit => exact execStructCommit_kept (Kept.refl _ _) rfl
  | structAbort => exact execStructAbort_kept (Kept.refl _ _) rfl
  | stagedHoldExpiry => exact execStagedHoldExpiry_kept (Kept.refl _ _) rfl
  | structLoadTimeout => exact execStructLoadTimeout_kept (Kept.refl _ _) rfl
  | quiesceHoldEnd _ => exact execQuiesceHoldEnd_kept (Kept.refl _ _) rfl
  | drainLimitExpiry _ => exact execDrainLimitExpiry_kept (Kept.refl _ _) rfl
  | zeroizationDone _ => exact execZeroizationDone_kept (Kept.refl _ _) rfl
  | structSwitch => exact execStructSwitch_kept (Kept.refl _ _) rfl
  | holdTimeout _ => exact execHoldTimeout_kept (Kept.refl _ _) rfl
  | handoffSlotTimeout _ => exact execHandoffSlotTimeout_kept (Kept.refl _ _) rfl
  | timeSliceExpiry _ => exact execTimeSliceExpiry_kept (Kept.refl _ _) rfl
  | sqDoorbell _ _ _ => exact execSqDoorbell_kept (Kept.refl _ _) rfl
  | cqDoorbell _ _ _ => exact execCqDoorbell_kept (Kept.refl _ _) rfl
  | queueEnable _ _ _ => exact execQueueEnable_kept (Kept.refl _ _) rfl
  | queueDisable _ _ _ => exact execQueueDisable_kept (Kept.refl _ _) rfl
  | descriptorFetch _ _ => exact execDescriptorFetch_kept (Kept.refl _ _) rfl
  | nop _ => exact execNop_kept (Kept.refl _ _) rfl
  | copy _ _ => exact execCopy_kept (Kept.refl _ _) rfl
  | copyDone _ => exact execCopyDone_kept (Kept.refl _ _) rfl
  | run _ => exact execRun_kept (Kept.refl _ _) rfl
  | runLimitExpiry _ => exact execRunLimitExpiry_kept (Kept.refl _ _) rfl
  | fence _ => exact execFence_kept (Kept.refl _ _) rfl
  | fenceSatisfied _ => exact execFenceSatisfied_kept (Kept.refl _ _) rfl
  | fenceTimeout _ => exact execFenceTimeout_kept (Kept.refl _ _) rfl
  | msgSend _ => exact execMsgSend_kept (Kept.refl _ _) rfl
  | sessionOpen _ => exact execSessionOpen_kept (Kept.refl _ _) rfl
  | setHold _ => exact execSetHold_kept (Kept.refl _ _) rfl
  | clearHold _ => exact execClearHold_kept (Kept.refl _ _) rfl
  | setGone _ => exact execSetGone_kept (Kept.refl _ _) rfl
  | setAlignment _ => exact execSetAlignment_kept (Kept.refl _ _) rfl
  | sessionClose _ => exact execSessionClose_kept (Kept.refl _ _) rfl
  | audioIn _ _ => exact execAudioIn_kept (Kept.refl _ _) rfl
  | audioOut _ _ => exact execAudioOut_kept (Kept.refl _ _) rfl
  | completionWrite _ => exact execCompletionWrite_kept (Kept.refl _ _) rfl
  | coalesceTimeout _ _ => exact execCoalesceTimeout_kept (Kept.refl _ _) rfl
  | vfFlr _ => exact execVfFlr_kept (Kept.refl _ _) rfl
  | vfBusMasterOff a0 a1 => exact (show Kept anyPart s (outOf s (execVfBusMasterOff a0 a1 s)) from execVfBusMasterOff_kept (Kept.refl _ _) rfl)
  | pfReset a0 => exact (show Kept anyPart s (outOf s (execPfReset a0 s)) from execPfReset_kept (Kept.refl _ _) rfl)
  | bar2Access _ _ _ _ _ => exact execBar2Access_kept (Kept.refl _ _) rfl
  | mbxDoorbell _ _ => exact execMbxDoorbell_kept (Kept.refl _ _) rfl
  | errlogRead => exact execErrlogRead_kept (Kept.refl _ _) rfl
  | colRead => exact execColRead_kept (Kept.refl _ _) rfl
  | cairnIdRead => exact execCairnIdRead_kept (Kept.refl _ _) rfl
  | flashRead => exact execFlashRead_kept (Kept.refl _ _) rfl
  | flashErase _ => exact execFlashErase_kept (Kept.refl _ _) rfl
  | flashProgram _ _ => exact execFlashProgram_kept (Kept.refl _ _) rfl
  | linkSwap => exact execLinkSwap_kept (Kept.refl _ _) rfl
  | ctgInfo => exact execCtgInfo_kept (Kept.refl _ _) rfl
  | ctgHours => exact execCtgHours_kept (Kept.refl _ _) rfl
  | laserPolicy => exact execLaserPolicy_kept (Kept.refl _ _) rfl
  | calFull => exact execCalFull_kept (Kept.refl _ _) rfl
  | calSnapshot => exact execCalSnapshot_kept (Kept.refl _ _) rfl
  | calExport => exact execCalExport_kept (Kept.refl _ _) rfl
  | calImport _ => exact execCalImport_kept (Kept.refl _ _) rfl
  | thmReadAll _ => exact execThmReadAll_kept (Kept.refl _ _) rfl
  | traverseEpochStart => exact execTraverseEpochStart_kept (Kept.refl _ _) rfl
  | traverseTick _ => exact execTraverseTick_kept (Kept.refl _ _) rfl
  | continuityWaitExpiry _ => exact execContinuityWaitExpiry_kept (Kept.refl _ _) rfl
  | stepComplete _ => exact execStepComplete_kept (Kept.refl _ _) rfl
  | vadSubframe _ => exact execVadSubframe_kept (Kept.refl _ _) rfl
  | gateSweepVisit _ => exact execGateSweepVisit_kept (Kept.refl _ _) rfl
  | lateCheck _ => exact execLateCheck_kept (Kept.refl _ _) rfl
  | playoutBlockCommit _ => exact execPlayoutBlockCommit_kept (Kept.refl _ _) rfl
  | playoutQuarterWrite _ => exact execPlayoutQuarterWrite_kept (Kept.refl _ _) rfl
  | outboundAppend _ => exact execOutboundAppend_kept (Kept.refl _ _) rfl
  | sessionStateLost _ => exact execSessionStateLost_kept (Kept.refl _ _) rfl
  | entryStart _ => exact execEntryStart_kept (Kept.refl _ _) rfl
  | entryFinish _ => exact execEntryFinish_kept (Kept.refl _ _) rfl
  | entryStop _ => exact execEntryStop_kept (Kept.refl _ _) rfl
  | stepLimitExpiry _ => exact execStepLimitExpiry_kept (Kept.refl _ _) rfl
  | slewGrant => exact execSlewGrant_kept (Kept.refl _ _) rfl
  | crestNop _ _ => exact execCrestNop_kept (Kept.refl _ _) rfl
  | matmul _ _ => exact execMatmul_kept (Kept.refl _ _) rfl
  | eltwise _ _ => exact execEltwise_kept (Kept.refl _ _) rfl
  | convert _ _ => exact execConvert_kept (Kept.refl _ _) rfl
  | move _ _ => exact execMove_kept (Kept.refl _ _) rfl
  | crestWait _ _ => exact execCrestWait_kept (Kept.refl _ _) rfl
  | crestSignal _ _ => exact execCrestSignal_kept (Kept.refl _ _) rfl
  | result _ _ => exact execResult_kept (Kept.refl _ _) rfl
  | crestEnd _ _ => exact execCrestEnd_kept (Kept.refl _ _) rfl
  | corniceNop _ => exact execCorniceNop_kept (Kept.refl _ _) rfl
  | conv _ => exact execConv_kept (Kept.refl _ _) rfl
  | recode _ => exact execRecode_kept (Kept.refl _ _) rfl
  | crop _ => exact execCrop_kept (Kept.refl _ _) rfl
  | corniceWait _ => exact execCorniceWait_kept (Kept.refl _ _) rfl
  | corniceSignal _ => exact execCorniceSignal_kept (Kept.refl _ _) rfl
  | corniceEnd _ => exact execCorniceEnd_kept (Kept.refl _ _) rfl
  | haloPublish _ _ => exact execHaloPublish_kept (Kept.refl _ _) rfl
  | spurJobLand _ _ => exact execSpurJobLand_kept (Kept.refl _ _) rfl
  | matvec _ => exact execMatvec_kept (Kept.refl _ _) rfl
  | gather _ => exact execGather_kept (Kept.refl _ _) rfl
  | scan _ => exact execScan_kept (Kept.refl _ _) rfl
  | spurClear _ => exact execSpurClear_kept (Kept.refl _ _) rfl
  | spurLoad _ => exact execSpurLoad_kept (Kept.refl _ _) rfl
  | spurFire _ => exact execSpurFire_kept (Kept.refl _ _) rfl
  | spurFireEnd _ _ => exact execSpurFireEnd_kept (Kept.refl _ _) rfl
  | spurDrain _ => exact execSpurDrain_kept (Kept.refl _ _) rfl
  | spurJobDone _ => exact execSpurJobDone_kept (Kept.refl _ _) rfl
  | spurSelftest _ _ => exact execSpurSelftest_kept (Kept.refl _ _) rfl
  | spurGroupGate _ => exact execSpurGroupGate_kept (Kept.refl _ _) rfl
  | refreshDue _ => exact execRefreshDue_kept (Kept.refl _ _) rfl
  | groupRefresh _ => exact execGroupRefresh_kept (Kept.refl _ _) rfl
  | writeDrainTimeout _ => exact execWriteDrainTimeout_kept (Kept.refl _ _) rfl
  | bandSwitch _ _ => exact execBandSwitch_kept (Kept.refl _ _) rfl
  | bandSwitchWindow _ => exact execBandSwitchWindow_kept (Kept.refl _ _) rfl
  | scrubStep _ => exact execScrubStep_kept (Kept.refl _ _) rfl
  | selfRefreshExit _ _ => exact execSelfRefreshExit_kept (Kept.refl _ _) rfl
  | dramPllLockLost _ => exact execDramPllLockLost_kept (Kept.refl _ _) rfl
  | dramPllRelockDone _ _ _ => exact execDramPllRelockDone_kept (Kept.refl _ _) rfl
  | ringFrame _ _ => exact execRingFrame_kept (Kept.refl _ _) rfl
  | adcRequest _ _ => exact execAdcRequest_kept (Kept.refl _ _) rfl
  | laneMoveSwitch _ _ => exact execLaneMoveSwitch_kept (Kept.refl _ _) rfl
  | frameAligned _ _ _ => exact execFrameAligned_kept (Kept.refl _ _) rfl
  | trackerDoubleStep _ _ => exact execTrackerDoubleStep_kept (Kept.refl _ _) rfl
  | positionRetrainTimeout _ _ => exact execPositionRetrainTimeout_kept (Kept.refl _ _) rfl
  | directionRetrain _ _ => exact execDirectionRetrain_kept (Kept.refl _ _) rfl
  | linkPllLockLost _ => exact execLinkPllLockLost_kept (Kept.refl _ _) rfl
  | linkPllRelockDone _ _ => exact execLinkPllRelockDone_kept (Kept.refl _ _) rfl
  | flitReceive _ _ _ _ => exact execFlitReceive_kept (Kept.refl _ _) rfl
  | laneLockLost _ _ => exact execLaneLockLost_kept (Kept.refl _ _) rfl
  | nakReceive _ _ => exact execNakReceive_kept (Kept.refl _ _) rfl
  | replayTimeout _ => exact execReplayTimeout_kept (Kept.refl _ _) rfl
  | csync _ _ _ => exact execCsync_kept (Kept.refl _ _) rfl
  | hello _ _ => exact execHello_kept (Kept.refl _ _) rfl
  | moveAck _ _ _ => exact execMoveAck_kept (Kept.refl _ _) rfl
  | moveAckDeadline _ => exact execMoveAckDeadline_kept (Kept.refl _ _) rfl
  | moveCancel _ _ _ => exact execMoveCancel_kept (Kept.refl _ _) rfl
  | moveReq _ _ _ => exact execMoveReq_kept (Kept.refl _ _) rfl
  | calAnnounce _ _ _ _ => exact execCalAnnounce_kept (Kept.refl _ _) rfl
  | swapReq _ => exact execSwapReq_kept (Kept.refl _ _) rfl
  | swapGrant _ _ _ => exact execSwapGrant_kept (Kept.refl _ _) rfl
  | roleSwapFrame _ => exact execRoleSwapFrame_kept (Kept.refl _ _) rfl
  | linkHoldExpiry _ => exact execLinkHoldExpiry_kept (Kept.refl _ _) rfl
  | sendRecord _ => exact execSendRecord_kept (Kept.refl _ _) rfl
  | handoffArrival _ => exact execHandoffArrival_kept (Kept.refl _ _) rfl
  | handoffReply _ => exact execHandoffReply_kept (Kept.refl _ _) rfl
  | replyTimeout _ _ => exact execReplyTimeout_kept (Kept.refl _ _) rfl
  | intlkFall => exact execIntlkFall_kept (Kept.refl _ _) rfl
  | latchOpen => exact execLatchOpen_kept (Kept.refl _ _) rfl
  | cartridgeSeated _ => exact execCartridgeSeated_kept (Kept.refl _ _) rfl
  | driverFault _ _ => exact execDriverFault_kept (Kept.refl _ _) rfl
  | tripClearArm _ => exact execTripClearArm_kept (Kept.refl _ _) rfl
  | tripClear _ => exact execTripClear_kept (Kept.refl _ _) rfl
  | tripClearSeqExpiry => exact execTripClearSeqExpiry_kept (Kept.refl _ _) rfl
  | laserWarmupSettled _ => exact execLaserWarmupSettled_kept (Kept.refl _ _) rfl
  | laserOut _ => exact execLaserOut_kept (Kept.refl _ _) rfl
  | spareTuned _ => exact execSpareTuned_kept (Kept.refl _ _) rfl
  | usageRecordWrite => exact execUsageRecordWrite_kept (Kept.refl _ _) rfl
  | ctgVddTrip => exact execCtgVddTrip_kept (Kept.refl _ _) rfl
  | ctgVddReclose => exact execCtgVddReclose_kept (Kept.refl _ _) rfl
  | calStepLimit _ => exact execCalStepLimit_kept (Kept.refl _ _) rfl
  | calFullTimeout => exact execCalFullTimeout_kept (Kept.refl _ _) rfl
  | acquisitionRetry _ _ => exact execAcquisitionRetry_kept (Kept.refl _ _) rfl
  | calSlotStart _ => exact execCalSlotStart_kept (Kept.refl _ _) rfl
  | calRxStart _ => exact execCalRxStart_kept (Kept.refl _ _) rfl
  | calRxDone _ _ => exact execCalRxDone_kept (Kept.refl _ _) rfl
  | calAbort _ _ => exact execCalAbort_kept (Kept.refl _ _) rfl
  | slotLimitExpiry _ => exact execSlotLimitExpiry_kept (Kept.refl _ _) rfl
  | rollbackTimeout _ => exact execRollbackTimeout_kept (Kept.refl _ _) rfl
  | snapshotCapture => exact execSnapshotCapture_kept (Kept.refl _ _) rfl
  | snapshotFlashWrite _ => exact execSnapshotFlashWrite_kept (Kept.refl _ _) rfl
  | thmRequest _ => exact execThmRequest_kept (Kept.refl _ _) rfl
  | sensorReading _ => exact execSensorReading_kept (Kept.refl _ _) rfl
  | thermalLapse _ => exact execThermalLapse_kept (Kept.refl _ _) rfl
  | limitStepDown => exact execLimitStepDown_kept (Kept.refl _ _) rfl
  | limitStepUp => exact execLimitStepUp_kept (Kept.refl _ _) rfl
  | deviceFatal _ => exact execDeviceFatal_kept (Kept.refl _ _) rfl
  | mgmtWatchdogExpiry => exact execMgmtWatchdogExpiry_kept (Kept.refl _ _) rfl
  | lowHalfRead _ _ => exact execLowHalfRead_kept (Kept.refl _ _) rfl
  | tripNRelease => exact execTripNRelease_kept (Kept.refl _ _) rfl
  | intlkNRise => exact execIntlkNRise_kept (Kept.refl _ _) rfl
  | latchClosed => exact execLatchClosed_kept (Kept.refl _ _) rfl
  | overcurrentRetry _ => exact execOvercurrentRetry_kept (Kept.refl _ _) rfl
  | vppOtpFall => exact execVppOtpFall_kept (Kept.refl _ _) rfl
  | vfBusMasterOn _ => exact execVfBusMasterOn_kept (Kept.refl _ _) rfl
  | laneLocked _ _ => exact execLaneLocked_kept (Kept.refl _ _) rfl
  | linkPllLocked _ => exact execLinkPllLocked_kept (Kept.refl _ _) rfl
  | laneMoveMessage _ _ _ _ _ _ => exact execLaneMoveMessage_kept (Kept.refl _ _) rfl

end Sys2Proof.Machine
end

