-- ==== Sys2Proof/Laws/State.lean ====
section
/-! SUPPORT. Laws of a fixed table's entries, and of the operations that update one entry of a table of the state: what the
updated part becomes, that every other part is as it was, and what a read of an entry gives after the update. -/

namespace Sys2Proof

theorem tget_eq {α : Type} {n : Nat} (v : Vector α n) (i : Fin n) : tget v i = v[i.val] := rfl

@[simp] theorem tget_upd_same {α : Type} {n : Nat} (v : Vector α n) (i : Fin n) (x : α) : tget (upd v i x) i = x := by
  simp [tget_eq, upd]

theorem tget_upd_other {α : Type} {n : Nat} (v : Vector α n) {i j : Fin n} (x : α) (h : i ≠ j) :
    tget (upd v i x) j = tget v j := by
  have : i.val ≠ j.val := fun e => h (Fin.ext e)
  simp [tget_eq, upd, this]

@[simp] theorem tget_updWith_same {α : Type} {n : Nat} (v : Vector α n) (i : Fin n) (f : α → α) :
    tget (updWith v i f) i = f (tget v i) := tget_upd_same _ _ _

theorem tget_updWith_other {α : Type} {n : Nat} (v : Vector α n) {i j : Fin n} (f : α → α) (h : i ≠ j) :
    tget (updWith v i f) j = tget v j := tget_upd_other v _ h

@[simp] theorem tget_tab {α : Type} {n : Nat} (f : Fin n → α) (i : Fin n) : tget (tab n f) i = f i := by
  simp [tget_eq, tab]

@[simp] theorem tget_vmap {α β : Type} {n : Nat} (f : α → β) (v : Vector α n) (i : Fin n) : tget (vmap f v) i = f (tget v i) := by
  simp [tget_eq, vmap]
@[simp] theorem tget_rep {α : Type} {n : Nat} (x : α) (i : Fin n) : tget (rep n x) i = x := by
  simp [tget_eq, rep]

end Sys2Proof

namespace Sys2Proof.Machine

/-! ### setQ -/

@[simp] theorem State.setQ_pins (s : State) q f : (s.setQ q f).pins = s.pins := rfl
@[simp] theorem State.setQ_col (s : State) q f : (s.setQ q f).col = s.col := rfl
@[simp] theorem State.setQ_start (s : State) q f : (s.setQ q f).start = s.start := rfl
@[simp] theorem State.setQ_quads (s : State) q f : (s.setQ q f).quads = updWith s.quads q f := rfl
@[simp] theorem State.setQ_cairn (s : State) q f : (s.setQ q f).cairn = s.cairn := rfl
@[simp] theorem State.setQ_lockLoss (s : State) q f : (s.setQ q f).lockLoss = s.lockLoss := rfl
@[simp] theorem State.setQ_loader (s : State) q f : (s.setQ q f).loader = s.loader := rfl
@[simp] theorem State.setQ_committed (s : State) q f : (s.setQ q f).committed = s.committed := rfl
@[simp] theorem State.setQ_str (s : State) q f : (s.setQ q f).str = s.str := rfl
@[simp] theorem State.setQ_ret (s : State) q f : (s.setQ q f).ret = s.ret := rfl
@[simp] theorem State.setQ_parts (s : State) q f : (s.setQ q f).parts = s.parts := rfl
@[simp] theorem State.setQ_numVfs (s : State) q f : (s.setQ q f).numVfs = s.numVfs := rfl
@[simp] theorem State.setQ_vfs (s : State) q f : (s.setQ q f).vfs = s.vfs := rfl
@[simp] theorem State.setQ_turns (s : State) q f : (s.setQ q f).turns = s.turns := rfl
@[simp] theorem State.setQ_mbx (s : State) q f : (s.setQ q f).mbx = s.mbx := rfl
@[simp] theorem State.setQ_pfMsix (s : State) q f : (s.setQ q f).pfMsix = s.pfMsix := rfl
@[simp] theorem State.setQ_irqs (s : State) q f : (s.setQ q f).irqs = s.irqs := rfl
@[simp] theorem State.setQ_items (s : State) q f : (s.setQ q f).items = s.items := rfl
@[simp] theorem State.setQ_nextItem (s : State) q f : (s.setQ q f).nextItem = s.nextItem := rfl
@[simp] theorem State.setQ_sends (s : State) q f : (s.setQ q f).sends = s.sends := rfl
@[simp] theorem State.setQ_nextMid (s : State) q f : (s.setQ q f).nextMid = s.nextMid := rfl
@[simp] theorem State.setQ_dram (s : State) q f : (s.setQ q f).dram = s.dram := rfl
@[simp] theorem State.setQ_ras (s : State) q f : (s.setQ q f).ras = s.ras := rfl
@[simp] theorem State.setQ_trv (s : State) q f : (s.setQ q f).trv = s.trv := rfl
@[simp] theorem State.setQ_crest (s : State) q f : (s.setQ q f).crest = s.crest := rfl
@[simp] theorem State.setQ_cornice (s : State) q f : (s.setQ q f).cornice = s.cornice := rfl
@[simp] theorem State.setQ_spur (s : State) q f : (s.setQ q f).spur = s.spur := rfl
@[simp] theorem State.setQ_ports (s : State) q f : (s.setQ q f).ports = s.ports := rfl
@[simp] theorem State.setQ_links (s : State) q f : (s.setQ q f).links = s.links := rfl
@[simp] theorem State.setQ_linkHoldMs (s : State) q f : (s.setQ q f).linkHoldMs = s.linkHoldMs := rfl
@[simp] theorem State.setQ_replyMs (s : State) q f : (s.setQ q f).replyMs = s.replyMs := rfl
@[simp] theorem State.setQ_pmsg (s : State) q f : (s.setQ q f).pmsg = s.pmsg := rfl
@[simp] theorem State.setQ_laser (s : State) q f : (s.setQ q f).laser = s.laser := rfl
@[simp] theorem State.setQ_cal (s : State) q f : (s.setQ q f).cal = s.cal := rfl
@[simp] theorem State.setQ_thm (s : State) q f : (s.setQ q f).thm = s.thm := rfl
@[simp] theorem State.setQ_flash (s : State) q f : (s.setQ q f).flash = s.flash := rfl
@[simp] theorem State.setQ_hostMem (s : State) q f : (s.setQ q f).hostMem = s.hostMem := rfl
@[simp] theorem State.setQ_bus (s : State) q f : (s.setQ q f).bus = s.bus := rfl
@[simp] theorem State.setQ_pending (s : State) q f : (s.setQ q f).pending = s.pending := rfl
@[simp] theorem State.setQ_free (s : State) q f : (s.setQ q f).free = s.free := rfl

/-! ### setPart -/

@[simp] theorem State.setPart_pins (s : State) p f : (s.setPart p f).pins = s.pins := rfl
@[simp] theorem State.setPart_col (s : State) p f : (s.setPart p f).col = s.col := rfl
@[simp] theorem State.setPart_start (s : State) p f : (s.setPart p f).start = s.start := rfl
@[simp] theorem State.setPart_quads (s : State) p f : (s.setPart p f).quads = s.quads := rfl
@[simp] theorem State.setPart_cairn (s : State) p f : (s.setPart p f).cairn = s.cairn := rfl
@[simp] theorem State.setPart_lockLoss (s : State) p f : (s.setPart p f).lockLoss = s.lockLoss := rfl
@[simp] theorem State.setPart_loader (s : State) p f : (s.setPart p f).loader = s.loader := rfl
@[simp] theorem State.setPart_committed (s : State) p f : (s.setPart p f).committed = s.committed := rfl
@[simp] theorem State.setPart_str (s : State) p f : (s.setPart p f).str = s.str := rfl
@[simp] theorem State.setPart_ret (s : State) p f : (s.setPart p f).ret = s.ret := rfl
@[simp] theorem State.setPart_parts (s : State) p f : (s.setPart p f).parts = updWith s.parts p f := rfl
@[simp] theorem State.setPart_numVfs (s : State) p f : (s.setPart p f).numVfs = s.numVfs := rfl
@[simp] theorem State.setPart_vfs (s : State) p f : (s.setPart p f).vfs = s.vfs := rfl
@[simp] theorem State.setPart_turns (s : State) p f : (s.setPart p f).turns = s.turns := rfl
@[simp] theorem State.setPart_mbx (s : State) p f : (s.setPart p f).mbx = s.mbx := rfl
@[simp] theorem State.setPart_pfMsix (s : State) p f : (s.setPart p f).pfMsix = s.pfMsix := rfl
@[simp] theorem State.setPart_irqs (s : State) p f : (s.setPart p f).irqs = s.irqs := rfl
@[simp] theorem State.setPart_items (s : State) p f : (s.setPart p f).items = s.items := rfl
@[simp] theorem State.setPart_nextItem (s : State) p f : (s.setPart p f).nextItem = s.nextItem := rfl
@[simp] theorem State.setPart_sends (s : State) p f : (s.setPart p f).sends = s.sends := rfl
@[simp] theorem State.setPart_nextMid (s : State) p f : (s.setPart p f).nextMid = s.nextMid := rfl
@[simp] theorem State.setPart_dram (s : State) p f : (s.setPart p f).dram = s.dram := rfl
@[simp] theorem State.setPart_ras (s : State) p f : (s.setPart p f).ras = s.ras := rfl
@[simp] theorem State.setPart_trv (s : State) p f : (s.setPart p f).trv = s.trv := rfl
@[simp] theorem State.setPart_crest (s : State) p f : (s.setPart p f).crest = s.crest := rfl
@[simp] theorem State.setPart_cornice (s : State) p f : (s.setPart p f).cornice = s.cornice := rfl
@[simp] theorem State.setPart_spur (s : State) p f : (s.setPart p f).spur = s.spur := rfl
@[simp] theorem State.setPart_ports (s : State) p f : (s.setPart p f).ports = s.ports := rfl
@[simp] theorem State.setPart_links (s : State) p f : (s.setPart p f).links = s.links := rfl
@[simp] theorem State.setPart_linkHoldMs (s : State) p f : (s.setPart p f).linkHoldMs = s.linkHoldMs := rfl
@[simp] theorem State.setPart_replyMs (s : State) p f : (s.setPart p f).replyMs = s.replyMs := rfl
@[simp] theorem State.setPart_pmsg (s : State) p f : (s.setPart p f).pmsg = s.pmsg := rfl
@[simp] theorem State.setPart_laser (s : State) p f : (s.setPart p f).laser = s.laser := rfl
@[simp] theorem State.setPart_cal (s : State) p f : (s.setPart p f).cal = s.cal := rfl
@[simp] theorem State.setPart_thm (s : State) p f : (s.setPart p f).thm = s.thm := rfl
@[simp] theorem State.setPart_flash (s : State) p f : (s.setPart p f).flash = s.flash := rfl
@[simp] theorem State.setPart_hostMem (s : State) p f : (s.setPart p f).hostMem = s.hostMem := rfl
@[simp] theorem State.setPart_bus (s : State) p f : (s.setPart p f).bus = s.bus := rfl
@[simp] theorem State.setPart_pending (s : State) p f : (s.setPart p f).pending = s.pending := rfl
@[simp] theorem State.setPart_free (s : State) p f : (s.setPart p f).free = s.free := rfl

/-! ### setVf -/

@[simp] theorem State.setVf_pins (s : State) p f : (s.setVf p f).pins = s.pins := rfl
@[simp] theorem State.setVf_col (s : State) p f : (s.setVf p f).col = s.col := rfl
@[simp] theorem State.setVf_start (s : State) p f : (s.setVf p f).start = s.start := rfl
@[simp] theorem State.setVf_quads (s : State) p f : (s.setVf p f).quads = s.quads := rfl
@[simp] theorem State.setVf_cairn (s : State) p f : (s.setVf p f).cairn = s.cairn := rfl
@[simp] theorem State.setVf_lockLoss (s : State) p f : (s.setVf p f).lockLoss = s.lockLoss := rfl
@[simp] theorem State.setVf_loader (s : State) p f : (s.setVf p f).loader = s.loader := rfl
@[simp] theorem State.setVf_committed (s : State) p f : (s.setVf p f).committed = s.committed := rfl
@[simp] theorem State.setVf_str (s : State) p f : (s.setVf p f).str = s.str := rfl
@[simp] theorem State.setVf_ret (s : State) p f : (s.setVf p f).ret = s.ret := rfl
@[simp] theorem State.setVf_parts (s : State) p f : (s.setVf p f).parts = s.parts := rfl
@[simp] theorem State.setVf_numVfs (s : State) p f : (s.setVf p f).numVfs = s.numVfs := rfl
@[simp] theorem State.setVf_vfs (s : State) p f : (s.setVf p f).vfs = updWith s.vfs p f := rfl
@[simp] theorem State.setVf_turns (s : State) p f : (s.setVf p f).turns = s.turns := rfl
@[simp] theorem State.setVf_mbx (s : State) p f : (s.setVf p f).mbx = s.mbx := rfl
@[simp] theorem State.setVf_pfMsix (s : State) p f : (s.setVf p f).pfMsix = s.pfMsix := rfl
@[simp] theorem State.setVf_irqs (s : State) p f : (s.setVf p f).irqs = s.irqs := rfl
@[simp] theorem State.setVf_items (s : State) p f : (s.setVf p f).items = s.items := rfl
@[simp] theorem State.setVf_nextItem (s : State) p f : (s.setVf p f).nextItem = s.nextItem := rfl
@[simp] theorem State.setVf_sends (s : State) p f : (s.setVf p f).sends = s.sends := rfl
@[simp] theorem State.setVf_nextMid (s : State) p f : (s.setVf p f).nextMid = s.nextMid := rfl
@[simp] theorem State.setVf_dram (s : State) p f : (s.setVf p f).dram = s.dram := rfl
@[simp] theorem State.setVf_ras (s : State) p f : (s.setVf p f).ras = s.ras := rfl
@[simp] theorem State.setVf_trv (s : State) p f : (s.setVf p f).trv = s.trv := rfl
@[simp] theorem State.setVf_crest (s : State) p f : (s.setVf p f).crest = s.crest := rfl
@[simp] theorem State.setVf_cornice (s : State) p f : (s.setVf p f).cornice = s.cornice := rfl
@[simp] theorem State.setVf_spur (s : State) p f : (s.setVf p f).spur = s.spur := rfl
@[simp] theorem State.setVf_ports (s : State) p f : (s.setVf p f).ports = s.ports := rfl
@[simp] theorem State.setVf_links (s : State) p f : (s.setVf p f).links = s.links := rfl
@[simp] theorem State.setVf_linkHoldMs (s : State) p f : (s.setVf p f).linkHoldMs = s.linkHoldMs := rfl
@[simp] theorem State.setVf_replyMs (s : State) p f : (s.setVf p f).replyMs = s.replyMs := rfl
@[simp] theorem State.setVf_pmsg (s : State) p f : (s.setVf p f).pmsg = s.pmsg := rfl
@[simp] theorem State.setVf_laser (s : State) p f : (s.setVf p f).laser = s.laser := rfl
@[simp] theorem State.setVf_cal (s : State) p f : (s.setVf p f).cal = s.cal := rfl
@[simp] theorem State.setVf_thm (s : State) p f : (s.setVf p f).thm = s.thm := rfl
@[simp] theorem State.setVf_flash (s : State) p f : (s.setVf p f).flash = s.flash := rfl
@[simp] theorem State.setVf_hostMem (s : State) p f : (s.setVf p f).hostMem = s.hostMem := rfl
@[simp] theorem State.setVf_bus (s : State) p f : (s.setVf p f).bus = s.bus := rfl
@[simp] theorem State.setVf_pending (s : State) p f : (s.setVf p f).pending = s.pending := rfl
@[simp] theorem State.setVf_free (s : State) p f : (s.setVf p f).free = s.free := rfl

/-! ### setCq -/

@[simp] theorem State.setCq_pins (s : State) q f : (s.setCq q f).pins = s.pins := rfl
@[simp] theorem State.setCq_col (s : State) q f : (s.setCq q f).col = s.col := rfl
@[simp] theorem State.setCq_start (s : State) q f : (s.setCq q f).start = s.start := rfl
@[simp] theorem State.setCq_quads (s : State) q f : (s.setCq q f).quads = s.quads := rfl
@[simp] theorem State.setCq_cairn (s : State) q f : (s.setCq q f).cairn = s.cairn := rfl
@[simp] theorem State.setCq_lockLoss (s : State) q f : (s.setCq q f).lockLoss = s.lockLoss := rfl
@[simp] theorem State.setCq_loader (s : State) q f : (s.setCq q f).loader = s.loader := rfl
@[simp] theorem State.setCq_committed (s : State) q f : (s.setCq q f).committed = s.committed := rfl
@[simp] theorem State.setCq_str (s : State) q f : (s.setCq q f).str = s.str := rfl
@[simp] theorem State.setCq_ret (s : State) q f : (s.setCq q f).ret = s.ret := rfl
@[simp] theorem State.setCq_parts (s : State) q f : (s.setCq q f).parts = s.parts := rfl
@[simp] theorem State.setCq_numVfs (s : State) q f : (s.setCq q f).numVfs = s.numVfs := rfl
@[simp] theorem State.setCq_vfs (s : State) q f : (s.setCq q f).vfs = s.vfs := rfl
@[simp] theorem State.setCq_turns (s : State) q f : (s.setCq q f).turns = s.turns := rfl
@[simp] theorem State.setCq_mbx (s : State) q f : (s.setCq q f).mbx = s.mbx := rfl
@[simp] theorem State.setCq_pfMsix (s : State) q f : (s.setCq q f).pfMsix = s.pfMsix := rfl
@[simp] theorem State.setCq_irqs (s : State) q f : (s.setCq q f).irqs = s.irqs := rfl
@[simp] theorem State.setCq_items (s : State) q f : (s.setCq q f).items = s.items := rfl
@[simp] theorem State.setCq_nextItem (s : State) q f : (s.setCq q f).nextItem = s.nextItem := rfl
@[simp] theorem State.setCq_sends (s : State) q f : (s.setCq q f).sends = s.sends := rfl
@[simp] theorem State.setCq_nextMid (s : State) q f : (s.setCq q f).nextMid = s.nextMid := rfl
@[simp] theorem State.setCq_dram (s : State) q f : (s.setCq q f).dram = s.dram := rfl
@[simp] theorem State.setCq_ras (s : State) q f : (s.setCq q f).ras = s.ras := rfl
@[simp] theorem State.setCq_trv (s : State) q f : (s.setCq q f).trv = s.trv := rfl
@[simp] theorem State.setCq_crest (s : State) q f : (s.setCq q f).crest = { s.crest with quads := updWith s.crest.quads q f } := rfl
@[simp] theorem State.setCq_cornice (s : State) q f : (s.setCq q f).cornice = s.cornice := rfl
@[simp] theorem State.setCq_spur (s : State) q f : (s.setCq q f).spur = s.spur := rfl
@[simp] theorem State.setCq_ports (s : State) q f : (s.setCq q f).ports = s.ports := rfl
@[simp] theorem State.setCq_links (s : State) q f : (s.setCq q f).links = s.links := rfl
@[simp] theorem State.setCq_linkHoldMs (s : State) q f : (s.setCq q f).linkHoldMs = s.linkHoldMs := rfl
@[simp] theorem State.setCq_replyMs (s : State) q f : (s.setCq q f).replyMs = s.replyMs := rfl
@[simp] theorem State.setCq_pmsg (s : State) q f : (s.setCq q f).pmsg = s.pmsg := rfl
@[simp] theorem State.setCq_laser (s : State) q f : (s.setCq q f).laser = s.laser := rfl
@[simp] theorem State.setCq_cal (s : State) q f : (s.setCq q f).cal = s.cal := rfl
@[simp] theorem State.setCq_thm (s : State) q f : (s.setCq q f).thm = s.thm := rfl
@[simp] theorem State.setCq_flash (s : State) q f : (s.setCq q f).flash = s.flash := rfl
@[simp] theorem State.setCq_hostMem (s : State) q f : (s.setCq q f).hostMem = s.hostMem := rfl
@[simp] theorem State.setCq_bus (s : State) q f : (s.setCq q f).bus = s.bus := rfl
@[simp] theorem State.setCq_pending (s : State) q f : (s.setCq q f).pending = s.pending := rfl
@[simp] theorem State.setCq_free (s : State) q f : (s.setCq q f).free = s.free := rfl

/-! ### setEng -/

@[simp] theorem State.setEng_pins (s : State) e f : (s.setEng e f).pins = s.pins := rfl
@[simp] theorem State.setEng_col (s : State) e f : (s.setEng e f).col = s.col := rfl
@[simp] theorem State.setEng_start (s : State) e f : (s.setEng e f).start = s.start := rfl
@[simp] theorem State.setEng_quads (s : State) e f : (s.setEng e f).quads = s.quads := rfl
@[simp] theorem State.setEng_cairn (s : State) e f : (s.setEng e f).cairn = s.cairn := rfl
@[simp] theorem State.setEng_lockLoss (s : State) e f : (s.setEng e f).lockLoss = s.lockLoss := rfl
@[simp] theorem State.setEng_loader (s : State) e f : (s.setEng e f).loader = s.loader := rfl
@[simp] theorem State.setEng_committed (s : State) e f : (s.setEng e f).committed = s.committed := rfl
@[simp] theorem State.setEng_str (s : State) e f : (s.setEng e f).str = s.str := rfl
@[simp] theorem State.setEng_ret (s : State) e f : (s.setEng e f).ret = s.ret := rfl
@[simp] theorem State.setEng_parts (s : State) e f : (s.setEng e f).parts = s.parts := rfl
@[simp] theorem State.setEng_numVfs (s : State) e f : (s.setEng e f).numVfs = s.numVfs := rfl
@[simp] theorem State.setEng_vfs (s : State) e f : (s.setEng e f).vfs = s.vfs := rfl
@[simp] theorem State.setEng_turns (s : State) e f : (s.setEng e f).turns = s.turns := rfl
@[simp] theorem State.setEng_mbx (s : State) e f : (s.setEng e f).mbx = s.mbx := rfl
@[simp] theorem State.setEng_pfMsix (s : State) e f : (s.setEng e f).pfMsix = s.pfMsix := rfl
@[simp] theorem State.setEng_irqs (s : State) e f : (s.setEng e f).irqs = s.irqs := rfl
@[simp] theorem State.setEng_items (s : State) e f : (s.setEng e f).items = s.items := rfl
@[simp] theorem State.setEng_nextItem (s : State) e f : (s.setEng e f).nextItem = s.nextItem := rfl
@[simp] theorem State.setEng_sends (s : State) e f : (s.setEng e f).sends = s.sends := rfl
@[simp] theorem State.setEng_nextMid (s : State) e f : (s.setEng e f).nextMid = s.nextMid := rfl
@[simp] theorem State.setEng_dram (s : State) e f : (s.setEng e f).dram = s.dram := rfl
@[simp] theorem State.setEng_ras (s : State) e f : (s.setEng e f).ras = s.ras := rfl
@[simp] theorem State.setEng_trv (s : State) e f : (s.setEng e f).trv = s.trv := rfl
@[simp] theorem State.setEng_crest (s : State) e f : (s.setEng e f).crest = s.crest := rfl
@[simp] theorem State.setEng_cornice (s : State) e f : (s.setEng e f).cornice = updWith s.cornice e f := rfl
@[simp] theorem State.setEng_spur (s : State) e f : (s.setEng e f).spur = s.spur := rfl
@[simp] theorem State.setEng_ports (s : State) e f : (s.setEng e f).ports = s.ports := rfl
@[simp] theorem State.setEng_links (s : State) e f : (s.setEng e f).links = s.links := rfl
@[simp] theorem State.setEng_linkHoldMs (s : State) e f : (s.setEng e f).linkHoldMs = s.linkHoldMs := rfl
@[simp] theorem State.setEng_replyMs (s : State) e f : (s.setEng e f).replyMs = s.replyMs := rfl
@[simp] theorem State.setEng_pmsg (s : State) e f : (s.setEng e f).pmsg = s.pmsg := rfl
@[simp] theorem State.setEng_laser (s : State) e f : (s.setEng e f).laser = s.laser := rfl
@[simp] theorem State.setEng_cal (s : State) e f : (s.setEng e f).cal = s.cal := rfl
@[simp] theorem State.setEng_thm (s : State) e f : (s.setEng e f).thm = s.thm := rfl
@[simp] theorem State.setEng_flash (s : State) e f : (s.setEng e f).flash = s.flash := rfl
@[simp] theorem State.setEng_hostMem (s : State) e f : (s.setEng e f).hostMem = s.hostMem := rfl
@[simp] theorem State.setEng_bus (s : State) e f : (s.setEng e f).bus = s.bus := rfl
@[simp] theorem State.setEng_pending (s : State) e f : (s.setEng e f).pending = s.pending := rfl
@[simp] theorem State.setEng_free (s : State) e f : (s.setEng e f).free = s.free := rfl

/-! ### setChan -/

@[simp] theorem State.setChan_pins (s : State) c f : (s.setChan c f).pins = s.pins := rfl
@[simp] theorem State.setChan_col (s : State) c f : (s.setChan c f).col = s.col := rfl
@[simp] theorem State.setChan_start (s : State) c f : (s.setChan c f).start = s.start := rfl
@[simp] theorem State.setChan_quads (s : State) c f : (s.setChan c f).quads = s.quads := rfl
@[simp] theorem State.setChan_cairn (s : State) c f : (s.setChan c f).cairn = s.cairn := rfl
@[simp] theorem State.setChan_lockLoss (s : State) c f : (s.setChan c f).lockLoss = s.lockLoss := rfl
@[simp] theorem State.setChan_loader (s : State) c f : (s.setChan c f).loader = s.loader := rfl
@[simp] theorem State.setChan_committed (s : State) c f : (s.setChan c f).committed = s.committed := rfl
@[simp] theorem State.setChan_str (s : State) c f : (s.setChan c f).str = s.str := rfl
@[simp] theorem State.setChan_ret (s : State) c f : (s.setChan c f).ret = s.ret := rfl
@[simp] theorem State.setChan_parts (s : State) c f : (s.setChan c f).parts = s.parts := rfl
@[simp] theorem State.setChan_numVfs (s : State) c f : (s.setChan c f).numVfs = s.numVfs := rfl
@[simp] theorem State.setChan_vfs (s : State) c f : (s.setChan c f).vfs = s.vfs := rfl
@[simp] theorem State.setChan_turns (s : State) c f : (s.setChan c f).turns = s.turns := rfl
@[simp] theorem State.setChan_mbx (s : State) c f : (s.setChan c f).mbx = s.mbx := rfl
@[simp] theorem State.setChan_pfMsix (s : State) c f : (s.setChan c f).pfMsix = s.pfMsix := rfl
@[simp] theorem State.setChan_irqs (s : State) c f : (s.setChan c f).irqs = s.irqs := rfl
@[simp] theorem State.setChan_items (s : State) c f : (s.setChan c f).items = s.items := rfl
@[simp] theorem State.setChan_nextItem (s : State) c f : (s.setChan c f).nextItem = s.nextItem := rfl
@[simp] theorem State.setChan_sends (s : State) c f : (s.setChan c f).sends = s.sends := rfl
@[simp] theorem State.setChan_nextMid (s : State) c f : (s.setChan c f).nextMid = s.nextMid := rfl
@[simp] theorem State.setChan_dram (s : State) c f : (s.setChan c f).dram = { s.dram with chans := updWith s.dram.chans c f } := rfl
@[simp] theorem State.setChan_ras (s : State) c f : (s.setChan c f).ras = s.ras := rfl
@[simp] theorem State.setChan_trv (s : State) c f : (s.setChan c f).trv = s.trv := rfl
@[simp] theorem State.setChan_crest (s : State) c f : (s.setChan c f).crest = s.crest := rfl
@[simp] theorem State.setChan_cornice (s : State) c f : (s.setChan c f).cornice = s.cornice := rfl
@[simp] theorem State.setChan_spur (s : State) c f : (s.setChan c f).spur = s.spur := rfl
@[simp] theorem State.setChan_ports (s : State) c f : (s.setChan c f).ports = s.ports := rfl
@[simp] theorem State.setChan_links (s : State) c f : (s.setChan c f).links = s.links := rfl
@[simp] theorem State.setChan_linkHoldMs (s : State) c f : (s.setChan c f).linkHoldMs = s.linkHoldMs := rfl
@[simp] theorem State.setChan_replyMs (s : State) c f : (s.setChan c f).replyMs = s.replyMs := rfl
@[simp] theorem State.setChan_pmsg (s : State) c f : (s.setChan c f).pmsg = s.pmsg := rfl
@[simp] theorem State.setChan_laser (s : State) c f : (s.setChan c f).laser = s.laser := rfl
@[simp] theorem State.setChan_cal (s : State) c f : (s.setChan c f).cal = s.cal := rfl
@[simp] theorem State.setChan_thm (s : State) c f : (s.setChan c f).thm = s.thm := rfl
@[simp] theorem State.setChan_flash (s : State) c f : (s.setChan c f).flash = s.flash := rfl
@[simp] theorem State.setChan_hostMem (s : State) c f : (s.setChan c f).hostMem = s.hostMem := rfl
@[simp] theorem State.setChan_bus (s : State) c f : (s.setChan c f).bus = s.bus := rfl
@[simp] theorem State.setChan_pending (s : State) c f : (s.setChan c f).pending = s.pending := rfl
@[simp] theorem State.setChan_free (s : State) c f : (s.setChan c f).free = s.free := rfl

/-! ### setStack -/

@[simp] theorem State.setStack_pins (s : State) k f : (s.setStack k f).pins = s.pins := rfl
@[simp] theorem State.setStack_col (s : State) k f : (s.setStack k f).col = s.col := rfl
@[simp] theorem State.setStack_start (s : State) k f : (s.setStack k f).start = s.start := rfl
@[simp] theorem State.setStack_quads (s : State) k f : (s.setStack k f).quads = s.quads := rfl
@[simp] theorem State.setStack_cairn (s : State) k f : (s.setStack k f).cairn = s.cairn := rfl
@[simp] theorem State.setStack_lockLoss (s : State) k f : (s.setStack k f).lockLoss = s.lockLoss := rfl
@[simp] theorem State.setStack_loader (s : State) k f : (s.setStack k f).loader = s.loader := rfl
@[simp] theorem State.setStack_committed (s : State) k f : (s.setStack k f).committed = s.committed := rfl
@[simp] theorem State.setStack_str (s : State) k f : (s.setStack k f).str = s.str := rfl
@[simp] theorem State.setStack_ret (s : State) k f : (s.setStack k f).ret = s.ret := rfl
@[simp] theorem State.setStack_parts (s : State) k f : (s.setStack k f).parts = s.parts := rfl
@[simp] theorem State.setStack_numVfs (s : State) k f : (s.setStack k f).numVfs = s.numVfs := rfl
@[simp] theorem State.setStack_vfs (s : State) k f : (s.setStack k f).vfs = s.vfs := rfl
@[simp] theorem State.setStack_turns (s : State) k f : (s.setStack k f).turns = s.turns := rfl
@[simp] theorem State.setStack_mbx (s : State) k f : (s.setStack k f).mbx = s.mbx := rfl
@[simp] theorem State.setStack_pfMsix (s : State) k f : (s.setStack k f).pfMsix = s.pfMsix := rfl
@[simp] theorem State.setStack_irqs (s : State) k f : (s.setStack k f).irqs = s.irqs := rfl
@[simp] theorem State.setStack_items (s : State) k f : (s.setStack k f).items = s.items := rfl
@[simp] theorem State.setStack_nextItem (s : State) k f : (s.setStack k f).nextItem = s.nextItem := rfl
@[simp] theorem State.setStack_sends (s : State) k f : (s.setStack k f).sends = s.sends := rfl
@[simp] theorem State.setStack_nextMid (s : State) k f : (s.setStack k f).nextMid = s.nextMid := rfl
@[simp] theorem State.setStack_dram (s : State) k f : (s.setStack k f).dram = { s.dram with stk := updWith s.dram.stk k f } := rfl
@[simp] theorem State.setStack_ras (s : State) k f : (s.setStack k f).ras = s.ras := rfl
@[simp] theorem State.setStack_trv (s : State) k f : (s.setStack k f).trv = s.trv := rfl
@[simp] theorem State.setStack_crest (s : State) k f : (s.setStack k f).crest = s.crest := rfl
@[simp] theorem State.setStack_cornice (s : State) k f : (s.setStack k f).cornice = s.cornice := rfl
@[simp] theorem State.setStack_spur (s : State) k f : (s.setStack k f).spur = s.spur := rfl
@[simp] theorem State.setStack_ports (s : State) k f : (s.setStack k f).ports = s.ports := rfl
@[simp] theorem State.setStack_links (s : State) k f : (s.setStack k f).links = s.links := rfl
@[simp] theorem State.setStack_linkHoldMs (s : State) k f : (s.setStack k f).linkHoldMs = s.linkHoldMs := rfl
@[simp] theorem State.setStack_replyMs (s : State) k f : (s.setStack k f).replyMs = s.replyMs := rfl
@[simp] theorem State.setStack_pmsg (s : State) k f : (s.setStack k f).pmsg = s.pmsg := rfl
@[simp] theorem State.setStack_laser (s : State) k f : (s.setStack k f).laser = s.laser := rfl
@[simp] theorem State.setStack_cal (s : State) k f : (s.setStack k f).cal = s.cal := rfl
@[simp] theorem State.setStack_thm (s : State) k f : (s.setStack k f).thm = s.thm := rfl
@[simp] theorem State.setStack_flash (s : State) k f : (s.setStack k f).flash = s.flash := rfl
@[simp] theorem State.setStack_hostMem (s : State) k f : (s.setStack k f).hostMem = s.hostMem := rfl
@[simp] theorem State.setStack_bus (s : State) k f : (s.setStack k f).bus = s.bus := rfl
@[simp] theorem State.setStack_pending (s : State) k f : (s.setStack k f).pending = s.pending := rfl
@[simp] theorem State.setStack_free (s : State) k f : (s.setStack k f).free = s.free := rfl

/-! ### setGroup -/

@[simp] theorem State.setGroup_pins (s : State) g f : (s.setGroup g f).pins = s.pins := rfl
@[simp] theorem State.setGroup_col (s : State) g f : (s.setGroup g f).col = s.col := rfl
@[simp] theorem State.setGroup_start (s : State) g f : (s.setGroup g f).start = s.start := rfl
@[simp] theorem State.setGroup_quads (s : State) g f : (s.setGroup g f).quads = s.quads := rfl
@[simp] theorem State.setGroup_cairn (s : State) g f : (s.setGroup g f).cairn = s.cairn := rfl
@[simp] theorem State.setGroup_lockLoss (s : State) g f : (s.setGroup g f).lockLoss = s.lockLoss := rfl
@[simp] theorem State.setGroup_loader (s : State) g f : (s.setGroup g f).loader = s.loader := rfl
@[simp] theorem State.setGroup_committed (s : State) g f : (s.setGroup g f).committed = s.committed := rfl
@[simp] theorem State.setGroup_str (s : State) g f : (s.setGroup g f).str = s.str := rfl
@[simp] theorem State.setGroup_ret (s : State) g f : (s.setGroup g f).ret = s.ret := rfl
@[simp] theorem State.setGroup_parts (s : State) g f : (s.setGroup g f).parts = s.parts := rfl
@[simp] theorem State.setGroup_numVfs (s : State) g f : (s.setGroup g f).numVfs = s.numVfs := rfl
@[simp] theorem State.setGroup_vfs (s : State) g f : (s.setGroup g f).vfs = s.vfs := rfl
@[simp] theorem State.setGroup_turns (s : State) g f : (s.setGroup g f).turns = s.turns := rfl
@[simp] theorem State.setGroup_mbx (s : State) g f : (s.setGroup g f).mbx = s.mbx := rfl
@[simp] theorem State.setGroup_pfMsix (s : State) g f : (s.setGroup g f).pfMsix = s.pfMsix := rfl
@[simp] theorem State.setGroup_irqs (s : State) g f : (s.setGroup g f).irqs = s.irqs := rfl
@[simp] theorem State.setGroup_items (s : State) g f : (s.setGroup g f).items = s.items := rfl
@[simp] theorem State.setGroup_nextItem (s : State) g f : (s.setGroup g f).nextItem = s.nextItem := rfl
@[simp] theorem State.setGroup_sends (s : State) g f : (s.setGroup g f).sends = s.sends := rfl
@[simp] theorem State.setGroup_nextMid (s : State) g f : (s.setGroup g f).nextMid = s.nextMid := rfl
@[simp] theorem State.setGroup_dram (s : State) g f : (s.setGroup g f).dram = s.dram := rfl
@[simp] theorem State.setGroup_ras (s : State) g f : (s.setGroup g f).ras = s.ras := rfl
@[simp] theorem State.setGroup_trv (s : State) g f : (s.setGroup g f).trv = s.trv := rfl
@[simp] theorem State.setGroup_crest (s : State) g f : (s.setGroup g f).crest = s.crest := rfl
@[simp] theorem State.setGroup_cornice (s : State) g f : (s.setGroup g f).cornice = s.cornice := rfl
@[simp] theorem State.setGroup_spur (s : State) g f : (s.setGroup g f).spur = { s.spur with groups := updWith s.spur.groups g f } := rfl
@[simp] theorem State.setGroup_ports (s : State) g f : (s.setGroup g f).ports = s.ports := rfl
@[simp] theorem State.setGroup_links (s : State) g f : (s.setGroup g f).links = s.links := rfl
@[simp] theorem State.setGroup_linkHoldMs (s : State) g f : (s.setGroup g f).linkHoldMs = s.linkHoldMs := rfl
@[simp] theorem State.setGroup_replyMs (s : State) g f : (s.setGroup g f).replyMs = s.replyMs := rfl
@[simp] theorem State.setGroup_pmsg (s : State) g f : (s.setGroup g f).pmsg = s.pmsg := rfl
@[simp] theorem State.setGroup_laser (s : State) g f : (s.setGroup g f).laser = s.laser := rfl
@[simp] theorem State.setGroup_cal (s : State) g f : (s.setGroup g f).cal = s.cal := rfl
@[simp] theorem State.setGroup_thm (s : State) g f : (s.setGroup g f).thm = s.thm := rfl
@[simp] theorem State.setGroup_flash (s : State) g f : (s.setGroup g f).flash = s.flash := rfl
@[simp] theorem State.setGroup_hostMem (s : State) g f : (s.setGroup g f).hostMem = s.hostMem := rfl
@[simp] theorem State.setGroup_bus (s : State) g f : (s.setGroup g f).bus = s.bus := rfl
@[simp] theorem State.setGroup_pending (s : State) g f : (s.setGroup g f).pending = s.pending := rfl
@[simp] theorem State.setGroup_free (s : State) g f : (s.setGroup g f).free = s.free := rfl

/-! ### setLedger -/

@[simp] theorem State.setLedger_pins (s : State) k f : (s.setLedger k f).pins = s.pins := rfl
@[simp] theorem State.setLedger_col (s : State) k f : (s.setLedger k f).col = s.col := rfl
@[simp] theorem State.setLedger_start (s : State) k f : (s.setLedger k f).start = s.start := rfl
@[simp] theorem State.setLedger_quads (s : State) k f : (s.setLedger k f).quads = s.quads := rfl
@[simp] theorem State.setLedger_cairn (s : State) k f : (s.setLedger k f).cairn = s.cairn := rfl
@[simp] theorem State.setLedger_lockLoss (s : State) k f : (s.setLedger k f).lockLoss = s.lockLoss := rfl
@[simp] theorem State.setLedger_loader (s : State) k f : (s.setLedger k f).loader = s.loader := rfl
@[simp] theorem State.setLedger_committed (s : State) k f : (s.setLedger k f).committed = s.committed := rfl
@[simp] theorem State.setLedger_str (s : State) k f : (s.setLedger k f).str = s.str := rfl
@[simp] theorem State.setLedger_ret (s : State) k f : (s.setLedger k f).ret = s.ret := rfl
@[simp] theorem State.setLedger_parts (s : State) k f : (s.setLedger k f).parts = s.parts := rfl
@[simp] theorem State.setLedger_numVfs (s : State) k f : (s.setLedger k f).numVfs = s.numVfs := rfl
@[simp] theorem State.setLedger_vfs (s : State) k f : (s.setLedger k f).vfs = s.vfs := rfl
@[simp] theorem State.setLedger_turns (s : State) k f : (s.setLedger k f).turns = s.turns := rfl
@[simp] theorem State.setLedger_mbx (s : State) k f : (s.setLedger k f).mbx = s.mbx := rfl
@[simp] theorem State.setLedger_pfMsix (s : State) k f : (s.setLedger k f).pfMsix = s.pfMsix := rfl
@[simp] theorem State.setLedger_irqs (s : State) k f : (s.setLedger k f).irqs = s.irqs := rfl
@[simp] theorem State.setLedger_items (s : State) k f : (s.setLedger k f).items = s.items := rfl
@[simp] theorem State.setLedger_nextItem (s : State) k f : (s.setLedger k f).nextItem = s.nextItem := rfl
@[simp] theorem State.setLedger_sends (s : State) k f : (s.setLedger k f).sends = s.sends := rfl
@[simp] theorem State.setLedger_nextMid (s : State) k f : (s.setLedger k f).nextMid = s.nextMid := rfl
@[simp] theorem State.setLedger_dram (s : State) k f : (s.setLedger k f).dram = s.dram := rfl
@[simp] theorem State.setLedger_ras (s : State) k f : (s.setLedger k f).ras = s.ras := rfl
@[simp] theorem State.setLedger_trv (s : State) k f : (s.setLedger k f).trv = s.trv := rfl
@[simp] theorem State.setLedger_crest (s : State) k f : (s.setLedger k f).crest = s.crest := rfl
@[simp] theorem State.setLedger_cornice (s : State) k f : (s.setLedger k f).cornice = s.cornice := rfl
@[simp] theorem State.setLedger_spur (s : State) k f : (s.setLedger k f).spur = { s.spur with ledgers := updWith s.spur.ledgers k f } := rfl
@[simp] theorem State.setLedger_ports (s : State) k f : (s.setLedger k f).ports = s.ports := rfl
@[simp] theorem State.setLedger_links (s : State) k f : (s.setLedger k f).links = s.links := rfl
@[simp] theorem State.setLedger_linkHoldMs (s : State) k f : (s.setLedger k f).linkHoldMs = s.linkHoldMs := rfl
@[simp] theorem State.setLedger_replyMs (s : State) k f : (s.setLedger k f).replyMs = s.replyMs := rfl
@[simp] theorem State.setLedger_pmsg (s : State) k f : (s.setLedger k f).pmsg = s.pmsg := rfl
@[simp] theorem State.setLedger_laser (s : State) k f : (s.setLedger k f).laser = s.laser := rfl
@[simp] theorem State.setLedger_cal (s : State) k f : (s.setLedger k f).cal = s.cal := rfl
@[simp] theorem State.setLedger_thm (s : State) k f : (s.setLedger k f).thm = s.thm := rfl
@[simp] theorem State.setLedger_flash (s : State) k f : (s.setLedger k f).flash = s.flash := rfl
@[simp] theorem State.setLedger_hostMem (s : State) k f : (s.setLedger k f).hostMem = s.hostMem := rfl
@[simp] theorem State.setLedger_bus (s : State) k f : (s.setLedger k f).bus = s.bus := rfl
@[simp] theorem State.setLedger_pending (s : State) k f : (s.setLedger k f).pending = s.pending := rfl
@[simp] theorem State.setLedger_free (s : State) k f : (s.setLedger k f).free = s.free := rfl

/-! ### setSpurPart -/

@[simp] theorem State.setSpurPart_pins (s : State) p f : (s.setSpurPart p f).pins = s.pins := rfl
@[simp] theorem State.setSpurPart_col (s : State) p f : (s.setSpurPart p f).col = s.col := rfl
@[simp] theorem State.setSpurPart_start (s : State) p f : (s.setSpurPart p f).start = s.start := rfl
@[simp] theorem State.setSpurPart_quads (s : State) p f : (s.setSpurPart p f).quads = s.quads := rfl
@[simp] theorem State.setSpurPart_cairn (s : State) p f : (s.setSpurPart p f).cairn = s.cairn := rfl
@[simp] theorem State.setSpurPart_lockLoss (s : State) p f : (s.setSpurPart p f).lockLoss = s.lockLoss := rfl
@[simp] theorem State.setSpurPart_loader (s : State) p f : (s.setSpurPart p f).loader = s.loader := rfl
@[simp] theorem State.setSpurPart_committed (s : State) p f : (s.setSpurPart p f).committed = s.committed := rfl
@[simp] theorem State.setSpurPart_str (s : State) p f : (s.setSpurPart p f).str = s.str := rfl
@[simp] theorem State.setSpurPart_ret (s : State) p f : (s.setSpurPart p f).ret = s.ret := rfl
@[simp] theorem State.setSpurPart_parts (s : State) p f : (s.setSpurPart p f).parts = s.parts := rfl
@[simp] theorem State.setSpurPart_numVfs (s : State) p f : (s.setSpurPart p f).numVfs = s.numVfs := rfl
@[simp] theorem State.setSpurPart_vfs (s : State) p f : (s.setSpurPart p f).vfs = s.vfs := rfl
@[simp] theorem State.setSpurPart_turns (s : State) p f : (s.setSpurPart p f).turns = s.turns := rfl
@[simp] theorem State.setSpurPart_mbx (s : State) p f : (s.setSpurPart p f).mbx = s.mbx := rfl
@[simp] theorem State.setSpurPart_pfMsix (s : State) p f : (s.setSpurPart p f).pfMsix = s.pfMsix := rfl
@[simp] theorem State.setSpurPart_irqs (s : State) p f : (s.setSpurPart p f).irqs = s.irqs := rfl
@[simp] theorem State.setSpurPart_items (s : State) p f : (s.setSpurPart p f).items = s.items := rfl
@[simp] theorem State.setSpurPart_nextItem (s : State) p f : (s.setSpurPart p f).nextItem = s.nextItem := rfl
@[simp] theorem State.setSpurPart_sends (s : State) p f : (s.setSpurPart p f).sends = s.sends := rfl
@[simp] theorem State.setSpurPart_nextMid (s : State) p f : (s.setSpurPart p f).nextMid = s.nextMid := rfl
@[simp] theorem State.setSpurPart_dram (s : State) p f : (s.setSpurPart p f).dram = s.dram := rfl
@[simp] theorem State.setSpurPart_ras (s : State) p f : (s.setSpurPart p f).ras = s.ras := rfl
@[simp] theorem State.setSpurPart_trv (s : State) p f : (s.setSpurPart p f).trv = s.trv := rfl
@[simp] theorem State.setSpurPart_crest (s : State) p f : (s.setSpurPart p f).crest = s.crest := rfl
@[simp] theorem State.setSpurPart_cornice (s : State) p f : (s.setSpurPart p f).cornice = s.cornice := rfl
@[simp] theorem State.setSpurPart_spur (s : State) p f : (s.setSpurPart p f).spur = { s.spur with parts := updWith s.spur.parts p f } := rfl
@[simp] theorem State.setSpurPart_ports (s : State) p f : (s.setSpurPart p f).ports = s.ports := rfl
@[simp] theorem State.setSpurPart_links (s : State) p f : (s.setSpurPart p f).links = s.links := rfl
@[simp] theorem State.setSpurPart_linkHoldMs (s : State) p f : (s.setSpurPart p f).linkHoldMs = s.linkHoldMs := rfl
@[simp] theorem State.setSpurPart_replyMs (s : State) p f : (s.setSpurPart p f).replyMs = s.replyMs := rfl
@[simp] theorem State.setSpurPart_pmsg (s : State) p f : (s.setSpurPart p f).pmsg = s.pmsg := rfl
@[simp] theorem State.setSpurPart_laser (s : State) p f : (s.setSpurPart p f).laser = s.laser := rfl
@[simp] theorem State.setSpurPart_cal (s : State) p f : (s.setSpurPart p f).cal = s.cal := rfl
@[simp] theorem State.setSpurPart_thm (s : State) p f : (s.setSpurPart p f).thm = s.thm := rfl
@[simp] theorem State.setSpurPart_flash (s : State) p f : (s.setSpurPart p f).flash = s.flash := rfl
@[simp] theorem State.setSpurPart_hostMem (s : State) p f : (s.setSpurPart p f).hostMem = s.hostMem := rfl
@[simp] theorem State.setSpurPart_bus (s : State) p f : (s.setSpurPart p f).bus = s.bus := rfl
@[simp] theorem State.setSpurPart_pending (s : State) p f : (s.setSpurPart p f).pending = s.pending := rfl
@[simp] theorem State.setSpurPart_free (s : State) p f : (s.setSpurPart p f).free = s.free := rfl

/-! ### setPort -/

@[simp] theorem State.setPort_pins (s : State) p f : (s.setPort p f).pins = s.pins := rfl
@[simp] theorem State.setPort_col (s : State) p f : (s.setPort p f).col = s.col := rfl
@[simp] theorem State.setPort_start (s : State) p f : (s.setPort p f).start = s.start := rfl
@[simp] theorem State.setPort_quads (s : State) p f : (s.setPort p f).quads = s.quads := rfl
@[simp] theorem State.setPort_cairn (s : State) p f : (s.setPort p f).cairn = s.cairn := rfl
@[simp] theorem State.setPort_lockLoss (s : State) p f : (s.setPort p f).lockLoss = s.lockLoss := rfl
@[simp] theorem State.setPort_loader (s : State) p f : (s.setPort p f).loader = s.loader := rfl
@[simp] theorem State.setPort_committed (s : State) p f : (s.setPort p f).committed = s.committed := rfl
@[simp] theorem State.setPort_str (s : State) p f : (s.setPort p f).str = s.str := rfl
@[simp] theorem State.setPort_ret (s : State) p f : (s.setPort p f).ret = s.ret := rfl
@[simp] theorem State.setPort_parts (s : State) p f : (s.setPort p f).parts = s.parts := rfl
@[simp] theorem State.setPort_numVfs (s : State) p f : (s.setPort p f).numVfs = s.numVfs := rfl
@[simp] theorem State.setPort_vfs (s : State) p f : (s.setPort p f).vfs = s.vfs := rfl
@[simp] theorem State.setPort_turns (s : State) p f : (s.setPort p f).turns = s.turns := rfl
@[simp] theorem State.setPort_mbx (s : State) p f : (s.setPort p f).mbx = s.mbx := rfl
@[simp] theorem State.setPort_pfMsix (s : State) p f : (s.setPort p f).pfMsix = s.pfMsix := rfl
@[simp] theorem State.setPort_irqs (s : State) p f : (s.setPort p f).irqs = s.irqs := rfl
@[simp] theorem State.setPort_items (s : State) p f : (s.setPort p f).items = s.items := rfl
@[simp] theorem State.setPort_nextItem (s : State) p f : (s.setPort p f).nextItem = s.nextItem := rfl
@[simp] theorem State.setPort_sends (s : State) p f : (s.setPort p f).sends = s.sends := rfl
@[simp] theorem State.setPort_nextMid (s : State) p f : (s.setPort p f).nextMid = s.nextMid := rfl
@[simp] theorem State.setPort_dram (s : State) p f : (s.setPort p f).dram = s.dram := rfl
@[simp] theorem State.setPort_ras (s : State) p f : (s.setPort p f).ras = s.ras := rfl
@[simp] theorem State.setPort_trv (s : State) p f : (s.setPort p f).trv = s.trv := rfl
@[simp] theorem State.setPort_crest (s : State) p f : (s.setPort p f).crest = s.crest := rfl
@[simp] theorem State.setPort_cornice (s : State) p f : (s.setPort p f).cornice = s.cornice := rfl
@[simp] theorem State.setPort_spur (s : State) p f : (s.setPort p f).spur = s.spur := rfl
@[simp] theorem State.setPort_ports (s : State) p f : (s.setPort p f).ports = updWith s.ports p f := rfl
@[simp] theorem State.setPort_links (s : State) p f : (s.setPort p f).links = s.links := rfl
@[simp] theorem State.setPort_linkHoldMs (s : State) p f : (s.setPort p f).linkHoldMs = s.linkHoldMs := rfl
@[simp] theorem State.setPort_replyMs (s : State) p f : (s.setPort p f).replyMs = s.replyMs := rfl
@[simp] theorem State.setPort_pmsg (s : State) p f : (s.setPort p f).pmsg = s.pmsg := rfl
@[simp] theorem State.setPort_laser (s : State) p f : (s.setPort p f).laser = s.laser := rfl
@[simp] theorem State.setPort_cal (s : State) p f : (s.setPort p f).cal = s.cal := rfl
@[simp] theorem State.setPort_thm (s : State) p f : (s.setPort p f).thm = s.thm := rfl
@[simp] theorem State.setPort_flash (s : State) p f : (s.setPort p f).flash = s.flash := rfl
@[simp] theorem State.setPort_hostMem (s : State) p f : (s.setPort p f).hostMem = s.hostMem := rfl
@[simp] theorem State.setPort_bus (s : State) p f : (s.setPort p f).bus = s.bus := rfl
@[simp] theorem State.setPort_pending (s : State) p f : (s.setPort p f).pending = s.pending := rfl
@[simp] theorem State.setPort_free (s : State) p f : (s.setPort p f).free = s.free := rfl

/-! ### setLink -/

@[simp] theorem State.setLink_pins (s : State) p f : (s.setLink p f).pins = s.pins := rfl
@[simp] theorem State.setLink_col (s : State) p f : (s.setLink p f).col = s.col := rfl
@[simp] theorem State.setLink_start (s : State) p f : (s.setLink p f).start = s.start := rfl
@[simp] theorem State.setLink_quads (s : State) p f : (s.setLink p f).quads = s.quads := rfl
@[simp] theorem State.setLink_cairn (s : State) p f : (s.setLink p f).cairn = s.cairn := rfl
@[simp] theorem State.setLink_lockLoss (s : State) p f : (s.setLink p f).lockLoss = s.lockLoss := rfl
@[simp] theorem State.setLink_loader (s : State) p f : (s.setLink p f).loader = s.loader := rfl
@[simp] theorem State.setLink_committed (s : State) p f : (s.setLink p f).committed = s.committed := rfl
@[simp] theorem State.setLink_str (s : State) p f : (s.setLink p f).str = s.str := rfl
@[simp] theorem State.setLink_ret (s : State) p f : (s.setLink p f).ret = s.ret := rfl
@[simp] theorem State.setLink_parts (s : State) p f : (s.setLink p f).parts = s.parts := rfl
@[simp] theorem State.setLink_numVfs (s : State) p f : (s.setLink p f).numVfs = s.numVfs := rfl
@[simp] theorem State.setLink_vfs (s : State) p f : (s.setLink p f).vfs = s.vfs := rfl
@[simp] theorem State.setLink_turns (s : State) p f : (s.setLink p f).turns = s.turns := rfl
@[simp] theorem State.setLink_mbx (s : State) p f : (s.setLink p f).mbx = s.mbx := rfl
@[simp] theorem State.setLink_pfMsix (s : State) p f : (s.setLink p f).pfMsix = s.pfMsix := rfl
@[simp] theorem State.setLink_irqs (s : State) p f : (s.setLink p f).irqs = s.irqs := rfl
@[simp] theorem State.setLink_items (s : State) p f : (s.setLink p f).items = s.items := rfl
@[simp] theorem State.setLink_nextItem (s : State) p f : (s.setLink p f).nextItem = s.nextItem := rfl
@[simp] theorem State.setLink_sends (s : State) p f : (s.setLink p f).sends = s.sends := rfl
@[simp] theorem State.setLink_nextMid (s : State) p f : (s.setLink p f).nextMid = s.nextMid := rfl
@[simp] theorem State.setLink_dram (s : State) p f : (s.setLink p f).dram = s.dram := rfl
@[simp] theorem State.setLink_ras (s : State) p f : (s.setLink p f).ras = s.ras := rfl
@[simp] theorem State.setLink_trv (s : State) p f : (s.setLink p f).trv = s.trv := rfl
@[simp] theorem State.setLink_crest (s : State) p f : (s.setLink p f).crest = s.crest := rfl
@[simp] theorem State.setLink_cornice (s : State) p f : (s.setLink p f).cornice = s.cornice := rfl
@[simp] theorem State.setLink_spur (s : State) p f : (s.setLink p f).spur = s.spur := rfl
@[simp] theorem State.setLink_ports (s : State) p f : (s.setLink p f).ports = s.ports := rfl
@[simp] theorem State.setLink_links (s : State) p f : (s.setLink p f).links = updWith s.links p f := rfl
@[simp] theorem State.setLink_linkHoldMs (s : State) p f : (s.setLink p f).linkHoldMs = s.linkHoldMs := rfl
@[simp] theorem State.setLink_replyMs (s : State) p f : (s.setLink p f).replyMs = s.replyMs := rfl
@[simp] theorem State.setLink_pmsg (s : State) p f : (s.setLink p f).pmsg = s.pmsg := rfl
@[simp] theorem State.setLink_laser (s : State) p f : (s.setLink p f).laser = s.laser := rfl
@[simp] theorem State.setLink_cal (s : State) p f : (s.setLink p f).cal = s.cal := rfl
@[simp] theorem State.setLink_thm (s : State) p f : (s.setLink p f).thm = s.thm := rfl
@[simp] theorem State.setLink_flash (s : State) p f : (s.setLink p f).flash = s.flash := rfl
@[simp] theorem State.setLink_hostMem (s : State) p f : (s.setLink p f).hostMem = s.hostMem := rfl
@[simp] theorem State.setLink_bus (s : State) p f : (s.setLink p f).bus = s.bus := rfl
@[simp] theorem State.setLink_pending (s : State) p f : (s.setLink p f).pending = s.pending := rfl
@[simp] theorem State.setLink_free (s : State) p f : (s.setLink p f).free = s.free := rfl

/-! ### setLaser -/

@[simp] theorem State.setLaser_pins (s : State) n f : (s.setLaser n f).pins = s.pins := rfl
@[simp] theorem State.setLaser_col (s : State) n f : (s.setLaser n f).col = s.col := rfl
@[simp] theorem State.setLaser_start (s : State) n f : (s.setLaser n f).start = s.start := rfl
@[simp] theorem State.setLaser_quads (s : State) n f : (s.setLaser n f).quads = s.quads := rfl
@[simp] theorem State.setLaser_cairn (s : State) n f : (s.setLaser n f).cairn = s.cairn := rfl
@[simp] theorem State.setLaser_lockLoss (s : State) n f : (s.setLaser n f).lockLoss = s.lockLoss := rfl
@[simp] theorem State.setLaser_loader (s : State) n f : (s.setLaser n f).loader = s.loader := rfl
@[simp] theorem State.setLaser_committed (s : State) n f : (s.setLaser n f).committed = s.committed := rfl
@[simp] theorem State.setLaser_str (s : State) n f : (s.setLaser n f).str = s.str := rfl
@[simp] theorem State.setLaser_ret (s : State) n f : (s.setLaser n f).ret = s.ret := rfl
@[simp] theorem State.setLaser_parts (s : State) n f : (s.setLaser n f).parts = s.parts := rfl
@[simp] theorem State.setLaser_numVfs (s : State) n f : (s.setLaser n f).numVfs = s.numVfs := rfl
@[simp] theorem State.setLaser_vfs (s : State) n f : (s.setLaser n f).vfs = s.vfs := rfl
@[simp] theorem State.setLaser_turns (s : State) n f : (s.setLaser n f).turns = s.turns := rfl
@[simp] theorem State.setLaser_mbx (s : State) n f : (s.setLaser n f).mbx = s.mbx := rfl
@[simp] theorem State.setLaser_pfMsix (s : State) n f : (s.setLaser n f).pfMsix = s.pfMsix := rfl
@[simp] theorem State.setLaser_irqs (s : State) n f : (s.setLaser n f).irqs = s.irqs := rfl
@[simp] theorem State.setLaser_items (s : State) n f : (s.setLaser n f).items = s.items := rfl
@[simp] theorem State.setLaser_nextItem (s : State) n f : (s.setLaser n f).nextItem = s.nextItem := rfl
@[simp] theorem State.setLaser_sends (s : State) n f : (s.setLaser n f).sends = s.sends := rfl
@[simp] theorem State.setLaser_nextMid (s : State) n f : (s.setLaser n f).nextMid = s.nextMid := rfl
@[simp] theorem State.setLaser_dram (s : State) n f : (s.setLaser n f).dram = s.dram := rfl
@[simp] theorem State.setLaser_ras (s : State) n f : (s.setLaser n f).ras = s.ras := rfl
@[simp] theorem State.setLaser_trv (s : State) n f : (s.setLaser n f).trv = s.trv := rfl
@[simp] theorem State.setLaser_crest (s : State) n f : (s.setLaser n f).crest = s.crest := rfl
@[simp] theorem State.setLaser_cornice (s : State) n f : (s.setLaser n f).cornice = s.cornice := rfl
@[simp] theorem State.setLaser_spur (s : State) n f : (s.setLaser n f).spur = s.spur := rfl
@[simp] theorem State.setLaser_ports (s : State) n f : (s.setLaser n f).ports = s.ports := rfl
@[simp] theorem State.setLaser_links (s : State) n f : (s.setLaser n f).links = s.links := rfl
@[simp] theorem State.setLaser_linkHoldMs (s : State) n f : (s.setLaser n f).linkHoldMs = s.linkHoldMs := rfl
@[simp] theorem State.setLaser_replyMs (s : State) n f : (s.setLaser n f).replyMs = s.replyMs := rfl
@[simp] theorem State.setLaser_pmsg (s : State) n f : (s.setLaser n f).pmsg = s.pmsg := rfl
@[simp] theorem State.setLaser_laser (s : State) n f : (s.setLaser n f).laser = { s.laser with lasers := updWith s.laser.lasers n f } := rfl
@[simp] theorem State.setLaser_cal (s : State) n f : (s.setLaser n f).cal = s.cal := rfl
@[simp] theorem State.setLaser_thm (s : State) n f : (s.setLaser n f).thm = s.thm := rfl
@[simp] theorem State.setLaser_flash (s : State) n f : (s.setLaser n f).flash = s.flash := rfl
@[simp] theorem State.setLaser_hostMem (s : State) n f : (s.setLaser n f).hostMem = s.hostMem := rfl
@[simp] theorem State.setLaser_bus (s : State) n f : (s.setLaser n f).bus = s.bus := rfl
@[simp] theorem State.setLaser_pending (s : State) n f : (s.setLaser n f).pending = s.pending := rfl
@[simp] theorem State.setLaser_free (s : State) n f : (s.setLaser n f).free = s.free := rfl

/-! ### setItem -/

@[simp] theorem State.setItem_pins (s : State) id f : (s.setItem id f).pins = s.pins := rfl
@[simp] theorem State.setItem_col (s : State) id f : (s.setItem id f).col = s.col := rfl
@[simp] theorem State.setItem_start (s : State) id f : (s.setItem id f).start = s.start := rfl
@[simp] theorem State.setItem_quads (s : State) id f : (s.setItem id f).quads = s.quads := rfl
@[simp] theorem State.setItem_cairn (s : State) id f : (s.setItem id f).cairn = s.cairn := rfl
@[simp] theorem State.setItem_lockLoss (s : State) id f : (s.setItem id f).lockLoss = s.lockLoss := rfl
@[simp] theorem State.setItem_loader (s : State) id f : (s.setItem id f).loader = s.loader := rfl
@[simp] theorem State.setItem_committed (s : State) id f : (s.setItem id f).committed = s.committed := rfl
@[simp] theorem State.setItem_str (s : State) id f : (s.setItem id f).str = s.str := rfl
@[simp] theorem State.setItem_ret (s : State) id f : (s.setItem id f).ret = s.ret := rfl
@[simp] theorem State.setItem_parts (s : State) id f : (s.setItem id f).parts = s.parts := rfl
@[simp] theorem State.setItem_numVfs (s : State) id f : (s.setItem id f).numVfs = s.numVfs := rfl
@[simp] theorem State.setItem_vfs (s : State) id f : (s.setItem id f).vfs = s.vfs := rfl
@[simp] theorem State.setItem_turns (s : State) id f : (s.setItem id f).turns = s.turns := rfl
@[simp] theorem State.setItem_mbx (s : State) id f : (s.setItem id f).mbx = s.mbx := rfl
@[simp] theorem State.setItem_pfMsix (s : State) id f : (s.setItem id f).pfMsix = s.pfMsix := rfl
@[simp] theorem State.setItem_irqs (s : State) id f : (s.setItem id f).irqs = s.irqs := rfl
@[simp] theorem State.setItem_items (s : State) id f : (s.setItem id f).items = s.items.map (fun i => if i.id = id then f i else i) := rfl
@[simp] theorem State.setItem_nextItem (s : State) id f : (s.setItem id f).nextItem = s.nextItem := rfl
@[simp] theorem State.setItem_sends (s : State) id f : (s.setItem id f).sends = s.sends := rfl
@[simp] theorem State.setItem_nextMid (s : State) id f : (s.setItem id f).nextMid = s.nextMid := rfl
@[simp] theorem State.setItem_dram (s : State) id f : (s.setItem id f).dram = s.dram := rfl
@[simp] theorem State.setItem_ras (s : State) id f : (s.setItem id f).ras = s.ras := rfl
@[simp] theorem State.setItem_trv (s : State) id f : (s.setItem id f).trv = s.trv := rfl
@[simp] theorem State.setItem_crest (s : State) id f : (s.setItem id f).crest = s.crest := rfl
@[simp] theorem State.setItem_cornice (s : State) id f : (s.setItem id f).cornice = s.cornice := rfl
@[simp] theorem State.setItem_spur (s : State) id f : (s.setItem id f).spur = s.spur := rfl
@[simp] theorem State.setItem_ports (s : State) id f : (s.setItem id f).ports = s.ports := rfl
@[simp] theorem State.setItem_links (s : State) id f : (s.setItem id f).links = s.links := rfl
@[simp] theorem State.setItem_linkHoldMs (s : State) id f : (s.setItem id f).linkHoldMs = s.linkHoldMs := rfl
@[simp] theorem State.setItem_replyMs (s : State) id f : (s.setItem id f).replyMs = s.replyMs := rfl
@[simp] theorem State.setItem_pmsg (s : State) id f : (s.setItem id f).pmsg = s.pmsg := rfl
@[simp] theorem State.setItem_laser (s : State) id f : (s.setItem id f).laser = s.laser := rfl
@[simp] theorem State.setItem_cal (s : State) id f : (s.setItem id f).cal = s.cal := rfl
@[simp] theorem State.setItem_thm (s : State) id f : (s.setItem id f).thm = s.thm := rfl
@[simp] theorem State.setItem_flash (s : State) id f : (s.setItem id f).flash = s.flash := rfl
@[simp] theorem State.setItem_hostMem (s : State) id f : (s.setItem id f).hostMem = s.hostMem := rfl
@[simp] theorem State.setItem_bus (s : State) id f : (s.setItem id f).bus = s.bus := rfl
@[simp] theorem State.setItem_pending (s : State) id f : (s.setItem id f).pending = s.pending := rfl
@[simp] theorem State.setItem_free (s : State) id f : (s.setItem id f).free = s.free := rfl

@[simp] theorem State.setQ_quad_same (s : State) q f : (s.setQ q f).quad q = f (s.quad q) := by
  simp [State.quad, State.setQ]
theorem State.setQ_quad_other (s : State) {q r} f (h : q ≠ r) : (s.setQ q f).quad r = s.quad r := by
  simp [State.quad, State.setQ, tget_updWith_other _ _ h]
@[simp] theorem State.setPart_part_same (s : State) p f : (s.setPart p f).part p = f (s.part p) := by
  simp [State.part, State.setPart]
theorem State.setPart_part_other (s : State) {p r} f (h : p ≠ r) : (s.setPart p f).part r = s.part r := by
  simp [State.part, State.setPart, tget_updWith_other _ _ h]
@[simp] theorem State.setVf_vf_same (s : State) p f : (s.setVf p f).vf p = f (s.vf p) := by
  simp [State.vf, State.setVf]
theorem State.setVf_vf_other (s : State) {p r} f (h : p ≠ r) : (s.setVf p f).vf r = s.vf r := by
  simp [State.vf, State.setVf, tget_updWith_other _ _ h]
@[simp] theorem State.setCq_cq_same (s : State) q f : (s.setCq q f).cq q = f (s.cq q) := by
  simp [State.cq, State.setCq]
theorem State.setCq_cq_other (s : State) {q r} f (h : q ≠ r) : (s.setCq q f).cq r = s.cq r := by
  simp [State.cq, State.setCq, tget_updWith_other _ _ h]
@[simp] theorem State.setEng_eng_same (s : State) e f : (s.setEng e f).eng e = f (s.eng e) := by
  simp [State.eng, State.setEng]
theorem State.setEng_eng_other (s : State) {e r} f (h : e ≠ r) : (s.setEng e f).eng r = s.eng r := by
  simp [State.eng, State.setEng, tget_updWith_other _ _ h]
@[simp] theorem State.setChan_chan_same (s : State) c f : (s.setChan c f).chan c = f (s.chan c) := by
  simp [State.chan, State.setChan]
theorem State.setChan_chan_other (s : State) {c r} f (h : c ≠ r) : (s.setChan c f).chan r = s.chan r := by
  simp [State.chan, State.setChan, tget_updWith_other _ _ h]
@[simp] theorem State.setStack_stack_same (s : State) k f : (s.setStack k f).stack k = f (s.stack k) := by
  simp [State.stack, State.setStack]
theorem State.setStack_stack_other (s : State) {k r} f (h : k ≠ r) : (s.setStack k f).stack r = s.stack r := by
  simp [State.stack, State.setStack, tget_updWith_other _ _ h]
@[simp] theorem State.setPort_port_same (s : State) p f : (s.setPort p f).port p = f (s.port p) := by
  simp [State.port, State.setPort]
theorem State.setPort_port_other (s : State) {p r} f (h : p ≠ r) : (s.setPort p f).port r = s.port r := by
  simp [State.port, State.setPort, tget_updWith_other _ _ h]
@[simp] theorem State.setLink_link_same (s : State) p f : (s.setLink p f).link p = f (s.link p) := by
  simp [State.link, State.setLink]
theorem State.setLink_link_other (s : State) {p r} f (h : p ≠ r) : (s.setLink p f).link r = s.link r := by
  simp [State.link, State.setLink, tget_updWith_other _ _ h]

theorem State.when_true (s : State) {c : Bool} (f : State → State) (h : c = true) : s.when c f = f s := by
  subst h; rfl
theorem State.when_false (s : State) {c : Bool} (f : State → State) (h : c = false) : s.when c f = s := by
  subst h; rfl

end Sys2Proof.Machine
end

