-- ==== Sys2Proof/WellFormed.lean ====
section
/-! DEFINITION. Which commands can occur: the limits of an operand that its type does not already hold. Every meaning
is total, so a command outside these limits has an effect in the model; no statement about the manual concerns it. -/

namespace Sys2Proof

/-- A byte string of an exact length. -/
def lenIs (n : Nat) (bs : List Byte) : Bool := bs.length == n

/-- R370: the EEPROM holds 8,192 bytes. -/
def SeatInput.wellFormed (c : SeatInput) : Bool :=
  match c.eeprom with
  | none => true
  | some bs => lenIs 8192 bs

/-- R64: the masks of a DRAM initialisation name stacks 0 to 7 and banks 0 to 31 of a group. -/
def StartStep.wellFormed : StartStep → Bool
  | .dram fails _ tests => decide (fails < 256) && tests.all (fun t => decide (t.2 < 2 ^ 32))
  | .optics seat _ _ => seat.wellFormed
  | .firmware => true
  | .cairnSweep => true
  | .structureFetch => true

/-- R345: the fields of a HELLO fit their bits. -/
def HelloMsg.wellFormed (h : HelloMsg) : Bool :=
  decide (h.devIndex < 32) && decide (h.devCount < 64) && decide (h.topo < 16) && decide (h.torusW < 32) &&
    decide (h.serial < 2 ^ 64)

/-- The limits of each command's operands; a command that is not named has none beyond its types. -/
def Instr.wellFormed (i : Instr) : Bool :=
  if let .registerWrite _ off _ _ := i then decide (off < 2 ^ 21)
  else if let .lowHalfWrite _ off _ := i then decide (off < 2 ^ 21)
  else if let .highHalfWrite _ off _ := i then decide (off < 2 ^ 21)
  else if let .rcRead _ off _ := i then decide (off < 2 ^ 21)
  else if let .lowHalfRead _ off := i then decide (off < 2 ^ 21)
  else if let .startStepDone st := i then st.wellFormed
  else if let .opticsResume c := i then c.wellFormed
  else if let .cartridgeSeated c := i then c.wellFormed
  else if let .bar2Access w off data len _ := i then
    if w then decide (0 < data.length) && decide (off.val + data.length ≤ 2 ^ 28)
    else decide (0 < len) && decide (len ≤ 512) && decide (off.val + len ≤ 2 ^ 28)
  else if let .thmReadAll rs := i then rs.length == 113
  else if let .spurFireEnd _ b := i then decide (b < 2 ^ 32)
  else if let .spurSelftest _ b := i then decide (b < 2 ^ 32)
  else if let .ringFrame _ codes := i then codes.length == 40 && codes.all (fun c => decide (c < 65536))
  else if let .frameAligned _ _ hs := i then hs.all (lenIs 16)
  else if let .flitReceive _ f _ ce := i then lenIs 256 f && ce.length == 16
  else if let .csync _ ack freed := i then
    decide (ack < 65536) && freed.length == 8 && freed.all (fun c => decide (c < 65536))
  else if let .hello _ h := i then h.wellFormed
  else true

end Sys2Proof
end

