-- ==== Sys2Proof/Tests/Slice0.lean ====
section
/-! SUPPORT. The model's own tests: each check of WellFormed refuses an ill-formed command; one step of some commands; and states
that meet the hypotheses of the statements together. -/

namespace Sys2Proof.Tests

open Sys2Proof Sys2Proof.Machine

/-! ## WellFormed refuses -/

theorem test_wf_write_offset : (Instr.registerWrite .pf (2 ^ 21) false 0).wellFormed = false := by decide
theorem test_wf_low_half_offset : (Instr.lowHalfWrite .pf (2 ^ 21) 0).wellFormed = false := by decide
theorem test_wf_high_half_offset : (Instr.highHalfWrite .pf (2 ^ 21) 0).wellFormed = false := by decide
theorem test_wf_read_offset : (Instr.rcRead .pf (2 ^ 21) false).wellFormed = false := by decide
theorem test_wf_low_read_offset : (Instr.lowHalfRead .pf (2 ^ 21)).wellFormed = false := by decide
theorem test_wf_dram_init_stack : (Instr.startStepDone (.dram 256 (Vector.replicate 8 none) [])).wellFormed = false := by decide
/-- A cartridge with an EEPROM of one byte. -/
def seat : SeatInput := { eeprom := some [0], ack := true, challengeOk := true, sigA := true, sigB := true, temp := 0 }

theorem test_wf_resume_eeprom : (Instr.opticsResume seat).wellFormed = false := by decide
theorem test_wf_eeprom_length : (Instr.cartridgeSeated seat).wellFormed = false := by decide
theorem test_wf_bar2_length : (Instr.bar2Access false 0 [] 0 0).wellFormed = false := by decide
theorem test_wf_sensor_count : (Instr.thmReadAll []).wellFormed = false := by decide
theorem test_wf_fire_banks : (Instr.spurFireEnd 0 (2 ^ 32)).wellFormed = false := by decide
theorem test_wf_selftest_banks : (Instr.spurSelftest 0 (2 ^ 32)).wellFormed = false := by decide
theorem test_wf_ring_codes : (Instr.ringFrame 0 []).wellFormed = false := by decide
theorem test_wf_training_header : (Instr.frameAligned 0 0 [[0]]).wellFormed = false := by decide
theorem test_wf_flit_length : (Instr.flitReceive 0 [] true []).wellFormed = false := by decide
theorem test_wf_csync_credits : (Instr.csync 0 0 []).wellFormed = false := by decide
theorem test_wf_hello_device : (Instr.hello 0 { devIndex := 32, port := 0, devCount := 1, topo := 0, torusW := 0, serial := 0 }).wellFormed = false := by
  decide

end Sys2Proof.Tests
end

/-! # Totality of the machine

O1, O5 and O6: a step with a command at the front of the queue is that command's meaning, every meaning answers a next
state, and so a run is the iteration of one total function on states. -/

namespace Sys2Proof.Machine

/-- With a command at the front of the queue, a step is that command's meaning on the state with the queue's rest. -/
theorem step_of_pending_cons {c : Instr} {l : List Instr} {s : State} (h : s.pending = c :: l) :
    step s = exec c { s with pending := l } := by
  simp only [step, h]

/-- With an empty queue, a step is one crystal cycle (log 2). -/
theorem step_of_pending_nil {s : State} (h : s.pending = []) : step s = .next (tick s) := by
  simp only [step, h]

/-- The meaning of each command decides inside the next state what an unmet condition comes to, never by the outcome:
in every case the witness is read off the `.next` that the meaning unfolds to. -/
theorem exec_answers_next (c : Instr) (s : State) : ∃ t, exec c s = .next t := by
  cases c <;> exact ⟨_, rfl⟩

/-- A step answers a next state: a crystal cycle when no command waits, and else what the front command answers. -/
theorem step_answers_next (s : State) : ∃ t, step s = .next t := by
  cases h : s.pending with
  | nil => exact ⟨tick s, step_of_pending_nil h⟩
  | cons c l =>
    rw [step_of_pending_cons h]
    exact exec_answers_next c { s with pending := l }

/-- The state after one step. -/
def nextState (s : State) : State := outOf s (step s)

theorem step_eq_nextState (s : State) : step s = .next (nextState s) := by
  obtain ⟨t, ht⟩ := step_answers_next s
  rw [nextState, ht]

/-- A run whose first step answers a next state goes on from there. -/
theorem run_succ_of_step_eq_next {M : Host.Core} {k : Nat} {s t : M.State} (h : M.step s = .next t) :
    M.run (k + 1) s = M.run k t := by
  simp only [Host.Core.run, h]

/-- A run of `k` steps is `k` iterations of `nextState`. -/
theorem run_eq_iterate_nextState (k : Nat) (s : State) : Host.Core.run Sys2Proof.core k s = .next (nextState^[k] s) := by
  induction k generalizing s with
  | zero => rfl
  | succ k ih => exact (run_succ_of_step_eq_next (step_eq_nextState s)).trans (ih (nextState s))

/-- Settles O1: `step` takes its command from the front of the queue alone. -/
theorem stepRunsTheFront : Obligations.StepRunsTheFront := by
  unfold Obligations.StepRunsTheFront
  intro c l s h
  exact step_of_pending_cons h

/-- Settles O5, by the case split over the commands in `exec_answers_next`. -/
theorem commandsComplete : Obligations.CommandsComplete := by
  unfold Obligations.CommandsComplete
  exact exec_answers_next

/-- Settles O6, by induction on the number of steps: the run ends in the state that `nextState`, iterated, reaches. -/
theorem runsAreSafe : Obligations.RunsAreSafe := by
  unfold Obligations.RunsAreSafe SafeRun
  intro k s
  exact ⟨nextState^[k] s, run_eq_iterate_nextState k s⟩

end Sys2Proof.Machine

/-! # Package pins and rails

O11, O15 and O16: what Col holds from the end of its power-on reset to the loss of VDD_COL, and what the edges of the pins, the
trips and the ends of stops do. Two facts carry the proofs: a command changes only the parts that `touches` lists for it, and no
operation but the two ends of Col's power-on reset writes the fields of Col that `Col.fixed` keeps. -/

namespace Sys2Proof.Machine

/-! ## The frame of a command -/

/-- A command changes only the parts of the state that `touches` lists for it, and keeps the memories canonical and the bits of
Cairn: the law of its meaning, for each command. -/
theorem exec_kept_touches (c : Instr) (s : State) : Kept (touches c) s (outOf s (exec c s)) := by
  cases c with
  | registerWrite _ _ _ _ => exact execRegisterWrite_kept (Kept.refl _ _) rfl
  | lowHalfWrite _ _ _ => exact execLowHalfWrite_kept (Kept.refl _ _) rfl
  | highHalfWrite _ _ _ => exact execHighHalfWrite_kept (Kept.refl _ _) rfl
  | rcRead _ _ _ => exact execRcRead_kept (Kept.refl _ _) rfl
  | colPowerOnResetExit _ _ _ _ _ _ => exact execColPowerOnResetExit_kept (Kept.refl _ _) rfl
  | vddColLoss => exact execVddColLoss_kept (Kept.refl _ _) rfl
  | pwrGoodRise _ _ => exact execPwrGoodRise_kept (Kept.refl _ _) rfl
  | pwrGoodFall => exact execPwrGoodFall_kept (Kept.refl _ _) rfl
  | resetNFall => exact execResetNFall_kept (Kept.refl _ _) rfl
  | resetNRise _ => exact execResetNRise_kept (Kept.refl _ _) rfl
  | internalResetRelease => exact execInternalResetRelease_kept (Kept.refl _ _) rfl
  | undervoltageTrip _ => exact execUndervoltageTrip_kept (Kept.refl _ _) rfl
  | crystalFault => exact execCrystalFault_kept (Kept.refl _ _) rfl
  | tripNAssert => exact execTripNAssert_kept (Kept.refl _ _) rfl
  | orderlyStopDone => exact execOrderlyStopDone_kept (Kept.refl _ _) rfl
  | startBegin => exact execStartBegin_kept (Kept.refl _ _) rfl
  | startStepDone _ => exact execStartStepDone_kept (Kept.refl _ _) rfl
  | startReady => exact execStartReady_kept (Kept.refl _ _) rfl
  | startWatchdogExpiry => exact execStartWatchdogExpiry_kept (Kept.refl _ _) rfl
  | startRetry => exact execStartRetry_kept (Kept.refl _ _) rfl
  | opticsDeadline => exact execOpticsDeadline_kept (Kept.refl _ _) rfl
  | opticsResume _ => exact execOpticsResume_kept (Kept.refl _ _) rfl
  | restartWarm _ => exact execRestartWarm_kept (Kept.refl _ _) rfl
  | restartCold _ => exact execRestartCold_kept (Kept.refl _ _) rfl
  | clearAndRestart _ => exact execClearAndRestart_kept (Kept.refl _ _) rfl
  | quadPllLockLost _ => exact execQuadPllLockLost_kept (Kept.refl _ _) rfl
  | quadPllRelockDone _ _ => exact execQuadPllRelockDone_kept (Kept.refl _ _) rfl
  | quadDemote _ => exact execQuadDemote_kept (Kept.refl _ _) rfl
  | quadEntryDone _ => exact execQuadEntryDone_kept (Kept.refl _ _) rfl
  | quadWakeRequest _ _ => exact execQuadWakeRequest_kept (Kept.refl _ _) rfl
  | quadPrewake _ => exact execQuadPrewake_kept (Kept.refl _ _) rfl
  | quadWakeDone _ => exact execQuadWakeDone_kept (Kept.refl _ _) rfl
  | quadReloadDone _ => exact execQuadReloadDone_kept (Kept.refl _ _) rfl
  | clkQpolWrite _ _ => exact execClkQpolWrite_kept (Kept.refl _ _) rfl
  | clkQforceWrite _ => exact execClkQforceWrite_kept (Kept.refl _ _) rfl
  | cairnRead _ => exact execCairnRead_kept (Kept.refl _ _) rfl
  | cairnProgram _ _ _ _ => exact execCairnProgram_kept (Kept.refl _ _) rfl
  | cairnProgramDone _ => exact execCairnProgramDone_kept (Kept.refl _ _) rfl
  | structLoad _ => exact execStructLoad_kept (Kept.refl _ _) rfl
  | structLoadStageDone _ => exact execStructLoadStageDone_kept (Kept.refl _ _) rfl
  | structCommit => exact execStructCommit_kept (Kept.refl _ _) rfl
  | structAbort => exact execStructAbort_kept (Kept.refl _ _) rfl
  | stagedHoldExpiry => exact execStagedHoldExpiry_kept (Kept.refl _ _) rfl
  | structLoadTimeout => exact execStructLoadTimeout_kept (Kept.refl _ _) rfl
  | quiesceHoldEnd _ => exact execQuiesceHoldEnd_kept (Kept.refl _ _) rfl
  | drainLimitExpiry _ => exact execDrainLimitExpiry_kept (Kept.refl _ _) rfl
  | zeroizationDone _ => exact execZeroizationDone_kept (Kept.refl _ _) rfl
  | structSwitch => exact execStructSwitch_kept (Kept.refl _ _) rfl
  | holdTimeout _ => exact execHoldTimeout_kept (Kept.refl _ _) rfl
  | handoffSlotTimeout _ => exact execHandoffSlotTimeout_kept (Kept.refl _ _) rfl
  | timeSliceExpiry _ => exact execTimeSliceExpiry_kept (Kept.refl _ _) rfl
  | sqDoorbell _ _ _ => exact execSqDoorbell_kept (Kept.refl _ _) rfl
  | cqDoorbell _ _ _ => exact execCqDoorbell_kept (Kept.refl _ _) rfl
  | queueEnable _ _ _ => exact execQueueEnable_kept (Kept.refl _ _) rfl
  | queueDisable _ _ _ => exact execQueueDisable_kept (Kept.refl _ _) rfl
  | descriptorFetch _ _ => exact execDescriptorFetch_kept (Kept.refl _ _) rfl
  | nop _ => exact execNop_kept (Kept.refl _ _) rfl
  | copy _ _ => exact execCopy_kept (Kept.refl _ _) rfl
  | copyDone _ => exact execCopyDone_kept (Kept.refl _ _) rfl
  | run _ => exact execRun_kept (Kept.refl _ _) rfl
  | runLimitExpiry _ => exact execRunLimitExpiry_kept (Kept.refl _ _) rfl
  | fence _ => exact execFence_kept (Kept.refl _ _) rfl
  | fenceSatisfied _ => exact execFenceSatisfied_kept (Kept.refl _ _) rfl
  | fenceTimeout _ => exact execFenceTimeout_kept (Kept.refl _ _) rfl
  | msgSend _ => exact execMsgSend_kept (Kept.refl _ _) rfl
  | sessionOpen _ => exact execSessionOpen_kept (Kept.refl _ _) rfl
  | setHold _ => exact execSetHold_kept (Kept.refl _ _) rfl
  | clearHold _ => exact execClearHold_kept (Kept.refl _ _) rfl
  | setGone _ => exact execSetGone_kept (Kept.refl _ _) rfl
  | setAlignment _ => exact execSetAlignment_kept (Kept.refl _ _) rfl
  | sessionClose _ => exact execSessionClose_kept (Kept.refl _ _) rfl
  | audioIn _ _ => exact execAudioIn_kept (Kept.refl _ _) rfl
  | audioOut _ _ => exact execAudioOut_kept (Kept.refl _ _) rfl
  | completionWrite _ => exact execCompletionWrite_kept (Kept.refl _ _) rfl
  | coalesceTimeout _ _ => exact execCoalesceTimeout_kept (Kept.refl _ _) rfl
  | vfFlr _ => exact execVfFlr_kept (Kept.refl _ _) rfl
  | vfBusMasterOff a0 a1 => exact (show Kept (touches _) s (outOf s (execVfBusMasterOff a0 a1 s)) from execVfBusMasterOff_kept (Kept.refl _ _) rfl)
  | pfReset a0 => exact (show Kept (touches _) s (outOf s (execPfReset a0 s)) from execPfReset_kept (Kept.refl _ _) rfl)
  | bar2Access _ _ _ _ _ => exact execBar2Access_kept (Kept.refl _ _) rfl
  | mbxDoorbell _ _ => exact execMbxDoorbell_kept (Kept.refl _ _) rfl
  | errlogRead => exact execErrlogRead_kept (Kept.refl _ _) rfl
  | colRead => exact execColRead_kept (Kept.refl _ _) rfl
  | cairnIdRead => exact execCairnIdRead_kept (Kept.refl _ _) rfl
  | flashRead => exact execFlashRead_kept (Kept.refl _ _) rfl
  | flashErase _ => exact execFlashErase_kept (Kept.refl _ _) rfl
  | flashProgram _ _ => exact execFlashProgram_kept (Kept.refl _ _) rfl
  | linkSwap => exact execLinkSwap_kept (Kept.refl _ _) rfl
  | ctgInfo => exact execCtgInfo_kept (Kept.refl _ _) rfl
  | ctgHours => exact execCtgHours_kept (Kept.refl _ _) rfl
  | laserPolicy => exact execLaserPolicy_kept (Kept.refl _ _) rfl
  | calFull => exact execCalFull_kept (Kept.refl _ _) rfl
  | calSnapshot => exact execCalSnapshot_kept (Kept.refl _ _) rfl
  | calExport => exact execCalExport_kept (Kept.refl _ _) rfl
  | calImport _ => exact execCalImport_kept (Kept.refl _ _) rfl
  | thmReadAll _ => exact execThmReadAll_kept (Kept.refl _ _) rfl
  | traverseEpochStart => exact execTraverseEpochStart_kept (Kept.refl _ _) rfl
  | traverseTick _ => exact execTraverseTick_kept (Kept.refl _ _) rfl
  | continuityWaitExpiry _ => exact execContinuityWaitExpiry_kept (Kept.refl _ _) rfl
  | stepComplete _ => exact execStepComplete_kept (Kept.refl _ _) rfl
  | vadSubframe _ => exact execVadSubframe_kept (Kept.refl _ _) rfl
  | gateSweepVisit _ => exact execGateSweepVisit_kept (Kept.refl _ _) rfl
  | lateCheck _ => exact execLateCheck_kept (Kept.refl _ _) rfl
  | playoutBlockCommit _ => exact execPlayoutBlockCommit_kept (Kept.refl _ _) rfl
  | playoutQuarterWrite _ => exact execPlayoutQuarterWrite_kept (Kept.refl _ _) rfl
  | outboundAppend _ => exact execOutboundAppend_kept (Kept.refl _ _) rfl
  | sessionStateLost _ => exact execSessionStateLost_kept (Kept.refl _ _) rfl
  | entryStart _ => exact execEntryStart_kept (Kept.refl _ _) rfl
  | entryFinish _ => exact execEntryFinish_kept (Kept.refl _ _) rfl
  | entryStop _ => exact execEntryStop_kept (Kept.refl _ _) rfl
  | stepLimitExpiry _ => exact execStepLimitExpiry_kept (Kept.refl _ _) rfl
  | slewGrant => exact execSlewGrant_kept (Kept.refl _ _) rfl
  | crestNop _ _ => exact execCrestNop_kept (Kept.refl _ _) rfl
  | matmul _ _ => exact execMatmul_kept (Kept.refl _ _) rfl
  | eltwise _ _ => exact execEltwise_kept (Kept.refl _ _) rfl
  | convert _ _ => exact execConvert_kept (Kept.refl _ _) rfl
  | move _ _ => exact execMove_kept (Kept.refl _ _) rfl
  | crestWait _ _ => exact execCrestWait_kept (Kept.refl _ _) rfl
  | crestSignal _ _ => exact execCrestSignal_kept (Kept.refl _ _) rfl
  | result _ _ => exact execResult_kept (Kept.refl _ _) rfl
  | crestEnd _ _ => exact execCrestEnd_kept (Kept.refl _ _) rfl
  | corniceNop _ => exact execCorniceNop_kept (Kept.refl _ _) rfl
  | conv _ => exact execConv_kept (Kept.refl _ _) rfl
  | recode _ => exact execRecode_kept (Kept.refl _ _) rfl
  | crop _ => exact execCrop_kept (Kept.refl _ _) rfl
  | corniceWait _ => exact execCorniceWait_kept (Kept.refl _ _) rfl
  | corniceSignal _ => exact execCorniceSignal_kept (Kept.refl _ _) rfl
  | corniceEnd _ => exact execCorniceEnd_kept (Kept.refl _ _) rfl
  | haloPublish _ _ => exact execHaloPublish_kept (Kept.refl _ _) rfl
  | spurJobLand _ _ => exact execSpurJobLand_kept (Kept.refl _ _) rfl
  | matvec _ => exact execMatvec_kept (Kept.refl _ _) rfl
  | gather _ => exact execGather_kept (Kept.refl _ _) rfl
  | scan _ => exact execScan_kept (Kept.refl _ _) rfl
  | spurClear _ => exact execSpurClear_kept (Kept.refl _ _) rfl
  | spurLoad _ => exact execSpurLoad_kept (Kept.refl _ _) rfl
  | spurFire _ => exact execSpurFire_kept (Kept.refl _ _) rfl
  | spurFireEnd _ _ => exact execSpurFireEnd_kept (Kept.refl _ _) rfl
  | spurDrain _ => exact execSpurDrain_kept (Kept.refl _ _) rfl
  | spurJobDone _ => exact execSpurJobDone_kept (Kept.refl _ _) rfl
  | spurSelftest _ _ => exact execSpurSelftest_kept (Kept.refl _ _) rfl
  | spurGroupGate _ => exact execSpurGroupGate_kept (Kept.refl _ _) rfl
  | refreshDue _ => exact execRefreshDue_kept (Kept.refl _ _) rfl
  | groupRefresh _ => exact execGroupRefresh_kept (Kept.refl _ _) rfl
  | writeDrainTimeout _ => exact execWriteDrainTimeout_kept (Kept.refl _ _) rfl
  | bandSwitch _ _ => exact execBandSwitch_kept (Kept.refl _ _) rfl
  | bandSwitchWindow _ => exact execBandSwitchWindow_kept (Kept.refl _ _) rfl
  | scrubStep _ => exact execScrubStep_kept (Kept.refl _ _) rfl
  | selfRefreshExit _ _ => exact execSelfRefreshExit_kept (Kept.refl _ _) rfl
  | dramPllLockLost _ => exact execDramPllLockLost_kept (Kept.refl _ _) rfl
  | dramPllRelockDone _ _ _ => exact execDramPllRelockDone_kept (Kept.refl _ _) rfl
  | ringFrame _ _ => exact execRingFrame_kept (Kept.refl _ _) rfl
  | adcRequest _ _ => exact execAdcRequest_kept (Kept.refl _ _) rfl
  | laneMoveSwitch _ _ => exact execLaneMoveSwitch_kept (Kept.refl _ _) rfl
  | frameAligned _ _ _ => exact execFrameAligned_kept (Kept.refl _ _) rfl
  | trackerDoubleStep _ _ => exact execTrackerDoubleStep_kept (Kept.refl _ _) rfl
  | positionRetrainTimeout _ _ => exact execPositionRetrainTimeout_kept (Kept.refl _ _) rfl
  | directionRetrain _ _ => exact execDirectionRetrain_kept (Kept.refl _ _) rfl
  | linkPllLockLost _ => exact execLinkPllLockLost_kept (Kept.refl _ _) rfl
  | linkPllRelockDone _ _ => exact execLinkPllRelockDone_kept (Kept.refl _ _) rfl
  | flitReceive _ _ _ _ => exact execFlitReceive_kept (Kept.refl _ _) rfl
  | laneLockLost _ _ => exact execLaneLockLost_kept (Kept.refl _ _) rfl
  | nakReceive _ _ => exact execNakReceive_kept (Kept.refl _ _) rfl
  | replayTimeout _ => exact execReplayTimeout_kept (Kept.refl _ _) rfl
  | csync _ _ _ => exact execCsync_kept (Kept.refl _ _) rfl
  | hello _ _ => exact execHello_kept (Kept.refl _ _) rfl
  | moveAck _ _ _ => exact execMoveAck_kept (Kept.refl _ _) rfl
  | moveAckDeadline _ => exact execMoveAckDeadline_kept (Kept.refl _ _) rfl
  | moveCancel _ _ _ => exact execMoveCancel_kept (Kept.refl _ _) rfl
  | moveReq _ _ _ => exact execMoveReq_kept (Kept.refl _ _) rfl
  | calAnnounce _ _ _ _ => exact execCalAnnounce_kept (Kept.refl _ _) rfl
  | swapReq _ => exact execSwapReq_kept (Kept.refl _ _) rfl
  | swapGrant _ _ _ => exact execSwapGrant_kept (Kept.refl _ _) rfl
  | roleSwapFrame _ => exact execRoleSwapFrame_kept (Kept.refl _ _) rfl
  | linkHoldExpiry _ => exact execLinkHoldExpiry_kept (Kept.refl _ _) rfl
  | sendRecord _ => exact execSendRecord_kept (Kept.refl _ _) rfl
  | handoffArrival _ => exact execHandoffArrival_kept (Kept.refl _ _) rfl
  | handoffReply _ => exact execHandoffReply_kept (Kept.refl _ _) rfl
  | replyTimeout _ _ => exact execReplyTimeout_kept (Kept.refl _ _) rfl
  | intlkFall => exact execIntlkFall_kept (Kept.refl _ _) rfl
  | latchOpen => exact execLatchOpen_kept (Kept.refl _ _) rfl
  | cartridgeSeated _ => exact execCartridgeSeated_kept (Kept.refl _ _) rfl
  | driverFault _ _ => exact execDriverFault_kept (Kept.refl _ _) rfl
  | tripClearArm _ => exact execTripClearArm_kept (Kept.refl _ _) rfl
  | tripClear _ => exact execTripClear_kept (Kept.refl _ _) rfl
  | tripClearSeqExpiry => exact execTripClearSeqExpiry_kept (Kept.refl _ _) rfl
  | laserWarmupSettled _ => exact execLaserWarmupSettled_kept (Kept.refl _ _) rfl
  | laserOut _ => exact execLaserOut_kept (Kept.refl _ _) rfl
  | spareTuned _ => exact execSpareTuned_kept (Kept.refl _ _) rfl
  | usageRecordWrite => exact execUsageRecordWrite_kept (Kept.refl _ _) rfl
  | ctgVddTrip => exact execCtgVddTrip_kept (Kept.refl _ _) rfl
  | ctgVddReclose => exact execCtgVddReclose_kept (Kept.refl _ _) rfl
  | calStepLimit _ => exact execCalStepLimit_kept (Kept.refl _ _) rfl
  | calFullTimeout => exact execCalFullTimeout_kept (Kept.refl _ _) rfl
  | acquisitionRetry _ _ => exact execAcquisitionRetry_kept (Kept.refl _ _) rfl
  | calSlotStart _ => exact execCalSlotStart_kept (Kept.refl _ _) rfl
  | calRxStart _ => exact execCalRxStart_kept (Kept.refl _ _) rfl
  | calRxDone _ _ => exact execCalRxDone_kept (Kept.refl _ _) rfl
  | calAbort _ _ => exact execCalAbort_kept (Kept.refl _ _) rfl
  | slotLimitExpiry _ => exact execSlotLimitExpiry_kept (Kept.refl _ _) rfl
  | rollbackTimeout _ => exact execRollbackTimeout_kept (Kept.refl _ _) rfl
  | snapshotCapture => exact execSnapshotCapture_kept (Kept.refl _ _) rfl
  | snapshotFlashWrite _ => exact execSnapshotFlashWrite_kept (Kept.refl _ _) rfl
  | thmRequest _ => exact execThmRequest_kept (Kept.refl _ _) rfl
  | sensorReading _ => exact execSensorReading_kept (Kept.refl _ _) rfl
  | thermalLapse _ => exact execThermalLapse_kept (Kept.refl _ _) rfl
  | limitStepDown => exact execLimitStepDown_kept (Kept.refl _ _) rfl
  | limitStepUp => exact execLimitStepUp_kept (Kept.refl _ _) rfl
  | deviceFatal _ => exact execDeviceFatal_kept (Kept.refl _ _) rfl
  | mgmtWatchdogExpiry => exact execMgmtWatchdogExpiry_kept (Kept.refl _ _) rfl
  | lowHalfRead _ _ => exact execLowHalfRead_kept (Kept.refl _ _) rfl
  | tripNRelease => exact execTripNRelease_kept (Kept.refl _ _) rfl
  | intlkNRise => exact execIntlkNRise_kept (Kept.refl _ _) rfl
  | latchClosed => exact execLatchClosed_kept (Kept.refl _ _) rfl
  | overcurrentRetry _ => exact execOvercurrentRetry_kept (Kept.refl _ _) rfl
  | vppOtpFall => exact execVppOtpFall_kept (Kept.refl _ _) rfl
  | vfBusMasterOn _ => exact execVfBusMasterOn_kept (Kept.refl _ _) rfl
  | laneLocked _ _ => exact execLaneLocked_kept (Kept.refl _ _) rfl
  | linkPllLocked _ => exact execLinkPllLocked_kept (Kept.refl _ _) rfl
  | laneMoveMessage _ _ _ _ _ _ => exact execLaneMoveMessage_kept (Kept.refl _ _) rfl

/-! ## What Col holds between its power-on resets -/

/-- What Col holds from the end of its power-on reset until VDD_COL is removed (R26, R43, R45, R47); its other fields read as
after reset. -/
def Col.fixed (c : Col) : Col :=
  { Col.reset with por := c.por, cyc := c.cyc, life := c.life, serial := c.serial, grade2 := c.grade2, smbAddr := c.smbAddr }

/-- Col but for the records of self-refresh, which an orderly stop writes (R290). -/
def Col.butSr (c : Col) : Col := { c with srRec := rep 8 none }

theorem Col.fixed_of_butSr {c d : Col} (h : c.butSr = d.butSr) : c.fixed = d.fixed :=
  show c.butSr.fixed = d.butSr.fixed from congrArg Col.fixed h

theorem Col.eq_of_fixed {c d : Col} (h : c.fixed = d.fixed) :
    c.por = d.por ∧ c.cyc = d.cyc ∧ c.life = d.life ∧ c.serial = d.serial ∧ c.grade2 = d.grade2 ∧ c.smbAddr = d.smbAddr := by
  simpa [Col.fixed] using h

/-- An update of the other fields of Col. -/
@[simp] theorem Col.fixed_update (c : Col) envExt uv pwrLost pwrLossRec xtalFault timeUntraced xtalBad xtalSinceReady attempts
    safe lastWarm srRec cairnProgSince idleHeld readySerial :
    Col.fixed ⟨c.por, c.cyc, c.life, c.serial, c.grade2, envExt, c.smbAddr, uv, pwrLost, pwrLossRec, xtalFault, timeUntraced,
      xtalBad, xtalSinceReady, attempts, safe, lastWarm, srRec, cairnProgSince, idleHeld, readySerial⟩ = c.fixed := rfl

/-! ### Combinators -/

@[simp] theorem State.ite_col_fixed (p : Prop) [Decidable p] (s t : State) :
    (if p then s else t).col.fixed = if p then s.col.fixed else t.col.fixed := by
  split <;> rfl

theorem State.each_col {α : Type} {f : State → α → State} (hf : ∀ s a, (f s a).col = s.col) (s : State) (l : List α) :
    (s.each l f).col = s.col :=
  State.each_inv (P := fun t => t.col = s.col) rfl (fun t a _ ht => (hf t a).trans ht)

theorem State.each_col_fixed {α : Type} {f : State → α → State} (hf : ∀ s a, (f s a).col.fixed = s.col.fixed) (s : State)
    (l : List α) : (s.each l f).col.fixed = s.col.fixed :=
  State.each_inv (P := fun t => t.col.fixed = s.col.fixed) rfl (fun t a _ ht => (hf t a).trans ht)

theorem foldl_fst_col_fixed {α β : Type} {f : State × β → α → State × β}
    (hf : ∀ acc a, (f acc a).1.col.fixed = acc.1.col.fixed) (l : List α) (acc : State × β) : (l.foldl f acc).1.col.fixed = acc.1.col.fixed := by
  induction l generalizing acc with
  | nil => rfl
  | cons a l ih => exact (ih (f acc a)).trans (hf acc a)

theorem State.when_col_fixed {f : State → State} (hf : ∀ s, (f s).col.fixed = s.col.fixed) (s : State) (c : Bool) :
    (s.when c f).col.fixed = s.col.fixed := by
  cases c
  · rfl
  · exact hf s

theorem State.onRequest_col_fixed {s : State} {op : Nat} {f : List Byte → State} (hf : ∀ req, (f req).col.fixed = s.col.fixed) :
    (s.onRequest op f).col.fixed = s.col.fixed := by
  unfold State.onRequest
  split
  · split
    · exact hf _
    · rfl
  · rfl

/-! ### Operations that leave Col as it is -/

/-- Every part of the state but Col. -/
def butCol : List Slice := slicesBut [.col]

theorem Kept.col_of_butCol {s t : State} (h : Kept butCol s t) : t.col = s.col := h.col_eq rfl

@[simp] theorem State.log_col (s : State) c b e d p st a x : (s.log c b e d p st a x).col = s.col :=
  (State.log_kept (Kept.refl butCol s) rfl).col_of_butCol
@[simp] theorem State.laserTo_col (s : State) n st b : (s.laserTo n st b).col = s.col := rfl
@[simp] theorem State.alertNow_col (s : State) : s.alertNow.col = s.col := rfl
@[simp] theorem State.setPhase_col (s : State) p : (s.setPhase p).col = s.col := rfl
@[simp] theorem State.setCause_col (s : State) p : (s.setCause p).col = s.col := rfl
@[simp] theorem State.startEnded_col (s : State) n : (s.startEnded n).col = s.col :=
  (State.startEnded_kept (Kept.refl butCol s) rfl).col_of_butCol
@[simp] theorem State.progAbort_col (s : State) r : (s.progAbort r).col = s.col :=
  (State.progAbort_kept (Kept.refl butCol s) rfl).col_of_butCol
@[simp] theorem State.logFlush_col (s : State) : s.logFlush.col = s.col :=
  (State.logFlush_kept (Kept.refl butCol s) rfl).col_of_butCol
@[simp] theorem State.mbxAnswer_col (s : State) r st f : (s.mbxAnswer r st f).col = s.col :=
  (State.mbxAnswer_kept (Kept.refl butCol s) rfl).col_of_butCol
@[simp] theorem State.warmUp_col (s : State) : s.warmUp.col = s.col :=
  (State.warmUp_kept (Kept.refl butCol s) rfl).col_of_butCol
@[simp] theorem State.seatRetry_col (s : State) : s.seatRetry.col = s.col :=
  (State.seatRetry_kept (Kept.refl butCol s) rfl).col_of_butCol
@[simp] theorem State.domainReset_col (s : State) : s.domainReset.col = s.col := rfl
@[simp] theorem State.lasersIdle_col (s : State) : s.lasersIdle.col = s.col :=
  (State.lasersIdle_kept (Kept.refl butCol s) rfl).col_of_butCol
@[simp] theorem State.setLoader_col (s : State) st : (s.setLoader st).col = s.col := rfl
@[simp] theorem State.loadFail_col (s : State) e : (s.loadFail e).col = s.col :=
  (State.loadFail_kept (Kept.refl butCol s) rfl).col_of_butCol
@[simp] theorem State.stageBRun_col (s : State) : s.stageBRun.col = s.col :=
  (State.stageBRun_kept (Kept.refl butCol s) rfl).col_of_butCol
@[simp] theorem State.stageCRun_col (s : State) : s.stageCRun.1.col = s.col :=
  (State.stageCRun_kept (Kept.refl butCol s) rfl).col_of_butCol
@[simp] theorem State.copyIn_col (s : State) : s.copyIn.col = s.col := rfl
@[simp] theorem State.stagedNow_col (s : State) : s.stagedNow.col = s.col :=
  (State.stagedNow_kept (Kept.refl butCol s) rfl).col_of_butCol
@[simp] theorem State.notSkipped_col (s : State) i n : (s.notSkipped i n).col = s.col :=
  (State.notSkipped_kept (Kept.refl butCol s) rfl).col_of_butCol
@[simp] theorem State.stepOptics_col (s : State) c d0 d1 : (s.stepOptics c d0 d1).col = s.col :=
  (State.stepOptics_kept (Kept.refl butCol s) rfl).col_of_butCol
@[simp] theorem State.stepsCheck_col (s : State) : s.stepsCheck.col = s.col :=
  (State.stepsCheck_kept (Kept.refl butCol s) rfl).col_of_butCol
@[simp] theorem State.retReason_col (s : State) : s.retReason.2.col = s.col :=
  (State.retReason_kept (Kept.refl butCol s) rfl).col_of_butCol
@[simp] theorem State.defaultLoad_col (s : State) : s.defaultLoad.col = s.col :=
  (State.defaultLoad_kept (Kept.refl butCol s) rfl).col_of_butCol
@[simp] theorem State.staged_col (s : State) : s.staged.col = s.col :=
  (State.staged_kept (Kept.refl butCol s) rfl).col_of_butCol
@[simp] theorem State.eccFill_col (s : State) : s.eccFill.col = s.col :=
  (State.eccFill_kept (Kept.refl butCol s) rfl).col_of_butCol
@[simp] theorem State.applyDefects_col (s : State) l : (s.applyDefects l).col = s.col :=
  (State.applyDefects_kept (Kept.refl butCol s) rfl).col_of_butCol
@[simp] theorem State.skip_col (s : State) i : (s.skip i).col = s.col := rfl
@[simp] theorem State.stepDone_col (s : State) i : (s.stepDone i).col = s.col := rfl
@[simp] theorem State.countLock_col (s : State) : s.countLock.col = s.col := rfl
@[simp] theorem State.hostReading_col (s : State) n t f : (s.hostReading n t f).col = s.col :=
  (State.hostReading_kept (Kept.refl butCol s) rfl).col_of_butCol
@[simp] theorem State.keepReading_col (s : State) n t f : (s.keepReading n t f).col = s.col := rfl
@[simp] theorem State.stackReading_col (s : State) n t : (s.stackReading n t).col = s.col :=
  (State.stackReading_kept (Kept.refl butCol s) rfl).col_of_butCol
@[simp] theorem State.throttle_col (s : State) n t : (s.throttle n t).col = s.col :=
  (State.throttle_kept (Kept.refl butCol s) rfl).col_of_butCol
@[simp] theorem State.restoreTimer_col (s : State) : s.restoreTimer.col = s.col := rfl
@[simp] theorem State.qpolWrite_col (s : State) q v : (s.qpolWrite q v).col = s.col :=
  (State.qpolWrite_kept (Kept.refl butCol s) rfl).col_of_butCol
@[simp] theorem State.qforceWrite_col (s : State) v : (s.qforceWrite v).col = s.col :=
  (State.qforceWrite_kept (Kept.refl butCol s) rfl).col_of_butCol
@[simp] theorem State.cairnReadOp_col (s : State) v : (s.cairnReadOp v).col = s.col := rfl
@[simp] theorem State.dmcCfgWrite_col (s : State) v : (s.dmcCfgWrite v).col = s.col :=
  (State.dmcCfgWrite_kept (Kept.refl butCol s) rfl).col_of_butCol
@[simp] theorem State.adcRequest_col (s : State) p v : (s.adcRequest p v).col = s.col :=
  (State.adcRequest_kept (Kept.refl butCol s) rfl).col_of_butCol
@[simp] theorem State.tripClrWrite_col (s : State) v : (s.tripClrWrite v).col = s.col :=
  (State.tripClrWrite_kept (Kept.refl butCol s) rfl).col_of_butCol
@[simp] theorem State.thmCfgWrite_col (s : State) v : (s.thmCfgWrite v).col = s.col := rfl
@[simp] theorem State.thmReqWrite_col (s : State) v : (s.thmReqWrite v).col = s.col :=
  (State.thmReqWrite_kept (Kept.refl butCol s) rfl).col_of_butCol
@[simp] theorem State.ringCtrlWrite_col (s : State) v : (s.ringCtrlWrite v).col = s.col := rfl
@[simp] theorem State.mbxTail_col (s : State) n b : (s.mbxTail n b).col = s.col :=
  (State.mbxTail_kept (Kept.refl butCol s) rfl).col_of_butCol
@[simp] theorem State.mbxBell_col (s : State) n f : (s.mbxBell n f).col = s.col :=
  (State.mbxBell_kept (Kept.refl butCol s) rfl).col_of_butCol
@[simp] theorem State.mbxUnknown_col (s : State) n : (s.mbxUnknown n).col = s.col :=
  (State.mbxUnknown_kept (Kept.refl butCol s) rfl).col_of_butCol
@[simp] theorem State.doorbell_col (s : State) p q v f : (s.doorbell p q v f).col = s.col :=
  (State.doorbell_kept (Kept.refl butCol s) rfl).col_of_butCol
@[simp] theorem State.vfpWrite_col (s : State) r v : (s.vfpWrite r v).col = s.col :=
  (State.vfpWrite_kept (Kept.refl butCol s) rfl).col_of_butCol
@[simp] theorem State.msixWrite_col (s : State) sp n v : (s.msixWrite sp n v).col = s.col :=
  (State.msixWrite_kept (Kept.refl butCol s) rfl).col_of_butCol
@[simp] theorem State.unseat_col (s : State) : s.unseat.col = s.col := rfl
@[simp] theorem State.mbxStart_col (s : State) r : (s.mbxStart r).col = s.col := rfl
@[simp] theorem State.mbxDone_col (s : State) st l h : (s.mbxDone st l h).col = s.col :=
  (State.mbxDone_kept (Kept.refl butCol s) rfl).col_of_butCol
@[simp] theorem State.hostWritePf_col (s : State) a bs : (s.hostWritePf a bs).col = s.col := rfl
@[simp] theorem State.holdReset_col (s : State) : s.holdReset.col = s.col := rfl
@[simp] theorem State.scrubCol_col (s : State) n : (s.scrubCol n).col = s.col :=
  (State.scrubCol_kept (Kept.refl butCol s) rfl).col_of_butCol
@[simp] theorem State.mbxReset_col (s : State) : s.mbxReset.col = s.col := rfl

theorem State.each_setChan_col (s : State) (l : List Chan) (f : State → Chan → ChanSt → ChanSt) :
    (s.each l (fun s c => s.setChan c (f s c))).col = s.col :=
  State.each_col (fun s c => State.setChan_col s c (f s c)) s l

/-! ### Lasers and interlocks -/

/-- R377: with the lasers dark, Col records that they are not held at idle bias. -/
theorem State.lasersDark_col (s : State) : s.lasersDark.col = { s.col with idleHeld := false } := by
  unfold State.lasersDark
  dsimp only
  rw [State.each_col (fun s n => by split <;> simp)]

@[simp] theorem State.lasersDark_col_fixed (s : State) : s.lasersDark.col.fixed = s.col.fixed := by
  rw [State.lasersDark_col, Col.fixed_update]

@[simp] theorem State.latchSet_col_fixed (s : State) f : (s.latchSet f).col.fixed = s.col.fixed := by
  simp [State.latchSet]

@[simp] theorem State.tripAssert_col_fixed (s : State) : s.tripAssert.col.fixed = s.col.fixed := by
  simp [State.tripAssert]

@[simp] theorem State.seatFault_col_fixed (s : State) d : (s.seatFault d).col.fixed = s.col.fixed := by
  simp [State.seatFault]

@[simp] theorem State.applyPolicy_col_fixed (s : State) : s.applyPolicy.col.fixed = s.col.fixed := by
  unfold State.applyPolicy
  extract_lets l a b c
  have hb : b.col = a.col := State.each_col (fun s n => by dsimp only; split <;> simp) _ _
  clear_value b
  simp [c, a, hb]

/-! ### Orderly stops -/

/-- R290: of Col, entry into self-refresh writes its own record alone. -/
theorem State.selfRefresh_butSr (s : State) (k : Stack) : (s.selfRefresh k).col.butSr = s.col.butSr := by
  unfold State.selfRefresh
  extract_lets x band u v
  have e : u.col = s.col := State.each_setChan_col _ _ _
  clear_value u
  split
  · show u.col.butSr = s.col.butSr
    rw [e]
  · rfl

theorem State.stopSteps_butSr (s : State) (c : StopCause) : (s.stopSteps c).col.butSr = s.col.butSr := by
  unfold State.stopSteps
  extract_lets st a b d
  have hd : Kept butCol s d :=
    State.stopRings_kept (State.stopItems_kept (State.stopWaits_kept (State.stopSessions_kept (State.stopEntries_kept
      (State.stopRequests_kept (Kept.refl _ _) rfl) rfl) rfl) rfl) rfl) rfl
  rw [← hd.col_of_butCol]
  split
  · rfl
  · exact State.each_inv (P := fun t => t.col.butSr = d.col.butSr) rfl (fun t k _ ht => (t.selfRefresh_butSr k).trans ht)

theorem State.orderlyStop_butSr (s : State) (c : StopCause) : (s.orderlyStop c).col.butSr = s.col.butSr := by
  unfold State.orderlyStop
  split
  · exact s.stopSteps_butSr c
  · rfl

@[simp] theorem State.orderlyStop_col_fixed (s : State) c : (s.orderlyStop c).col.fixed = s.col.fixed :=
  Col.fixed_of_butSr (s.orderlyStop_butSr c)

@[simp] theorem State.failStart_col_fixed (s : State) c : (s.failStart c).col.fixed = s.col.fixed := by
  simp [State.failStart]

@[simp] theorem State.deviceFatal_col_fixed (s : State) : s.deviceFatal.col.fixed = s.col.fixed := by
  simp [State.deviceFatal]

@[simp] theorem State.fatalSince_col_fixed (s old : State) : (s.fatalSince old).col.fixed = s.col.fixed := by
  simp [State.fatalSince]

@[simp] theorem State.restartWrite_col_fixed (s : State) v : (s.restartWrite v).col.fixed = s.col.fixed := by
  simp [State.restartWrite]

@[simp] theorem State.watchdogFatal_col_fixed (s : State) : s.watchdogFatal.col.fixed = s.col.fixed := by
  simp [State.watchdogFatal]

/-! ### The cut -/

@[simp] theorem State.cut_col_fixed (s : State) r : (s.cut r).col.fixed = s.col.fixed := by
  simp [State.cut]

@[simp] theorem State.startDue_col_fixed (s : State) k : (s.startDue k).col.fixed = s.col.fixed := by
  simp [State.startDue]

@[simp] theorem State.stopEnd_col_fixed (s : State) c : (s.stopEnd c).col.fixed = s.col.fixed := by
  unfold State.stopEnd
  cases c <;> simp

@[simp] theorem State.cutNow_col_fixed (s : State) c : (s.cutNow c).col.fixed = s.col.fixed := by
  unfold State.cutNow
  split <;> simp

/-! ### Cairn, DRAM, the structure loader and the start -/

@[simp] theorem State.sweep_col_fixed (s : State) : s.sweep.1.col.fixed = s.col.fixed := by
  simp [State.sweep, State.each_col]

theorem State.stackBack_col_fixed (s : State) k t b : (s.stackBack k t b).col.fixed = s.col.fixed := by
  unfold State.stackBack
  extract_lets b u v w
  have hu : u.col = s.col := State.each_setChan_col _ _ _
  have hv : v.col = u.col := by
    refine State.each_col ?_ _ _
    intro t g
    rfl
  clear_value u v
  show w.col.fixed = s.col.fixed
  simp [w, hv, hu]

@[simp] theorem State.stackExit_col_fixed (s : State) k t : (s.stackExit k t).1.col.fixed = s.col.fixed := by
  unfold State.stackExit
  dsimp only
  split <;> simp [State.stackBack_col_fixed]

@[simp] theorem State.dramWarm_col_fixed (s : State) ts : (s.dramWarm ts).1.col.fixed = s.col.fixed := by
  unfold State.dramWarm
  refine foldl_fst_col_fixed (fun acc k => ?_) _ _
  exact acc.1.stackExit_col_fixed k (tget ts k)

@[simp] theorem State.dramCold_col_fixed (s : State) ts : (s.dramCold ts).col.fixed = s.col.fixed := by
  unfold State.dramCold
  refine (State.each_col_fixed (fun t k => ?_) _ _).trans (by rw [State.eccFill_col])
  simp only [State.setStack_col, State.stackBack_col_fixed]
  rfl

@[simp] theorem State.stepFirmware_col_fixed (s : State) : s.stepFirmware.col.fixed = s.col.fixed := by
  unfold State.stepFirmware
  split <;> simp

@[simp] theorem State.stepCairn_col_fixed (s : State) : s.stepCairn.col.fixed = s.col.fixed := by
  unfold State.stepCairn
  dsimp only
  split <;> simp

@[simp] theorem State.stepDram_col_fixed (s : State) n ts l : (s.stepDram n ts l).col.fixed = s.col.fixed := by
  unfold State.stepDram
  extract_lets warm
  have h : (if n % 256 ≠ 0 then (s, false) else if warm then s.dramWarm ts else (s.dramCold ts, true)).1.col.fixed = s.col.fixed := by
    split
    · rfl
    · split <;> simp
  generalize (if n % 256 ≠ 0 then (s, false) else if warm then s.dramWarm ts else (s.dramCold ts, true)) = r at h ⊢
  dsimp only
  rw [← h]
  split <;> simp

@[simp] theorem State.stepStructure_col_fixed (s : State) : s.stepStructure.col.fixed = s.col.fixed := by
  unfold State.stepStructure
  split
  · dsimp only
    split
    · simp
    · split <;> simp
  · simp

@[simp] theorem State.nowReady_col_fixed (s : State) p : (s.nowReady p).col.fixed = s.col.fixed := by
  simp [State.nowReady]

@[simp] theorem State.edge_col_fixed (s : State) ok : (s.edge ok).col.fixed = s.col.fixed := by
  simp [State.edge]

@[simp] theorem State.powerLost_col_fixed (s : State) : s.powerLost.col.fixed = s.col.fixed := by
  simp [State.powerLost]

/-! ### The seat check, readings, fatal errors and registers -/

theorem State.seatCheck_col_fixed (s : State) p b : (s.seatCheck p b).col.fixed = s.col.fixed := by
  unfold State.seatCheck
  split
  · rfl
  · dsimp only
    split
    · rw [State.each_col (fun t q => by split <;> rfl)]
      simp
    · rfl

theorem State.shutdown_col_fixed (s : State) a t n d k : (s.shutdown a t n d k).col.fixed = s.col.fixed := by
  simp [State.shutdown]

theorem State.reading_col_fixed (s : State) sel t f : (s.reading sel t f).col.fixed = s.col.fixed := by
  unfold State.reading
  split
  · rfl
  · simp [State.shutdown_col_fixed]

theorem State.sysPllLost_col_fixed (s : State) : s.sysPllLost.col.fixed = s.col.fixed := by
  simp [State.sysPllLost]

theorem Col.w1c_fixed (c : Col) (v : Nat) : (c.w1c v).fixed = c.fixed := rfl

theorem State.regWrite_col_fixed (s : State) (r : Reg) (v : Nat) : (s.regWrite r v).col.fixed = s.col.fixed := by
  unfold State.regWrite
  split <;> simp [Col.w1c_fixed]

theorem State.busWrite_col_fixed (s : State) sp off w v : (s.busWrite sp off w v).col.fixed = s.col.fixed := by
  unfold State.busWrite
  split
  · rfl
  · simp [State.regWrite_col_fixed]

theorem State.hostRegWrite_col_fixed (s : State) sp off w v : (s.hostRegWrite sp off w v).col.fixed = s.col.fixed := by
  simp [State.hostRegWrite, State.busWrite_col_fixed]

/-! ### The commands that touch Col -/

theorem execCairnProgram_col_fixed v h b p (s : State) : (outOf s (execCairnProgram v h b p s)).col.fixed = s.col.fixed :=
  State.onRequest_col_fixed (fun req => by simp)

theorem execTripNAssert_col_fixed (s : State) : (outOf s (execTripNAssert s)).col.fixed = s.col.fixed :=
  State.when_col_fixed State.tripAssert_col_fixed s _

theorem execLaserPolicy_col_fixed (s : State) : (outOf s (execLaserPolicy s)).col.fixed = s.col.fixed :=
  State.onRequest_col_fixed (fun req => by simp)

theorem execIntlkFall_col_fixed (s : State) : (outOf s (execIntlkFall s)).col.fixed = s.col.fixed := by
  refine State.when_col_fixed (fun s => ?_) s _
  dsimp only
  split <;> simp

theorem execLatchOpen_col_fixed (s : State) : (outOf s (execLatchOpen s)).col.fixed = s.col.fixed :=
  State.when_col_fixed (fun s => by simp) s _

theorem execDriverFault_col_fixed n k (s : State) : (outOf s (execDriverFault n k s)).col.fixed = s.col.fixed :=
  State.when_col_fixed (fun s => by simp) s _

theorem execScrubStep_col_fixed c (s : State) : (outOf s (execScrubStep c s)).col.fixed = s.col.fixed := by
  refine State.when_col_fixed (fun t => ?_) s _
  rw [State.fatalSince_col_fixed]
  have h : ∀ b, (t.each (List.range 32) (fun u i => u.scrubCol (b + 32 * i))).col = t.col := fun b =>
    State.each_col (fun u i => u.scrubCol_col (b + 32 * i)) t _
  simp [h]

theorem execSelfRefreshExit_col_fixed k t (s : State) : (outOf s (execSelfRefreshExit k t s)).col.fixed = s.col.fixed :=
  State.when_col_fixed (fun s => by simp) s _

theorem execDramPllRelockDone_col_fixed k ok t (s : State) :
    (outOf s (execDramPllRelockDone k ok t s)).col.fixed = s.col.fixed := by
  unfold execDramPllRelockDone
  dsimp only
  split
  · rfl
  · simp [State.stackBack_col_fixed]

theorem execPfReset_col_fixed k (s : State) : (outOf s (execPfReset k s)).col.fixed = s.col.fixed := by
  simp [execPfReset]

theorem execStructLoadStageDone_col_fixed b (s : State) : (outOf s (execStructLoadStageDone b s)).col.fixed = s.col.fixed := by
  refine State.when_col_fixed (fun s => ?_) s _
  split <;> simp

theorem execRingFrame_col_fixed p codes (s : State) : (outOf s (execRingFrame p codes s)).col.fixed = s.col.fixed := by
  refine State.when_col_fixed (fun s => ?_) s _
  extract_lets x a b c d e f
  have hb : Kept butCol s b := State.calFrame_kept (State.acqFrames_kept (State.setPort_kept (Kept.refl _ _) rfl) rfl) rfl
  have hd : Kept butCol s d := Kept.each (State.setPort_kept hb rfl) (fun t k ht => by
    dsimp only
    split
    · exact State.ringUnlock_kept ht rfl
    · exact ht)
  have he : Kept butCol s e := State.txRested_kept (State.slotRested_kept (State.slotEnter_kept hd rfl) rfl) rfl
  have hf : Kept butCol s (e.portFollow p).seatRetry := State.seatRetry_kept (State.portFollow_kept he rfl) rfl
  rw [State.setPort_col, State.seatCheck_col_fixed, hf.col_of_butCol]

theorem execDeviceFatal_col_fixed c (s : State) : (outOf s (execDeviceFatal c s)).col.fixed = s.col.fixed := by
  cases c with
  | sysPll => exact s.sysPllLost_col_fixed
  | trvPll => exact State.when_col_fixed (fun s => by simp) s _
  | mgmtUe => exact State.when_col_fixed (fun s => by simp) s _
  | mgmtWatchdog => exact s.watchdogFatal_col_fixed

theorem execThmReadAll_col_fixed rs (s : State) : (outOf s (execThmReadAll rs s)).col.fixed = s.col.fixed := by
  refine State.onRequest_col_fixed (fun req => ?_)
  have h : ∀ (t : State) (l : List Reading), (t.each l (fun u r => u.reading r.sel r.temp r.fault)).col.fixed = t.col.fixed :=
    State.each_col_fixed (fun u r => u.reading_col_fixed r.sel r.temp r.fault)
  simp [h]

theorem execPwrGoodRise_col_fixed e ok (s : State) : (outOf s (execPwrGoodRise e ok s)).col.fixed = s.col.fixed :=
  State.when_col_fixed (fun s => by simp) s _

theorem execPwrGoodFall_col_fixed (s : State) : (outOf s (execPwrGoodFall s)).col.fixed = s.col.fixed :=
  State.when_col_fixed (fun s => by simp) s _

theorem execResetNFall_col_fixed (s : State) : (outOf s (execResetNFall s)).col.fixed = s.col.fixed := by
  refine State.when_col_fixed (fun s => ?_) s _
  dsimp only
  split
  · rfl
  · split
    · split <;> rfl
    · simp

theorem execResetNRise_col_fixed ok (s : State) : (outOf s (execResetNRise ok s)).col.fixed = s.col.fixed :=
  State.when_col_fixed (fun s => by simp) s _

theorem execInternalResetRelease_col_fixed (s : State) : (outOf s (execInternalResetRelease s)).col.fixed = s.col.fixed :=
  State.when_col_fixed (fun s => by simp) s _

theorem execUndervoltageTrip_col_fixed r (s : State) : (outOf s (execUndervoltageTrip r s)).col.fixed = s.col.fixed :=
  State.when_col_fixed (fun s => by simp) s _

theorem execCrystalFault_col_fixed (s : State) : (outOf s (execCrystalFault s)).col.fixed = s.col.fixed :=
  State.when_col_fixed (fun s => by simp) s _

theorem execOrderlyStopDone_col_fixed (s : State) : (outOf s (execOrderlyStopDone s)).col.fixed = s.col.fixed := by
  rw [execOrderlyStopDone, outOf_next]
  split <;> simp

theorem execStartBegin_col_fixed (s : State) : (outOf s (execStartBegin s)).col.fixed = s.col.fixed :=
  State.when_col_fixed (fun s => by simp) s _

theorem execStartStepDone_col_fixed st (s : State) : (outOf s (execStartStepDone st s)).col.fixed = s.col.fixed := by
  refine State.when_col_fixed (fun t => ?_) s _
  rw [State.stepsCheck_col]
  cases st with
  | firmware => exact State.when_col_fixed State.stepFirmware_col_fixed t _
  | cairnSweep => exact State.when_col_fixed State.stepCairn_col_fixed t _
  | dram n ts l => exact State.when_col_fixed (fun u => u.stepDram_col_fixed n ts l) t _
  | optics c d0 d1 => exact State.when_col_fixed (fun u => congrArg Col.fixed (u.stepOptics_col c d0 d1)) t _
  | structureFetch => exact State.when_col_fixed State.stepStructure_col_fixed t _

theorem execStartReady_col_fixed (s : State) : (outOf s (execStartReady s)).col.fixed = s.col.fixed :=
  State.when_col_fixed (fun s => by simp) s _

theorem execStartWatchdogExpiry_col_fixed (s : State) : (outOf s (execStartWatchdogExpiry s)).col.fixed = s.col.fixed := by
  rw [execStartWatchdogExpiry, outOf_next]
  exact State.when_col_fixed (fun s => s.failStart_col_fixed 4) s _

theorem execStartRetry_col_fixed (s : State) : (outOf s (execStartRetry s)).col.fixed = s.col.fixed := by
  rw [execStartRetry, outOf_next]
  split
  · exact State.when_col_fixed (fun s => s.startDue_col_fixed 0) s _
  · rfl

theorem restart_col_fixed (s : State) (v : W32) :
    (s.when s.start.hostIf (fun s => s.restartWrite v.toNat)).col.fixed = s.col.fixed :=
  State.when_col_fixed (fun s => s.restartWrite_col_fixed v.toNat) s _

/-- R26, R43, R45, R47: outside Col's power-on reset no command but the loss of VDD_COL changes what Col holds. A command that
does not list Col among what it touches leaves all of it; each of the others is one of the cases. -/
theorem exec_col_fixed {c : Instr} {s t : State} (hp : s.col.por = false) (hc : c ≠ .vddColLoss) (ht : exec c s = .next t) :
    t.col.fixed = s.col.fixed := by
  have e : t = outOf s (exec c s) := by rw [ht]
  rw [e]
  clear e ht
  by_cases h : (touches c).contains .col = false
  · rw [(exec_kept_touches c s).col_eq h]
  cases c with
  | colPowerOnResetExit => simp [exec, execColPowerOnResetExit, State.when, hp]
  | vddColLoss => exact absurd rfl hc
  | registerWrite => exact s.hostRegWrite_col_fixed _ _ _ _
  | lowHalfWrite => exact s.hostRegWrite_col_fixed _ _ _ _
  | highHalfWrite => exact s.hostRegWrite_col_fixed _ _ _ _
  | pwrGoodRise => exact execPwrGoodRise_col_fixed _ _ s
  | pwrGoodFall => exact execPwrGoodFall_col_fixed s
  | resetNFall => exact execResetNFall_col_fixed s
  | resetNRise => exact execResetNRise_col_fixed _ s
  | internalResetRelease => exact execInternalResetRelease_col_fixed s
  | undervoltageTrip => exact execUndervoltageTrip_col_fixed _ s
  | crystalFault => exact execCrystalFault_col_fixed s
  | tripNAssert => exact execTripNAssert_col_fixed s
  | orderlyStopDone => exact execOrderlyStopDone_col_fixed s
  | startBegin => exact execStartBegin_col_fixed s
  | startStepDone => exact execStartStepDone_col_fixed _ s
  | startReady => exact execStartReady_col_fixed s
  | startWatchdogExpiry => exact execStartWatchdogExpiry_col_fixed s
  | startRetry => exact execStartRetry_col_fixed s
  | restartWarm => exact restart_col_fixed s _
  | restartCold => exact restart_col_fixed s _
  | clearAndRestart => exact restart_col_fixed s _
  | cairnProgram => exact execCairnProgram_col_fixed _ _ _ _ s
  | structLoadStageDone => exact execStructLoadStageDone_col_fixed _ s
  | pfReset k => exact execPfReset_col_fixed k s
  | laserPolicy => exact execLaserPolicy_col_fixed s
  | thmReadAll => exact execThmReadAll_col_fixed _ s
  | scrubStep => exact execScrubStep_col_fixed _ s
  | selfRefreshExit => exact execSelfRefreshExit_col_fixed _ _ s
  | dramPllRelockDone => exact execDramPllRelockDone_col_fixed _ _ _ s
  | ringFrame => exact execRingFrame_col_fixed _ _ s
  | intlkFall => exact execIntlkFall_col_fixed s
  | latchOpen => exact execLatchOpen_col_fixed s
  | driverFault => exact execDriverFault_col_fixed _ _ s
  | sensorReading => exact s.reading_col_fixed _ _ _
  | deviceFatal => exact execDeviceFatal_col_fixed _ s
  | mgmtWatchdogExpiry => exact s.watchdogFatal_col_fixed
  | _ => exact absurd rfl h

/-! ## The straps -/

theorem State.tripAssert_pins (s : State) : s.tripAssert.pins = { s.pins with tripN := false, tripRel := none } :=
  (State.latchSet_kept (f := fun l => { l with trip := true }) (Kept.refl (slicesBut [.pins]) _) rfl (fun _ h => h)).pins_eq rfl

/-- R26, R47, R460: what the end of Col's power-on reset leaves in Col and on the pins. -/
theorem exec_colPowerOnResetExit_of_por {s : State} (h : s.col.por = true) (pg rn tn env smb1 smb0 : Bool) :
    ∃ t, exec (.colPowerOnResetExit pg rn tn env smb1 smb0) s = .next t
      ∧ (t.col.por = false ∧ t.col.cyc = 0 ∧ t.col.life = s.draw.1 % (2 ^ 64 - 1) + 1 ∧ t.col.serial = s.cairnSerial
        ∧ t.col.grade2 = s.col.grade2 ∧ t.col.smbAddr.val = (2 * bnat smb1 + bnat smb0) % 4)
      ∧ t.pins = { pwrGood := pg, resetN := rn, tripN := tn, tripRel := none, pgRise := if pg then some 5 else none } := by
  simp only [exec, execColPowerOnResetExit, s.when_true _ h]
  cases tn with
  | true => exact ⟨_, rfl, ⟨rfl, rfl, rfl, rfl, rfl, rfl⟩, rfl⟩
  | false =>
    obtain ⟨hpor, hcyc, hlife, hserial, hgrade, haddr⟩ := Col.eq_of_fixed (State.tripAssert_col_fixed _)
    exact ⟨_, rfl, ⟨hpor, hcyc, hlife, hserial, hgrade, congrArg Fin.val haddr⟩, State.tripAssert_pins _⟩

/-- A crystal cycle advances the count of Col alone. -/
theorem tick_smbAddr (s : State) : (tick s).col.smbAddr = s.col.smbAddr := by
  unfold tick
  split
  · rfl
  · have h : ∀ u : State, Kept butCol u u.rampTick.drainChans := fun u =>
      State.drainChans_kept (State.rampTick_kept (Kept.refl _ _) rfl) rfl
    rw [(h _).col_of_butCol]

/-- Settles O11: the straps are sampled by `exec_colPowerOnResetExit_of_por`, and `exec_col_fixed` keeps them. -/
theorem smbAddress : Obligations.SmbusAddress := by
  unfold Obligations.SmbusAddress
  refine ⟨fun s pg rn tn env smb1 smb0 h => ?_, fun s t c hp hc ht => ?_, tick_smbAddr⟩
  · obtain ⟨t, ht, ⟨-, -, -, -, -, haddr⟩, -⟩ := exec_colPowerOnResetExit_of_por h pg rn tn env smb1 smb0
    refine ⟨t, ht, ?_⟩
    rw [haddr]
    cases smb1 <;> cases smb0 <;> rfl
  · obtain ⟨hpor, -, -, -, -, haddr⟩ := Col.eq_of_fixed (exec_col_fixed hp hc ht)
    exact ⟨haddr, hpor.trans hp⟩

/-! ## The rising edges and the release of internal reset -/

/-- R31: the conditions of the release, one by one. -/
theorem State.mayRelease_of {s : State} {a : Nat} (hpor : s.col.por = false) (hheld : s.start.resetHeld = true)
    (hpg : s.pins.pwrGood = true) (hrn : s.pins.resetN = true) (hstop : s.start.stop = none) (huv : s.start.uvHold = false)
    (hx : s.col.xtalBad = false) (hth : s.start.thermHold = false) (hr : s.pins.pgRise = some a) (ha : a + msCyc 1 ≤ s.now) :
    s.mayRelease = true := by
  have hp : s.past a (msCyc 1) = true := decide_eq_true ha
  simp [State.mayRelease, hpor, hheld, hpg, hrn, hstop, huv, hx, hth, hr, hp]

/-- R43, R460: the loss of VDD_COL. A Cairn program in progress ends before it, and changes Cairn alone. -/
theorem exec_vddColLoss (s : State) :
    ∃ t, exec .vddColLoss s = .next t ∧ t.col.por = true ∧ t.ret = State.reset.ret ∧ t.ras = State.reset.ras
      ∧ t.start = State.reset.start ∧ t.dram.mem = s.dram.mem ∧ t.dram.poison = s.dram.poison ∧ t.flash = s.flash
      ∧ t.hostMem = s.hostMem := by
  have h : Kept [.cairn, .free] s (s.progAbort 9) := State.progAbort_kept (Kept.refl _ _) rfl
  rw [← h.dram_eq rfl, ← h.flash_eq rfl, ← h.hostMem_eq rfl]
  exact ⟨_, rfl, rfl, rfl, rfl, rfl, rfl, rfl, rfl, rfl⟩

/-- R25, R31, R35: PWR_GOOD rises. -/
theorem exec_pwrGoodRise {s : State} (hpor : s.col.por = false) (hpg : s.pins.pwrGood = false) (env ok : Bool) :
    ∃ t, exec (.pwrGoodRise env ok) s = .next t ∧ t.pins.pwrGood = true ∧ t.pins.pgRise = some s.now ∧ t.col.envExt = env
      ∧ t.start.uvHold = false ∧ t.start.thermHold = false ∧ t.start.resetHeld = s.start.resetHeld := by
  have hc : (! s.col.por && ! s.pins.pwrGood) = true := by simp [hpor, hpg]
  simp only [exec, execPwrGoodRise, s.when_true _ hc]
  exact ⟨_, rfl, rfl, rfl, rfl, rfl, rfl, rfl⟩

/-- R31, R36, R39: RESET_N rises. -/
theorem exec_resetNRise {s : State} (hpor : s.col.por = false) (hrn : s.pins.resetN = false) (ok : Bool) :
    ∃ t, exec (.resetNRise ok) s = .next t ∧ t.pins.resetN = true ∧ t.start.thermHold = false
      ∧ t.col.xtalBad = (s.col.xtalBad && ! ok) ∧ t.start.resetHeld = s.start.resetHeld := by
  have hc : (! s.col.por && ! s.pins.resetN) = true := by simp [hpor, hrn]
  simp only [exec, execResetNRise, s.when_true _ hc]
  exact ⟨_, rfl, rfl, rfl, rfl, rfl⟩

/-- R31, R61: internal reset is released. -/
theorem exec_internalResetRelease {s : State} (h : s.mayRelease = true) :
    ∃ t, exec .internalResetRelease s = .next t ∧ t.start.resetHeld = false ∧ t.start.due = true ∧ t.start.phase = .rom
      ∧ t.start.hostIf = false ∧ t.start.begun = s.now ∧ t.col.attempts = s.col.attempts := by
  simp only [exec, execInternalResetRelease, s.when_true _ h]
  exact ⟨_, rfl, rfl, rfl, rfl, rfl, rfl, rfl⟩

/-- Settles O15: a clause for each command, by its rule above. -/
theorem colPowerAndReset : Obligations.ColPowerAndReset := by
  unfold Obligations.ColPowerAndReset
  refine ⟨fun s a b c d e f h => ?_, exec_vddColLoss, fun s env ok hp hg => exec_pwrGoodRise hp hg env ok,
    fun s ok hp hr => exec_resetNRise hp hr ok, fun s a hpor hheld hpg hrn hstop huv hx hth hr ha =>
      exec_internalResetRelease (State.mayRelease_of hpor hheld hpg hrn hstop huv hx hth hr ha)⟩
  obtain ⟨t, ht, ⟨hpor, hcyc, hlife, hserial, -, -⟩, hpins⟩ := exec_colPowerOnResetExit_of_por h a b c d e f
  have hlt : s.draw.1 % (2 ^ 64 - 1) < 2 ^ 64 - 1 := Nat.mod_lt _ (by decide)
  exact ⟨t, ht, hpor, by omega, by omega, hserial, hcyc, by rw [hpins], by rw [hpins], by rw [hpins]⟩

/-! ## Stops and cuts -/

/-! ### A running device -/

theorem State.live_iff (s : State) : s.live = true ↔
    s.col.por = false ∧ s.start.resetHeld = false ∧ s.start.stop = none ∧ s.start.failedAt = none
      ∧ s.start.thermHold = false ∧ s.start.due = false := by
  simp [State.live, and_assoc]

theorem State.lasersDark_start (s : State) : s.lasersDark.start = s.start :=
  (State.lasersDark_kept (Kept.refl [.col, .laser] s) rfl).start_eq rfl
theorem State.lasersDark_pins (s : State) : s.lasersDark.pins = s.pins :=
  (State.lasersDark_kept (Kept.refl [.col, .laser] s) rfl).pins_eq rfl
theorem State.log_start (s : State) c b e d p st a x : (s.log c b e d p st a x).start = s.start :=
  (State.log_kept (Kept.refl [.pfMsix, .irqs, .ras] s) rfl).start_eq rfl
theorem State.startEnded_pins (s : State) (n : Nat) : (s.startEnded n).pins = s.pins :=
  (State.startEnded_kept (Kept.refl [.start] s) rfl).pins_eq rfl

theorem State.setPhase_start (s : State) (p : Phase) : (s.setPhase p).start = { s.start with phase := p, time := s.time } := rfl

@[simp] theorem State.startEnded_live (s : State) (n : Nat) : (s.startEnded n).live = s.live := by
  unfold State.startEnded
  split <;> rfl

@[simp] theorem State.lasersDark_live (s : State) : s.lasersDark.live = s.live := by
  simp only [State.live, State.lasersDark_start, State.lasersDark_col]

@[simp] theorem State.log_live (s : State) c b e d p st a x : (s.log c b e d p st a x).live = s.live := by
  simp only [State.live, State.log_start, State.log_col]

/-- R34, R36, R39, R63, R415: an orderly stop begins in a running device: its cause and phase are recorded, and the pins and Col's
records but those of self-refresh stay. -/
theorem State.orderlyStop_of_live {s : State} (h : s.live = true) (c : StopCause) :
    (s.orderlyStop c).start.stop = some c ∧ (s.orderlyStop c).start.phase = c.phase ∧ (s.orderlyStop c).pins = s.pins
      ∧ (s.orderlyStop c).col.butSr = s.col.butSr := by
  have hpins : (s.orderlyStop c).pins = s.pins := (State.orderlyStop_kept (Kept.refl (slicesBut [.pins]) s) rfl).pins_eq rfl
  refine ⟨?_, ?_, hpins, s.orderlyStop_butSr c⟩ <;> rw [State.orderlyStop, if_pos h] <;> rfl

/-! ### The cut -/

theorem State.cut_false_start (s : State) :
    (s.cut false).start = { s.start with sysLock := false, trvLock := false } := by
  rw [← s.lasersDark_start]
  rfl

theorem State.cut_false_col (s : State) : (s.cut false).col = { s.col with idleHeld := false } := s.lasersDark_col

theorem State.cut_empty (s : State) (r : Bool) : (s.cut r).committed = false ∧ (s.cut r).items = [] ∧ (s.cut r).sends = [] :=
  ⟨rfl, rfl, rfl⟩

/-- R63, R74: no stop runs after one has ended, whatever follows it. -/
theorem State.stopEnd_stop (s : State) (c : StopCause) : (s.stopEnd c).start.stop = none := by
  unfold State.stopEnd
  cases c <;> dsimp only <;> split <;> rfl

/-- R34, R37: after a loss of power internal reset is held. -/
theorem State.stopEnd_pwrGood (s : State) :
    (s.stopEnd .pwrGood).start.resetHeld = true ∧ (s.stopEnd .pwrGood).start.uvHold = s.start.uvHold
      ∧ (s.stopEnd .pwrGood).col = s.col := by
  have h : (! s.pins.pwrGood || s.start.resetPend || s.start.uvHold || s.start.resetHeld || s.col.xtalBad || true) = true :=
    Bool.or_true _
  unfold State.stopEnd
  simp only [h, if_true]
  exact ⟨rfl, rfl, rfl⟩

/-- R416: a cut at once is a cut of a state in which no Cairn program runs and Col records no stack in self-refresh. -/
theorem State.cutNow_eq (s : State) (c : StopCause) :
    ∃ v : State, v.start = s.start ∧ v.col = { s.col with srRec := rep 8 none }
      ∧ s.cutNow c = ((v.cut false).setPhase c.phase).stopEnd c := by
  unfold State.cutNow
  extract_lets _ u _ v
  have hu : Kept [.cairn, .free] s u := by
    unfold u
    split
    · exact State.progAbort_kept (Kept.refl _ _) rfl
    · exact Kept.refl _ _
  have hcol : v.col = { u.col with srRec := rep 8 none } := rfl
  exact ⟨v, hu.start_eq rfl, by rw [hcol, hu.col_eq rfl], rfl⟩

/-- R35, R416: a cut at once at a loss of power. -/
theorem State.cutNow_pwrGood (s : State) :
    (s.cutNow .pwrGood).start.stop = none ∧ (s.cutNow .pwrGood).start.resetHeld = true
      ∧ (s.cutNow .pwrGood).start.uvHold = s.start.uvHold ∧ (s.cutNow .pwrGood).committed = false
      ∧ (s.cutNow .pwrGood).items = [] ∧ (s.cutNow .pwrGood).col = { s.col with srRec := rep 8 none, idleHeld := false } := by
  obtain ⟨v, hstart, hcol, hv⟩ := s.cutNow_eq .pwrGood
  obtain ⟨hheld, huv, hc⟩ := State.stopEnd_pwrGood ((v.cut false).setPhase StopCause.pwrGood.phase)
  have hk : Kept [.col, .start, .thm] _ (((v.cut false).setPhase StopCause.pwrGood.phase).stopEnd .pwrGood) :=
    State.stopEnd_kept (Kept.refl _ _) rfl
  obtain ⟨hcommitted, hitems, -⟩ := v.cut_empty false
  rw [hv]
  refine ⟨State.stopEnd_stop _ _, hheld, ?_, (hk.committed_eq rfl).trans hcommitted, (hk.items_eq rfl).trans hitems, ?_⟩
  · rw [huv, State.setPhase_start, State.cut_false_start, hstart]
  · exact hc.trans (v.cut_false_col.trans (by rw [hcol]))

/-! ### The commands -/

/-- R32, R34, R37: PWR_GOOD falls in a running device. -/
theorem exec_pwrGoodFall {s : State} (hpor : s.col.por = false) (hpg : s.pins.pwrGood = true) (hlive : s.live = true) :
    ∃ t, exec .pwrGoodFall s = .next t ∧ t.pins.pwrGood = false ∧ t.start.stop = some .pwrGood ∧ t.start.phase = .stopping
      ∧ t.col.pwrLost = true ∧ t.col.pwrLossRec = true := by
  have hc : (! s.col.por && s.pins.pwrGood) = true := by simp [hpor, hpg]
  simp only [exec, execPwrGoodFall, s.when_true _ hc]
  generalize hu : (State.startEnded _ 6).lasersDark = u
  have hul : u.live = true := by rw [← hu, State.lasersDark_live, State.startEnded_live]; exact hlive
  have hup : u.pins.pwrGood = false := by rw [← hu, State.lasersDark_pins, State.startEnded_pins]; rfl
  obtain ⟨hlost, hrec⟩ : u.col.pwrLost = true ∧ u.col.pwrLossRec = true := by
    rw [← hu, State.lasersDark_col, State.startEnded_col]
    exact ⟨rfl, rfl⟩
  obtain ⟨-, -, hstop, -⟩ := u.live_iff.mp hul
  obtain ⟨hs, hp, hpins, hcol⟩ := State.orderlyStop_of_live hul .pwrGood
  simp only [hstop, hul, Option.isSome_none, Bool.false_eq_true, if_false, if_true]
  exact ⟨_, rfl, by rw [hpins, hup], hs, hp, (congrArg Col.pwrLost hcol).trans hlost,
    (congrArg Col.pwrLossRec hcol).trans hrec⟩

/-- R36: RESET_N falls in a running device. -/
theorem exec_resetNFall {s : State} (hrn : s.pins.resetN = true) (hpg : s.pins.pwrGood = true) (hlive : s.live = true) :
    ∃ t, exec .resetNFall s = .next t ∧ t.pins.resetN = false ∧ t.start.stop = some .resetN ∧ t.start.phase = .stopping := by
  obtain ⟨hpor, -, hstop, -⟩ := s.live_iff.mp hlive
  have hc : (! s.col.por && s.pins.resetN) = true := by simp [hpor, hrn]
  simp only [exec, execResetNFall, s.when_true _ hc, hpg, hstop, Bool.not_true, Bool.false_eq_true, if_false]
  generalize hu : State.startEnded _ 6 = u
  have hul : u.live = true := by rw [← hu, State.startEnded_live]; exact hlive
  have hup : u.pins.resetN = false := by rw [← hu, State.startEnded_pins]
  obtain ⟨hs, hp, hpins, -⟩ := State.orderlyStop_of_live hul .resetN
  simp only [hul, if_true]
  exact ⟨_, rfl, by rw [hpins, hup], hs, hp⟩

/-- R39: a crystal fault in a running device. -/
theorem exec_crystalFault {s : State} (hx : s.col.xtalBad = false) (hlive : s.live = true) :
    ∃ t, exec .crystalFault s = .next t ∧ t.start.stop = some .crystal ∧ t.start.phase = .stopping ∧ t.col.xtalFault = true
      ∧ t.col.xtalBad = true ∧ t.col.timeUntraced = true := by
  obtain ⟨hpor, -, -, -⟩ := s.live_iff.mp hlive
  have hc : (! s.col.por && ! s.col.xtalBad) = true := by simp [hpor, hx]
  simp only [exec, execCrystalFault, s.when_true _ hc]
  generalize hd : (s.startEnded 7).lasersDark = d
  have hdl : d.live = true := by rw [← hd, State.lasersDark_live, State.startEnded_live, hlive]
  generalize hu : State.log _ 3 0x00 1 _ = u
  have hul : u.live = true := by rw [← hu, State.log_live]; exact hdl
  obtain ⟨hfault, hbad, htime⟩ : u.col.xtalFault = true ∧ u.col.xtalBad = true ∧ u.col.timeUntraced = true := by
    rw [← hu, State.log_col]
    exact ⟨rfl, rfl, rfl⟩
  obtain ⟨-, -, hstop, -⟩ := u.live_iff.mp hul
  obtain ⟨hs, hp, -, hcol⟩ := State.orderlyStop_of_live hul .crystal
  simp only [hstop, hul, Option.isSome_none, Bool.false_eq_true, if_false, if_true]
  exact ⟨_, rfl, hs, hp, (congrArg Col.xtalFault hcol).trans hfault, (congrArg Col.xtalBad hcol).trans hbad,
    (congrArg Col.timeUntraced hcol).trans htime⟩

theorem State.monitors_of_live {s : State} (hpg : s.pins.pwrGood = true) (hlive : s.live = true) : s.monitors = true := by
  obtain ⟨hpor, hheld, -, hfailed, hth, -⟩ := s.live_iff.mp hlive
  simp [State.monitors, hpor, hpg, hheld, hfailed, hth]

/-- R35, R37: an undervoltage trip in a running device. -/
theorem exec_undervoltageTrip {s : State} (r : Rail) (hpg : s.pins.pwrGood = true) (hlive : s.live = true) :
    ∃ t, exec (.undervoltageTrip r) s = .next t ∧ tget t.col.uv (railIdx r) = true ∧ t.start.uvHold = true
      ∧ t.start.resetHeld = true ∧ t.start.stop = none ∧ t.committed = false ∧ t.items = [] ∧ t.col.srRec = rep 8 none := by
  simp only [exec, execUndervoltageTrip, s.when_true _ (State.monitors_of_live hpg hlive)]
  generalize hu : State.log _ 3 0x00 2 _ = u
  have huv : tget u.col.uv (railIdx r) = true := by
    rw [← hu, State.log_col]
    exact tget_upd_same _ _ _
  generalize hw : ({ u with start := { u.start with uvHold := true, resetHeld := true } } : State) = w
  obtain ⟨hstop, hheld, hhold, hcommitted, hitems, hcol⟩ := w.cutNow_pwrGood
  refine ⟨_, rfl, ?_, ?_, hheld, hstop, hcommitted, hitems, ?_⟩
  · rw [hcol, ← hw]
    exact huv
  · rw [hhold, ← hw]
  · rw [hcol]

/-- R415: the end of an orderly stop of any cause. -/
theorem exec_orderlyStopDone {s : State} {c : StopCause} (h : s.start.stop = some c) :
    ∃ t, exec .orderlyStopDone s = .next t ∧ t.start.stop = none ∧ t.committed = false ∧ t.items = [] ∧ t.sends = [] := by
  simp only [exec, execOrderlyStopDone, h]
  generalize hu : s.cut _ = u
  obtain ⟨hcommitted, hitems, hsends⟩ : u.committed = false ∧ u.items = [] ∧ u.sends = [] := hu ▸ s.cut_empty _
  have hk : Kept [.col, .start, .thm] u (u.stopEnd c) := State.stopEnd_kept (Kept.refl _ _) rfl
  exact ⟨_, rfl, u.stopEnd_stop c, by rw [hk.committed_eq rfl, hcommitted], by rw [hk.items_eq rfl, hitems],
    by rw [hk.sends_eq rfl, hsends]⟩

/-- Settles O16: a clause for each command, by its rule above. -/
theorem powerLossAndStops : Obligations.PowerLossAndStops := by
  unfold Obligations.PowerLossAndStops
  exact ⟨fun _ => exec_pwrGoodFall, fun _ => exec_resetNFall, fun _ r => exec_undervoltageTrip r, fun _ => exec_crystalFault,
    fun _ _ => exec_orderlyStopDone⟩

end Sys2Proof.Machine

/-! # Clocks, the Col timestamp, and the power of quads

O3, O7, O10 and O19 to O23. The commands of the quads visit the quads of a clock group one by one; `State.each_visit` reduces what
such a pass does to one quad to what the visit of that quad does to it. -/

namespace Sys2Proof.Machine

/-! ## The frame -/

/-- Settles O7: the law of each command, from `exec_kept_touches`. -/
theorem commandsTouchOnly : Obligations.CommandsTouchOnly := by
  unfold Obligations.CommandsTouchOnly
  intro c s t ht
  have h := (exec_kept_touches c s).only
  rwa [ht] at h

/-! ## The tables at reset -/

@[simp] theorem State.reset_part (p : Part) : State.reset.part p = PartRt.reset := tget_rep _ _
@[simp] theorem State.reset_vf (p : Part) : State.reset.vf p = Vf.reset := tget_rep _ _
@[simp] theorem State.reset_queue (p : Part) (q : Queue) : State.reset.queue p q = QueueSt.reset q := by
  rw [State.queue, State.reset_vf]
  exact tget_tab _ _
@[simp] theorem State.reset_link (p : Port) : State.reset.link p = LinkSt.reset := tget_rep _ _
@[simp] theorem State.reset_port (p : Port) : State.reset.port p = PortSt.reset := tget_rep _ _
@[simp] theorem State.reset_ledger (k : Stack) : tget State.reset.spur.ledgers k = LedgerSt.reset := tget_rep _ _
@[simp] theorem State.reset_las (n : Fin 20) : State.reset.las n = LaserSt.reset n := tget_tab _ _

/-- A laser is dark at reset, whether it starts OFF or, as a spare, COLD. -/
theorem LaserSt.reset_not_lit (n : Fin 20) : (LaserSt.reset n).st.lit = false := by
  unfold LaserSt.reset
  dsimp only
  split <;> rfl

/-- Settles O3: the entries of the tables by the lemmas above, the other registers as `State.reset` writes them. -/
theorem resetValues : Obligations.ResetValues := by
  unfold Obligations.ResetValues
  simp only [State.reset_part, State.reset_queue, State.reset_ledger, State.reset_link, State.reset_port, State.reset_las,
    LaserSt.reset_not_lit]
  refine ⟨rfl, rfl, rfl, rfl, rfl, rfl, rfl, rfl, fun _ => ⟨rfl, rfl, rfl⟩, fun _ _ => ⟨rfl, rfl, rfl⟩, rfl, rfl,
    fun _ => ⟨rfl, rfl⟩, rfl, rfl, rfl, rfl, rfl, fun _ => ⟨rfl, rfl⟩, rfl, rfl, rfl, fun _ => trivial⟩

/-! ## The Col timestamp (R45) -/

/-- Outside Col's power-on reset a crystal cycle is counted, and changes nothing else of Col. -/
theorem tick_col_of_not_por {s : State} (h : s.col.por = false) : (tick s).col = { s.col with cyc := s.col.cyc + 1 } := by
  have k : ∀ u : State, Kept butCol u u.rampTick.drainChans := fun u =>
    State.drainChans_kept (State.rampTick_kept (Kept.refl _ _) rfl) rfl
  simp only [tick, h, Bool.false_eq_true, if_false]
  rw [(k _).col_of_butCol]

/-- `n` crystal cycles are counted as `n`. -/
theorem tick_iterate_cyc (n : Nat) {s : State} (h : s.col.por = false) : (tick^[n] s).col.cyc = s.col.cyc + n := by
  induction n generalizing s with
  | zero => rfl
  | succ n ih =>
    have ht := tick_col_of_not_por h
    rw [Function.iterate_succ_apply, ih (by rw [ht]; exact h), ht]
    dsimp only
    omega

/-- Settles O10: 32 counted cycles are one tick of the timestamp, and a command that is not the loss of VDD_COL keeps the count
(`exec_col_fixed`). -/
theorem timestampCounts : Obligations.TimestampCounts := by
  unfold Obligations.TimestampCounts
  refine ⟨fun s a b c d e f h => ?_, fun s h => ?_, fun s t c hp hc ht => ?_,
    fun s => ⟨_, rfl, rfl, show 0 / 32 % 2 ^ 64 = 0 from rfl⟩⟩
  · obtain ⟨t, ht, ⟨hpor, hcyc, -⟩, -⟩ := exec_colPowerOnResetExit_of_por h a b c d e f
    exact ⟨t, ht, hpor, by simp [State.time, hcyc]⟩
  · simp only [State.time, tick_iterate_cyc 32 h]
    omega
  · obtain ⟨-, hcyc, -⟩ := Col.eq_of_fixed (exec_col_fixed hp hc ht)
    simp only [State.time, hcyc]

/-! ## Passes over the quads -/

/-- What a pass does to one part `get` of the state that only the visit of `r` changes: the pass comes to that visit with the part
as it was, and leaves it as the visit made it. -/
theorem State.each_visit {α β : Type} {L : List Slice} {f : State → α → State} {get : State → β} {l : List α} {r : α}
    (nd : l.Nodup) (hr : r ∈ l) (hf : ∀ v a, Kept L v (f v a)) (other : ∀ v a, a ≠ r → get (f v a) = get v) (u : State) :
    ∃ v, Kept L u v ∧ get v = get u ∧ get (u.each l f) = get (f v r) := by
  have skip : ∀ (m : List α) (v : State), r ∉ m → get (v.each m f) = get v := fun m v hm =>
    State.each_inv (P := fun w => get w = get v) rfl
      (fun w a ha hw => (other w a (fun e => hm (e ▸ ha))).trans hw)
  obtain ⟨m, n, rfl⟩ := List.append_of_mem hr
  obtain ⟨-, hn, hd⟩ := List.nodup_append.mp nd
  have hrm : r ∉ m := fun h => hd r h r List.mem_cons_self rfl
  have hrn : r ∉ n := (List.nodup_cons.mp hn).1
  refine ⟨u.each m f, Kept.each (Kept.refl _ _) (fun v a hv => hv.trans (hf v a)), skip m u hrm, ?_⟩
  have e : u.each (m ++ r :: n) f = (f (u.each m f) r).each n f := by
    simp only [State.each, List.foldl_append, List.foldl_cons]
  rw [e, skip n _ hrn]

/-- A quad that a pass does not visit is as it was. -/
theorem State.each_quad_of_not_mem {f : State → Quad → State} (other : ∀ v a r, a ≠ r → (f v a).quad r = v.quad r) {l : List Quad}
    {r : Quad} (h : r ∉ l) (u : State) : (u.each l f).quad r = u.quad r :=
  State.each_inv (P := fun v => v.quad r = u.quad r) rfl
    (fun v a ha hv => (other v a r (fun e => h (e ▸ ha))).trans hv)

/-! ## Clock groups (R102) -/

theorem State.clkGroup_nodup (s : State) (q : Quad) : (s.clkGroup q).Nodup := by
  unfold State.clkGroup
  split
  · split
    · exact List.nodup_singleton q
    · exact (List.nodup_finRange 16).filter _
  · exact List.nodup_singleton q

/-- What owns the quads is of the structure, not of the quads. -/
theorem Kept.owner_eq {s t : State} (h : Kept [.quads] s t) (q : Quad) : t.owner q = s.owner q := by
  simp only [State.owner, State.cfg, h.committed_eq rfl, h.str_eq rfl]

theorem Kept.now_eq {L : List Slice} {s t : State} (h : Kept L s t) (n : L.contains .col = false) : t.now = s.now :=
  congrArg Col.cyc (h.col_eq n)

theorem Kept.wakeable_eq {s t : State} (h : Kept [.quads] s t) {q : Quad} (hf : (t.quad q).failed = (s.quad q).failed) :
    t.wakeable q = s.wakeable q := by
  simp only [State.wakeable, h.owner_eq, h.start_eq rfl, hf]

/-- A clock group is as the structure and the retired quads make it. -/
theorem Kept.clkGroup_eq {s t : State} (h : Kept [.quads] s t) (hf : ∀ r, (t.quad r).failed = (s.quad r).failed) (q : Quad) :
    t.clkGroup q = s.clkGroup q := by
  have hc : ∀ r, t.quadCfg r = s.quadCfg r := fun r => by simp only [State.quadCfg, h.committed_eq rfl, h.str_eq rfl]
  simp only [State.clkGroup, h.owner_eq, hc, hf]

/-- What an update of one quad keeps of that quad is kept of every quad. -/
theorem State.setQ_quad_keeps {γ : Type} (s : State) (q : Quad) {f : QuadClk → QuadClk} (g : QuadClk → γ)
    (h : ∀ k, g (f k) = g k) (r : Quad) : g ((s.setQ q f).quad r) = g (s.quad r) := by
  by_cases e : q = r
  · subst e
    rw [State.setQ_quad_same, h]
  · rw [State.setQ_quad_other _ _ e]

/-- An update of one quad that does not retire it changes no clock group. -/
theorem State.setQ_clkGroup (s : State) (q : Quad) {f : QuadClk → QuadClk} (hf : ∀ k, (f k).failed = k.failed) (p : Quad) :
    (s.setQ q f).clkGroup p = s.clkGroup p :=
  (State.setQ_kept (Kept.refl [.quads] s) rfl).clkGroup_eq (s.setQ_quad_keeps q QuadClk.failed hf) p

/-! ## Wakes (R50 to R52, R57) -/

/-- What no wake request changes of a quad. -/
structure QuadClk.WokenFrom (k k' : QuadClk) : Prop where
  st : k'.st = k.st
  pll : k'.pll = k.pll
  fwHold : k'.fwHold = k.fwHold
  entering : k.entering = none → k'.entering = none

theorem QuadClk.WokenFrom.refl (k : QuadClk) : k.WokenFrom k := ⟨rfl, rfl, rfl, id⟩

theorem QuadClk.WokenFrom.trans {k k' k'' : QuadClk} (h : k.WokenFrom k') (h' : k'.WokenFrom k'') : k.WokenFrom k'' :=
  ⟨h'.st.trans h.st, h'.pll.trans h.pll, h'.fwHold.trans h.fwHold, fun e => h'.entering (h.entering e)⟩

theorem State.wakeOne_quad_other (s : State) {q r : Quad} (h : q ≠ r) : (s.wakeOne q).quad r = s.quad r := by
  unfold State.wakeOne
  dsimp only
  split
  · rfl
  · split
    · split <;> exact State.setQ_quad_other _ _ h
    · split
      · rfl
      · exact State.setQ_quad_other _ _ h

theorem State.wakeOne_wokenFrom (s : State) (q r : Quad) : (s.quad r).WokenFrom ((s.wakeOne q).quad r) := by
  by_cases e : q = r
  · subst e
    unfold State.wakeOne
    dsimp only
    split
    · exact .refl _
    · split
      · split <;> rw [State.setQ_quad_same]
        · exact ⟨rfl, rfl, rfl, id⟩
        · exact ⟨rfl, rfl, rfl, fun _ => rfl⟩
      · split
        · exact .refl _
        · rw [State.setQ_quad_same]
          exact ⟨rfl, rfl, rfl, id⟩
  · rw [s.wakeOne_quad_other e]
    exact .refl _

/-- R57: the wake of a quad at rest below Run begins from its state. -/
theorem State.wakeOne_quad_of_rest {s : State} {q : Quad} (hw : s.wakeable q = true) (hn : (s.quad q).waking = none)
    (he : (s.quad q).entering = none) (hr : (s.quad q).st ≠ .run) :
    (s.wakeOne q).quad q = { s.quad q with waking := some (s.now, (s.quad q).st), target := .run } := by
  simp [State.wakeOne, hw, hn, he, hr]

theorem State.wake_wokenFrom (s : State) (q r : Quad) : (s.quad r).WokenFrom ((s.wake q).quad r) :=
  State.each_inv (P := fun t => (s.quad r).WokenFrom (t.quad r)) (.refl _) (fun t a _ h => h.trans (t.wakeOne_wokenFrom a r))

theorem State.wake_quad_of_not_mem (s : State) {q r : Quad} (h : r ∉ s.clkGroup q) : (s.wake q).quad r = s.quad r :=
  State.each_quad_of_not_mem (fun v _ _ => v.wakeOne_quad_other) h s

/-- R57, R102: a wake of a group begins the wake of each of its quads at rest below Run. -/
theorem State.wake_quad_of_rest {s : State} {q r : Quad} (hm : r ∈ s.clkGroup q) (hw : s.wakeable r = true)
    (hn : (s.quad r).waking = none) (he : (s.quad r).entering = none) (hr : (s.quad r).st ≠ .run) :
    ((s.wake q).quad r).waking = some (s.now, (s.quad r).st) ∧ ((s.wake q).quad r).target = .run := by
  obtain ⟨v, hk, hq, hv⟩ := State.each_visit (L := [.quads]) (get := fun t => t.quad r) (s.clkGroup_nodup q) hm
    (fun v a => State.wakeOne_kept (Kept.refl _ v) rfl) (fun v a => v.wakeOne_quad_other) s
  have hfw : v.wakeable r = true := (hk.wakeable_eq (by rw [hq])).trans hw
  rw [State.wake, hv, State.wakeOne_quad_of_rest hfw (by rw [hq, hn]) (by rw [hq, he]) (by rwa [hq]), hq, hk.now_eq rfl]
  exact ⟨rfl, rfl⟩

/-- An update that a request makes of its own quad before the wake, and that touches none of what a wake decides by. -/
structure QuadClk.Marks (f : QuadClk → QuadClk) : Prop where
  st : ∀ k, (f k).st = k.st
  failed : ∀ k, (f k).failed = k.failed
  entering : ∀ k, (f k).entering = k.entering
  waking : ∀ k, (f k).waking = k.waking

/-- R57, R102: a request that marks its quad and wakes the group. -/
theorem State.marked_wake {s : State} {q : Quad} {f : QuadClk → QuadClk} (hf : QuadClk.Marks f) :
    (∀ r, r ∈ s.clkGroup q → s.wakeable r = true → (s.quad r).waking = none → (s.quad r).entering = none →
        (s.quad r).st ≠ .run → (((s.setQ q f).wake q).quad r).waking = some (s.now, (s.quad r).st)
          ∧ (((s.setQ q f).wake q).quad r).target = .run)
      ∧ (∀ r, r ≠ q → r ∉ s.clkGroup q → ((s.setQ q f).wake q).quad r = s.quad r) := by
  have hg : (s.setQ q f).clkGroup q = s.clkGroup q := s.setQ_clkGroup q hf.failed q
  have hk : Kept [.quads] s (s.setQ q f) := State.setQ_kept (Kept.refl _ _) rfl
  refine ⟨fun r hm hw hn he hr => ?_, fun r hne hm => ?_⟩
  · have hst := s.setQ_quad_keeps q QuadClk.st hf.st r
    rw [← hst, ← hk.now_eq rfl]
    exact State.wake_quad_of_rest (hg ▸ hm) ((hk.wakeable_eq (s.setQ_quad_keeps q _ hf.failed r)).trans hw)
      ((s.setQ_quad_keeps q _ hf.waking r).trans hn) ((s.setQ_quad_keeps q _ hf.entering r).trans he) (by rwa [hst])
  · rw [State.wake_quad_of_not_mem _ (hg ▸ hm), State.setQ_quad_other _ _ hne.symm]

theorem State.setQ_id (s : State) (q : Quad) : s.setQ q id = s := by
  have h : updWith s.quads q id = s.quads := by
    ext i hi
    by_cases e : q = ⟨i, hi⟩
    · subst e
      exact tget_updWith_same s.quads _ id
    · exact tget_updWith_other s.quads id e
  rw [State.setQ, h]

/-- Settles O19: both sources mark the quad, the one with the hold of firmware, the other with the time from which work waits
unless the quad is up, and wake the group. -/
theorem wakeRequestWakesTheGroup : Obligations.WakeRequestWakesTheGroup := by
  unfold Obligations.WakeRequestWakesTheGroup
  refine ⟨fun s q hw => ?_, fun s q hw hp => ?_⟩
  · simp only [exec, execQuadWakeRequest, s.when_true _ hw]
    refine ⟨_, rfl, ?_, State.marked_wake ⟨fun _ => rfl, fun _ => rfl, fun _ => rfl, fun _ => rfl⟩⟩
    rw [(State.wake_wokenFrom _ q q).fwHold, State.setQ_quad_same]
  · have hc : (s.wakeable q && (s.placedOn q || (s.quad q).waitFrom.isSome)) = true := by simp [hw, hp]
    simp only [exec, execQuadWakeRequest, s.when_true _ hc]
    refine ⟨_, rfl, ?_⟩
    split
    · have h := State.marked_wake (s := s) (q := q) (f := id) ⟨fun _ => rfl, fun _ => rfl, fun _ => rfl, fun _ => rfl⟩
      rwa [State.setQ_id] at h
    · exact State.marked_wake ⟨fun _ => rfl, fun _ => rfl, fun _ => rfl, fun _ => rfl⟩

/-! ## The end of a wake -/

theorem State.wakeServed_quad_other (s : State) {q r : Quad} (h : q ≠ r) : (s.wakeServed q).quad r = s.quad r :=
  State.setQ_quad_other _ _ h

/-- CLK_QWAIT counts and the idle time are all that a served wake writes of what O20 speaks of. -/
theorem State.wakeServed_quad_same (s : State) (q : Quad) :
    ((s.wakeServed q).quad q).st = (s.quad q).st ∧ ((s.wakeServed q).quad q).waking = (s.quad q).waking
      ∧ ((s.wakeServed q).quad q).pll = (s.quad q).pll ∧ ((s.wakeServed q).quad q).reload = (s.quad q).reload := by
  rw [State.wakeServed, State.setQ_quad_same]
  dsimp only
  split <;> exact ⟨rfl, rfl, rfl, rfl⟩

theorem State.wakeEnds_quad_other (s : State) {q r : Quad} (h : q ≠ r) : (s.wakeEnds q).quad r = s.quad r := by
  unfold State.wakeEnds
  split
  · dsimp only
    split
    · exact State.setQ_quad_other _ _ h
    · rw [State.wakeServed_quad_other _ h, State.setQ_quad_other _ _ h]
  · rfl

/-- R50, R51: a waking quad is in Run with its PLL on; from Off it waits for its reload. -/
theorem State.wakeEnds_quad_same {s : State} {q : Quad} {since : Nat} {old : QState} (h : (s.quad q).waking = some (since, old)) :
    ((s.wakeEnds q).quad q).st = .run ∧ ((s.wakeEnds q).quad q).waking = none ∧ ((s.wakeEnds q).quad q).pll = true
      ∧ ((s.wakeEnds q).quad q).reload = (old == .off) := by
  unfold State.wakeEnds
  rw [h]
  dsimp only
  generalize hu : s.setQ q _ = u
  have hq : (u.quad q).st = .run ∧ (u.quad q).waking = none ∧ (u.quad q).pll = true ∧ (u.quad q).reload = (old == .off) := by
    rw [← hu, State.setQ_quad_same]
    exact ⟨rfl, rfl, rfl, rfl⟩
  split
  · exact hq
  · obtain ⟨hst, hwk, hpll, hrl⟩ := u.wakeServed_quad_same q
    rwa [hst, hwk, hpll, hrl]

/-- Settles O20: the pass over the group ends the wake of each of its waking quads. -/
theorem wakeDoneEntersRun : Obligations.WakeDoneEntersRun := by
  unfold Obligations.WakeDoneEntersRun
  intro s q hw hr
  have hc : ((s.quad q).waking.isSome && (s.clkGroup q).all (fun r => (s.quad r).relocks.isNone)) = true := by
    simpa [Option.isSome_iff_ne_none, hw] using hr
  simp only [exec, execQuadWakeDone, s.when_true _ hc]
  refine ⟨_, rfl, fun r hm since old h => ?_, fun r hm => ?_⟩
  · obtain ⟨v, -, hq, hv⟩ := State.each_visit (L := [.quads]) (get := fun t => t.quad r) (s.clkGroup_nodup q) hm
      (fun v a => State.wakeEnds_kept (Kept.refl _ v) rfl) (fun v a => v.wakeEnds_quad_other) s
    rw [hv]
    exact State.wakeEnds_quad_same (by rw [hq, h])
  · exact State.each_quad_of_not_mem (fun v _ _ => v.wakeEnds_quad_other) hm s

/-! ## Demotion and entries (R49, R51 to R54) -/

/-- Settles O21: the pass over the group begins the entry of each of its quads. -/
theorem demotionBeginsTheEntry : Obligations.DemotionBeginsTheEntry := by
  unfold Obligations.DemotionBeginsTheEntry
  intro s q hw hi hd
  have hc : (s.wakeable q && (s.clkGroup q).all (fun r => s.quadIdle r) && decide ((s.quad q).st.num < s.demoteTo q)) = true := by
    simpa [hw, hd] using hi
  simp only [exec, execQuadDemote, s.when_true _ hc]
  refine ⟨_, rfl, fun r hm => ?_, fun r hm => State.each_quad_of_not_mem (fun v a r h => State.setQ_quad_other _ _ h) hm s,
    (Kept.each (Kept.refl _ _) (fun v a hv => State.setQ_kept hv rfl)).only⟩
  obtain ⟨v, hk, hq, hv⟩ := State.each_visit (L := [.quads]) (get := fun t => t.quad r) (s.clkGroup_nodup q) hm
    (fun v a => State.setQ_kept (Kept.refl _ v) rfl) (fun v a h => State.setQ_quad_other _ _ h) s
  rw [hv, State.setQ_quad_same, hq, hk.now_eq rfl]
  exact ⟨rfl, rfl, rfl⟩

theorem State.quadLose_quad (s : State) (q r : Quad) (t : QState) : (s.quadLose q t).quad r = s.quad r := by
  simp only [State.quad, (State.quadLose_kept (Kept.refl [.crest, .cornice] s) rfl).quads_eq rfl]

theorem State.clearQuadSram_cq (s : State) (q r : Quad) : (s.clearQuadSram q).cq r = s.cq r := rfl
theorem State.setEng_cq (s : State) (e r : Quad) f : (s.setEng e f).cq r = s.cq r := rfl
theorem State.setQ_cq (s : State) (q r : Quad) f : (s.setQ q f).cq r = s.cq r := rfl

theorem State.quadLose_cq_other (s : State) {q r : Quad} (h : q ≠ r) (t : QState) : (s.quadLose q t).cq r = s.cq r := by
  unfold State.quadLose
  dsimp only
  generalize hu : (if 2 ≤ t.num then _ else s) = u
  have huc : u.cq r = s.cq r := by
    rw [← hu]
    split
    · exact State.setCq_cq_other _ _ h
    · rfl
  split
  · rw [State.setEng_cq, State.setCq_cq_other _ _ h, State.clearQuadSram_cq, huc]
  · exact huc

/-- R215: from Nap on a quad loses its semaphores. -/
theorem State.quadLose_sems (s : State) (q : Quad) {t : QState} (h : 2 ≤ t.num) : ((s.quadLose q t).cq q).sems = rep 16 0 := by
  unfold State.quadLose
  simp only [if_pos h]
  split
  · rw [State.setEng_cq, State.setCq_cq_same, State.clearQuadSram_cq, State.setCq_cq_same]
  · rw [State.setCq_cq_same]

/-- The end of one quad's entry to a state. -/
def State.entryEnds (s : State) (q : Quad) (t : QState) : State :=
  (s.setQ q (fun k => { k with st := t, entering := none, wakeAfter := false, pll := k.pll && decide (t.num < 3) })).quadLose q t

theorem State.entryEnds_kept (s : State) (q : Quad) (t : QState) : Kept [.quads, .crest, .cornice] s (s.entryEnds q t) :=
  State.quadLose_kept (State.setQ_kept (Kept.refl _ _) rfl) rfl

theorem State.entryEnds_other (s : State) {q r : Quad} (h : q ≠ r) (t : QState) :
    (s.entryEnds q t).quad r = s.quad r ∧ (s.entryEnds q t).cq r = s.cq r := by
  rw [State.entryEnds, State.quadLose_quad, State.quadLose_cq_other _ h, State.setQ_quad_other _ _ h, State.setQ_cq]
  exact ⟨rfl, rfl⟩

theorem State.entryEnds_quad_same (s : State) (q : Quad) (t : QState) : (s.entryEnds q t).quad q =
    { s.quad q with st := t, entering := none, wakeAfter := false, pll := (s.quad q).pll && decide (t.num < 3) } := by
  rw [State.entryEnds, State.quadLose_quad, State.setQ_quad_same]

/-- The end of the entries in progress in the group of a quad, to that quad's target. -/
def State.entriesEnd (s : State) (q : Quad) : State :=
  s.each ((s.clkGroup q).filter (fun r => (s.quad r).entering.isSome)) (fun v r => v.entryEnds r (s.quad q).target)

/-- Each entering quad of the group is as the end of its own entry leaves it. -/
theorem State.entriesEnd_at {s : State} {q r : Quad} (hm : r ∈ s.clkGroup q) (he : (s.quad r).entering ≠ none) :
    (s.entriesEnd q).quad r = { s.quad r with
        st := (s.quad q).target, entering := none, wakeAfter := false
        pll := (s.quad r).pll && decide ((s.quad q).target.num < 3) }
      ∧ (2 ≤ (s.quad q).target.num → ((s.entriesEnd q).cq r).sems = rep 16 0) := by
  obtain ⟨v, -, hv, hvr⟩ := State.each_visit (L := [.quads, .crest, .cornice]) (get := fun w => (w.quad r, w.cq r))
    (l := (s.clkGroup q).filter (fun r => (s.quad r).entering.isSome)) ((s.clkGroup_nodup q).filter _)
    (List.mem_filter.mpr ⟨hm, Option.isSome_iff_ne_none.mpr he⟩) (fun v a => v.entryEnds_kept a (s.quad q).target)
    (fun v a h => Prod.ext_iff.mpr (v.entryEnds_other h _)) s
  obtain ⟨hq, hc⟩ := Prod.mk.inj hvr
  obtain ⟨hvq, -⟩ := Prod.mk.inj hv
  rw [State.entriesEnd]
  refine ⟨?_, fun hx => ?_⟩
  · rw [hq, State.entryEnds_quad_same, hvq]
  · rw [hc]
    exact State.quadLose_sems _ r hx

/-- QUAD_ENTRY_DONE: the entries of the group end, and a wake of the group follows or not. -/
theorem exec_quadEntryDone {s : State} {q : Quad} (h : (s.quad q).entering ≠ none) :
    ∃ t, exec (.quadEntryDone q) s = .next t ∧ (t = (s.entriesEnd q).wake q ∨ t = s.entriesEnd q) := by
  simp only [exec, execQuadEntryDone, s.when_true _ (Option.isSome_iff_ne_none.mpr h)]
  refine ⟨_, rfl, ?_⟩
  split
  · exact .inl rfl
  · exact .inr rfl

/-- Settles O22: the pass over the entering quads puts each in the state it entered, and a wake that follows leaves that state, the
PLL and the semaphores. -/
theorem entryDoneReachesTheState : Obligations.EntryDoneReachesTheState := by
  unfold Obligations.EntryDoneReachesTheState
  intro s q hq
  obtain ⟨t, ht, hu⟩ := exec_quadEntryDone hq
  refine ⟨t, ht, fun r hm he => ?_⟩
  obtain ⟨huq, huc⟩ := State.entriesEnd_at hm he
  generalize s.entriesEnd q = u at hu huq huc
  have hw : (u.quad r).WokenFrom (t.quad r) ∧ t.cq r = u.cq r := by
    rcases hu with rfl | rfl
    · refine ⟨u.wake_wokenFrom q r, ?_⟩
      simp only [State.cq, (State.wake_kept (Kept.refl [.quads] u) rfl).crest_eq rfl]
    · exact ⟨.refl _, rfl⟩
  obtain ⟨hw, hc⟩ := hw
  have hpll : (t.quad r).pll = ((s.quad r).pll && decide ((s.quad q).target.num < 3)) := by rw [hw.pll, huq]
  refine ⟨by rw [hw.st, huq], hw.entering (by rw [huq]), fun hx => ?_, fun hx => ?_, fun hx => by rw [hc, huc hx]⟩
  · rw [hpll, decide_eq_true hx, Bool.and_true]
  · rw [hpll, decide_eq_false (by omega), Bool.and_false]

/-! ## Quad PLLs (R49) -/

theorem State.log_quad (s : State) c b e d p st a x (r : Quad) : (s.log c b e d p st a x).quad r = s.quad r := by
  simp only [State.quad, (State.log_kept (Kept.refl [.pfMsix, .irqs, .ras] s) rfl).quads_eq rfl]
theorem State.log_lockLoss (s : State) c b e d p st a x : (s.log c b e d p st a x).lockLoss = s.lockLoss :=
  (State.log_kept (Kept.refl [.pfMsix, .irqs, .ras] s) rfl).lockLoss_eq rfl
theorem State.setCq_quad (s : State) (q r : Quad) f : (s.setCq q f).quad r = s.quad r := rfl

theorem State.countLock_lockLoss (s : State) : s.countLock.lockLoss = min (s.lockLoss + 1) 255 := by
  simp only [State.countLock, satAdd]
  split <;> omega

/-- R49: a quad PLL loses lock; a stop of the quad's entry follows where one runs. -/
theorem exec_quadPllLockLost {s : State} {q : Quad} (hp : (s.quad q).pll = true ∨ (s.quad q).waking ≠ none)
    (hr : (s.quad q).relocks = none) (hf : (s.quad q).failed = false) :
    ∃ t, exec (.quadPllLockLost q) s = .next t ∧ (t.quad q).pll = false ∧ (t.quad q).relocks ≠ none ∧ (t.cq q).k = 0
      ∧ t.lockLoss = min (s.lockLoss + 1) 255 ∧ ∀ r, r ≠ q → t.quad r = s.quad r := by
  have hc : (((s.quad q).pll || (s.quad q).waking.isSome) && (s.quad q).relocks.isNone && ! (s.quad q).failed) = true := by
    rcases hp with h | h
    · simp [h, hr, hf]
    · simp [Option.isSome_iff_ne_none.mpr h, hr, hf]
  simp only [exec, execQuadPllLockLost, s.when_true _ hc]
  generalize hv : State.log _ 0 0x01 1 _ = v
  have hvq : ∀ r, v.quad r = s.quad r := fun r => hv ▸ State.log_quad ..
  have hvl : v.lockLoss = min (s.lockLoss + 1) 255 := hv ▸ (State.log_lockLoss ..).trans s.countLock_lockLoss
  generalize hw : State.setCq _ q (fun c => { c with k := 0 }) = w
  obtain ⟨hwpll, hwrel⟩ : (w.quad q).pll = false ∧ (w.quad q).relocks ≠ none := by
    rw [← hw, State.setCq_quad, State.setQ_quad_same]
    exact ⟨rfl, Option.some_ne_none _⟩
  have hwr : ∀ r, r ≠ q → w.quad r = s.quad r := fun r h => by
    rw [← hw, State.setCq_quad, State.setQ_quad_other _ _ h.symm, hvq]
  have hwc : (w.cq q).k = 0 := by rw [← hw, State.setCq_cq_same]
  have hwl : w.lockLoss = min (s.lockLoss + 1) 255 := by rw [← hvl, ← hw]; rfl
  refine ⟨_, rfl, ?_⟩
  split
  · exact ⟨hwpll, hwrel, hwc, hwl, hwr⟩
  · exact ⟨hwpll, hwrel, hwc, hwl, hwr⟩

/-- R49: the third failed relock retires the quad in Retain; the stops of its items touch no quad. -/
theorem State.retireQuad_quad (s : State) (q : Quad) :
    ((s.retireQuad q).quad q).failed = true ∧ ((s.retireQuad q).quad q).st = .retain
      ∧ ((s.retireQuad q).quad q).relocks = none ∧ ((s.retireQuad q).quad q).pll = false := by
  unfold State.retireQuad
  dsimp only
  generalize hu : s.setQ q _ = u
  have hq : (u.quad q).failed = true ∧ (u.quad q).st = .retain ∧ (u.quad q).relocks = none ∧ (u.quad q).pll = false := by
    rw [← hu, State.setQ_quad_same]
    exact ⟨rfl, rfl, rfl, rfl⟩
  have hk : ∀ l : List Item, Kept [.pfMsix, .irqs, .ras, .items] u ((u.log 2 0x01 2 (detailOf q.val 0)).each l (fun s i =>
      if i.runQ = 0 then s.finish i.id (stTimeout 1) else s.askStop i.id (stTimeout 1))) := fun l =>
    Kept.each (State.log_kept (Kept.refl _ _) rfl) (fun v i hv => Kept.ite (fun _ => State.finish_kept hv rfl)
      (fun _ => State.askStop_kept hv rfl))
  simp only [State.quad, (hk _).quads_eq rfl]
  exact hq

/-- Settles O23: the loss of lock by its rule above, the end of an attempt by the branches of its meaning. -/
theorem quadPllRelock : Obligations.QuadPllRelock := by
  unfold Obligations.QuadPllRelock
  refine ⟨fun s q => exec_quadPllLockLost, fun s q n h => ?_, fun s q n h hn => ?_, fun s q n h hn => ?_⟩ <;>
    simp only [exec, execQuadPllRelockDone, h]
  · refine ⟨_, rfl, ?_⟩
    simp only [if_true, State.setQ_quad_same]
    exact ⟨trivial, trivial, trivial, fun r hr => State.setQ_quad_other _ _ hr.symm, (State.setQ_kept (Kept.refl _ _) rfl).only⟩
  · have h3 : n + 1 < 3 := by omega
    refine ⟨_, rfl, ?_⟩
    simp only [Bool.false_eq_true, if_false, if_pos h3, State.setQ_quad_same]
    exact ⟨trivial, trivial⟩
  · have h3 : ¬ n + 1 < 3 := by omega
    refine ⟨_, rfl, ?_⟩
    simp only [Bool.false_eq_true, if_false, if_neg h3]
    exact s.retireQuad_quad q

end Sys2Proof.Machine

/-! # Starting cold and warm

O17, O18 and O35: the steps of a start and what ends it, the limits of its optics step, the restart that the host asks for, and the
flash requests of the mailbox. A command of the start is taken apart at its guard (`State.when_true`); what it then calls has its rule
below. -/

namespace Sys2Proof.Machine

/-! ## A start -/

theorem State.past_of_le {s : State} {t d : Nat} (h : t + d ≤ s.now) : s.past t d = true := decide_eq_true h

/-- R64: step 6 waits while the start is not in the phase of bring-up. -/
theorem State.stepsCheck_of_phase {s : State} (h : s.start.phase ≠ .bringUp) : s.stepsCheck = s := by
  simp [State.stepsCheck, h]

/-- R64: step 6 waits for step 4a. -/
theorem State.stepsCheck_of_dram {s : State} (h : tget s.start.done 1 = false) : s.stepsCheck = s := by
  simp [State.stepsCheck, h]

/-- R415: the steps of a stop leave the start registers to its beginning. -/
theorem State.stopSteps_start (s : State) (c : StopCause) : (s.stopSteps c).start = s.start :=
  (State.stopSteps_kept (Kept.refl (slicesBut [.start]) s) rfl).start_eq rfl

theorem State.orderlyStop_start {s : State} (h : s.live = true) (c : StopCause) :
    (s.orderlyStop c).start = { s.start with stop := some c, phase := c.phase, time := (s.stopSteps c).time } := by
  rw [State.orderlyStop, if_pos h, ← s.stopSteps_start c]
  rfl

/-- R74: a start fails in a running device: its cause is recorded and the orderly stop of a failed start begins. -/
theorem State.failStart_start {s : State} (h : s.live = true) (c : Nat) :
    (s.failStart c).start.cause = c ∧ (s.failStart c).start.phase = .failed ∧ (s.failStart c).start.stop = some .failedStart := by
  have hl : (s.setCause c).live = true := h
  rw [State.failStart, State.orderlyStop_start hl]
  exact ⟨rfl, rfl, rfl⟩

/-- R61, R62, R64 step 1, R73, R438: a start that is due begins. -/
theorem exec_startBegin {s : State} (hdue : s.start.due = true) (hstop : s.start.stop = none) (hpor : s.col.por = false) :
    ∃ t, exec .startBegin s = .next t ∧ t.start.kind = s.kindOf ∧ t.start.hostIf = true ∧ t.start.sysLock = true ∧ t.start.due = false
      ∧ t.start.phase = (if s.kindOf = 3 then .safe else .firmware) ∧ t.col.attempts.val = min 3 (s.col.attempts.val + 1)
      ∧ (s.kindOf = 1 → t.ras.unread = []) := by
  have hc : (s.start.due && s.start.stop.isNone && ! s.col.por) = true := by simp [hdue, hstop, hpor]
  have ha : (if h : s.col.attempts.val < 3 then (⟨s.col.attempts.val + 1, by omega⟩ : Fin 4) else s.col.attempts).val
      = min 3 (s.col.attempts.val + 1) := by
    split
    · exact (Nat.min_eq_right ‹_›).symm
    · omega
  simp only [exec, execStartBegin, s.when_true _ hc]
  by_cases h1 : s.kindOf = 1
  · simp only [h1, if_true]
    exact ⟨_, rfl, rfl, rfl, rfl, rfl, rfl, ha, fun _ => rfl⟩
  · simp only [if_neg h1]
    by_cases h2 : s.kindOf = 2
    · simp only [h2, if_true]
      exact ⟨_, rfl, rfl, rfl, rfl, rfl, rfl, ha, nofun⟩
    · simp only [if_neg h2]
      exact ⟨_, rfl, rfl, rfl, rfl, rfl, rfl, ha, fun h => absurd h h1⟩

/-- R64, R68: the firmware step of a start in its phase. -/
theorem exec_startStepDone_firmware {s : State} (hp : s.start.phase = .firmware) (hstop : s.start.stop = none) :
    exec (.startStepDone .firmware) s = .next s.stepFirmware.stepsCheck := by
  have hp' : (s.start.phase == .firmware) = true := beq_iff_eq.mpr hp
  simp only [exec, execStartStepDone, s.when_true _ (Option.isNone_iff_eq_none.mpr hstop), s.when_true _ hp']

/-- R68: no slot that passes its header check verifies. -/
theorem State.stepFirmware_of_none {s : State} (h : ∀ e, e ∈ s.fwSlots → s.fwVerify e.1 = false) :
    s.stepFirmware = s.failStart 1 := by
  have hf : s.fwSlots.find? (fun e => s.fwVerify e.1) = none := List.find?_eq_none.mpr (fun e he => by simp [h e he])
  rw [State.stepFirmware, hf]

/-- R68: the preferred slot verifies in a start that is not warm. -/
theorem State.stepFirmware_of_head {s : State} {e : Nat × Nat} (hk : s.start.kind ≠ 2) (hh : s.fwSlots.head? = some e)
    (hv : s.fwVerify e.1 = true) :
    s.stepFirmware = ({ s with start := { s.start with fwFallback := false } } : State).setPhase .cairn := by
  have hf : s.fwSlots.find? (fun e => s.fwVerify e.1) = some e := by
    obtain ⟨r, hr⟩ := List.head?_eq_some_iff.mp hh
    simp only [hr, List.find?_cons, hv]
  rw [State.stepFirmware, hf]
  dsimp only
  rw [if_neg (fun h => hk (Fin.ext h.1)), State.notSkipped, if_neg hk, hh, decide_eq_false (not_not_intro rfl)]

/-- R68, R74: a start without firmware that verifies fails with cause 0x01. -/
theorem exec_startStepDone_firmware_fails {s : State} (hp : s.start.phase = .firmware) (hl : s.live = true)
    (h : ∀ e, e ∈ s.fwSlots → s.fwVerify e.1 = false) :
    ∃ t, exec (.startStepDone .firmware) s = .next t ∧ t.start.cause = 1 ∧ t.start.phase = .failed
      ∧ t.start.stop = some .failedStart := by
  obtain ⟨-, -, hstop, -⟩ := s.live_iff.mp hl
  obtain ⟨hcause, hphase, hs⟩ := State.failStart_start hl 1
  rw [exec_startStepDone_firmware hp hstop, State.stepFirmware_of_none h, State.stepsCheck_of_phase (by simp [hphase])]
  exact ⟨_, rfl, hcause, hphase, hs⟩

/-- R68: the preferred firmware verifies, and the Cairn sweep follows. -/
theorem exec_startStepDone_firmware_loads {s : State} {e : Nat × Nat} (hp : s.start.phase = .firmware)
    (hstop : s.start.stop = none) (hk : s.start.kind ≠ 2) (hh : s.fwSlots.head? = some e) (hv : s.fwVerify e.1 = true) :
    ∃ t, exec (.startStepDone .firmware) s = .next t ∧ t.start.phase = .cairn ∧ t.start.fwFallback = false := by
  rw [exec_startStepDone_firmware hp hstop, State.stepFirmware_of_head hk hh hv,
    State.stepsCheck_of_phase (show Phase.cairn ≠ .bringUp from nofun)]
  exact ⟨_, rfl, rfl, rfl⟩

/-- R64, R72, log 60: a warm start waits for no port, and is ready once its commit is done. -/
theorem exec_startReady_of_warm {s : State} (hp : s.start.phase = .commit) (hstop : s.start.stop = none) (hk : s.start.kind = 2) :
    ∃ t, exec .startReady s = .next t ∧ t.start.phase = .ready ∧ t.col.attempts = 0 ∧ t.ret.sealed = s.ret.copy.isSome
      ∧ t.col.readySerial = s.laser.serial := by
  have hw : s.portsWaited = true := by simp [State.portsWaited, hk]
  simp only [exec, execStartReady, s.when_true _ (Option.isNone_iff_eq_none.mpr hstop),
    State.stepsCheck_of_phase (s := s) (by simp [hp]), if_pos (And.intro hp hw)]
  exact ⟨_, rfl, rfl, rfl, rfl, rfl⟩

/-- R74, R75: the watchdog of a start. -/
theorem exec_startWatchdogExpiry {s : State} (hs : s.starting = true) (hl : s.live = true) (ht : s.start.begun + sCyc 10 ≤ s.now) :
    ∃ t, exec .startWatchdogExpiry s = .next t ∧ t.start.cause = 4 ∧ t.start.phase = .failed
      ∧ t.start.stop = some .failedStart := by
  have hc : (s.starting && s.past s.start.begun (sCyc 10)) = true := by rw [hs, State.past_of_le ht]; rfl
  simp only [exec, execStartWatchdogExpiry, s.when_true _ hc]
  exact ⟨_, rfl, State.failStart_start hl 4⟩

/-- R74: a retry is due 100 ms after the stop of a failed start. -/
theorem exec_startRetry {s : State} {a : Nat} (hf : s.start.failedAt = some a) (ha : a + msCyc 100 ≤ s.now)
    (hr : s.start.resetHeld = false) (hstop : s.start.stop = none) :
    ∃ t, exec .startRetry s = .next t ∧ t.start.due = true ∧ t.start.phase = .rom ∧ t.start.reqKind = 0 ∧ t.start.failedAt = none
      ∧ t.start.cause = s.start.cause := by
  have hc : (s.past a (msCyc 100) && ! s.start.resetHeld && s.start.stop.isNone) = true := by
    simp [State.past_of_le ha, hr, hstop]
  simp only [exec, execStartRetry, hf, s.when_true _ hc]
  exact ⟨_, rfl, rfl, rfl, rfl, rfl, rfl⟩

/-- Settles O17: a clause for each command, by its rule above. -/
theorem startSequence : Obligations.StartSequence := by
  unfold Obligations.StartSequence
  exact ⟨fun _ => exec_startBegin, fun _ => exec_startStepDone_firmware_fails, fun _ _ => exec_startStepDone_firmware_loads,
    fun _ => exec_startReady_of_warm, fun _ => exec_startWatchdogExpiry, fun _ _ => exec_startRetry⟩

/-! ## The limits of the optics step -/

/-- R66: 8 s after the start began the optics step ends, full calibration and warm-up with it. -/
theorem exec_opticsDeadline {s : State} (hp : s.start.phase = .bringUp) (ho : s.start.opticsDone = false)
    (ht : s.start.begun + sCyc 8 ≤ s.now) (hd : tget s.start.done 1 = false) :
    ∃ t, exec .opticsDeadline s = .next t ∧ t.start.optDown = true ∧ t.start.opticsDone = true ∧ t.cal.full = none
      ∧ t.laser.warmAt = none := by
  have hc : (s.start.phase == .bringUp && ! s.start.opticsDone && s.past s.start.begun (sCyc 8)) = true := by
    simp [hp, ho, State.past_of_le ht]
  simp only [exec, execOpticsDeadline, s.when_true _ hc]
  generalize hu : s.each _ _ = u
  have hk : Kept [.ports] s u := hu ▸ Kept.each (Kept.refl _ _) (fun v p hv => State.setPort_kept hv rfl)
  generalize hw : State.lasersIdle _ = w
  have hkw : Kept [.laser] _ w := hw ▸ State.lasersIdle_kept (Kept.refl _ _) rfl
  have hdark : w.laser.warmAt = none := by rw [← hw]; rfl
  rw [State.stepsCheck_of_dram (by rw [hkw.start_eq rfl, hk.start_eq rfl]; exact hd)]
  exact ⟨_, rfl, rfl, rfl, by rw [hkw.cal_eq rfl], hdark⟩

/-- R375: a warm-up of an accepted cartridge under policy 2 begins now: what it does to the lasers one by one leaves the policy and
the time. -/
theorem State.warmUp_of_gateOpen {s : State} (hg : s.gateOpen = true) (ha : s.laser.auth = 1) (hp : s.laser.policy = 2) :
    s.warmUp.laser.warmAt = some s.now ∧ s.warmUp.laser.settled = false := by
  have hc : (s.gateOpen && s.laser.auth == 1 && decide (0 < s.laser.policy)) = true := by simp [hg, ha, hp]
  unfold State.warmUp
  rw [if_pos hc]
  generalize hu : s.each allLasers _ = u
  have hpol : u.laser.policy = 2 ∧ u.now = s.now := by
    rw [← hu]
    refine State.each_inv (P := fun t => t.laser.policy = 2 ∧ t.now = s.now) ⟨hp, rfl⟩ (fun v n _ hv => ?_)
    split
    · exact hv
    · exact hv
  obtain ⟨hpol, hnow⟩ := hpol
  rw [if_pos hpol, ← hnow]
  exact ⟨rfl, rfl⟩

/-- R66: the optics that a start left out are taken up again, with the warm-up of lasers that are not all in RUN. -/
theorem exec_opticsResume {s : State} (c : SeatInput) (hr : s.isReady = true) (hstop : s.start.stop = none)
    (ho : s.start.optDown = true) (hg : s.gateOpen = true) (hw : s.laser.warmAt = none) (hf : s.cal.full = none)
    (ha : s.laser.auth = 1) (hn : s.allRun = false) (hp : s.laser.policy = 2) :
    ∃ t, exec (.opticsResume c) s = .next t ∧ t.laser.warmAt = some s.now ∧ t.laser.settled = false := by
  have hc : (s.isReady && s.start.stop.isNone && s.start.optDown && s.gateOpen && s.laser.warmAt.isNone && s.cal.full.isNone)
      = true := by simp [hr, hstop, ho, hg, hw, hf]
  simp only [exec, execOpticsResume, s.when_true _ hc, ha, if_true, ne_eq, not_true_eq_false, if_false, hn, Bool.not_false]
  exact ⟨_, rfl, State.warmUp_of_gateOpen hg ha hp⟩

/-! ## MBX_RESTART -/

/-- R63: a write with the key and a KIND that the phase takes begins the orderly stop of a restart. -/
theorem State.restartWrite_accepted {s : State} {v : Nat} {k : Fin 4} (hl : s.live = true) (hkey : fld v 31 16 = 0x5A17)
    (hk : fld v 1 0 = k) (hphase : s.isReady = true ∧ (k = 1 ∨ k = 2) ∨ s.start.phase = .safe ∧ k = 3) :
    (s.restartWrite v).start.stop = some (.restart k) ∧ (s.restartWrite v).start.phase = .stopping := by
  have hfin : (⟨fld v 1 0 % 4, Nat.mod_lt _ (by decide)⟩ : Fin 4) = k := Fin.ext (by simp only [hk]; omega)
  have hr : s.restartWrite v = s.orderlyStop (.restart k) := by
    simp only [State.restartWrite, hfin]
    refine if_pos ?_
    simpa [hkey, hl] using hphase
  obtain ⟨hs, hp, -⟩ := State.orderlyStop_of_live hl (.restart k)
  rw [hr]
  exact ⟨hs, hp⟩

/-- R63: a write without the key is refused. -/
theorem State.restartWrite_refused {s : State} {v : Nat} (hkey : fld v 31 16 ≠ 0x5A17) :
    s.restartWrite v = { s with start := { s.start with refused := true } } := by
  simp [State.restartWrite, hkey]

/-- R63, R65: once the host interface is enabled, each of the three commands is a write of MBX_RESTART. -/
theorem exec_restart_of_hostIf {s : State} (h : s.start.hostIf = true) (v : W32) :
    exec (.restartWarm v) s = .next (s.restartWrite v.toNat) ∧ exec (.restartCold v) s = .next (s.restartWrite v.toNat)
      ∧ exec (.clearAndRestart v) s = .next (s.restartWrite v.toNat) := by
  have e := congrArg (Host.Outcome.next (φ := Fault) (ρ := Refusal)) (s.when_true (fun s => s.restartWrite v.toNat) h)
  exact ⟨e, e, e⟩

/-- Settles O18: the optics by their rules above, and the writes of MBX_RESTART by what `State.restartWrite` answers to each KIND. -/
theorem opticsLimitsAndRestart : Obligations.OpticsLimitsAndRestart := by
  unfold Obligations.OpticsLimitsAndRestart
  refine ⟨fun _ => exec_opticsDeadline, fun _ => exec_opticsResume, fun s v hh hl hr hkey hk => ?_,
    fun s v hh hl hr hkey hk => ?_, fun s v hh hl hp hkey hk => ?_, fun s v hh hkey => ?_⟩
  · obtain ⟨hwarm, -⟩ := exec_restart_of_hostIf hh v
    exact ⟨_, hwarm, State.restartWrite_accepted hl hkey (k := 1) hk (.inl ⟨hr, .inl rfl⟩)⟩
  · obtain ⟨-, hcold, -⟩ := exec_restart_of_hostIf hh v
    exact ⟨_, hcold, State.restartWrite_accepted hl hkey (k := 2) hk (.inl ⟨hr, .inr rfl⟩)⟩
  · obtain ⟨-, -, hclear⟩ := exec_restart_of_hostIf hh v
    exact ⟨_, hclear, State.restartWrite_accepted hl hkey (k := 3) hk (.inr ⟨hp, rfl⟩)⟩
  · obtain ⟨hwarm, -⟩ := exec_restart_of_hostIf hh v
    rw [State.restartWrite_refused hkey] at hwarm
    exact ⟨_, hwarm, rfl, rfl, (Kept.set_start (Kept.refl [.start] s) rfl).only⟩

end Sys2Proof.Machine

namespace Sys2Proof

/-! ## Reads of bytes -/

theorem spRead_length (m : Sparse Byte) (a n : Nat) : (spRead m a n).length = n := by
  induction n generalizing a with
  | zero => rfl
  | succ n ih => rw [spRead, List.length_cons, ih]

theorem spRead_getElem? (m : Sparse Byte) (a n i : Nat) :
    (spRead m a n)[i]? = if i < n then some (spGet 0 m (a + i)) else none := by
  induction n generalizing a i with
  | zero => rfl
  | succ n ih =>
    cases i with
    | zero => simp [spRead]
    | succ i =>
      rw [spRead, List.getElem?_cons_succ, ih]
      simp only [Nat.succ_lt_succ_iff, show a + 1 + i = a + (i + 1) by omega]

/-- Bytes read inside a write are the bytes written there. -/
theorem spRead_spWrite_inside {m : Sparse Byte} {a o n : Nat} {bs : List Byte} (h : spWf 0 m = true) (hn : o + n ≤ bs.length) :
    spRead (spWrite m a bs) (a + o) n = (bs.drop o).take n := by
  refine List.ext_getElem? (fun i => ?_)
  rw [spRead_getElem?, List.getElem?_take, List.getElem?_drop]
  split
  · have hi : a ≤ a + o + i ∧ a + o + i < a + bs.length := by omega
    have e : a + o + i - a = o + i := by omega
    rw [spGet_spWrite h, dif_pos hi, List.getElem?_eq_getElem (by omega)]
    simp only [e]
  · rfl

/-- Bytes read outside a write are what they were. -/
theorem spRead_spWrite_outside {m : Sparse Byte} {a b n : Nat} {bs : List Byte} (h : spWf 0 m = true)
    (hn : b + n ≤ a ∨ a + bs.length ≤ b) : spRead (spWrite m a bs) b n = spRead m b n := by
  refine List.ext_getElem? (fun i => ?_)
  rw [spRead_getElem?, spRead_getElem?]
  split
  · rw [spGet_spWrite_out h (by omega)]
  · rfl

@[simp] theorem leBytes_length (n v : Nat) : (leBytes n v).length = n := by
  induction n generalizing v with
  | zero => rfl
  | succ n ih => rw [leBytes, List.length_cons, ih]

@[simp] theorem sliceB_length (bs : List Byte) (o n : Nat) : (sliceB bs o n).length = n := by
  simp only [sliceB, List.length_append, List.length_replicate, List.length_take]
  omega

theorem Machine.spReadD_length (d : Byte) (m : Sparse Byte) (a n : Nat) : (Machine.spReadD d m a n).length = n := by
  induction n generalizing a with
  | zero => rfl
  | succ n ih => rw [Machine.spReadD, List.length_cons, ih]

end Sys2Proof

namespace Sys2Proof.Machine

/-! ## The bytes of a reply (R162, R163) -/

/-- A byte string with a result field (offset, bytes) written into it. -/
def putField (b : List Byte) (f : Nat × List Byte) : List Byte := b.take f.1 ++ f.2 ++ b.drop (f.1 + f.2.length)

/-- STATUS, TAG, OPCODE and HINT of a reply. -/
def replyHead (req : List Byte) (st : Status) (hint : Nat) : List Byte :=
  leBytes 2 st.num ++ sliceB req 2 2 ++ sliceB req 0 2 ++ leBytes 2 (if st.code = .refused then hint else 0)

/-- A reply before its result fields and its phase. -/
def replyBlank (req : List Byte) (st : Status) (hint : Nat) : List Byte := replyHead req st hint ++ List.replicate 55 0

/-- The 64 bytes of a reply: its head, the result fields, and the phase in the last byte. -/
def replyBytes (req : List Byte) (st : Status) (res : List (Nat × List Byte)) (hint : Nat) (phase : Bool) : List Byte :=
  (res.foldl putField (replyBlank req st hint)).take 63 ++ leBytes 1 (bnat phase)

/-- Two result fields share no byte. -/
def FieldsApart (f g : Nat × List Byte) : Prop := f.1 + f.2.length ≤ g.1 ∨ g.1 + g.2.length ≤ f.1

/-- Result fields lie between the head of a reply and its last byte, and share no byte. -/
structure FieldsFit (res : List (Nat × List Byte)) : Prop where
  inside : ∀ f, f ∈ res → 8 ≤ f.1 ∧ f.1 + f.2.length ≤ 63
  apart : res.Pairwise FieldsApart

theorem FieldsFit.nil : FieldsFit [] := ⟨nofun, .nil⟩

theorem FieldsFit.single {f : Nat × List Byte} (h : 8 ≤ f.1 ∧ f.1 + f.2.length ≤ 63) : FieldsFit [f] :=
  ⟨fun _ hg => List.mem_singleton.mp hg ▸ h, List.pairwise_singleton _ _⟩

theorem putField_length {b : List Byte} {f : Nat × List Byte} (h : f.1 + f.2.length ≤ b.length) :
    (putField b f).length = b.length := by
  simp only [putField, List.length_append, List.length_take, List.length_drop]
  omega

theorem putField_getElem? {b : List Byte} {f : Nat × List Byte} (h : f.1 + f.2.length ≤ b.length) (i : Nat) :
    (putField b f)[i]? = if f.1 ≤ i ∧ i < f.1 + f.2.length then f.2[i - f.1]? else b[i]? := by
  have hl : (b.take f.1).length = f.1 := List.length_take_of_le (by omega)
  rw [putField, List.append_assoc]
  by_cases h1 : i < f.1
  · rw [List.getElem?_append_left (by omega), List.getElem?_take_of_lt h1, if_neg (by omega)]
  · rw [List.getElem?_append_right (by omega), hl]
    by_cases h2 : i < f.1 + f.2.length
    · rw [List.getElem?_append_left (by omega), if_pos ⟨by omega, h2⟩]
    · rw [List.getElem?_append_right (by omega), List.getElem?_drop, if_neg (by omega)]
      exact congrArg (b[·]?) (by omega)

theorem foldl_putField_length {res : List (Nat × List Byte)} {b : List Byte} (h : ∀ f, f ∈ res → f.1 + f.2.length ≤ b.length) :
    (res.foldl putField b).length = b.length := by
  induction res generalizing b with
  | nil => rfl
  | cons f r ih =>
    have hf := putField_length (h f List.mem_cons_self)
    rw [List.foldl_cons, ih (fun g hg => by rw [hf]; exact h g (List.mem_cons_of_mem _ hg)), hf]

/-- A byte in no field stays. -/
theorem foldl_putField_getElem?_outside {res : List (Nat × List Byte)} {b : List Byte} {i : Nat}
    (h : ∀ f, f ∈ res → f.1 + f.2.length ≤ b.length) (hi : ∀ f, f ∈ res → i < f.1 ∨ f.1 + f.2.length ≤ i) :
    (res.foldl putField b)[i]? = b[i]? := by
  induction res generalizing b with
  | nil => rfl
  | cons f r ih =>
    have hf := h f List.mem_cons_self
    have hif := hi f List.mem_cons_self
    rw [List.foldl_cons, ih (fun g hg => by rw [putField_length hf]; exact h g (List.mem_cons_of_mem _ hg))
      (fun g hg => hi g (List.mem_cons_of_mem _ hg)), putField_getElem? hf, if_neg (by omega)]

/-- A byte of a field is what the field writes there, since no later field reaches it. -/
theorem foldl_putField_getElem?_inside {res : List (Nat × List Byte)} {b : List Byte} {f : Nat × List Byte} {i : Nat}
    (h : ∀ f, f ∈ res → f.1 + f.2.length ≤ b.length) (ha : res.Pairwise FieldsApart) (hf : f ∈ res) (hi : i < f.2.length) :
    (res.foldl putField b)[f.1 + i]? = f.2[i]? := by
  induction res generalizing b with
  | nil => exact absurd hf List.not_mem_nil
  | cons g r ih =>
    obtain ⟨hg, hr⟩ := List.pairwise_cons.mp ha
    have hb := h g List.mem_cons_self
    have hrest : ∀ x, x ∈ r → x.1 + x.2.length ≤ (putField b g).length := fun x hx => by
      rw [putField_length hb]
      exact h x (List.mem_cons_of_mem _ hx)
    rw [List.foldl_cons]
    rcases List.mem_cons.mp hf with rfl | hf
    · rw [foldl_putField_getElem?_outside hrest (fun x hx => by have := hg x hx; unfold FieldsApart at this; omega),
        putField_getElem? hb, if_pos (by omega), Nat.add_sub_cancel_left]
    · exact ih hrest hr hf

section
variable {req : List Byte} {st : Status} {res : List (Nat × List Byte)} {hint : Nat} {phase : Bool}

theorem replyHead_length : (replyHead req st hint).length = 8 := by
  simp [replyHead]

theorem replyBlank_length : (replyBlank req st hint).length = 63 := by
  rw [replyBlank, List.length_append, replyHead_length, List.length_replicate]

theorem FieldsFit.le_blank (h : FieldsFit res) {f : Nat × List Byte} (hf : f ∈ res) :
    f.1 + f.2.length ≤ (replyBlank req st hint).length := by
  obtain ⟨-, hend⟩ := h.inside f hf
  rwa [replyBlank_length]

theorem FieldsFit.filled_length (h : FieldsFit res) : (res.foldl putField (replyBlank req st hint)).length = 63 := by
  rw [foldl_putField_length (fun _ => h.le_blank), replyBlank_length]

theorem replyBytes_length (h : FieldsFit res) : (replyBytes req st res hint phase).length = 64 := by
  rw [replyBytes, List.length_append, List.length_take, h.filled_length, leBytes_length]
  rfl

/-- The first 63 bytes of a reply. -/
theorem replyBytes_getElem? (h : FieldsFit res) {i : Nat} (hi : i < 63) :
    (replyBytes req st res hint phase)[i]? = (res.foldl putField (replyBlank req st hint))[i]? := by
  rw [replyBytes, List.getElem?_append_left (by rw [List.length_take, h.filled_length]; exact hi), List.getElem?_take_of_lt hi]

/-- A reply begins with STATUS, TAG and OPCODE. -/
theorem replyBytes_head (h : FieldsFit res) :
    (replyBytes req st res hint phase).take 6 = leBytes 2 st.num ++ sliceB req 2 2 ++ sliceB req 0 2 := by
  have hlen : (leBytes 2 st.num ++ sliceB req 2 2 ++ sliceB req 0 2).length = 6 := by simp
  refine List.ext_getElem? (fun i => ?_)
  rw [List.getElem?_take]
  split
  · have hout : ∀ f, f ∈ res → i < f.1 ∨ f.1 + f.2.length ≤ i := fun f hf => by
      obtain ⟨hstart, -⟩ := h.inside f hf
      omega
    rw [replyBytes_getElem? h (by omega), foldl_putField_getElem?_outside (fun _ => h.le_blank) hout, replyBlank, replyHead,
      List.append_assoc _ (leBytes 2 _), List.getElem?_append_left (by omega)]
  · rw [List.getElem?_eq_none (by omega)]

/-- A reply holds each of its result fields. -/
theorem replyBytes_field (h : FieldsFit res) {f : Nat × List Byte} (hf : f ∈ res) :
    ((replyBytes req st res hint phase).drop f.1).take f.2.length = f.2 := by
  obtain ⟨-, hend⟩ := h.inside f hf
  refine List.ext_getElem? (fun i => ?_)
  rw [List.getElem?_take, List.getElem?_drop]
  split
  · rw [replyBytes_getElem? h (by omega), foldl_putField_getElem?_inside (fun _ => h.le_blank) h.apart hf ‹_›]
  · rw [List.getElem?_eq_none (by omega)]

end

/-! ## The answer to the only request that waits -/

theorem State.mbxReply_hostMem (s : State) (req : List Byte) (st : Status) (res : List (Nat × List Byte)) (hint : Nat) :
    (s.mbxReply req st res hint).hostMem
      = spWrite s.hostMem (s.mbx.rspBase + 64 * s.mbx.rspTail) (replyBytes req st res hint s.mbx.phase) :=
  (State.signalPf_kept (Kept.refl [.pfMsix, .irqs] _) rfl).hostMem_eq rfl

theorem State.mbxReply_mbx (s : State) (req : List Byte) (st : Status) (res : List (Nat × List Byte)) (hint : Nat) :
    (s.mbxReply req st res hint).mbx = { s.mbx with
      rspTail := (s.mbx.rspTail + 1) % s.mbxSize
      phase := if (s.mbx.rspTail + 1) % s.mbxSize = 0 then ! s.mbx.phase else s.mbx.phase } :=
  (State.signalPf_kept (Kept.refl [.pfMsix, .irqs] _) rfl).mbx_eq rfl

theorem State.mbxHead_of_empty {s : State} (h : s.mbx.reqHead = s.mbx.reqTail) : s.mbxHead = none := by
  simp [State.mbxHead, h]

theorem State.mbxUnknown_of_empty {s : State} (h : s.mbx.reqHead = s.mbx.reqTail) (n : Nat) : s.mbxUnknown n = s := by
  cases n with
  | zero => rfl
  | succ n => rw [State.mbxUnknown, State.mbxHead_of_empty h]

theorem Asked.onRequest {s : State} {op : Nat} {req : List Byte} (h : Asked s op req) (f : List Byte → State) :
    s.onRequest op f = f req := by
  simp only [State.onRequest, h.head, h.code, if_true]

theorem Asked.idle {s : State} {op : Nat} {req : List Byte} (h : Asked s op req) : s.mbx.busy = none := by
  have hh := h.head
  unfold State.mbxHead at hh
  split at hh
  next hg =>
    simp only [Bool.and_eq_true, Option.isNone_iff_eq_none] at hg
    obtain ⟨⟨⟨⟨⟨-, hb⟩, -⟩, -⟩, -⟩, -⟩ := hg
    exact hb
  next => cases hh

/-- R162: after the answer to the only request that waits, the mailbox takes none. `u` is the state that the request's own effect
leaves. -/
theorem Asked.mbxAnswer_eq {s u : State} {op : Nat} {req : List Byte} (h : Asked s op req) (hm : u.mbx = s.mbx) (st : Status)
    (res : List (Nat × List Byte)) (hint : Nat) : u.mbxAnswer req st res hint = u.mbxTake.mbxReply req st res hint := by
  refine State.mbxUnknown_of_empty ?_ 256
  rw [State.mbxReply_mbx]
  show (u.mbx.reqHead + 1) % 2 ^ u.mbx.log2 = u.mbx.reqTail
  rw [hm]
  exact h.last.symm

theorem Asked.mbxAnswer_hostMem {s u : State} {op : Nat} {req : List Byte} (h : Asked s op req) (hm : u.mbx = s.mbx) (st : Status)
    (res : List (Nat × List Byte)) (hint : Nat) :
    (u.mbxAnswer req st res hint).hostMem
      = spWrite u.hostMem (s.mbx.rspBase + 64 * s.mbx.rspTail) (replyBytes req st res hint s.mbx.phase) := by
  rw [h.mbxAnswer_eq hm, State.mbxReply_hostMem, ← hm]
  rfl

/-- R162, R163: the answer to the only request that waits is its reply. -/
theorem Asked.answered {s u : State} {op : Nat} {req : List Byte} (h : Asked s op req) (hc : Canon u) (hm : u.mbx = s.mbx)
    {res : List (Nat × List Byte)} (hr : FieldsFit res) (st : Status) (hint : Nat) :
    Answered s (u.mbxAnswer req st res hint) req st res := by
  have hmbx : (u.mbxAnswer req st res hint).mbx = { s.mbx with
      reqHead := s.mbx.reqTail, rspTail := (s.mbx.rspTail + 1) % s.mbxSize
      phase := if (s.mbx.rspTail + 1) % s.mbxSize = 0 then ! s.mbx.phase else s.mbx.phase } := by
    have hsize : s.mbxSize = u.mbxSize := by rw [State.mbxSize, State.mbxSize, hm]
    rw [h.mbxAnswer_eq hm, State.mbxReply_mbx, h.last, hsize, ← hm]
    rfl
  have hmem := h.mbxAnswer_hostMem hm st res hint
  have hlen : (replyBytes req st res hint s.mbx.phase).length = 64 := replyBytes_length hr
  refine ⟨by rw [hmbx], by rw [hmbx], by rw [hmbx, h.idle], ?_, fun f hf => ?_⟩
  · rw [State.hostRead, hmem, ← replyBytes_head hr (hint := hint) (phase := s.mbx.phase)]
    exact spRead_spWrite_inside (o := 0) hc.hostMem (by omega)
  · obtain ⟨-, hend⟩ := hr.inside f hf
    rw [State.hostRead, hmem, spRead_spWrite_inside hc.hostMem (by omega), replyBytes_field hr hf]

/-- Host memory outside the slot of the reply is as the request's own effect leaves it. -/
theorem Asked.mbxAnswer_hostRead {s u : State} {op : Nat} {req : List Byte} (h : Asked s op req) (hc : Canon u)
    (hm : u.mbx = s.mbx) {res : List (Nat × List Byte)} (hr : FieldsFit res) (st : Status) (hint : Nat) {b n : Nat}
    (hb : b + n ≤ s.mbx.rspBase + 64 * s.mbx.rspTail ∨ s.mbx.rspBase + 64 * s.mbx.rspTail + 64 ≤ b) :
    (u.mbxAnswer req st res hint).hostRead b n = u.hostRead b n := by
  rw [State.hostRead, h.mbxAnswer_hostMem hm]
  exact spRead_spWrite_outside hc.hostMem (by rwa [replyBytes_length hr])

theorem State.mbxAnswer_flash (s : State) (req : List Byte) (st : Status) (res : List (Nat × List Byte)) (hint : Nat) :
    (s.mbxAnswer req st res hint).flash = s.flash :=
  (State.mbxAnswer_kept (Kept.refl (slicesBut [.flash]) s) rfl).flash_eq rfl

/-! ## Flash requests (R67, R164) -/

/-- R164: a request in the range of its region, on its multiple, is carried out there. -/
theorem State.flashRequest_inRange {s : State} {req : List Byte} {base size unit : Nat}
    (hr : flashRegion (leAt req 8 1) = some (base, size)) (hs : s.start.phase ≠ .safe ∨ leAt req 8 1 ≠ 3)
    (hn : leAt req 0xC 4 + leAt req 0x18 4 ≤ size) (ho : leAt req 0xC 4 % unit = 0) (hu : leAt req 0x18 4 % unit = 0)
    (f : State → Nat → Nat → State) :
    s.flashRequest req unit f = f s (base + leAt req 0xC 4) (leAt req 0x18 4) := by
  have hsafe : ¬ (s.start.phase = .safe ∧ leAt req 8 1 = 3) := fun ⟨hp, h3⟩ => hs.elim (· hp) (· h3)
  have hrange : ¬ (size < leAt req 0xC 4 + leAt req 0x18 4 ∨ leAt req 0xC 4 % unit ≠ 0 ∨ leAt req 0x18 4 % unit ≠ 0) := by
    simp [ho, hu, hn]
  simp only [State.flashRequest, hr, if_neg hsafe, if_neg hrange]

/-- R164: a request that reaches past its region is refused. -/
theorem State.flashRequest_outside {s : State} {req : List Byte} {base size unit : Nat}
    (hr : flashRegion (leAt req 8 1) = some (base, size)) (hs : s.start.phase ≠ .safe ∨ leAt req 8 1 ≠ 3)
    (hn : size < leAt req 0xC 4 + leAt req 0x18 4) (f : State → Nat → Nat → State) :
    s.flashRequest req unit f = s.mbxAnswer req (stRefused 4) := by
  have hsafe : ¬ (s.start.phase = .safe ∧ leAt req 8 1 = 3) := fun ⟨hp, h3⟩ => hs.elim (· hp) (· h3)
  simp only [State.flashRequest, hr, if_neg hsafe, if_pos (Or.inl hn)]

/-- R164: FLASH_READ copies the bytes to host memory and answers with their number. -/
theorem exec_flashRead_inRange {s : State} {req : List Byte} {base size : Nat} (hc : Canon s) (h : Asked s 0x0010 req)
    (hr : flashRegion (leAt req 8 1) = some (base, size)) (hs : s.start.phase ≠ .safe ∨ leAt req 8 1 ≠ 3)
    (hn : leAt req 0xC 4 + leAt req 0x18 4 ≤ size) :
    ∃ t, exec .flashRead s = .next t ∧ Answered s t req stOk [(8, leBytes 4 (leAt req 0x18 4))] ∧ t.flash = s.flash
      ∧ (leAt req 0x10 8 + leAt req 0x18 4 ≤ s.mbx.rspBase + 64 * s.mbx.rspTail
          ∨ s.mbx.rspBase + 64 * s.mbx.rspTail + 64 ≤ leAt req 0x10 8 →
        t.hostRead (leAt req 0x10 8) (leAt req 0x18 4) = s.flashRead (base + leAt req 0xC 4) (leAt req 0x18 4)) := by
  simp only [exec, execFlashRead, h.onRequest, State.flashRequest_inRange hr hs hn (Nat.mod_one _) (Nat.mod_one _)]
  generalize hbs : s.flashRead _ _ = bs
  have hlen : bs.length = leAt req 0x18 4 := hbs ▸ spReadD_length _ _ _ _
  have hf : FieldsFit [(8, leBytes 4 (leAt req 0x18 4))] := .single (by simp)
  obtain ⟨hcu, -⟩ := (State.hostWritePf_kept (a := leAt req 0x10 8) (bs := bs) (Kept.refl [.hostMem] s) rfl).mem hc
  refine ⟨_, rfl, h.answered hcu rfl hf _ _, State.mbxAnswer_flash _ _ _ _ _, fun hb => ?_⟩
  rw [h.mbxAnswer_hostRead hcu rfl hf _ _ hb, ← hlen]
  exact spRead_spWrite hc.hostMem

/-- R164: FLASH_READ past its region is refused. -/
theorem exec_flashRead_outside {s : State} {req : List Byte} {base size : Nat} (hc : Canon s) (h : Asked s 0x0010 req)
    (hr : flashRegion (leAt req 8 1) = some (base, size)) (hs : s.start.phase ≠ .safe ∨ leAt req 8 1 ≠ 3)
    (hn : size < leAt req 0xC 4 + leAt req 0x18 4) :
    ∃ t, exec .flashRead s = .next t ∧ Answered s t req (stRefused 4) [] ∧ t.flash = s.flash := by
  simp only [exec, execFlashRead, h.onRequest, State.flashRequest_outside hr hs hn]
  exact ⟨_, rfl, h.answered hc rfl .nil _ _, State.mbxAnswer_flash _ _ _ _ _⟩

/-- R164: FLASH_ERASE erases the range, or ends in time with what it leaves there. -/
theorem exec_flashErase_inRange {s : State} {req : List Byte} {base size : Nat} (hc : Canon s) (h : Asked s 0x0011 req)
    (hr : flashRegion (leAt req 8 1) = some (base, size)) (hs : s.start.phase ≠ .safe ∨ leAt req 8 1 ≠ 3)
    (hn : leAt req 0xC 4 + leAt req 0x18 4 ≤ size) (ho : leAt req 0xC 4 % 0x10000 = 0) (hu : leAt req 0x18 4 % 0x10000 = 0) :
    (∃ t, exec (.flashErase true) s = .next t ∧ Answered s t req stOk []
      ∧ t.flash = (s.flashErase (base + leAt req 0xC 4) (leAt req 0x18 4)).flash)
    ∧ ∃ t, exec (.flashErase false) s = .next t ∧ Answered s t req (stTimeout 4) [] := by
  simp only [exec, execFlashErase, h.onRequest, State.flashRequest_inRange hr hs hn ho hu, if_true, Bool.false_eq_true, if_false]
  obtain ⟨herased, -⟩ := (State.flashErase_kept (a := base + leAt req 0xC 4) (n := leAt req 0x18 4) (Kept.refl [.flash] s) rfl).mem hc
  obtain ⟨htorn, -⟩ := (State.flashTorn_kept (a := base + leAt req 0xC 4) (n := leAt req 0x18 4)
    (Kept.refl [.flash, .free] s) rfl).mem hc
  exact ⟨⟨_, rfl, h.answered herased rfl .nil _ _, State.mbxAnswer_flash _ _ _ _ _⟩, _, rfl, h.answered htorn rfl .nil _ _⟩

/-- R164: FLASH_PROGRAM of bytes that the read-back finds in the flash. -/
theorem exec_flashProgram_inRange {s : State} {req : List Byte} {base size : Nat} (hc : Canon s) (h : Asked s 0x0012 req)
    (hr : flashRegion (leAt req 8 1) = some (base, size)) (hs : s.start.phase ≠ .safe ∨ leAt req 8 1 ≠ 3)
    (hn : leAt req 0xC 4 + leAt req 0x18 4 ≤ size) (ho : leAt req 0xC 4 % 256 = 0) (hu : leAt req 0x18 4 % 256 = 0)
    (hb : (s.flashProgram (base + leAt req 0xC 4) (s.hostRead (leAt req 0x10 8) (leAt req 0x18 4))).flashRead
      (base + leAt req 0xC 4) (leAt req 0x18 4) = s.hostRead (leAt req 0x10 8) (leAt req 0x18 4)) :
    ∃ t, exec (.flashProgram true false) s = .next t ∧ Answered s t req stOk []
      ∧ t.flashRead (base + leAt req 0xC 4) (leAt req 0x18 4) = s.hostRead (leAt req 0x10 8) (leAt req 0x18 4) := by
  simp only [exec, execFlashProgram, h.onRequest, State.flashRequest_inRange hr hs hn ho hu, Bool.not_true, Bool.false_eq_true,
    if_false, if_pos hb]
  obtain ⟨hcu, -⟩ := (State.flashProgram_kept (a := base + leAt req 0xC 4)
    (bs := s.hostRead (leAt req 0x10 8) (leAt req 0x18 4)) (Kept.refl [.flash] s) rfl).mem hc
  refine ⟨_, rfl, h.answered hcu rfl .nil _ _, ?_⟩
  rw [State.flashRead, State.mbxAnswer_flash]
  exact hb

/-- Settles O35: a clause for each command, by its rule above. -/
theorem flashRequests : Obligations.FlashRequests := by
  unfold Obligations.FlashRequests
  exact ⟨fun _ _ _ _ => exec_flashRead_inRange, fun _ _ _ _ => exec_flashErase_inRange,
    fun _ _ _ _ => exec_flashProgram_inRange, fun _ _ _ _ => exec_flashRead_outside⟩

end Sys2Proof.Machine

/-! # The settings store

O4, O8 and O9: the memories are canonical at reset and stay so, and Cairn is programmed one way (R79). The laws of the commands
(`exec_kept`) and of the tick (`tick_kept`) give both facts for what a step runs; what is left is that taking a command from the queue
touches no memory. -/

namespace Sys2Proof.Machine

/-- No memory lies in the queue of commands. -/
theorem Canon.set_pending {s : State} (h : Canon s) (l : List Instr) : Canon { s with pending := l } := { h with }

/-- From a state with canonical memories a step keeps them canonical and clears no bit of Cairn. -/
theorem step_keeps_mem {s t : State} (hc : Canon s) (ht : step s = .next t) :
    Canon t ∧ OtpGrows s.cairn.words t.cairn.words := by
  cases hp : s.pending with
  | nil =>
    rw [step_of_pending_nil hp] at ht
    cases ht
    exact (tick_kept (Kept.refl [.col, .dram, .laser] s) rfl).mem hc
  | cons c l =>
    rw [step_of_pending_cons hp] at ht
    have hk : Kept anyPart { s with pending := l } (outOf { s with pending := l } (exec c { s with pending := l })) := exec_kept
    rw [ht] at hk
    exact hk.mem (hc.set_pending l)

/-- Settles O4: every memory is empty at reset. -/
theorem resetIsCanonical : Obligations.ResetIsCanonical := by
  unfold Obligations.ResetIsCanonical
  constructor <;> rfl

/-- Settles O8: the first half of `step_keeps_mem`. -/
theorem stepsKeepCanon : Obligations.StepsKeepCanon := by
  unfold Obligations.StepsKeepCanon
  intro s t hc ht
  exact (step_keeps_mem hc ht).1

/-- Settles O9: the second half of `step_keeps_mem`. -/
theorem cairnBitsStay : Obligations.CairnBitsStay := by
  unfold Obligations.CairnBitsStay
  intro s t hc ht
  exact (step_keeps_mem hc ht).2

/-- Every state that the machine reaches from reset, whatever commands it is given, meets the hypothesis of O8 and O9. -/
theorem canon_iterate_nextState_reset (l : List Instr) (k : Nat) : Canon (nextState^[k] { State.reset with pending := l }) :=
  Function.Iterate.rec Canon (Canon.set_pending resetIsCanonical l)
    (fun s hc => stepsKeepCanon s (nextState s) hc (step_eq_nextState s)) k

end Sys2Proof.Machine

/-! # Loading a structure

O38. A clause for each command, from what each operation of the loader leaves in `State.loader`: the log, an interrupt, a reply and a
quiesce boundary leave it as it is (`Kept.loader_eq`), so the end of a load, a release and a preparation are known by it exactly. -/

namespace Sys2Proof.Machine

/-! ## A request that is taken (R162, R163) -/

/-- R162: the only request that waits is in execution, when what runs for it leaves the mailbox as its acceptance does. -/
theorem Asked.taken {s t : State} {op : Nat} {req : List Byte} (h : Asked s op req) (hm : t.mbx = (s.mbxStart req).mbx) :
    Taken s t req := by
  refine ⟨?_, ?_, ?_⟩ <;> rw [hm]
  · exact h.last.symm
  · rfl
  · rfl

theorem State.mbxAnswer_loader (s : State) (req : List Byte) (st : Status) (res : List (Nat × List Byte)) (hint : Nat) :
    (s.mbxAnswer req st res hint).loader = s.loader :=
  (State.mbxAnswer_kept (Kept.refl (slicesBut [.loader]) s) rfl).loader_eq rfl

/-! ## What the loader's operations leave (R110 to R113) -/

theorem State.log_loader (s : State) (cls : Fin 4) (block event detail : Nat) :
    (s.log cls block event detail).loader = s.loader :=
  (State.log_kept (Kept.refl (slicesBut [.loader]) s) rfl).loader_eq rfl

theorem State.loadReply_loader (s : State) : s.loadReply.loader = s.loader :=
  (State.loadReply_kept (Kept.refl (slicesBut [.loader]) s) rfl).loader_eq rfl

/-- R110, R111: a failed load keeps its ERR and nothing of what was staged. -/
theorem State.loadFail_loader (s : State) (err : Nat) :
    (s.loadFail err).loader = { s.loader with
      err := err, state := .failed, time := s.time, staged := none, staging := [], prepared := false } := by
  simp only [State.loadFail, State.loadReply_loader, State.log_loader]
  rfl

/-- R113: a released structure is gone, with ERR 0x27. -/
theorem State.release_loader (s : State) :
    s.release.loader = { s.loader with err := 0x27, state := .released, time := s.time, staged := none, staging := [] } := by
  simp only [State.release, State.log_loader]
  rfl

/-- A passage of quiesce boundaries changes neither the loader nor the retention copy nor the mailbox. -/
theorem State.each_quiesce_kept (s : State) (l : List Part) :
    Kept (slicesBut [.loader, .ret, .mbx]) s (s.each l State.quiesce) :=
  Kept.each (Kept.refl _ s) (fun _ _ h => State.quiesce_kept h rfl)

/-- R113, step 4: a commit in preparation. -/
theorem State.prepare_loader (s : State) :
    s.prepare.loader = { s.loader with prepared := false, state := .prepare, time := s.time } :=
  (State.each_quiesce_kept _ _).loader_eq rfl

theorem State.prepare_ret (s : State) : s.prepare.ret = { s.ret with sealed := false } :=
  (State.each_quiesce_kept _ _).ret_eq rfl

theorem State.prepare_mbx (s : State) : s.prepare.mbx = s.mbx :=
  (State.each_quiesce_kept _ _).mbx_eq rfl

/-- R110: a header that names no partial load is judged by stage A alone, at a source in host memory. -/
theorem State.headerErr_of_host {s : State} {h : List Byte} (hf : s.loader.flash = false) (hk : leAt h 6 1 ≠ 2) :
    s.headerErr h = s.stageA false s.loader.len h := by
  simp only [State.headerErr, hf, hk, false_and, Bool.not_false, Bool.false_eq_true, if_false, if_true]
  exact ite_eq_right_iff.mpr Eq.symm

/-- R110: a header in host memory that passes stage A is kept. -/
theorem State.headerIn_of_pass {s : State} {h : List Byte} (hf : s.loader.flash = false) (hlen : 128 ≤ s.loader.len)
    (hh : s.hostRead s.loader.addr 128 = h) (hk : leAt h 6 1 ≠ 2) (hA : s.stageA false s.loader.len h = 0) :
    s.headerIn false = { s with loader := { s.loader with staging := h, kind := leAt h 6 1, target := 0 } } := by
  have hsrc : s.source 128 = h := by
    simp only [State.source, hf, Bool.false_eq_true, if_false, hh]
  simp only [State.headerIn, hsrc, State.headerErr_of_host hf hk, hA, hf, Bool.not_false, Bool.true_and,
    decide_eq_true_eq, if_neg (Nat.not_lt.mpr hlen), Bool.false_eq_true, ne_eq, not_true_eq_false, if_false, if_neg hk]

/-! ## STRUCT_LOAD (R110, R112, R113) -/

/-- R110, R113: a full load from host memory is taken and its header, which passes stage A, is kept. -/
theorem exec_structLoad_accepted {s : State} {req : List Byte} (h : Asked s 0x0020 req) (hp : s.start.phase ≠ .safe)
    (hsource : leAt req 8 1 = 0) (hflag : leAt req 9 1 ≤ 1) (hidle : s.loader.busy = false) (hlen : 128 ≤ leAt req 0x18 4)
    (hk : leAt (s.hostRead (leAt req 0x10 8) 128) 6 1 ≠ 2)
    (hA : s.stageA false (leAt req 0x18 4) (s.hostRead (leAt req 0x10 8) 128) = 0) :
    ∃ t, exec (.structLoad false) s = .next t ∧ Taken s t req ∧ t.loader.state = .stageA ∧ t.loader.err = 0
      ∧ t.loader.staging = s.hostRead (leAt req 0x10 8) 128 ∧ t.loader.stageOnly = decide (leAt req 9 1 = 1)
      ∧ t.loader.reqAt = s.now := by
  have hargs : ¬ (1 < leAt req 8 1 ∨ 1 < leAt req 9 1) := by omega
  have hflash : decide (leAt req 8 1 = 1) = false := by simp [hsource]
  simp only [exec, execStructLoad, h.onRequest, if_neg hp, if_neg hargs, hidle, Bool.false_eq_true, if_false]
  rw [State.headerIn_of_pass hflash hlen rfl hk hA]
  exact ⟨_, rfl, h.taken rfl, rfl, rfl, rfl, rfl, rfl⟩

/-- The state that a refused load leaves, before its answer. -/
def State.refusedLoad (s : State) (err : Nat) : State :=
  { s.draw.2 with loader := { s.loader with err := err } }

theorem State.loadRefuse_eq (s : State) (req : List Byte) (err : Nat) :
    s.loadRefuse req err = (s.refusedLoad err).mbxAnswer req (loadStatus err) [(8, leBytes 1 err)]
      (if err = 0x27 then 0 else s.draw.1 % 65536) := rfl

/-- R112, R113: a load while one is in progress or staged is answered with ERR 0x21, and the other goes on. -/
theorem exec_structLoad_busy {s : State} {req : List Byte} (hc : Canon s) (h : Asked s 0x0020 req)
    (hp : s.start.phase ≠ .safe) (hsource : leAt req 8 1 ≤ 1) (hflag : leAt req 9 1 ≤ 1) (hbusy : s.loader.busy = true) :
    ∃ t, exec (.structLoad false) s = .next t ∧ Answered s t req (loadStatus 0x21) [(8, leBytes 1 0x21)]
      ∧ t.loader.err = 0x21 ∧ t.loader.state = s.loader.state ∧ t.loader.staging = s.loader.staging := by
  have hargs : ¬ (1 < leAt req 8 1 ∨ 1 < leAt req 9 1) := by omega
  have hcr : Canon (s.refusedLoad 0x21) := { hc with }
  simp only [exec, execStructLoad, h.onRequest, if_neg hp, if_neg hargs, hbusy, if_true, State.loadRefuse_eq]
  refine ⟨_, rfl, h.answered hcr rfl (.single (by simp)) _ _, ?_⟩
  rw [State.mbxAnswer_loader]
  exact ⟨rfl, rfl, rfl⟩

/-! ## STRUCT_LOAD_STAGE_DONE (R110, R111) -/

section
variable {s : State} (hr : s.isReady = true) (hstop : s.start.stop = none)
include hr hstop

theorem exec_structLoadStageDone_stageA (bad : Bool) (hst : s.loader.state = .stageA) :
    exec (.structLoadStageDone bad) s = .next (s.setLoader .copy) := by
  simp only [exec, execStructLoadStageDone, State.when, hr, hstop, Option.isNone_none, Bool.and_self, if_true, hst]

theorem exec_structLoadStageDone_copied (hst : s.loader.state = .copy) :
    exec (.structLoadStageDone false) s = .next (s.copyIn.setLoader .stageB) := by
  simp only [exec, execStructLoadStageDone, State.when, hr, hstop, Option.isNone_none, Bool.and_self, if_true, hst,
    Bool.false_eq_true, if_false]

/-- R111: a copy whose source in host memory cannot be read. -/
theorem exec_structLoadStageDone_unreadable (hst : s.loader.state = .copy) (hf : s.loader.flash = false) :
    exec (.structLoadStageDone true) s = .next (s.loadFail 0x22) := by
  simp only [exec, execStructLoadStageDone, State.when, hr, hstop, Option.isNone_none, Bool.and_self, if_true, hst, hf,
    Bool.false_eq_true, if_false]

end

/-! ## Staged structures (R113) -/

/-- R113: a commit that names the staged structure is taken and prepared. -/
theorem exec_structCommit_matching {s : State} {req : List Byte} (h : Asked s 0x0021 req) (hp : s.start.phase ≠ .safe)
    (hst : s.loader.state = .staged) (hid : sliceB req 0x10 16 = sliceB s.loader.staging 0x10 16) :
    ∃ t, exec .structCommit s = .next t ∧ Taken s t req ∧ t.loader.state = .prepare ∧ t.loader.err = 0
      ∧ t.ret.sealed = false := by
  simp only [exec, execStructCommit, h.onRequest, if_neg hp, hst, hid, ne_eq, not_true_eq_false, if_false]
  refine ⟨_, rfl, h.taken ?_, ?_, ?_, ?_⟩
  · rw [State.prepare_mbx]
  · rw [State.prepare_loader]
  · rw [State.prepare_loader]
  · rw [State.prepare_ret]

/-- R113: an abort releases the staged structure; it is answered OK with ERR 0 (log 29). -/
theorem exec_structAbort_staged {s : State} {req : List Byte} (hc : Canon s) (h : Asked s 0x0022 req)
    (hp : s.start.phase ≠ .safe) (hst : s.loader.state = .staged) :
    ∃ t, exec .structAbort s = .next t ∧ Answered s t req stOk [(8, [0])] ∧ t.loader.state = .released
      ∧ t.loader.staged = none := by
  have hrel := State.release_kept (Kept.refl [.loader, .pfMsix, .irqs, .ras] s) rfl
  obtain ⟨hcr, -⟩ := hrel.mem hc
  simp only [exec, execStructAbort, h.onRequest, if_neg hp, hst, ne_eq, not_true_eq_false, if_false]
  refine ⟨_, rfl, h.answered hcr (hrel.mbx_eq rfl) (.single (by simp)) _ _, ?_, ?_⟩ <;>
    rw [State.mbxAnswer_loader, State.release_loader]

/-- R113: a structure that has been staged for 60 s is released. -/
theorem exec_stagedHoldExpiry_over {s : State} (hst : s.loader.state = .staged)
    (hover : s.loader.stagedAt + sCyc 60 ≤ s.now) : exec .stagedHoldExpiry s = .next s.release := by
  simp only [exec, execStagedHoldExpiry, State.when, hst, State.past_of_le hover, BEq.rfl, Bool.and_self, if_true]

/-! ## STRUCT_LOAD_TIMEOUT (R115) -/

/-- R115: a load that has run for 15 s before its commit fails. -/
theorem exec_structLoadTimeout_over {s : State}
    (hst : s.loader.state = .stageA ∨ s.loader.state = .copy ∨ s.loader.state = .stageB ∨ s.loader.state = .stageC)
    (hr : s.isReady = true) (hover : s.loader.reqAt + sCyc 15 ≤ s.now) :
    exec .structLoadTimeout s = .next (s.loadFail 0x25) := by
  rcases hst with hst | hst | hst | hst <;>
    simp only [exec, execStructLoadTimeout, State.when, hst, hr, State.past_of_le hover, Bool.and_self, if_true]

/-- Settles O38: a clause for each command, by its rule above. -/
theorem structureLoad : Obligations.StructureLoad := by
  unfold Obligations.StructureLoad
  refine ⟨fun _ _ => exec_structLoad_accepted, fun _ _ => exec_structLoad_busy, fun s bad hr hstop hst => ?_,
    fun s hr hstop hst => ?_, fun s hr hstop hst hf => ?_, fun _ _ => exec_structCommit_matching,
    fun _ _ => exec_structAbort_staged, fun s hst hover => ?_, fun s hst hr hover => ?_⟩
  · exact ⟨_, exec_structLoadStageDone_stageA hr hstop bad hst, rfl, rfl⟩
  · exact ⟨_, exec_structLoadStageDone_copied hr hstop hst, rfl, rfl, rfl⟩
  · exact ⟨_, exec_structLoadStageDone_unreadable hr hstop hst hf, by simp only [State.loadFail_loader, and_self]⟩
  · exact ⟨_, exec_stagedHoldExpiry_over hst hover, by simp only [State.release_loader, and_self]⟩
  · exact ⟨_, exec_structLoadTimeout_over hst hr hover, by simp only [State.loadFail_loader, and_self]⟩

end Sys2Proof.Machine

/-! # Sessions of the Traverse pacer and the token ledgers

O14: the inbound books (R175) and the token ledgers (R262) as power-on reset leaves them. -/

namespace Sys2Proof.Machine

/-- No session is open after reset. -/
@[simp] theorem State.reset_sess : State.reset.trv.sess = [] := rfl

/-- R175 speaks of open sessions alone: where there is none, the books balance. -/
theorem Books.of_no_session {s : State} (h : s.trv.sess = []) : Books s where
  balance _ he := absurd he (h ▸ List.not_mem_nil)
  rising _ he := absurd he (h ▸ List.not_mem_nil)

/-- R262: after reset the 32 tokens of every stack are free, and none is held or retired. -/
theorem Tokens.reset : Tokens State.reset := by
  intro k
  rw [State.reset_ledger]
  rfl

/-- Settles O14: the table of sessions is empty, and each ledger has its reset value. -/
theorem resetBalances : Obligations.ResetBalances := by
  unfold Obligations.ResetBalances
  exact ⟨Books.of_no_session State.reset_sess, Tokens.reset⟩

end Sys2Proof.Machine

/-! # The token ledgers hold

O13 (R262): a step keeps the 32 tokens of every stack. `Tokens s → Tokens (s.op …)` is shown once for each operation that touches
Spur; an operation that does not is covered by its law (`Tokens.of_kept`). Tokens move in four places: a fire takes the tokens that
`State.fireReady` found free, `State.settleLedger` gives back what no fire needs, a new target retires or frees them with the next
giving back, and a reset of Spur makes all of them free. -/

namespace Sys2Proof.Machine

section
variable {s t : State}

/-! ## One ledger -/

/-- The tokens of a ledger: free, held and retired. -/
def LedgerSt.total (l : LedgerSt) : Nat := l.free + l.held + l.retired

/-- R262: tokens given back come free or retire. -/
theorem LedgerSt.giveBack_total {l : LedgerSt} {n : Nat} (h : n ≤ l.held) : (l.giveBack n).total = l.total := by
  simp only [LedgerSt.giveBack, LedgerSt.total]
  omega

/-- R259: the tokens of a fire pass from free to held. -/
theorem LedgerSt.take_total {l : LedgerSt} {n : Nat} (h : n ≤ l.free) :
    { l with free := l.free - n, held := l.held + n }.total = l.total := by
  simp only [LedgerSt.total]
  omega

/-! ## What leaves the ledgers, and what visits the state in parts -/

/-- Every part of the state but Spur. -/
def butSpur : List Slice := slicesBut [.spur]

namespace Tokens

theorem of_ledgers (h : Tokens s) (e : t.spur.ledgers = s.spur.ledgers) : Tokens t := by
  intro k
  rw [e]
  exact h k

/-- An operation that does not touch Spur moves no token: its law says so. -/
theorem of_kept (h : Tokens s) (k : Kept butSpur s t) : Tokens t :=
  h.of_ledgers (congrArg SpurSt.ledgers (k.spur_eq rfl))

/-- No ledger lies in the queue of commands. -/
theorem set_pending (h : Tokens s) (l : List Instr) : Tokens { s with pending := l } := h

/-- After a reset of Spur every token is free. -/
theorem of_reset (e : t.spur.ledgers = SpurSt.reset.ledgers) : Tokens t := Tokens.reset.of_ledgers e

theorem each {α : Type} {f : State → α → State} {l : List α} (h : Tokens s) (k : ∀ v a, Tokens v → Tokens (f v a)) :
    Tokens (s.each l f) :=
  State.each_inv h (fun v a _ hv => k v a hv)

theorem ite {c : Prop} [Decidable c] (h : Tokens s) (k : Tokens t) : Tokens (if c then s else t) := by
  split
  · exact h
  · exact k

theorem when {c : Bool} {f : State → State} (h : Tokens s) (k : Tokens (f s)) : Tokens (s.when c f) := by
  cases c
  · exact h
  · exact k

theorem onRequest {op : Nat} {f : List Byte → State} (h : Tokens s) (k : ∀ req, Tokens (f req)) : Tokens (s.onRequest op f) := by
  unfold State.onRequest
  split
  · split
    · exact k _
    · exact h
  · exact h

theorem withItem {id : Nat} {f : Item → State} (h : Tokens s) (k : ∀ i, Tokens (f i)) : Tokens (s.withItem id f) := by
  unfold State.withItem
  split
  · exact k _
  · exact h

/-! ## The operations of Spur -/

theorem setLedger {k : Stack} {f : LedgerSt → LedgerSt} (h : Tokens s) (hf : (f (s.ledger k)).total = (s.ledger k).total) :
    Tokens (s.setLedger k f) := by
  intro j
  rw [State.setLedger_spur]
  by_cases e : k = j
  · subst e
    rw [tget_updWith_same]
    exact hf.trans (h k)
  · rw [tget_updWith_other _ _ e]
    exact h j

/-- R262: what is given back is held. -/
theorem settleLedger {k : Stack} (h : Tokens s) : Tokens (s.settleLedger k) :=
  h.setLedger (LedgerSt.giveBack_total (Nat.sub_le _ _))

/-- R261, R262: the end of a fire is recorded, and the tokens that no fire needs any more are given back. -/
theorem fireEnded {k : Stack} {l : List Nat} (h : Tokens s) :
    Tokens (({ s with spur := { s.spur with ends := l } } : State).settleLedger k) :=
  settleLedger (h.of_ledgers rfl)

theorem setGroup {g : Group} {f : GroupSt → GroupSt} (h : Tokens s) : Tokens (s.setGroup g f) := h
theorem setSpurPart {p : Part} {f : SpurPart → SpurPart} (h : Tokens s) : Tokens (s.setSpurPart p f) := h
theorem setJob {j : Nat} {f : JobSt → JobSt} (h : Tokens s) : Tokens (s.setJob j f) := h
theorem setSpurQ {c : Chan} {q : List SpurCmd} (h : Tokens s) : Tokens (s.setSpurQ c q) := h
theorem spurFill (h : Tokens s) : Tokens s.spurFill := h
theorem dropJobs {f : JobSt → Bool} (h : Tokens s) : Tokens (s.dropJobs f) := h
theorem dropLanded {p : Part} {f : Option (Nat × Quad) → Bool} (h : Tokens s) : Tokens (s.dropLanded p f) := h
theorem spurFault {p : Part} {n m : Nat} {o : Option (Nat × Quad)} (h : Tokens s) : Tokens (s.spurFault p n o m) := h

theorem log {cls : Fin 4} {b e d st : Nat} {p : Option Part} {a : Bool} {x : Option (Nat × Nat)} (h : Tokens s) :
    Tokens (s.log cls b e d p st a x) :=
  h.of_kept (State.log_kept (.refl _ _) rfl)

theorem takeTurn {r : Nat} {p : Part} (h : Tokens s) : Tokens (s.takeTurn r p) :=
  h.of_kept (State.takeTurn_kept (.refl _ _) rfl)

theorem onGroups {c : Chan} {m : Nat} {f : GroupSt → GroupSt} (h : Tokens s) : Tokens (s.onGroups c m f) :=
  h.each (fun _ _ hv => hv.setGroup)

/-- R264, R268: a mask counts its banks in the ledger and moves no token. -/
theorem maskBanks {g : Group} {bad : Nat} {test : Bool} (h : Tokens s) : Tokens (s.maskBanks g bad test) := by
  unfold State.maskBanks
  extract_lets old fresh _ u v w
  have hu : Tokens u := h.of_ledgers rfl
  clear_value u
  have hv : Tokens v := hu.setLedger (by split <;> rfl)
  have hw : Tokens w := hv.each (fun _ _ hx => hx.log)
  clear_value w
  exact ite (log (hw.of_ledgers rfl)) hw

theorem runFire {g : Group} {j : JobSt} (h : Tokens s) : Tokens (s.runFire g j) := by
  unfold State.runFire
  extract_lets gs idx cs
  split
  next cols bad u e =>
    have hu : Tokens u := h.of_kept (Kept.fold22_eq e (.refl _ _) (fun _ _ hv => State.bankCols_kept hv rfl))
    exact ite hu.setGroup.setJob hu.setGroup

theorem spurResults {id : Nat} (h : Tokens s) : Tokens (s.spurResults id) := by
  unfold State.spurResults
  split
  · exact h
  next j _ =>
    refine ite h (ite (h.of_kept (State.demand_kept (.refl _ _) rfl)) ?_)
    have hd : Tokens (if j.jop = 3 && j.groups.isEmpty then s.draw else (0, s)).2 := by
      split
      · exact h.of_kept (State.draw_kept (.refl _ _) rfl)
      · exact h
    generalize (if j.jop = 3 && j.groups.isEmpty then s.draw else (0, s)) = r at hd ⊢
    exact setJob (setSpurPart (ite hd (ite (hd.of_kept (State.qbufWrite_kept (.refl _ _) rfl))
      (hd.of_kept (State.winWrite_kept (.refl _ _) rfl)))))

theorem queueJob {id jop : Nat} (h : Tokens s) : Tokens (s.queueJob id jop) := by
  unfold State.queueJob
  split
  · exact h
  · refine h.when ?_
    extract_lets n
    split
    next vecs pz u e =>
      have hu : Tokens u := h.of_kept (Kept.fold22_eq e (.refl _ _) (fun _ _ hv => State.winRead_kept hv rfl))
      exact hu.setJob.spurFill.spurResults

theorem issueCmd {c : Chan} {want : SpurCmd → Bool} {f : State → SpurCmd → State} (h : Tokens s)
    (k : ∀ v a, Tokens v → Tokens (f v a)) : Tokens (s.issueCmd c want f) := by
  unfold State.issueCmd
  split
  · exact h
  · split
    · exact h
    · split
      · exact (k _ _ h.setSpurQ).spurFill
      · exact h.when (k _ _ h.takeTurn.setSpurQ).spurFill

theorem refire {g : Group} (h : Tokens s) : Tokens (s.refire g) := by
  unfold State.refire
  split
  · exact h
  · exact settleLedger (ite h.setGroup.setSpurQ h.setGroup)

end Tokens

/-! ## The start of a fire

A ready fire needs its tokens free, and what comes between that check and the taking (the turn, the queue, the job, the group's
clock) changes neither the ledger nor the tokens needed. -/

/-- Of what a fire is started by, two states have the same: the ledgers, the groups that fire and that are retired, and the
width W. -/
structure SameFires (s t : State) : Prop where
  ledgers : t.spur.ledgers = s.spur.ledgers
  retired : t.spur.retired = s.spur.retired
  width : t.spur.width = s.spur.width
  fire : ∀ g, (t.group g).fire = (s.group g).fire

namespace SameFires

theorem of_spur (h : t.spur = s.spur) : SameFires s t :=
  ⟨by rw [h], by rw [h], by rw [h], fun g => by rw [State.group, h, State.group]⟩

theorem setSpurQ {c : Chan} {q : List SpurCmd} (h : SameFires s t) : SameFires s (t.setSpurQ c q) :=
  ⟨h.ledgers, h.retired, h.width, h.fire⟩

theorem setJob {j : Nat} {f : JobSt → JobSt} (h : SameFires s t) : SameFires s (t.setJob j f) :=
  ⟨h.ledgers, h.retired, h.width, h.fire⟩

/-- An update of a group that leaves its fire as it is. -/
theorem setGroup {g : Group} {f : GroupSt → GroupSt} (h : SameFires s t) (hf : ∀ x, (f x).fire = x.fire) :
    SameFires s (t.setGroup g f) := by
  refine ⟨h.ledgers, h.retired, h.width, fun i => Eq.trans ?_ (h.fire i)⟩
  show (tget (updWith t.spur.groups g f) i).fire = (tget t.spur.groups i).fire
  by_cases e : g = i
  · subst e
    rw [tget_updWith_same, hf]
  · rw [tget_updWith_other _ _ e]

end SameFires

/-- R259, R260: the tokens that one fire more of a partition needs on a stack. -/
def State.moreTokens (s : State) (k : Stack) (p : Part) : Nat := s.tokensFor (s.firesOn k p + 1) - s.tokensFor (s.firesOn k p)

theorem SameFires.moreTokens (h : SameFires s t) (k : Stack) (p : Part) : t.moreTokens k p = s.moreTokens k p := by
  simp only [State.moreTokens, State.tokensFor, State.firesOn, h.width, h.fire]

/-- R260: a fire of a group in service is ready only with its tokens free. -/
theorem State.fireReady_tokens {g : Group} {id : Nat} {rest : List SpurCmd} {j : JobSt} (h : s.fireReady g = some (id, rest))
    (hj : s.job id = some j) (hr : tget s.spur.retired g ≠ true) :
    s.moreTokens (stackOfGroup g) j.part ≤ (s.ledger (stackOfGroup g)).free := by
  unfold State.fireReady at h
  dsimp only at h
  split at h
  · cases h
  · split at h
    · cases h
    next j' hj' =>
      split at h
      · cases h
      · split at h
        next hc =>
          cases h
          cases hj'.symm.trans hj
          simp only [Bool.and_eq_true, decide_eq_true_eq] at hc
          obtain ⟨⟨⟨⟨⟨-, hfree⟩, -⟩, -⟩, -⟩, -⟩ := hc
          exact hfree
        · cases h

namespace Tokens

/-- R259, R262: a fire takes its tokens, which are free, when it starts; the fallback of a retired group takes none. -/
theorem execSpurFire {g : Group} (h : Tokens s) : Tokens (outOf s (execSpurFire g s)) := by
  rw [Machine.execSpurFire, outOf_next]
  split
  · exact h
  next id rest hf =>
    split
    · exact h
    next j hj =>
      extract_lets c k
      refine h.when ?_
      extract_lets u _ v w more x y
      have hsame : SameFires s w :=
        (SameFires.of_spur ((State.takeTurn_kept (.refl butSpur s) rfl).spur_eq rfl)).setSpurQ.setJob.setGroup (fun _ => rfl)
      have hw : Tokens w := h.takeTurn.setSpurQ.setJob.setGroup
      split
      · exact hw.runFire.spurFill
      next hr =>
        have hfree : more ≤ (w.ledger k).free := by
          rw [State.ledger, hsame.ledgers]
          rw [hsame.retired] at hr
          exact (hsame.moreTokens k j.part).trans_le (State.fireReady_tokens hf hj hr)
        clear_value w more
        have hx : Tokens x := hw.setLedger (LedgerSt.take_total hfree)
        exact of_ledgers (s := x) hx rfl

/-! ## The commands of Spur -/

theorem execSpurJobLand {p : Part} {slot : Nat} (h : Tokens s) : Tokens (outOf s (execSpurJobLand p slot s)) := by
  rw [Machine.execSpurJobLand, outOf_next]
  split
  · refine h.when ?_
    extract_lets r cause u sigOk bad j _ v w
    have hv : Tokens v := (h.setSpurPart : Tokens u).of_ledgers rfl
    exact ite hv.spurFault.log hv
  · exact h

theorem execSpurLoad {c : Chan} (h : Tokens s) : Tokens (outOf s (execSpurLoad c s)) := by
  refine h.when (h.issueCmd (fun v cmd hv => ?_))
  split
  · exact hv.onGroups
  · exact hv

theorem execSpurFireEnd {g : Group} {bad : Nat} (h : Tokens s) : Tokens (outOf s (execSpurFireEnd g bad s)) := by
  rw [Machine.execSpurFireEnd, outOf_next]
  split
  · exact h
  · extract_lets k busy letEnd
    refine h.when ?_
    extract_lets fresh
    split
    · exact ite h.maskBanks.setJob.setGroup (fireEnded h.runFire.setGroup)
    · exact fireEnded h.maskBanks.setGroup

theorem execSpurDrain {c : Chan} (h : Tokens s) : Tokens (outOf s (execSpurDrain c s)) := by
  refine h.when (h.issueCmd (fun v cmd hv => ?_))
  split
  · exact hv.setGroup.setJob.spurResults
  · exact hv

theorem execSpurJobDone {p : Part} (h : Tokens s) : Tokens (outOf s (execSpurJobDone p s)) := by
  rw [Machine.execSpurJobDone, outOf_next]
  split
  · exact h
  · extract_lets u
    have hu : Tokens u := h.spurResults
    clear_value u
    split
    · exact hu
    · split
      · exact hu
      · extract_lets v _ w x y
        have hv : Tokens v := ite hu (hu.of_kept (State.winWrite_kept (.refl _ _) rfl))
        clear_value v
        have hx : Tokens x := (hv.of_ledgers rfl : Tokens w).setSpurPart
        clear_value x
        have hy : Tokens y := ite (hx.of_kept (State.signalSem_kept (.refl _ _) rfl)) hx
        clear_value y
        split
        · exact hy.of_kept (State.setItem_kept (.refl _ _) rfl)
        · exact hy

theorem execSpurSelftest {g : Group} {fails : Nat} (h : Tokens s) : Tokens (outOf s (execSpurSelftest g fails s)) :=
  h.when h.setGroup.maskBanks

/-! ## The thermal limit (R410) -/

theorem allowances {k : Stack} (h : Tokens s) : Tokens (s.allowances k) :=
  h.each (fun _ _ hv => hv.setSpurPart)

/-- R262, R410: a new target moves no token; those held that the fires do not need are then given back. -/
theorem setLimit {l : Nat} (h : Tokens s) : Tokens (s.setLimit l) := by
  unfold State.setLimit
  extract_lets _ u v
  have hu : Tokens u := h.of_ledgers rfl
  have hv : Tokens v := hu.of_kept (Kept.each (.refl _ _) (fun _ _ hx => State.setCq_kept hx rfl))
  exact hv.each (fun _ _ hx => (hx.setLedger rfl).settleLedger.allowances)

theorem execLimitStepDown (h : Tokens s) : Tokens (outOf s (execLimitStepDown s)) := by
  refine h.when ?_
  extract_lets u
  exact (h.setLimit : Tokens u).of_ledgers rfl

theorem execLimitStepUp (h : Tokens s) : Tokens (outOf s (execLimitStepUp s)) := by
  have hu : Tokens s.restoreStep := h.of_kept (State.restoreStep_kept (.refl _ _) rfl)
  refine of_kept (hu.when ?_) (State.alertNow_kept (.refl _ _) rfl)
  extract_lets v
  exact (hu.setLimit : Tokens v).of_ledgers rfl

/-! ## Entries, stops and resets -/

theorem setPhase {ph : Phase} (h : Tokens s) : Tokens (s.setPhase ph) := h
theorem setCause {c : Nat} (h : Tokens s) : Tokens (s.setCause c) := h

theorem landing {p : Part} {o : Nat} {bs : List Byte} {w : Option (Nat × Quad)} (h : Tokens s) : Tokens (s.landing p o bs w) := by
  unfold State.landing
  split
  · exact h
  · refine ite h ?_
    extract_lets bump top
    have hb : ∀ (v : State) (f : Item → Item), Tokens v → Tokens (bump v f) := fun v f hv => by
      unfold bump
      split
      · exact hv.of_kept (State.setItem_kept (.refl _ _) rfl)
      · exact hv
    exact ite (hb _ _ h.setSpurPart) (ite (hb _ _ (h.of_kept (State.setPart_kept (.refl _ _) rfl))) h)

theorem stopEntry {i : Item} {st : Status} (h : Tokens s) : Tokens (s.stopEntry i st) := by
  unfold State.stopEntry
  extract_lets u mine v w x
  have hv : Tokens v := (h.of_kept (State.freeQuads_kept (.refl _ _) rfl) : Tokens u).dropJobs.dropLanded
  have hx : Tokens x := (hv.of_kept (State.setPart_kept (.refl _ _) rfl) : Tokens w).of_ledgers rfl
  exact hx.of_kept (State.finish_kept (.refl _ _) rfl)

theorem stopEntries {st : Status} (h : Tokens s) : Tokens (s.stopEntries st) :=
  each (h.each (fun _ _ hv => hv.stopEntry)).dropJobs
    (fun _ _ hv => hv.dropLanded.of_kept (State.setPart_kept (.refl _ _) rfl))

theorem stopSteps {c : StopCause} (h : Tokens s) : Tokens (s.stopSteps c) := by
  unfold State.stopSteps
  extract_lets st u v w
  have hu : Tokens u := (h.of_kept (State.stopRequests_kept (.refl _ _) rfl)).stopEntries
  have hw : Tokens w := hu.of_kept
    (State.stopRings_kept (State.stopItems_kept (State.stopWaits_kept (State.stopSessions_kept (.refl _ _) rfl) rfl) rfl) rfl)
  exact ite hw (hw.of_kept (Kept.each (.refl _ _) (fun _ _ hx => State.selfRefresh_kept hx rfl)))

theorem orderlyStop {c : StopCause} (h : Tokens s) : Tokens (s.orderlyStop c) :=
  ite (setPhase (h.stopSteps.of_ledgers rfl)) h

theorem failStart {c : Nat} (h : Tokens s) : Tokens (s.failStart c) := h.setCause.orderlyStop

theorem deviceFatal (h : Tokens s) : Tokens s.deviceFatal := ite h.setCause.orderlyStop h

theorem fatalSince {old : State} (h : Tokens s) : Tokens (s.fatalSince old) := ite h h.deviceFatal

/-- R415: the reset of every domain outside Col resets Spur. -/
theorem domainReset (s : State) : Tokens s.domainReset := of_reset rfl

/-- R415, step 4: the cut. -/
theorem cut (s : State) (restart : Bool) : Tokens (s.cut restart) := by
  unfold State.cut
  exact domainReset _

theorem stopEnd {c : StopCause} (h : Tokens s) : Tokens (s.stopEnd c) :=
  h.of_kept (State.stopEnd_kept (.refl _ _) rfl)

theorem cutNow (s : State) (c : StopCause) : Tokens (s.cutNow c) := by
  unfold State.cutNow
  exact (cut _ false).setPhase.stopEnd

/-! ## Kernels -/

theorem execEntryStop {id : Nat} (h : Tokens s) : Tokens (outOf s (execEntryStop id s)) := by
  refine h.withItem (fun i => ?_)
  split
  · exact h.when h.stopEntry
  · exact h

theorem tileOp {q : Quad} {n : Fin 4} {opc : Nat} {f : State → Item → KOp → Nat → State} (h : Tokens s)
    (k : ∀ v i o pc, Tokens v → Tokens (f v i o pc)) : Tokens (s.tileOp q n opc f) := by
  unfold State.tileOp
  extract_lets c
  split
  · exact h
  · split
    · exact h.when (k _ _ _ _ (h.of_kept (State.markFirst_kept (.refl _ _) rfl)))
    · exact h

/-- A MOVE whose write is taken ends in the landing of a job or of a record; else nothing of Spur changes. -/
theorem moveOut {q : Quad} {n : Fin 4} {i : Item} {o : KOp} {pc : Nat} {bs : List Byte} {pz : Nat} {back : State}
    (h : Tokens s) (hb : Tokens back) : Tokens (s.moveOut q n i o pc bs pz back) := by
  have hdone : ∀ v, Tokens v → Tokens ((v.consume i.id pz).nextOp q n (some (pc + 32))) := fun v hv =>
    hv.of_kept (State.nextOp_kept (State.consume_kept (.refl _ _) rfl) rfl)
  unfold State.moveOut
  extract_lets op fin
  split
  · split
    · split
      · exact hb
      · split
        · exact hdone _ (h.of_kept (State.winWrite_kept (.refl _ _) rfl)).landing
        · exact hb.of_kept (State.kernelFault_kept (.refl _ _) rfl)
    · exact h
  · split
    next e => exact hdone _ (h.of_kept (State.opWrite_kept_ok (.refl _ _) rfl e))
    next e => exact h.of_kept (State.opWrite_kept_wait (.refl _ _) rfl e)
    next => exact hb.of_kept (State.kernelFault_kept (.refl _ _) rfl)

theorem execMove {q : Quad} {n : Fin 4} (h : Tokens s) : Tokens (outOf s (execMove q n s)) := by
  refine h.tileOp (fun v i o pc hv => ?_)
  extract_lets op
  split
  · split
    · split
      · exact moveOut (hv.of_kept (State.winRead_kept (.refl _ _) rfl)) hv
      · exact hv.of_kept (State.kernelFault_kept (.refl _ _) rfl)
    · exact hv
  · split
    next e => exact moveOut (hv.of_kept (State.opRead_kept_ok (.refl _ _) rfl e)) hv
    next e => exact hv.of_kept (State.opRead_kept_wait (.refl _ _) rfl e)
    next => exact hv.of_kept (State.kernelFault_kept (.refl _ _) rfl)

/-! ## DRAM -/

theorem execScrubStep {c : Chan} (h : Tokens s) : Tokens (outOf s (execScrubStep c s)) := by
  refine h.when ?_
  extract_lets base old u last v _ w
  have hv : Tokens v := h.of_kept (State.setChan_kept (Kept.each (.refl _ _) (fun _ _ hx => State.scrubCol_kept hx rfl)) rfl)
  clear_value v
  exact fatalSince (ite (hv.of_ledgers rfl) hv)

theorem execSelfRefreshExit {k : Stack} {c : Option Int} (h : Tokens s) : Tokens (outOf s (execSelfRefreshExit k c s)) := by
  refine h.when ?_
  have hu : Tokens (s.stackExit k c).1 := h.of_kept (State.stackExit_kept (.refl _ _) rfl)
  generalize s.stackExit k c = r at hu ⊢
  exact ite (hu.of_kept (State.logFlush_kept (.refl _ _) rfl)) hu.failStart

theorem execDramPllLockLost {k : Stack} (h : Tokens s) : Tokens (outOf s (execDramPllLockLost k s)) :=
  h.when (each (log (h.of_kept (State.setStack_kept (State.countLock_kept (.refl _ _) rfl) rfl))) (fun _ _ hv => hv.refire))

theorem execDramPllRelockDone {k : Stack} {ok : Bool} {c : Option Int} (h : Tokens s) :
    Tokens (outOf s (execDramPllRelockDone k ok c s)) := by
  rw [Machine.execDramPllRelockDone, outOf_next]
  split
  · exact h
  · have hset : ∀ f, Tokens (s.setStack k f) := fun _ => h.of_kept (State.setStack_kept (.refl _ _) rfl)
    exact ite (h.of_kept (State.logFlush_kept (State.stackBack_kept (.refl _ _) rfl) rfl)) (ite (hset _) (hset _).log.deviceFatal)

/-! ## Host -/

theorem execCopyDone {id : Nat} (h : Tokens s) : Tokens (outOf s (execCopyDone id s)) := by
  refine h.withItem (fun i => ?_)
  split
  next dir src dst len _ _ _ =>
    refine h.when ?_
    have hr : Tokens (if dir = 0 then ((s.hostRead src len).map (fun b => (b, 0)), s) else s.winReadMarked i.part src len).2 := by
      split
      · exact h
      · exact h.of_kept (State.winReadMarked_kept (.refl _ _) rfl)
    generalize (if dir = 0 then ((s.hostRead src len).map (fun b => (b, 0)), s) else s.winReadMarked i.part src len) = r at hr ⊢
    refine ite h (of_kept (ite ?_ ?_) (State.finish_kept (.refl _ _) rfl))
    · exact hr.of_kept (State.hostWrite_kept (.refl _ _) rfl)
    · exact (hr.of_kept (State.winWriteMarked_kept (.refl _ _) rfl)).landing
  · exact h

theorem execPfReset {k : PfResetKind} (h : Tokens s) : Tokens (outOf s (execPfReset k s)) := by
  rw [Machine.execPfReset, outOf_next]
  exact ite h.orderlyStop (h.of_kept (State.mbxReset_kept (.refl _ _) rfl))

/-! ## Partitions and structures -/

theorem notStarted {i : Item} (h : Tokens s) : Tokens (s.notStarted i) :=
  ite h (ite (h.of_kept (State.finish_kept (.refl _ _) rfl)) h.stopEntry)

theorem quiesce {p : Part} (h : Tokens s) : Tokens (s.quiesce p) := by
  unfold State.quiesce
  extract_lets r u v mine w x y z
  have hu : Tokens u := h.of_kept (State.setPart_kept (.refl _ _) rfl)
  split
  · exact hu.of_kept (State.partState_kept (.refl _ _) rfl)
  · have hw : Tokens w := hu.of_kept (State.discarded_kept (State.partState_kept (.refl _ _) rfl) rfl)
    have hx : Tokens x := hw.each (fun _ _ hv => hv.notStarted)
    have hz : Tokens z := hx.of_kept (State.setPart_kept
      (Kept.each (.refl _ _) (fun _ _ hv => State.sendReply_kept (State.freeCellOf_kept hv rfl) rfl)) rfl)
    exact hz.of_kept (Kept.each (.refl _ _) (fun _ _ hv => State.quiesceSess_kept hv rfl))

theorem lastRecord {i : Item} (h : Tokens s) : Tokens (s.lastRecord i) := by
  unfold State.lastRecord
  extract_lets u
  have hu : Tokens u := ite h h.stopEntry
  refine hu.withItem (fun j => ?_)
  extract_lets st
  split
  · exact ite (hu.of_kept (State.stopItem_kept (.refl _ _) rfl)) (hu.of_kept (State.dropRecord_kept (.refl _ _) rfl))
  · exact hu.of_kept (State.stopItem_kept (.refl _ _) rfl)

theorem execQuiesceHoldEnd {p : Part} (h : Tokens s) : Tokens (outOf s (execQuiesceHoldEnd p s)) := by
  refine h.when ?_
  extract_lets u
  have hu : Tokens u := h.each (fun _ _ hv => hv.lastRecord)
  exact hu.of_kept (State.partState_kept (State.setPart_kept (.refl _ _) rfl) rfl)

theorem zeroize {p : Part} (h : Tokens s) : Tokens (s.zeroize p) := by
  unfold State.zeroize
  split
  · extract_lets u v
    have hu : Tokens u := h.of_kept (State.clearQuads_kept (State.clearWindow_kept (.refl _ _) rfl) rfl)
    have hv : Tokens v := hu.each (fun _ _ hx => hx.setGroup)
    exact hv.of_kept (State.clearSessions_kept (.refl _ _) rfl)
  · exact h

theorem zeroizeAll (h : Tokens s) : Tokens s.zeroizeAll := by
  unfold State.zeroizeAll
  extract_lets u v
  have hu : Tokens u := h.of_kept (State.clearQuads_kept (State.clearWindows_kept (.refl _ _) rfl) rfl)
  have hv : Tokens v := hu.each (fun _ _ hx => hx.setGroup)
  exact hv.of_kept (State.clearRing_kept (.refl _ _) rfl)

theorem execZeroizationDone {p : Part} (h : Tokens s) : Tokens (outOf s (execZeroizationDone p s)) := by
  refine h.when ?_
  split
  · refine h.when ?_
    extract_lets u
    exact (h.zeroize.of_kept (State.setPart_kept (.refl _ _) rfl) : Tokens u).of_ledgers rfl
  · refine h.when ?_
    extract_lets u v
    exact (h.zeroizeAll.of_kept (Kept.each (.refl _ _) (fun _ _ hx => State.setPart_kept hx rfl)) : Tokens v).of_ledgers rfl

theorem commitPart {p : Part} {qs : List Quad} (h : Tokens s) : Tokens (s.commitPart p qs) := by
  unfold State.commitPart
  extract_lets r u v w x y z
  have hu : Tokens u := h.of_kept (Kept.each (.refl _ _) (fun _ _ hv => State.sendReply_kept (State.setPart_kept hv rfl) rfl))
  have hw : Tokens w := (hu.dropJobs.dropLanded : Tokens v).of_ledgers rfl
  have hz : Tokens z := hw.of_kept (Kept.each
    (State.setPart_kept (State.setVf_kept (State.endSessions_kept (.refl _ _) rfl) rfl) rfl)
    (fun _ _ hv => State.quadOff_kept hv rfl))
  exact hz.of_kept (State.partState_kept (.refl _ _) rfl)

theorem commitNow {st : Structure} {im : List (Bool × Nat × List Byte)} {full : Bool} {p : Part} (h : Tokens s) :
    Tokens (s.commitNow st im full p) := by
  unfold State.commitNow
  extract_lets old ts olds u v w _ _ c x y z a
  have hv : Tokens v := (h.of_ledgers rfl : Tokens u).of_kept (State.placeImages_kept (.refl _ _) rfl)
  have hw : Tokens w := hv.each (fun _ _ hx => hx.commitPart)
  clear_value w
  have hc : Tokens c := hw.of_ledgers rfl
  clear_value c
  have hx : Tokens x := ite (hc.of_kept
    (Kept.each (Kept.each (.refl _ _) (fun _ _ hv => State.quadOff_kept hv rfl)) (fun _ _ hv => State.commitPort_kept hv rfl))) hw
  clear_value x
  have hz : Tokens z := (hx.each (fun _ _ hv => hv.allowances) : Tokens y).of_ledgers rfl
  exact hz.of_kept (Kept.each (State.memWrite_kept (.refl _ _) rfl) (fun _ _ hv => State.wake_kept hv rfl))

theorem prepare (h : Tokens s) : Tokens s.prepare :=
  each (h.of_kept (State.setLoader_kept (.refl _ _) rfl) : Tokens (s.setLoader .prepare)) (fun _ _ hv => hv.quiesce)

theorem stagedNow (h : Tokens s) : Tokens s.stagedNow := by
  unfold State.stagedNow
  split
  · extract_lets u v
    exact (h.of_kept (State.loadReply_kept (State.setLoader_kept (.refl _ _) rfl) rfl) : Tokens v).of_ledgers rfl
  · exact h.prepare

theorem execStructLoadStageDone {bad : Bool} (h : Tokens s) : Tokens (outOf s (execStructLoadStageDone bad s)) := by
  have hfail : ∀ err, Tokens (s.loadFail err) := fun _ => h.of_kept (State.loadFail_kept (.refl _ _) rfl)
  refine h.when ?_
  split
  · exact h.of_kept (State.setLoader_kept (.refl _ _) rfl)
  · exact ite (hfail _) (h.of_kept (State.setLoader_kept (State.copyIn_kept (.refl _ _) rfl) rfl))
  · exact ite (hfail _) (h.of_kept (State.stageBRun_kept (.refl _ _) rfl))
  · refine ite (hfail _) ?_
    have hc : Tokens s.stageCRun.1 := h.of_kept (State.stageCRun_kept (.refl _ _) rfl)
    generalize s.stageCRun = r at hc ⊢
    exact ite hc.stagedNow hc
  · refine ite (deviceFatal (log ?_)) h
    exact h.of_ledgers rfl
  · exact h

theorem execStructCommit (h : Tokens s) : Tokens (outOf s (execStructCommit s)) := by
  refine h.onRequest (fun req => ?_)
  have hno : ∀ err, Tokens (s.loadRefuse req err) := fun _ => h.of_kept (State.loadRefuse_kept (.refl _ _) rfl)
  refine ite (h.of_kept (State.mbxAnswer_kept (.refl _ _) rfl)) (ite (hno _) (ite (hno _) ?_))
  extract_lets u
  have hu : Tokens u := h.of_kept (State.mbxStart_kept (.refl _ _) rfl)
  exact prepare (hu.of_ledgers rfl)

theorem switchNow {st : Structure} {im : List (Bool × Nat × List Byte)} (h : Tokens s) : Tokens (s.switchNow st im) := by
  unfold State.switchNow
  extract_lets full u v _ w
  have hv : Tokens v := h.of_kept (State.loadReply_kept (State.setLoader_kept (.refl _ _) rfl) rfl)
  exact (hv.of_ledgers rfl : Tokens w).commitNow

theorem execStructSwitch (h : Tokens s) : Tokens (outOf s (execStructSwitch s)) := by
  refine h.when ?_
  split
  · exact ite h.switchNow.setPhase h.switchNow
  · exact h

theorem execSendRecord {p : Part} (h : Tokens s) : Tokens (outOf s (execSendRecord p s)) := by
  rw [Machine.execSendRecord, outOf_next]
  split
  next slot bs owner rest c _ _ =>
    refine h.when ?_
    extract_lets u it fl done q k d dst key r fails
    have hu : Tokens u := h.of_kept (State.setPart_kept (.refl _ _) rfl)
    have hfails : ∀ cause sub, Tokens (fails u cause sub) := fun _ _ =>
      hu.spurFault.of_kept (State.sendDone_kept (.refl _ _) rfl)
    clear_value u
    refine ite (hfails _ _) (ite (hfails _ _) ?_)
    have hv : Tokens (u.winRead p (leAt bs 0x10 8) (leAt bs 8 4)).2.2 := hu.of_kept (State.winRead_kept (.refl _ _) rfl)
    generalize u.winRead p (leAt bs 0x10 8) (leAt bs 8 4) = r at hv ⊢
    clear_value it
    cases it with
    | none => exact hv.of_kept (State.issueSend_kept (.refl _ _) rfl)
    | some i => exact hv.of_kept (State.issueSend_kept (State.setItem_kept (.refl _ _) rfl) rfl)
  · exact h

/-! ## Fatal errors and heat -/

theorem watchdogFatal (h : Tokens s) : Tokens s.watchdogFatal := ite h.log.deviceFatal h

theorem sysPllLost (h : Tokens s) : Tokens s.sysPllLost := ite (cutNow _ _) h

theorem execDeviceFatal {c : FatalCause} (h : Tokens s) : Tokens (outOf s (execDeviceFatal c s)) := by
  cases c with
  | sysPll => exact h.sysPllLost
  | trvPll =>
    refine h.when ?_
    extract_lets u
    have hu : Tokens u := log (h.of_kept (State.countLock_kept (.refl _ _) rfl))
    exact deviceFatal (hu.of_ledgers rfl)
  | mgmtUe => exact h.when h.log.deviceFatal
  | mgmtWatchdog => exact h.watchdogFatal

theorem shutdown {sel : Nat} {temp num : Int} {den kind : Nat} (h : Tokens s) : Tokens (s.shutdown sel temp num den kind) := by
  unfold State.shutdown
  extract_lets _ u v w
  have hw : Tokens w := log (h.of_ledgers rfl : Tokens u).setCause
  clear_value w
  exact ite (cutNow _ _) (ite (setPhase (hw.of_ledgers rfl)) hw.orderlyStop)

theorem reading {sel : Fin 113} {temp : Int} {f : Bool} (h : Tokens s) : Tokens (s.reading sel temp f) := by
  unfold State.reading
  refine ite h ?_
  extract_lets f' u v _ a w b x _ y
  have hu : Tokens u := h.of_kept (State.keepReading_kept (State.hostReading_kept (.refl _ _) rfl) rfl)
  clear_value u
  refine ite (hu.of_kept (State.alertNow_kept (.refl _ _) rfl)) ?_
  have hv : Tokens v := hu.of_kept (State.stackReading_kept (.refl _ _) rfl)
  have ha : Tokens a := hv.of_ledgers rfl
  have hw : Tokens w := ite (ite (ha.of_kept (State.lasersDark_kept (.refl _ _) rfl)) ha) hv
  have hx : Tokens x := ite hw (hw.of_kept (State.restoreTimer_kept (State.throttle_kept (.refl _ _) rfl) rfl))
  clear_value x
  have hy : Tokens y := ite (hx.of_ledgers rfl) hx
  clear_value y
  exact of_kept (ite hy.shutdown hy) (State.alertNow_kept (.refl _ _) rfl)

theorem execThmReadAll {rs : List Reading} (h : Tokens s) : Tokens (outOf s (execThmReadAll rs s)) := by
  refine h.onRequest (fun req => ?_)
  have hno : ∀ st, Tokens (s.mbxAnswer req st) := fun _ => h.of_kept (State.mbxAnswer_kept (.refl _ _) rfl)
  refine ite (hno _) (ite (hno _) ?_)
  extract_lets rs' bytes u
  have hu : Tokens u := each (h.of_kept (State.mbxStart_kept (.refl _ _) rfl)) (fun _ _ hv => hv.reading)
  exact ite (hu.of_kept (State.mbxDone_kept (State.hostWritePf_kept (.refl _ _) rfl) rfl)) hu

/-! ## Power, restarts and starts -/

theorem restartWrite {v : Nat} (h : Tokens s) : Tokens (s.restartWrite v) :=
  ite h.orderlyStop (h.of_ledgers rfl)

theorem restart {v : W32} (h : Tokens s) : Tokens (s.when s.start.hostIf (fun s => s.restartWrite v.toNat)) :=
  h.when h.restartWrite

theorem startEnded {c : Nat} (h : Tokens s) : Tokens (s.startEnded c) := ite h.setCause h

theorem lasersDark (h : Tokens s) : Tokens s.lasersDark := h.of_kept (State.lasersDark_kept (.refl _ _) rfl)

theorem execPwrGoodFall (h : Tokens s) : Tokens (outOf s (execPwrGoodFall s)) := by
  refine h.when ?_
  extract_lets _ u v
  have hu : Tokens u := h.of_ledgers rfl
  clear_value u
  have hv : Tokens v := hu.startEnded.lasersDark
  clear_value v
  exact ite hv (ite hv.orderlyStop (hv.of_ledgers rfl))

theorem execResetNFall (h : Tokens s) : Tokens (outOf s (execResetNFall s)) := by
  refine h.when ?_
  extract_lets _ u
  have hu : Tokens u := h.of_ledgers rfl
  clear_value u
  refine ite hu ?_
  split
  · exact ite hu (hu.of_ledgers rfl)
  · exact ite hu.startEnded.orderlyStop (hu.startEnded.of_ledgers rfl)

theorem execUndervoltageTrip {r : Rail} (h : Tokens s) : Tokens (outOf s (execUndervoltageTrip r s)) :=
  h.when (cutNow _ _)

theorem execCrystalFault (h : Tokens s) : Tokens (outOf s (execCrystalFault s)) := by
  refine h.when ?_
  extract_lets u _ v w
  have hu : Tokens u := h.startEnded.lasersDark
  clear_value u
  have hv : Tokens v := hu.of_ledgers rfl
  have hw : Tokens w := hv.log
  clear_value w
  exact ite hw (ite hw.orderlyStop (hw.of_ledgers rfl))

theorem execOrderlyStopDone (h : Tokens s) : Tokens (outOf s (execOrderlyStopDone s)) := by
  rw [Machine.execOrderlyStopDone, outOf_next]
  split
  · exact (cut _ _).stopEnd
  · exact h

theorem execStartBegin (h : Tokens s) : Tokens (outOf s (execStartBegin s)) := by
  refine h.when ?_
  extract_lets k _ _ _ _ u _ v _ w
  have hu : Tokens u := h.of_ledgers rfl
  clear_value u
  have hv : Tokens v := ite (hu.of_ledgers rfl) hu
  clear_value v
  have hw : Tokens w := ite hv (hv.of_ledgers rfl)
  exact hw.setPhase

theorem stepsCheck (h : Tokens s) : Tokens s.stepsCheck := by
  unfold State.stepsCheck
  refine ite ?_ h
  split
  · extract_lets u _ v w
    have hu : Tokens u := h.setPhase.of_kept (State.setLoader_kept (.refl _ _) rfl)
    have hv : Tokens v := hu.of_ledgers rfl
    have hw : Tokens w := hv.commitNow
    clear_value w
    exact hw.of_ledgers rfl
  · exact h

theorem stepFirmware (h : Tokens s) : Tokens s.stepFirmware := by
  unfold State.stepFirmware
  split
  · exact h.failStart
  · extract_lets _ u
    have hu : Tokens u := h.of_ledgers rfl
    exact ite (hu.of_kept (State.setPhase_kept (State.skip_kept (.refl _ _) rfl) rfl))
      (hu.of_kept (State.setPhase_kept (State.notSkipped_kept (.refl _ _) rfl) rfl))

theorem stepCairn (h : Tokens s) : Tokens s.stepCairn := by
  unfold State.stepCairn
  have hu : Tokens s.sweep.1 := h.of_kept (State.sweep_kept (.refl _ _) rfl)
  generalize s.sweep = r at hu ⊢
  exact ite (hu.of_kept (State.setPhase_kept (State.stepDone_kept (.refl _ _) rfl) rfl)) hu.failStart

theorem applyDefects {l : List (Group × Nat)} (h : Tokens s) : Tokens (s.applyDefects l) := by
  unfold State.applyDefects
  extract_lets recs masks _ u
  have hu : Tokens u := h.of_ledgers rfl
  exact hu.each (fun _ _ hv => hv.maskBanks)

theorem stepDram {n : Nat} {ts : Vector (Option Int) 8} {l : List (Group × Nat)} (h : Tokens s) : Tokens (s.stepDram n ts l) := by
  unfold State.stepDram
  extract_lets warm
  have hr : Tokens (if n % 256 ≠ 0 then (s, false) else if warm then s.dramWarm ts else (s.dramCold ts, true)).1 := by
    split
    · exact h
    · split
      · exact h.of_kept (State.dramWarm_kept (.refl _ _) rfl)
      · exact h.of_kept (State.dramCold_kept (.refl _ _) rfl)
  generalize (if n % 256 ≠ 0 then (s, false) else if warm then s.dramWarm ts else (s.dramCold ts, true)) = r at hr ⊢
  have hu : Tokens (r.1.applyDefects l).logFlush := hr.applyDefects.of_kept (State.logFlush_kept (.refl _ _) rfl)
  exact ite (ite (hu.of_kept (State.skip_kept (.refl _ _) rfl)) (hu.of_kept (State.stepDone_kept (.refl _ _) rfl))) hr.failStart

theorem stepStructure (h : Tokens s) : Tokens s.stepStructure := by
  have hload : ∀ u, Tokens u → Tokens u.defaultLoad.staged := fun _ hu =>
    hu.of_kept (State.staged_kept (State.defaultLoad_kept (.refl _ _) rfl) rfl)
  unfold State.stepStructure
  refine ite ?_ (hload _ h)
  have hu : Tokens s.retReason.2 := h.of_kept (State.retReason_kept (.refl _ _) rfl)
  extract_lets old
  generalize s.retReason = r at hu ⊢
  have hv : Tokens (r.2.fatalSince old) := hu.fatalSince
  refine ite hv ?_
  generalize r.2.fatalSince old = v at hv ⊢
  split
  · refine of_kept ?_ (State.skip_kept (.refl _ _) rfl)
    exact hv.of_ledgers rfl
  · exact hload _ (hv.of_kept (State.eccFill_kept (State.notSkipped_kept (.refl _ _) rfl) rfl))

theorem execStartStepDone {st : StartStep} (h : Tokens s) : Tokens (outOf s (execStartStepDone st s)) := by
  refine h.when (stepsCheck ?_)
  cases st with
  | firmware => exact h.when h.stepFirmware
  | cairnSweep => exact h.when h.stepCairn
  | dram n ts l => exact h.when h.stepDram
  | optics c d0 d1 => exact h.when (h.of_kept (State.stepOptics_kept (.refl _ _) rfl))
  | structureFetch => exact h.when h.stepStructure

theorem execStartReady (h : Tokens s) : Tokens (outOf s (execStartReady s)) := by
  refine h.when ?_
  extract_lets u
  have hu : Tokens u := h.stepsCheck
  clear_value u
  have hready : ∀ (v : State) ph, Tokens v → Tokens (v.nowReady ph) := fun _ _ hv =>
    hv.of_kept (State.nowReady_kept (.refl _ _) rfl)
  exact ite (hready _ _ (hu.of_ledgers rfl)) (ite (hready _ _ hu) hu)

theorem execStartWatchdogExpiry (h : Tokens s) : Tokens (outOf s (execStartWatchdogExpiry s)) := h.when h.failStart

theorem execOpticsDeadline (h : Tokens s) : Tokens (outOf s (execOpticsDeadline s)) := by
  refine h.when ?_
  extract_lets left u _ v w
  have hu : Tokens u := h.of_kept (Kept.each (.refl _ _) (fun _ _ hx => State.setPort_kept hx rfl))
  have hw : Tokens w := (hu.of_ledgers rfl : Tokens v).of_kept (State.lasersIdle_kept (.refl _ _) rfl)
  clear_value w
  exact stepsCheck (hw.of_ledgers rfl)

/-- R43: at the loss of VDD_COL Spur takes its reset state. -/
theorem execVddColLoss (s : State) : Tokens (outOf s (execVddColLoss s)) := of_reset rfl

/-! ## Registers -/

/-- Of the registers, SPU_CFG and THM_CFG write settings of Spur and MBX_RESTART stops the device; no write reaches a ledger. -/
theorem regWrite {r : Reg} {v : Nat} (h : Tokens s) : Tokens (s.regWrite r v) := by
  have hdoor : ∀ p q f, Tokens (s.doorbell p q (fld v 11 0) f) := fun _ _ _ => h.of_kept (State.doorbell_kept (.refl _ _) rfl)
  have hvfp : ∀ p r, Tokens (if (s.part p).state = .undefined then s else s.vfpWrite r v) := fun _ _ =>
    ite h (h.of_kept (State.vfpWrite_kept (.refl _ _) rfl))
  cases r with
  | clkQpol q => exact h.of_kept (State.qpolWrite_kept (.refl _ _) rfl)
  | clkQforce => exact h.of_kept (State.qforceWrite_kept (.refl _ _) rfl)
  | dmcCfg => exact h.of_kept (State.dmcCfgWrite_kept (.refl _ _) rfl)
  | ophAdcReq p => exact h.of_kept (State.adcRequest_kept (.refl _ _) rfl)
  | lsrTripClr => exact h.of_kept (State.tripClrWrite_kept (.refl _ _) rfl)
  | thmReq => exact h.of_kept (State.thmReqWrite_kept (.refl _ _) rfl)
  | mbxRestart => exact h.restartWrite
  | mbxReqBase => exact ite h h
  | mbxRspBase => exact ite h h
  | mbxReqTail =>
    show Tokens (s.mbxTail (fld v 7 0) false)
    exact h.of_kept (State.mbxTail_kept (.refl _ _) rfl)
  | mbxRspHead => exact h.of_kept (State.mbxUnknown_kept (State.mbxBell_kept (.refl _ _) rfl) rfl)
  | vfpSqTail p q => exact hdoor _ _ _
  | vfpCqHead p q => exact hdoor _ _ _
  | vfpSlotctl p => exact hvfp _ _
  | vfpEvtCtrl p => exact hvfp _ _
  | vfpEvtStat p => exact hvfp _ _
  | vfpFailctl p => exact hvfp _ _
  | vfpSqBase p q => exact hvfp _ _
  | vfpCqBase p q => exact hvfp _ _
  | vfpQCtrl p q => exact hvfp _ _
  | vfpQStat p q => exact hvfp _ _
  | _ => exact h

theorem busWrite {sp : Space} {off : Nat} {wide : Bool} {v : Nat} (h : Tokens s) : Tokens (s.busWrite sp off wide v) := by
  unfold State.busWrite
  split
  · exact h
  · extract_lets key _ low u
    have hu : Tokens u := h.of_ledgers rfl
    exact ite h.regWrite (ite h.regWrite (ite (h.of_ledgers rfl) hu.regWrite))

theorem hostRegWrite {sp : Space} {off : Nat} {wide : Bool} {v : Nat} (h : Tokens s) : Tokens (s.hostRegWrite sp off wide v) := by
  have hmsix : ∀ n w, Tokens (s.msixWrite sp n w) := fun _ _ => h.of_kept (State.msixWrite_kept (.refl _ _) rfl)
  unfold State.hostRegWrite
  exact ite h (ite (ite (ite ((hmsix _ _).of_kept (State.msixWrite_kept (.refl _ _) rfl)) (hmsix _ _)) h) (ite h.busWrite h))

theorem regClear {r : Reg} {lo hi : Bool} (h : Tokens s) : Tokens (s.regClear r lo hi) := by
  cases r with
  | trvPcnt p => exact h.when h
  | cstQcnt q => exact h.when h
  | cncEcnt e => exact h.when h
  | spuPcnt p => exact h.when h
  | dmcEcnt c => exact h.when h
  | ophCnt p => exact h.when h
  | ophTrk p g => exact h.when h
  | chlCnt p => exact h.when h
  | chlFecCe p => exact h.when h
  | chlPmsg p => exact h.when h
  | calCnt p => exact h.when h
  | thmCnt => exact h.when h
  | rasLog => exact h.when h
  | rasPfail p => exact h.when h
  | _ => exact h

theorem busRead {seen : State} {sp : Space} {off : Nat} {wide : Bool} (h : Tokens s) : Tokens (s.busRead seen sp off wide) := by
  unfold State.busRead
  extract_lets ret
  have hret : ∀ u n, Tokens u → Tokens (ret u n) := fun _ _ hu => hu.of_ledgers rfl
  split
  · exact hret _ _ h
  · extract_lets key val
    refine ite (hret _ _ h).regClear (ite (hret _ _ h).regClear (ite (regClear (hret _ _ (h.of_ledgers rfl))) ?_))
    exact regClear (hret _ _ (h.of_ledgers rfl))

theorem hostRegRead {sp : Space} {off : Nat} {wide : Bool} (h : Tokens s) : Tokens (s.hostRegRead sp off wide) := by
  unfold State.hostRegRead
  extract_lets _ ret
  have hret : ∀ n, Tokens (ret n) := fun _ => h.of_ledgers rfl
  split
  · exact h
  · refine ite (hret _) (ite (ite (hret _) (hret _)) ?_)
    split
    · exact h.busRead
    · exact h.of_ledgers rfl
    · exact hret _

/-! ## Every command, and the tick -/

/-- R262: every command keeps the tokens of every stack. A command that does not list Spur among what it touches leaves the
ledgers as they are; each of the others is one of the cases. -/
theorem exec (h : Tokens s) (c : Instr) : Tokens (outOf s (exec c s)) := by
  by_cases hc : (touches c).contains .spur = false
  · exact h.of_ledgers (congrArg SpurSt.ledgers ((exec_kept_touches c s).spur_eq hc))
  cases c with
  | registerWrite => exact h.hostRegWrite
  | lowHalfWrite => exact h.hostRegWrite
  | highHalfWrite => exact h.hostRegWrite
  | rcRead => exact h.hostRegRead
  | lowHalfRead => exact h.hostRegRead
  | vddColLoss => exact execVddColLoss s
  | pwrGoodFall => exact h.execPwrGoodFall
  | resetNFall => exact h.execResetNFall
  | undervoltageTrip => exact h.execUndervoltageTrip
  | crystalFault => exact h.execCrystalFault
  | orderlyStopDone => exact h.execOrderlyStopDone
  | startBegin => exact h.execStartBegin
  | startStepDone => exact h.execStartStepDone
  | startReady => exact h.execStartReady
  | startWatchdogExpiry => exact h.execStartWatchdogExpiry
  | opticsDeadline => exact h.execOpticsDeadline
  | restartWarm => exact h.restart
  | restartCold => exact h.restart
  | clearAndRestart => exact h.restart
  | structLoadStageDone => exact h.execStructLoadStageDone
  | structCommit => exact h.execStructCommit
  | quiesceHoldEnd => exact h.execQuiesceHoldEnd
  | zeroizationDone => exact h.execZeroizationDone
  | structSwitch => exact h.execStructSwitch
  | copyDone => exact h.execCopyDone
  | pfReset k => exact h.execPfReset (k := k)
  | thmReadAll => exact h.execThmReadAll
  | entryStop => exact h.execEntryStop
  | move => exact h.execMove
  | spurJobLand => exact h.execSpurJobLand
  | matvec => exact h.queueJob
  | gather => exact h.queueJob
  | scan => exact h.queueJob
  | spurClear => exact h.issueCmd (fun _ _ hv => hv.onGroups)
  | spurLoad => exact h.execSpurLoad
  | spurFire => exact h.execSpurFire
  | spurFireEnd => exact h.execSpurFireEnd
  | spurDrain => exact h.execSpurDrain
  | spurJobDone => exact h.execSpurJobDone
  | spurSelftest => exact h.execSpurSelftest
  | spurGroupGate => exact h.when h.setGroup
  | scrubStep => exact h.execScrubStep
  | selfRefreshExit => exact h.execSelfRefreshExit
  | dramPllLockLost => exact h.execDramPllLockLost
  | dramPllRelockDone => exact h.execDramPllRelockDone
  | sendRecord => exact h.execSendRecord
  | sensorReading => exact h.reading
  | limitStepDown => exact h.execLimitStepDown
  | limitStepUp => exact h.execLimitStepUp
  | deviceFatal => exact h.execDeviceFatal
  | mgmtWatchdogExpiry => exact h.watchdogFatal
  | _ => exact absurd rfl hc

/-- R262: a crystal cycle touches no ledger, and a command keeps them by `Tokens.exec`. -/
theorem step (h : Tokens s) (ht : step s = .next t) : Tokens t := by
  cases hp : s.pending with
  | nil =>
    rw [step_of_pending_nil hp] at ht
    cases ht
    exact h.of_kept (tick_kept (.refl _ _) rfl)
  | cons c l =>
    rw [step_of_pending_cons hp] at ht
    have hk : Tokens (outOf { s with pending := l } (Machine.exec c { s with pending := l })) :=
      (h.set_pending l).exec c
    rwa [ht] at hk

end Tokens

end

/-- Settles O13: `Tokens.step`. -/
theorem ledgersHold : Obligations.LedgersHold := by
  unfold Obligations.LedgersHold
  exact fun _ _ => Tokens.step

/-- Every state that the machine reaches from reset, whatever commands it is given, meets the hypothesis of O13. -/
theorem tokens_iterate_nextState_reset (l : List Instr) (k : Nat) : Tokens (nextState^[k] { State.reset with pending := l }) :=
  Function.Iterate.rec Tokens (Tokens.reset.set_pending l) (fun s hs => ledgersHold s (nextState s) hs (step_eq_nextState s)) k

/-- A ledger with held and with retired tokens meets it as well. -/
theorem tokens_of_held_and_retired :
    Tokens (State.reset.setLedger 0 (fun l => { l with free := 20, held := 4, retired := 8, target := 24 })) :=
  Tokens.reset.setLedger rfl

end Sys2Proof.Machine

/-! # The DRAM controller

O25 and O26: the refreshes, the drain mode, the bands, the scrub, and the stacks that leave self-refresh. What a command does to a
stack, a channel or a group it does by a pass over the entries that it names: the entry's own visit does it (`State.each_establishes`),
and the other visits leave the rest as it was (`State.each_inv`). -/

namespace Sys2Proof.Machine

/-! ## Passes over channels and groups -/

/-- What the visit of an entry brings about holds after a pass that visits the entry, when no visit of another entry undoes it. -/
theorem State.each_establishes {α : Type} {L : List Slice} {P : State → Prop} {f : State → α → State} {u : State} {l : List α} {b : α}
    (hf : ∀ v a, Kept L v (f v a)) (own : ∀ v, Kept L u v → P (f v b)) (other : ∀ v a, a ≠ b → P v → P (f v a)) (hb : b ∈ l) :
    P (u.each l f) := by
  obtain ⟨m, n, rfl⟩ := List.append_of_mem hb
  have e : u.each (m ++ b :: n) f = (f (u.each m f) b).each n f := by
    simp only [State.each, List.foldl_append, List.foldl_cons]
  have hm : Kept L u (u.each m f) := Kept.each (Kept.refl _ _) (fun v a hv => hv.trans (hf v a))
  have hn : Kept L u ((f (u.each m f) b).each n f) ∧ P ((f (u.each m f) b).each n f) := by
    refine State.each_inv (P := fun v => Kept L u v ∧ P v) ⟨hm.trans (hf _ b), own _ hm⟩ (fun v a _ ⟨hv, hP⟩ => ⟨hv.trans (hf v a), ?_⟩)
    by_cases hab : a = b
    · exact hab ▸ own v hv
    · exact other v a hab hP
  exact e ▸ hn.2

/-- What an update of one channel keeps of that channel is kept of every channel. -/
theorem State.setChan_chan_keeps {γ : Type} (s : State) (c : Chan) {f : ChanSt → ChanSt} (g : ChanSt → γ) (h : ∀ r, g (f r) = g r)
    (d : Chan) : g ((s.setChan c f).chan d) = g (s.chan d) := by
  by_cases e : c = d
  · subst e
    rw [State.setChan_chan_same, h]
  · rw [State.setChan_chan_other _ _ e]

@[simp] theorem State.setChan_stack (s : State) (c : Chan) (f : ChanSt → ChanSt) (k : Stack) : (s.setChan c f).stack k = s.stack k := rfl
@[simp] theorem State.setStack_chan (s : State) (k : Stack) (f : StackSt → StackSt) (c : Chan) : (s.setStack k f).chan c = s.chan c := rfl

theorem State.set_col_stack (s : State) (c : Col) (k : Stack) : ({ s with col := c } : State).stack k = s.stack k := rfl

theorem Kept.stack_eq {L : List Slice} {s t : State} (h : Kept L s t) (n : L.contains .dram = false) (k : Stack) :
    t.stack k = s.stack k := by
  simp only [State.stack, h.dram_eq n]

/-- R283: the delay entries are of Cairn alone. -/
theorem Kept.delayEntry_eq {L : List Slice} {s t : State} (h : Kept L s t) (n : L.contains .cairn = false) (b c : Nat) :
    t.delayEntry b c = s.delayEntry b c := by
  simp only [State.delayEntry, State.recsOf, State.genRecs, State.cw, h.cairn_eq n]

/-! ## Refresh (R281, R282) -/

theorem State.owe_owed_same (s : State) (g : Group) (d : Int) :
    tget (s.owe g d).dram.owed g = max (-4) (min 5 (tget s.dram.owed g + d)) := tget_updWith_same _ _ _

theorem State.owe_owed_other (s : State) {g h : Group} (d : Int) (e : h ≠ g) :
    tget (s.owe g d).dram.owed h = tget s.dram.owed h := tget_updWith_other _ _ e.symm

/-- R281, R282: a refresh that falls due is owed, and the most that a group was owed is kept. -/
theorem exec_refreshDue {s : State} {g : Group} (h : s.stackUp (stackOfGroup g) = true) :
    ∃ t, exec (.refreshDue g) s = .next t ∧ tget t.dram.owed g = max (-4) (min 5 (tget s.dram.owed g + 1))
      ∧ (∀ h, h ≠ g → tget t.dram.owed h = tget s.dram.owed h)
      ∧ (t.stack (stackOfGroup g)).maxOwed = max (s.stack (stackOfGroup g)).maxOwed (tget t.dram.owed g).toNat ∧ Only [.dram] s t := by
  simp only [exec, execRefreshDue, s.when_true _ h]
  refine ⟨_, rfl, s.owe_owed_same g 1, fun _ => s.owe_owed_other 1, ?_, ?_⟩
  · rw [State.setStack_stack_same]
    rfl
  · exact (State.setStack_kept (State.owe_kept (Kept.refl _ s) rfl) rfl).only

/-- R282: a refresh that is done is owed no more; it may be done ahead while the channel is quiet. -/
theorem exec_groupRefresh {s : State} {g : Group} (hk : s.stackUp (stackOfGroup g) = true) (hf : (s.group g).fire = none)
    (hn : -4 < tget s.dram.owed g) (hq : 0 < tget s.dram.owed g ∨ s.chanQuiet (chanOfGroup g) = true) :
    ∃ t, exec (.groupRefresh g) s = .next t ∧ tget t.dram.owed g = max (-4) (min 5 (tget s.dram.owed g - 1))
      ∧ (∀ h, h ≠ g → tget t.dram.owed h = tget s.dram.owed h) ∧ Only [.dram] s t := by
  have hc : (s.stackUp (stackOfGroup g) && (s.group g).fire.isNone && decide (-4 < tget s.dram.owed g)
      && (decide (0 < tget s.dram.owed g) || s.chanQuiet (chanOfGroup g))) = true := by
    simp [hk, hf, hn, hq]
  simp only [exec, execGroupRefresh, s.when_true _ hc]
  exact ⟨_, rfl, s.owe_owed_same g (-1), fun _ => s.owe_owed_other (-1), (State.owe_kept (Kept.refl _ s) rfl).only⟩

/-! ## Drain mode (R279) -/

/-- R279: the oldest waiting write of a channel has waited 20 µs. -/
theorem exec_writeDrainTimeout {s : State} {c : Chan} (hw : 0 < (s.chan c).wrWait) (ho : (s.chan c).wrOldest + usCyc 20 ≤ s.now) :
    ∃ t, exec (.writeDrainTimeout c) s = .next t ∧ (t.chan c).drain = true ∧ (∀ d, d ≠ c → t.chan d = s.chan d) ∧ Only [.dram] s t := by
  have hc : (decide (0 < (s.chan c).wrWait) && s.past (s.chan c).wrOldest (usCyc 20)) = true := by
    rw [decide_eq_true hw, State.past_of_le ho, Bool.and_true]
  simp only [exec, execWriteDrainTimeout, s.when_true _ hc]
  refine ⟨_, rfl, ?_, fun d hd => State.setChan_chan_other _ _ hd.symm, (State.setChan_kept (Kept.refl _ s) rfl).only⟩
  rw [State.setChan_chan_same]

/-! ## Bands (R284, R285) -/

/-- R285: the delays of a band are written into the shadows of the channels of a list, and nothing else of a channel or a stack. -/
theorem State.each_shadow (s : State) (b : Nat) (l : List Chan) :
    (∀ c, c ∈ l → ((s.each l (fun v c => v.setChan c (fun r => { r with shadow := v.delayEntry b c.val }))).chan c).shadow
        = s.delayEntry b c.val)
      ∧ (∀ c, ((s.each l (fun v c => v.setChan c (fun r => { r with shadow := v.delayEntry b c.val }))).chan c).delay
        = (s.chan c).delay)
      ∧ (∀ k, (s.each l (fun v c => v.setChan c (fun r => { r with shadow := v.delayEntry b c.val }))).stack k = s.stack k)
      ∧ Kept [.dram] s (s.each l (fun v c => v.setChan c (fun r => { r with shadow := v.delayEntry b c.val }))) := by
  refine ⟨fun c hm => ?_, ?_, ?_, ?_⟩
  · refine State.each_establishes (L := [.dram]) (P := fun v => (v.chan c).shadow = s.delayEntry b c.val)
      (fun v a => State.setChan_kept (Kept.refl _ v) rfl) (fun v hv => ?_) (fun v a hac hv => ?_) hm
    · rw [State.setChan_chan_same, hv.delayEntry_eq rfl]
    · rw [State.setChan_chan_other _ _ hac, hv]
  · exact fun c => State.each_inv (P := fun v => (v.chan c).delay = (s.chan c).delay) rfl
      (fun v a _ hv => (v.setChan_chan_keeps a ChanSt.delay (fun _ => by rfl) c).trans hv)
  · exact fun k => State.each_inv (P := fun v => v.stack k = s.stack k) rfl (fun _ _ _ hv => hv)
  · exact Kept.each (Kept.refl _ s) (fun v c hv => State.setChan_kept hv rfl)

/-- R284, R285: a band switch begins: the delays of the new band stand in the shadow of every channel of the stack, and those in force
are as they were. -/
theorem exec_bandSwitch {s : State} {k : Stack} {b : Fin 5} (hk : s.stackUp k = true) (hsw : (s.stack k).switching = none)
    (hstop : s.start.stop = none) (hb : (s.stack k).band ≠ b) (ht : s.bandFor (s.stack k).band.val (s.stack k).temp = b.val) :
    ∃ t, exec (.bandSwitch k b) s = .next t ∧ (t.stack k).switching = some (b, 0) ∧ (t.stack k).band = (s.stack k).band
      ∧ (∀ c, c ∈ stackChans k → (t.chan c).shadow = s.delayEntry b.val c.val) ∧ (∀ c, (t.chan c).delay = (s.chan c).delay)
      ∧ Only [.dram] s t := by
  have hc : (s.stackUp k && (s.stack k).switching.isNone && s.start.stop.isNone && decide ((s.stack k).band ≠ b)
      && decide (s.bandFor (s.stack k).band.val (s.stack k).temp = b.val)) = true := by
    simp [hk, hsw, hstop, hb, ht]
  simp only [exec, execBandSwitch, s.when_true _ hc]
  obtain ⟨hshadow, hdelay, hstack, hkept⟩ := s.each_shadow b.val (stackChans k)
  generalize s.each (stackChans k) _ = u at hshadow hdelay hstack hkept ⊢
  refine ⟨_, rfl, ?_, ?_, fun c hm => ?_, fun c => ?_, (State.setStack_kept hkept rfl).only⟩
  · rw [State.setStack_stack_same]
  · rw [State.setStack_stack_same, hstack]
  · rw [State.setStack_chan, hshadow c hm]
  · rw [State.setStack_chan, hdelay c]

/-- An all-bank refresh changes what is owed and nothing else of DRAM. -/
theorem State.each_owe_chan_stack (s : State) (l : List Group) (d : Int) (c : Chan) (k : Stack) :
    (s.each l (fun v g => v.owe g d)).chan c = s.chan c ∧ (s.each l (fun v g => v.owe g d)).stack k = s.stack k :=
  State.each_inv (P := fun v => v.chan c = s.chan c ∧ v.stack k = s.stack k) ⟨rfl, rfl⟩ (fun _ _ _ hv => hv)

/-- R285: in its window a channel takes its shadow delays; the window of the last channel ends the switch. -/
theorem exec_bandSwitchWindow {s : State} {k : Stack} {b : Fin 5} {i : Fin 17} (hsw : (s.stack k).switching = some (b, i))
    (hk : s.stackUp k = true) (hf : ∀ g, g ∈ chanGroups (chanNo (16 * k.val + i.val)) → (s.group g).fire = none)
    (hr : (s.chan (chanNo (16 * k.val + i.val))).rdOut = 0) :
    ∃ t, exec (.bandSwitchWindow k) s = .next t
      ∧ (t.chan (chanNo (16 * k.val + i.val))).delay = (s.chan (chanNo (16 * k.val + i.val))).shadow
      ∧ (i.val < 15 → (t.stack k).switching.map (fun x => (x.1, x.2.val)) = some (b, i.val + 1) ∧ (t.stack k).band = (s.stack k).band)
      ∧ (15 ≤ i.val → (t.stack k).switching = none ∧ (t.stack k).band = b) ∧ Only [.dram] s t := by
  simp only [exec, execBandSwitchWindow, hsw]
  generalize chanNo (16 * k.val + i.val) = c at hf hr ⊢
  have hc : (s.stackUp k && (chanGroups c).all (fun g => (s.group g).fire.isNone) && (s.chan c).rdOut == 0) = true := by
    simpa [hk, hr] using hf
  rw [s.when_true _ hc]
  obtain ⟨hchan, hstack⟩ := s.each_owe_chan_stack (chanGroups c) (-1) c k
  have hkept : Kept [.dram] s (s.each (chanGroups c) (fun v g => v.owe g (-1))) :=
    Kept.each (Kept.refl _ s) (fun v g hv => State.owe_kept hv rfl)
  generalize s.each (chanGroups c) (fun v g => v.owe g (-1)) = u at hchan hstack hkept ⊢
  refine ⟨_, rfl, ?_, fun hi => ?_, fun hi => ?_, (State.setStack_kept (State.setChan_kept hkept rfl) rfl).only⟩
  · rw [State.setStack_chan, State.setChan_chan_same, hchan]
  · have hi' : i.val + 1 < 16 := by omega
    rw [State.setStack_stack_same, if_pos hi', State.setChan_stack, hstack]
    refine ⟨?_, rfl⟩
    simp only [Option.map_some, Nat.mod_eq_of_lt (show i.val + 1 < 17 by omega)]
  · rw [State.setStack_stack_same, if_neg (by omega)]
    exact ⟨rfl, rfl⟩

/-- Settles O25: a clause for each command, by its rule above. -/
theorem refreshDrainAndBand : Obligations.RefreshDrainAndBand := by
  unfold Obligations.RefreshDrainAndBand
  exact ⟨fun _ _ => exec_refreshDue, fun _ _ => exec_groupRefresh, fun _ _ => exec_writeDrainTimeout, fun _ _ _ => exec_bandSwitch,
    fun _ _ _ _ => exec_bandSwitchWindow⟩

/-! ## Scrub (R289) -/

/-- R289: a column that has been gone over has lost its flaws, and no other column has gained any. -/
theorem State.clearFlaws_flawed {s : State} (hs : spWf Flaw.none s.dram.flaws = true) (loc : Nat) {l : Nat}
    (h : flawed (s.colFlaws l) = false) : flawed ((s.clearFlaws loc).colFlaws l) = false := by
  simp only [flawed, State.colFlaws, List.any_map, List.any_eq_false, Function.comp_apply] at h ⊢
  intro i hi
  simp only [State.clearFlaws, spGet_spClear hs]
  split
  · decide
  · exact h i hi

/-- What a scrub of columns without uncorrectable words keeps. -/
structure Scrubbed (s t : State) : Prop where
  kept : Kept [.dram] s t
  mem : t.dram.mem = s.dram.mem
  poison : t.dram.poison = s.dram.poison
  pos : ∀ c, (t.chan c).scrubPos = (s.chan c).scrubPos
  sound : ∀ l, flawed (s.colFlaws l) = false → flawed (t.colFlaws l) = false

theorem Scrubbed.refl (s : State) : Scrubbed s s := ⟨Kept.refl _ s, rfl, rfl, fun _ => rfl, fun _ h => h⟩

/-- R289: a column without uncorrectable words is corrected where it is. -/
theorem Scrubbed.scrubCol {s t : State} (hs : Canon s) (h : Scrubbed s t) {loc : Nat} (hl : flawed (s.colFlaws loc) = false) :
    Scrubbed s (t.scrubCol loc) := by
  unfold State.scrubCol
  simp only [h.sound loc hl, Bool.false_eq_true, if_false]
  have hflaws : spWf Flaw.none t.dram.flaws = true := (h.kept.mem hs).1.flaws
  split
  · exact h
  · split
    · exact h
    · exact ⟨State.setChan_kept (State.clearFlaws_kept h.kept rfl) rfl, h.mem, h.poison,
        fun c => ((t.clearFlaws loc).setChan_chan_keeps (chanOf loc) ChanSt.scrubPos (fun _ => by rfl) c).trans (h.pos c),
        fun l hl => State.clearFlaws_flawed hflaws loc (h.sound l hl)⟩

/-- R289: where every channel has completed its pass the time is kept and a new pass begins. -/
theorem State.scrubPassEnd_frame (s : State) :
    ∃ t, t = (if s.dram.chans.toList.all (fun r => r.scrubDone) then
        { s with dram := { s.dram with scrubTime := s.time, chans := vmap (fun r => { r with scrubDone := false }) s.dram.chans } }
      else s) ∧ Kept [.dram] s t ∧ t.dram.mem = s.dram.mem ∧ t.dram.poison = s.dram.poison
      ∧ ∀ c, (t.chan c).scrubPos = (s.chan c).scrubPos := by
  refine ⟨_, rfl, ?_⟩
  split
  · exact ⟨Kept.set_dram (Kept.refl _ s) rfl ⟨MemOk.same rfl, MemOk.same rfl, MemOk.same rfl⟩, rfl, rfl,
      fun c => by simp only [State.chan, tget_vmap]⟩
  · exact ⟨Kept.refl _ s, rfl, rfl, fun _ => rfl⟩

theorem State.fatalSince_of_ras_eq {s old : State} (h : s.ras = old.ras) : s.fatalSince old = s :=
  if_pos (congrArg RasSt.fatal h)

/-- R289: the next 1 KiB of a channel is gone over. -/
theorem exec_scrubStep {s : State} {c : Chan} (hs : Canon s) (hen : s.dram.scrubEn = true)
    (hk : s.stackUp (stackNo (c.val / 16)) = true) (hstop : s.start.stop = none)
    (hf : (s.group (grp (4 * c.val + (s.chan c).scrubPos % 128 / 32))).fire = none) (hd : (s.chan c).scrubDone = false)
    (hl : ∀ i, i < 32 → flawed (s.colFlaws (c.val * 2 ^ 31 + (s.chan c).scrubPos * 1024 + 32 * i)) = false) :
    ∃ t, exec (.scrubStep c) s = .next t
      ∧ (t.chan c).scrubPos = (if (s.chan c).scrubPos + 1 = 2 ^ 21 then 0 else (s.chan c).scrubPos + 1)
      ∧ t.dram.mem = s.dram.mem ∧ t.dram.poison = s.dram.poison ∧ Only [.dram] s t := by
  have hc : (s.dram.scrubEn && s.stackUp (stackNo (c.val / 16))
      && (s.group (grp (4 * c.val + (s.chan c).scrubPos % 128 / 32))).fire.isNone && ! (s.chan c).scrubDone
      && s.start.stop.isNone) = true := by
    simp [hen, hk, hstop, hf, hd]
  simp only [exec, execScrubStep, s.when_true _ hc]
  have hu : Scrubbed s (s.each (List.range 32)
      (fun v i => v.scrubCol (c.val * 2 ^ 31 + (s.chan c).scrubPos * 1024 + 32 * i))) :=
    State.each_inv (Scrubbed.refl s) (fun v i hi hv => hv.scrubCol hs (hl i (List.mem_range.mp hi)))
  generalize s.each (List.range 32) _ = u at hu ⊢
  generalize hv : u.setChan c _ = v
  have hkept : Kept [.dram] s v := hv ▸ State.setChan_kept hu.kept rfl
  have hmem : v.dram.mem = s.dram.mem := hv ▸ hu.mem
  have hpoison : v.dram.poison = s.dram.poison := hv ▸ hu.poison
  have hpos : (v.chan c).scrubPos = if (s.chan c).scrubPos + 1 = 2 ^ 21 then 0 else (s.chan c).scrubPos + 1 := by
    rw [← hv, State.setChan_chan_same, ← hu.pos c]
    simp only [decide_eq_true_eq]
  obtain ⟨w, hw, hwkept, hwmem, hwpoison, hwpos⟩ := v.scrubPassEnd_frame
  rw [← hw]
  rw [State.fatalSince_of_ras_eq ((hwkept.ras_eq rfl).trans (hkept.ras_eq rfl))]
  exact ⟨_, rfl, (hwpos c).trans hpos, hwmem.trans hmem, hwpoison.trans hpoison, (hkept.trans hwkept).only⟩

/-! ## Stacks that come back (R291, R292) -/

/-- R291, steps 1 to 3: the stack is out of self-refresh with its PLL, in the band of its measurement, or in `keep` where the sensor
reads FAULT. -/
theorem State.stackBack_stack (s : State) (k : Stack) (temp : Option Int) (keep : Fin 5) :
    ((s.stackBack k temp keep).stack k).sr = false ∧ ((s.stackBack k temp keep).stack k).pll = true
      ∧ ((s.stackBack k temp keep).stack k).lost = none
      ∧ (∀ x, temp = some x → ((s.stackBack k temp keep).stack k).band = s.bandAt (x / 16))
      ∧ (temp = none → ((s.stackBack k temp keep).stack k).band = keep) := by
  unfold State.stackBack
  extract_lets b u v w
  clear_value v
  have hw : w.stack k = _ := v.setStack_stack_same k _
  rw [State.set_col_stack, hw]
  exact ⟨rfl, rfl, rfl, fun x hx => by subst hx; rfl, fun hx => by subst hx; rfl⟩

/-- R291: nothing is owed in a stack that comes back. -/
theorem State.stackBack_owed (s : State) {k : Stack} (temp : Option Int) (keep : Fin 5) {g : Group} (hg : g ∈ stackGroups k) :
    tget (s.stackBack k temp keep).dram.owed g = 0 :=
  State.each_establishes (L := [.dram]) (P := fun v => tget v.dram.owed g = 0)
    (f := fun v g => { v with dram := { v.dram with owed := upd v.dram.owed g 0 } })
    (fun v _ => Kept.set_dram (Kept.refl _ v) rfl ⟨MemOk.same rfl, MemOk.same rfl, MemOk.same rfl⟩)
    (fun _ _ => tget_upd_same _ _ _) (fun _ _ hag hv => (tget_upd_other _ _ hag).trans hv) hg

/-- R291, step 5: Col records the stack in self-refresh no more. -/
theorem State.stackBack_srRec (s : State) (k : Stack) (temp : Option Int) (keep : Fin 5) :
    tget (s.stackBack k temp keep).col.srRec k = none := tget_upd_same _ _ _

theorem State.stackBack_live (s : State) (k : Stack) (temp : Option Int) (keep : Fin 5) :
    (s.stackBack k temp keep).live = s.live := by
  have hstart : (s.stackBack k temp keep).start = s.start :=
    (State.stackBack_kept (Kept.refl [.col, .dram] s) rfl).start_eq rfl
  obtain ⟨hpor, -⟩ := Col.eq_of_fixed (s.stackBack_col_fixed k temp keep)
  simp only [State.live, hstart, hpor]

theorem State.logFlush_dram (s : State) : s.logFlush.dram = s.dram :=
  (State.logFlush_kept (Kept.refl [.pfMsix, .irqs, .ras] s) rfl).dram_eq rfl

theorem State.logFlush_stack (s : State) (k : Stack) : s.logFlush.stack k = s.stack k :=
  congrArg (fun d : DramSt => tget d.stk k) s.logFlush_dram

theorem State.stackExit_of_ok {s : State} {k : Stack} (h : s.sentinelOk k = true) (temp : Option Int) :
    s.stackExit k temp = (s.stackBack k temp (s.recBand k), true) := by
  simp only [State.stackExit, h, if_true]

theorem State.stackExit_of_not_ok {s : State} {k : Stack} (h : s.sentinelOk k = false) (temp : Option Int) :
    s.stackExit k temp = ((s.stackBack k temp (s.recBand k)).log 3 0x09 5 (detailOf k.val 0), false) := by
  simp only [State.stackExit, h, Bool.false_eq_true, if_false]

/-- R291: in a warm start a stack leaves self-refresh, and the start goes on where the sentinel is right. -/
theorem exec_selfRefreshExit {s : State} {k : Stack} (temp : Option Int) (hsr : (s.stack k).sr = true)
    (hp : s.start.phase = .bringUp) (hk : s.start.kind = 2) (hstop : s.start.stop = none) :
    exec (.selfRefreshExit k temp) s = .next (if (s.stackExit k temp).2 then (s.stackExit k temp).1.logFlush
      else (s.stackExit k temp).1.failStart 3) := by
  have hc : ((s.stack k).sr && s.start.phase == .bringUp && s.start.kind == 2 && s.start.stop.isNone) = true := by
    simp [hsr, hp, hk, hstop]
  simp only [exec, execSelfRefreshExit, s.when_true _ hc]

theorem exec_selfRefreshExit_of_ok {s : State} {k : Stack} {temp : Option Int} (hsr : (s.stack k).sr = true)
    (hp : s.start.phase = .bringUp) (hk : s.start.kind = 2) (hstop : s.start.stop = none) (hok : s.sentinelOk k = true) :
    ∃ t, exec (.selfRefreshExit k temp) s = .next t ∧ (t.stack k).sr = false ∧ (t.stack k).pll = true ∧ (t.stack k).lost = none
      ∧ (∀ x, temp = some x → (t.stack k).band = s.bandAt (x / 16)) ∧ tget t.col.srRec k = none
      ∧ (∀ g, g ∈ stackGroups k → tget t.dram.owed g = 0) := by
  obtain ⟨h1, h2, h3, h4, -⟩ := s.stackBack_stack k temp (s.recBand k)
  rw [exec_selfRefreshExit temp hsr hp hk hstop, State.stackExit_of_ok hok]
  simp only [if_true]
  refine ⟨_, rfl, ?_⟩
  rw [State.logFlush_stack, State.logFlush_col, State.logFlush_dram]
  exact ⟨h1, h2, h3, h4, s.stackBack_srRec k temp _, fun g => s.stackBack_owed temp _⟩

/-- R291, R74: a wrong sentinel fails the start. -/
theorem exec_selfRefreshExit_of_not_ok {s : State} {k : Stack} {temp : Option Int} (hsr : (s.stack k).sr = true)
    (hp : s.start.phase = .bringUp) (hk : s.start.kind = 2) (hstop : s.start.stop = none) (hl : s.live = true)
    (hok : s.sentinelOk k = false) :
    ∃ t, exec (.selfRefreshExit k temp) s = .next t ∧ t.start.cause = 3 ∧ t.start.stop = some .failedStart
      ∧ t.start.phase = .failed := by
  rw [exec_selfRefreshExit temp hsr hp hk hstop, State.stackExit_of_not_ok hok]
  simp only [Bool.false_eq_true, if_false]
  have hlive : ((s.stackBack k temp (s.recBand k)).log 3 0x09 5 (detailOf k.val 0)).live = true := by
    rw [State.log_live, State.stackBack_live, hl]
  obtain ⟨hcause, hphase, hs⟩ := State.failStart_start hlive 3
  exact ⟨_, rfl, hcause, hs, hphase⟩

/-! ## DRAM PLLs (R292) -/

theorem State.settleLedger_group (s : State) (k : Stack) (g : Group) : (s.settleLedger k).group g = s.group g := rfl

/-- R292: a group that is issued again later does not fire; the other groups are as they were. -/
theorem State.refire_fire (s : State) (g h : Group) :
    ((s.refire g).group h).fire = if g = h then none else (s.group h).fire := by
  unfold State.refire
  split
  next hg =>
    split
    · subst g; exact hg
    · rfl
  next f hg =>
    have key : ((s.setGroup g (fun x => { x with fire := none, lastUse := s.now })).group h).fire
        = if g = h then none else (s.group h).fire := by
      split
      · subst g; simp [State.group]
      · simp [State.group, tget_updWith_other _ _ ‹_›]
    dsimp only
    rw [State.settleLedger_group]
    split <;> exact key

/-- R292: a DRAM PLL loses lock. -/
theorem exec_dramPllLockLost {s : State} {k : Stack} (hp : (s.stack k).pll = true) (hlost : (s.stack k).lost = none) :
    ∃ t, exec (.dramPllLockLost k) s = .next t ∧ (t.stack k).pll = false ∧ (t.stack k).lost = some 0 ∧ (t.stack k).switching = none
      ∧ t.lockLoss = min (s.lockLoss + 1) 255 ∧ (∀ g, g ∈ stackGroups k → (t.group g).fire = none) := by
  have hc : ((s.stack k).pll && (s.stack k).lost.isNone) = true := by simp [hp, hlost]
  simp only [exec, execDramPllLockLost, s.when_true _ hc]
  generalize hu : s.countLock.setStack k _ = u
  have hstack : (u.stack k).pll = false ∧ (u.stack k).lost = some 0 ∧ (u.stack k).switching = none := by
    rw [← hu, State.setStack_stack_same]
    exact ⟨rfl, rfl, rfl⟩
  have hlock : u.lockLoss = min (s.lockLoss + 1) 255 := hu ▸ s.countLock_lockLoss
  have ht : Kept [.pfMsix, .irqs, .ras, .spur] u ((u.log 0 0x09 3 (detailOf k.val 0)).each (stackGroups k) State.refire) :=
    Kept.each (State.log_kept (Kept.refl _ u) rfl) (fun v g hv => State.refire_kept hv rfl)
  obtain ⟨h1, h2, h3⟩ := hstack
  rw [← ht.stack_eq rfl k] at h1 h2 h3
  refine ⟨_, rfl, h1, h2, h3, (ht.lockLoss_eq rfl).trans hlock, fun g hg => ?_⟩
  refine State.each_establishes (L := [.spur]) (P := fun v => (v.group g).fire = none)
    (fun v a => State.refire_kept (Kept.refl _ v) rfl) (fun v _ => ?_) (fun v a hag hv => ?_) hg
  · rw [State.refire_fire, if_pos rfl]
  · rw [State.refire_fire, if_neg hag, hv]

/-- R292: a relock succeeds. -/
theorem exec_dramPllRelockDone_of_locked {s : State} {k : Stack} {n : Nat} {temp : Option Int} (h : (s.stack k).lost = some n) :
    ∃ t, exec (.dramPllRelockDone k true temp) s = .next t ∧ (t.stack k).pll = true ∧ (t.stack k).lost = none
      ∧ (t.stack k).band = (match temp with | some x => s.bandAt (x / 16) | none => (s.stack k).band) := by
  obtain ⟨-, hpll, hlost, hsome, hnone⟩ := s.stackBack_stack k temp (s.stack k).band
  simp only [exec, execDramPllRelockDone, h, if_true]
  refine ⟨_, rfl, ?_⟩
  rw [State.logFlush_stack]
  refine ⟨hpll, hlost, ?_⟩
  cases temp with
  | none => exact hnone rfl
  | some x => exact hsome x rfl

/-- R292: the first two relocks that fail are counted. -/
theorem exec_dramPllRelockDone_of_failed {s : State} {k : Stack} {n : Nat} {temp : Option Int} (h : (s.stack k).lost = some n)
    (hn : n < 2) :
    ∃ t, exec (.dramPllRelockDone k false temp) s = .next t ∧ (t.stack k).lost = some (n + 1) ∧ Only [.dram] s t := by
  simp only [exec, execDramPllRelockDone, h, Bool.false_eq_true, if_false, if_pos (show n + 1 < 3 by omega)]
  refine ⟨_, rfl, ?_, (State.setStack_kept (Kept.refl _ s) rfl).only⟩
  rw [State.setStack_stack_same]

/-- R430: a device-fatal error in a running device. -/
theorem State.deviceFatal_start {s : State} (h : s.live = true) :
    s.deviceFatal.start.cause = 5 ∧ s.deviceFatal.start.stop = some .fatal ∧ s.deviceFatal.start.phase = .failed := by
  have hl : (s.setCause 5).live = true := h
  rw [State.deviceFatal, if_pos h, State.orderlyStop_start hl]
  exact ⟨rfl, rfl, rfl⟩

/-- R292: the third relock that fails is device-fatal. -/
theorem exec_dramPllRelockDone_fatal {s : State} {k : Stack} {n : Nat} {temp : Option Int} (h : (s.stack k).lost = some n)
    (hn : 2 ≤ n) (hl : s.live = true) :
    ∃ t, exec (.dramPllRelockDone k false temp) s = .next t ∧ t.start.cause = 5 ∧ t.start.stop = some .fatal
      ∧ t.start.phase = .failed := by
  simp only [exec, execDramPllRelockDone, h, Bool.false_eq_true, if_false, if_neg (show ¬ n + 1 < 3 by omega)]
  exact ⟨_, rfl, State.deviceFatal_start ((State.log_live ..).trans hl)⟩

/-- Settles O26: a clause for each command, by its rule above. -/
theorem scrubSelfRefreshRelock : Obligations.ScrubSelfRefreshRelock := by
  unfold Obligations.ScrubSelfRefreshRelock
  exact ⟨fun _ _ => exec_scrubStep, fun _ _ _ => exec_selfRefreshExit_of_ok, fun _ _ _ => exec_selfRefreshExit_of_not_ok,
    fun _ _ => exec_dramPllLockLost, fun _ _ _ _ => exec_dramPllRelockDone_of_locked,
    fun _ _ _ _ => exec_dramPllRelockDone_of_failed, fun _ _ _ _ => exec_dramPllRelockDone_fatal⟩


/-! ## States that meet the hypotheses -/

@[simp] theorem State.reset_stack (k : Stack) : State.reset.stack k = StackSt.reset := tget_rep _ _
@[simp] theorem State.reset_chan (c : Chan) : State.reset.chan c = ChanSt.reset := tget_rep _ _
@[simp] theorem State.reset_group (g : Group) : State.reset.group g = GroupSt.reset := tget_rep _ _

/-- After reset, but for stack 0, which has its PLL, and a correctable error in its first word. -/
def oneStackUp : State :=
  let s := State.reset.setStack 0 (fun x => { x with pll := true })
  { s with dram := { s.dram with flaws := [(0, .ce)] } }

/-- After reset, but for a warm start in bring-up with stack 0 in self-refresh and its record in Col. -/
def oneStackAsleep : State :=
  let s := State.reset.setStack 0 (fun x => { x with sr := true, sentinel := some (0, 77) })
  { s with
    col := { s.col with por := false, srRec := upd s.col.srRec 0 (some { time := 77, band := 2 }) }
    start := { s.start with phase := .bringUp, kind := 2, resetHeld := false } }

theorem oneStackUp_stack : oneStackUp.stack 0 = { StackSt.reset with pll := true } := by
  rw [← State.reset_stack 0]
  exact State.setStack_stack_same _ _ _

theorem oneStackAsleep_stack : oneStackAsleep.stack 0 = { StackSt.reset with sr := true, sentinel := some (0, 77) } := by
  rw [← State.reset_stack 0]
  exact State.setStack_stack_same _ _ _

theorem oneStackUp_up : oneStackUp.stackUp 0 = true := by
  rw [State.stackUp, oneStackUp_stack]
  rfl

/-- Cairn is blank, so each bound is 0 °C, and a reading of 0 °C asks for the top band. -/
theorem bandSwitch_oneStackUp : ∃ t, exec (.bandSwitch 0 4) oneStackUp = .next t ∧ (t.stack 0).switching = some (4, 0) := by
  have h := oneStackUp_stack
  obtain ⟨t, ht, hsw, -⟩ := exec_bandSwitch (s := oneStackUp) (k := 0) (b := 4) oneStackUp_up (by rw [h]; rfl) rfl
    (by rw [h]; decide) (by rw [h]; rfl)
  exact ⟨t, ht, hsw⟩

/-- The correctable error does not stop the scrub. -/
theorem scrubStep_oneStackUp : ∃ t, exec (.scrubStep 0) oneStackUp = .next t ∧ (t.chan 0).scrubPos = 1 ∧ t.dram.mem = [] := by
  have hchan : oneStackUp.chan 0 = ChanSt.reset := State.reset_chan 0
  have hcanon : Canon oneStackUp := { resetIsCanonical with flaws := rfl }
  obtain ⟨t, ht, hpos, hmem, -⟩ := exec_scrubStep (c := 0) hcanon rfl oneStackUp_up rfl
    (congrArg GroupSt.fire (State.reset_group _)) (by rw [hchan]; rfl) (by rw [hchan]; decide)
  exact ⟨t, ht, by rw [hpos, hchan]; rfl, hmem⟩

/-- The record and the sentinel agree: the stack comes back. -/
theorem selfRefreshExit_oneStackAsleep :
    ∃ t, exec (.selfRefreshExit 0 (some 800)) oneStackAsleep = .next t ∧ (t.stack 0).sr = false ∧ (t.stack 0).pll = true := by
  have h := oneStackAsleep_stack
  obtain ⟨t, ht, hsr, hpll, -⟩ := exec_selfRefreshExit_of_ok (s := oneStackAsleep) (k := 0) (temp := some 800) (by rw [h]) rfl rfl rfl
    (by rw [State.sentinelOk, h]; rfl)
  exact ⟨t, ht, hsr, hpll⟩

/-- A sentinel that reads wrong fails the start. -/
theorem selfRefreshExit_sentinelBad : ∃ t,
    exec (.selfRefreshExit 0 none) (oneStackAsleep.setStack 0 (fun x => { x with sentinelBad := true })) = .next t
      ∧ t.start.cause = 3 ∧ t.start.phase = .failed := by
  have h := (oneStackAsleep.setStack_stack_same 0 (fun x => { x with sentinelBad := true })).trans (by rw [oneStackAsleep_stack])
  obtain ⟨t, ht, hcause, -, hphase⟩ := exec_selfRefreshExit_of_not_ok (temp := none) (by rw [h]) rfl rfl rfl rfl
    (by rw [State.sentinelOk, h]; rfl)
  exact ⟨t, ht, hcause, hphase⟩

end Sys2Proof.Machine

/-! # Optics ports

O42: the commands of the physical layer of a Chrodom port. Most clauses are of one command on one port and follow its branches. The
first is of a whole loop frame, whose work reaches every operation of sweeps, slots, moves and calibration: `FramesAt` says that none
of them counts a frame, operation by operation, so that the last line of RING_FRAME alone does. -/

namespace Sys2Proof.Machine

/-! ## Ports and links -/

/-- Every part of the state but the ports. -/
def butPorts : List Slice := slicesBut [.ports]

/-- Every part of the state but the links. -/
def butLinks : List Slice := slicesBut [.links]

theorem Kept.port_eq {L : List Slice} {s t : State} (h : Kept L s t) (n : L.contains .ports = false) (q : Port) : t.port q = s.port q := by
  simp only [State.port, h.ports_eq n]

theorem Kept.link_eq {L : List Slice} {s t : State} (h : Kept L s t) (n : L.contains .links = false) (q : Port) : t.link q = s.link q := by
  simp only [State.link, h.links_eq n]

namespace State

@[simp] theorem setLink_port (s : State) (p : Port) (f : LinkSt → LinkSt) (q : Port) : (s.setLink p f).port q = s.port q := rfl
@[simp] theorem setPort_link (s : State) (p : Port) (f : PortSt → PortSt) (q : Port) : (s.setPort p f).link q = s.link q := rfl
@[simp] theorem log_port (s : State) c b e d o st a x q : (s.log c b e d o st a x).port q = s.port q :=
  (State.log_kept (.refl butPorts _) rfl).port_eq rfl q
@[simp] theorem log_link (s : State) c b e d o st a x q : (s.log c b e d o st a x).link q = s.link q :=
  (State.log_kept (.refl butLinks _) rfl).link_eq rfl q
@[simp] theorem swapFail_port (s : State) p d q : (s.swapFail p d).port q = s.port q :=
  (State.swapFail_kept (.refl butPorts _) rfl).port_eq rfl q

section
variable {γ : Type} (s : State) (p : Port) (g : PortSt → γ)

/-- What an update of one port keeps of that port is kept of every port. -/
theorem setPort_port_keeps {f : PortSt → PortSt} (h : g (f (s.port p)) = g (s.port p)) (q : Port) :
    g ((s.setPort p f).port q) = g (s.port q) := by
  by_cases e : p = q
  · subst e
    rw [State.setPort_port_same, h]
  · rw [State.setPort_port_other _ _ e]

/-- R394: a rollback changes the sweeps and the rings of its port, and nothing else of a port. -/
theorem slotBack_port_keeps (hacq : ∀ r l, g { r with acq := l } = g r) (hring : ∀ r l, g { r with rings := l } = g r) (c : Nat)
    (q : Port) : g ((s.slotBack p c).port q) = g (s.port q) := by
  unfold slotBack
  split
  · split
    · rfl
    · split
      · exact setPort_port_keeps _ p g (hacq _ _) q
      · exact (congrArg g (log_port ..)).trans ((setPort_port_keeps _ p g (hring _ _) q).trans (setPort_port_keeps _ p g (hacq _ _) q))
  · rfl

theorem linkLeave_port_keeps (hacq : ∀ r l, g { r with acq := l } = g r) (hring : ∀ r l, g { r with rings := l } = g r) (st : LinkState)
    (q : Port) : g ((s.linkLeave p st).port q) = g (s.port q) :=
  (congrArg g (swapFail_port ..)).trans (slotBack_port_keeps s p g hacq hring 2 q)

end

theorem slotBack_of_no_slot {s : State} {p : Port} (h : (s.link p).slot = none) (c : Nat) : s.slotBack p c = s := by
  simp only [slotBack, h]

/-- Without a slot there is nothing to roll back, and a link that leaves service leaves the ports as they are. -/
theorem linkLeave_port_of_no_slot {s : State} {p : Port} (h : (s.link p).slot = none) (st : LinkState) (q : Port) :
    (s.linkLeave p st).port q = s.port q := by
  rw [linkLeave, slotBack_of_no_slot h, setLink_port, swapFail_port]

theorem linkLeave_st (s : State) (p : Port) (st : LinkState) : ((s.linkLeave p st).link p).st = st := by
  rw [linkLeave, setLink_link_same]

/-- R344: a link that retrains changes no port, when it has no slot to roll back. -/
theorem linkRetrain_port_of_no_slot {s : State} {p : Port} (h : (s.link p).slot = none) (q : Port) :
    (s.linkRetrain p).port q = s.port q := by
  simp only [linkRetrain]
  split
  · have hp : (((s.linkLeave p .retrain).setLink p (fun l => { l with retrains := satAdd l.retrains 1 0xFFFF })).log 0 0x0B 2
        (detailOf p.val 0)).port q = s.port q :=
      (log_port ..).trans (linkLeave_port_of_no_slot h _ q)
    split
    · exact ((State.sendCsync_kept (.refl butPorts _) rfl).port_eq rfl q).trans hp
    · exact hp
  · rfl

end State

/-! ## What counts no frame: the conversions and loops of a port (R312 to R321) -/

namespace PortSt

@[simp] theorem keep_frame (r : PortSt) (w : Nat) : (r.keep w).frame = r.frame := by
  unfold keep
  split <;> rfl

@[simp] theorem dwell_frame (r : PortSt) (codes : List Nat) (slots i gain : Nat) : (r.dwell codes slots i gain).1.frame = r.frame := by
  simp only [dwell]
  split
  · rfl
  · split <;> exact keep_frame _ _

@[simp] theorem dwellIf_frame (r : PortSt) (codes : List Nat) (slots i gain : Nat) :
    (r.dwellIf codes slots i gain).1.frame = r.frame := by
  unfold dwellIf
  split
  · exact dwell_frame ..
  · rfl

@[simp] theorem scanRings_frame (r : PortSt) (codes : List Nat) : (r.scanRings codes).1.frame = r.frame :=
  List.foldlRecOn (motive := fun x : PortSt × Nat × List Bool => x.1.frame = r.frame) _ _ rfl
    (fun _ hx _ _ => (dwell_frame ..).trans hx)

@[simp] theorem scanTap_frame (r : PortSt) (codes : List Nat) (slots : Nat) : (r.scanTap codes slots).1.frame = r.frame := by
  simp only [scanTap]
  split <;> exact dwellIf_frame ..

@[simp] theorem serveReq_frame (r : PortSt) (codes : List Nat) (slots : Nat) : (r.serveReq codes slots).1.frame = r.frame := by
  unfold serveReq
  extract_lets gain c w y
  have hy : y.1.frame = r.frame := dwellIf_frame ..
  clear_value y
  split
  · split
    · rfl
    · exact keep_frame _ _
  · split <;> exact hy

@[simp] theorem servePoint_frame (r : PortSt) (codes : List Nat) (slots now : Nat) (i : Fin 2) :
    (r.servePoint codes slots now i).1.frame = r.frame := by
  unfold servePoint
  extract_lets gap due y
  have hy : y.1.frame = r.frame := dwellIf_frame ..
  clear_value y due
  split
  · split <;> exact hy
  · rfl

@[simp] theorem scan_frame (r : PortSt) (codes : List Nat) (now : Nat) : (r.scan codes now).1.frame = r.frame := by
  have h : ((r.scanRings codes).1.scanTap codes (r.scanRings codes).2.1).1.frame = r.frame := by simp
  simp only [scan]
  split
  · exact (dwellIf_frame ..).trans h
  · split
    · exact (serveReq_frame ..).trans h
    · exact ((servePoint_frame ..).trans (servePoint_frame ..)).trans h

@[simp] theorem boundary_frame (r : PortSt) : r.boundary.frame = r.frame := by
  simp only [boundary]
  split <;> rfl

theorem loops_frame (r : PortSt) (fresh : List Bool) : (r.loops fresh).frame = r.frame := rfl

/-- The lanes of a direction in training are mapped: nothing else of the port changes. -/
theorem trainDir_frame (r : PortSt) (rx : Bool) (now : Nat) : (r.trainDir rx now).frame = r.frame := by
  cases rx
  · refine List.foldlRecOn (motive := fun x : PortSt => x.frame = r.frame) _ _ rfl (fun x hx l _ => ?_)
    split <;> exact hx
  · rfl

theorem setState_bringUpSweeps_frame (r : PortSt) (n : Nat) : ({ r with state := n } : PortSt).bringUpSweeps.frame = r.frame := rfl

theorem trainBoth_frame (r : PortSt) (now : Nat) :
    ({ (r.trainDir false now).trainDir true now with state := 3 } : PortSt).bringUpSweeps.frame = r.frame :=
  (setState_bringUpSweeps_frame _ 3).trans ((trainDir_frame ..).trans (trainDir_frame ..))

end PortSt

/-! ## What counts no frame: the operations of sweeps, slots, moves and links -/

/-- The index of the loop frame of each port is as given. -/
def FramesAt (F : Port → Nat) (s : State) : Prop := ∀ q, (s.port q).frame = F q

namespace FramesAt

section
variable {F : Port → Nat} {s t : State} {p : Port}

theorem self (s : State) : FramesAt (fun q => (s.port q).frame) s := fun _ => rfl

/-- An operation that does not touch the ports counts no frame: its law says so. -/
theorem of_kept (h : FramesAt F s) (k : Kept butPorts s t) : FramesAt F t :=
  fun q => (congrArg PortSt.frame (k.port_eq rfl q)).trans (h q)

theorem setPort {f : PortSt → PortSt} (h : FramesAt F s) (hf : (f (s.port p)).frame = (s.port p).frame := by rfl) :
    FramesAt F (s.setPort p f) :=
  fun q => (s.setPort_port_keeps p PortSt.frame hf q).trans (h q)

theorem ite {c : Prop} [Decidable c] (h : FramesAt F s) (k : FramesAt F t) : FramesAt F (if c then s else t) := by
  split
  · exact h
  · exact k

theorem each {α : Type} {f : State → α → State} {l : List α} (h : FramesAt F s) (k : ∀ v a, FramesAt F v → FramesAt F (f v a)) :
    FramesAt F (s.each l f) :=
  State.each_inv h (fun v a _ hv => k v a hv)

/-! ### Entries and records -/

theorem setLink {f : LinkSt → LinkSt} (h : FramesAt F s) : FramesAt F (s.setLink p f) := h
theorem setRing {k : Fin 36} {f : RingSt → RingSt} (h : FramesAt F s) : FramesAt F (s.setRing p k f) := h.setPort
theorem setPos {rx : Bool} {g : Pos} {v : GState} (h : FramesAt F s) : FramesAt F (s.setPos p rx g v) := h.setPort
theorem setCal {f : CalRun → CalRun} (h : FramesAt F s) : FramesAt F (s.setCal p f) := h.setPort
theorem setAcq {a b : AcqSt} (h : FramesAt F s) : FramesAt F (s.setAcq p a b) := h.setPort
theorem dropAcq {a : AcqSt} (h : FramesAt F s) : FramesAt F (s.dropAcq p a) := h.setPort
theorem ringDone {k : Fin 36} (h : FramesAt F s) : FramesAt F (s.ringDone p k) := h.setRing
theorem calNext {n : Nat} (h : FramesAt F s) : FramesAt F (s.calNext p n) := h.setCal
theorem calCount {i : Fin 4} (h : FramesAt F s) : FramesAt F (s.calCount p i) := h
theorem slotOver (h : FramesAt F s) : FramesAt F (s.slotOver p) := h.setLink.setPort

theorem log {cls : Fin 4} {b e d st : Nat} {o : Option Part} {a : Bool} {x : Option (Nat × Nat)} (h : FramesAt F s) :
    FramesAt F (s.log cls b e d o st a x) :=
  h.of_kept (State.log_kept (.refl _ _) rfl)

theorem sendCtl {n : Nat} {l : List (Nat × Nat × Nat)} {vc : Fin 4} (h : FramesAt F s) : FramesAt F (s.sendCtl p n l vc) :=
  h.of_kept (State.sendCtl_kept (.refl _ _) rfl)

theorem sweepFailed {rx : Bool} {g : Pos} {c : Nat} (h : FramesAt F s) : FramesAt F (s.sweepFailed p rx g c) := h.calCount.log

theorem setFault {rx : Bool} {g : Pos} (h : FramesAt F s) : FramesAt F (s.setFault p rx g) := h.setPos.setPort.log

/-! ### Slots and moves (R325, R326, R392 to R394) -/

theorem slotBack {c : Nat} (h : FramesAt F s) : FramesAt F (s.slotBack p c) :=
  fun q => (s.slotBack_port_keeps p PortSt.frame (fun _ _ => rfl) (fun _ _ => rfl) c q).trans (h q)

theorem slotAbort {c : Nat} (h : FramesAt F s) : FramesAt F (s.slotAbort p c) := by
  unfold State.slotAbort
  split
  · exact h.sendCtl.slotBack
  · exact h

theorem startMove {g : Pos} {c : Nat} {o : Option Nat} (h : FramesAt F s) : FramesAt F (s.startMove p g c o) := by
  unfold State.startMove
  extract_lets r
  split
  · exact h
  · refine ite h ?_
    extract_lets u _ w
    have hu : FramesAt F u := h.setPort
    split
    · exact hu.setPort.sendCtl
    · have hw : FramesAt F w := hu.setPort
      split
      · exact ite hw.slotAbort hw
      · exact hw

theorem becomeWarm {rx : Bool} {g : Pos} (h : FramesAt F s) : FramesAt F (s.becomeWarm p rx g) := by
  unfold State.becomeWarm
  refine ite h.setPos ?_
  split
  · exact h.setPos.startMove
  · exact h.setPos

theorem posFault {rx : Bool} {g : Pos} {c : Nat} (h : FramesAt F s) : FramesAt F (s.posFault p rx g c) := by
  unfold State.posFault
  extract_lets running early
  split
  · have hu : FramesAt F (if running && early then s.slotOver p else s) := ite h.slotOver h
    exact ite hu.sendCtl hu.startMove
  · exact ite h.slotAbort h.setFault
  · exact h
  · exact h
  · exact setFault (ite h.sendCtl h)
  · exact h.setFault

/-! ### Links and the state of a port (R324, R343 to R345) -/

theorem linkLeave {st : LinkState} (h : FramesAt F s) : FramesAt F (s.linkLeave p st) :=
  fun q => (s.linkLeave_port_keeps p PortSt.frame (fun _ _ => rfl) (fun _ _ => rfl) st q).trans (h q)

theorem linkRetrain (h : FramesAt F s) : FramesAt F (s.linkRetrain p) := by
  unfold State.linkRetrain
  refine ite ?_ h
  extract_lets u v w
  have hw : FramesAt F w := h.linkLeave.setLink.log
  exact ite (hw.of_kept (State.sendCsync_kept (.refl _ _) rfl)) hw

theorem linkDown (h : FramesAt F s) : FramesAt F (s.linkDown p) := ite h h.linkLeave.setLink

theorem portTry (h : FramesAt F s) : FramesAt F (s.portTry p) := by
  unfold State.portTry
  extract_lets r
  split
  · exact h.setPort ((s.port p).trainBoth_frame s.now)
  · exact h

theorem portUp (h : FramesAt F s) : FramesAt F (s.portUp p) :=
  ite (h.setPort.of_kept (State.linkStart_kept (.refl _ _) rfl)) h

theorem portDark {n : Nat} (h : FramesAt F s) : FramesAt F (s.portDark p n) := h.slotBack.setLink.setPort

/-! ### Acquisition (R391, R393) -/

theorem startAcq {rx : Bool} {g : Pos} {b : Bool} (h : FramesAt F s) : FramesAt F (s.startAcq p rx g b) := h.setRing.setPort

theorem acqFail {a : AcqSt} {n : Nat} (h : FramesAt F s) : FramesAt F (s.acqFail p a n) := by
  unfold State.acqFail
  extract_lets u v
  have hu : FramesAt F u := h.dropAcq.sweepFailed
  refine ite (slotAbort ?_) (ite hu.startAcq hu)
  subst v
  split
  · exact ite hu.sendCtl hu
  · exact hu

theorem acqDone {a : AcqSt} (h : FramesAt F s) : FramesAt F (s.acqDone p a) := by
  unfold State.acqDone
  extract_lets u
  have hu : FramesAt F u := h.dropAcq.ringDone
  refine ite ?_ (ite (ite hu.becomeWarm hu.setPos) hu)
  split
  · exact ite hu.sendCtl.slotOver.becomeWarm.calCount hu.setLink.sendCtl
  · exact hu

theorem acqEnd {a : AcqSt} (h : FramesAt F s) : FramesAt F (s.acqEnd p a) := by
  unfold State.acqEnd
  refine ite ?_ ?_ <;> split
  · exact h.setRing.setAcq
  · exact h.acqFail
  · exact h.setRing.setAcq
  · exact ite h.acqFail h.setAcq

theorem acqFrame {fresh : List Bool} {a : AcqSt} (h : FramesAt F s) : FramesAt F (s.acqFrame p fresh a) :=
  ite (ite h (ite h h.acqDone)) (ite h.acqFail (ite h (ite h.acqEnd h.setRing.setAcq)))

theorem acqFrames {fresh : List Bool} (h : FramesAt F s) : FramesAt F (s.acqFrames p fresh) := h.each (fun _ _ hv => hv.acqFrame)

/-! ### Full calibration (R386 to R390) -/

theorem calLeave {ok : Bool} (h : FramesAt F s) : FramesAt F (s.calLeave p ok) := by
  have hu : FramesAt F (s.setPort p (fun r => { r with cal := none })) := h.setPort
  exact of_kept (t := s.calLeave p ok) hu (State.fullCheck_kept (Kept.set_cal (.refl _ _) rfl) rfl)

theorem calFail (h : FramesAt F s) : FramesAt F (s.calFail p) := h.setPort.sweepFailed.calLeave

theorem calRingOff {g : Pos} (h : FramesAt F s) : FramesAt F (s.calRingOff p g) := h.setRing.setCal.sweepFailed.setFault

theorem calF1 (h : FramesAt F s) : FramesAt F (s.calF1 p) :=
  calNext (setPort (h.each (fun _ _ hv => (hv.of_kept (State.draw_kept (.refl _ _) rfl)).setPort)))

theorem calF2 {c : CalRun} (h : FramesAt F s) : FramesAt F (s.calF2 p c) := by
  unfold State.calF2
  extract_lets seen
  split
  · split
    · exact ite h.setCal h
    · exact ite (ite h.setPort.calNext h.setCal) h
  · exact h

theorem calSetEnd {c : CalRun} {g : Pos} (h : FramesAt F s) : FramesAt F (s.calSetEnd p c g) := by
  unfold State.calSetEnd
  refine ite ?_ ?_
  · extract_lets t k
    split
    · exact h.setCal.setRing
    · exact h.calRingOff
  · split
    · exact h.setRing.setCal
    · exact h.calRingOff

theorem calSweep {fresh : List Bool} {c : CalRun} (h : FramesAt F s) : FramesAt F (s.calSweep p fresh c) := by
  unfold State.calSweep
  extract_lets r l n c' u v w
  have hu : FramesAt F u := h.each (fun _ _ hv => hv.calSetEnd)
  have hv : FramesAt F v := hu.calNext
  exact ite h.calFail (ite h (ite (ite (ite hv (hv.each (fun _ _ hx => hx.setRing))) hu.setCal)
    (h.each (fun _ _ hx => hx.setRing)).setCal))

theorem calF5 {c : CalRun} (h : FramesAt F s) : FramesAt F (s.calF5 p c) :=
  ite (ite h.setCal h) (ite (h.setCal.each (fun _ _ hv => hv.setRing)) (ite h (ite (h.each (fun _ _ hv => hv.setRing)).setCal
    (ite h.setCal (h.setPort.each (fun _ _ hv => hv.setRing)).calNext))))

theorem calF6 {c : CalRun} (h : FramesAt F s) : FramesAt F (s.calF6 p c) :=
  ite (h.each (fun _ _ hv => hv.ringDone)).calLeave h

theorem calFrame {fresh : List Bool} (h : FramesAt F s) : FramesAt F (s.calFrame p fresh) := by
  unfold State.calFrame
  split
  · exact ite h.calF1 (ite h.calF2 (ite h.calSweep (ite h.calF5 h.calF6)))
  · exact h

/-! ### The parts of a loop frame -/

theorem ringUnlock {k : Fin 36} (h : FramesAt F s) : FramesAt F (s.ringUnlock p k) := by
  unfold State.ringUnlock
  extract_lets rx g u v w
  have hw : FramesAt F w := h.setRing.setPort.log
  refine ite hw.calRingOff ?_
  split
  · exact hw.acqFail
  · exact hw.posFault

theorem slotEnter (h : FramesAt F s) : FramesAt F (s.slotEnter p) := by
  unfold State.slotEnter
  split
  · exact ite (ite h.setPos.setLink.setRing h.setPos.setLink.startAcq) h
  · exact h

theorem slotRested (h : FramesAt F s) : FramesAt F (s.slotRested p) := by
  unfold State.slotRested
  split
  · exact ite h.slotOver.becomeWarm h
  · exact h

theorem txRested (h : FramesAt F s) : FramesAt F (s.txRested p) := h.each (fun _ _ hv => ite hv.becomeWarm hv)

theorem portFollow (h : FramesAt F s) : FramesAt F (s.portFollow p) := by
  unfold State.portFollow
  extract_lets r u
  have hu : FramesAt F u := h.portDark
  refine ite ?_ h.portTry.portUp
  split
  · exact hu.linkRetrain
  · exact hu.linkDown
  · exact hu.linkDown
  · exact hu

theorem seatCheck {b : Bool} (h : FramesAt F s) : FramesAt F (s.seatCheck p b) := by
  unfold State.seatCheck
  refine ite h ?_
  extract_lets u die v
  have hu : FramesAt F u := h.setPort
  have hv : FramesAt F v := hu.of_kept (State.seatFault_kept (.refl _ _) rfl)
  exact ite (hv.each (fun _ _ hx => ite hx.setPort hx)) hu

end

end FramesAt

/-! ## Loop frames and conversions (R312, R321, R322) -/

/-- R312: the last line of a loop frame counts it, and nothing before it does. -/
theorem exec_ringFrame {s : State} {p : Port} {codes : List Nat} (hlock : s.start.sysLock = true) (hreset : s.start.resetHeld = false) :
    ∃ t, exec (.ringFrame p codes) s = .next t ∧ (t.port p).frame = (s.port p).frame + 1 := by
  have hc : (s.start.sysLock && ! s.start.resetHeld) = true := by rw [hlock, hreset]; rfl
  refine ⟨_, congrArg Host.Outcome.next (s.when_true _ hc), ?_⟩
  extract_lets x scanned worked looped locked rested followed
  have hscanned : FramesAt (fun q => (s.port q).frame) scanned := (FramesAt.self s).setPort (PortSt.scan_frame ..)
  have hworked : FramesAt _ worked := hscanned.acqFrames.calFrame
  have hlooped : FramesAt _ looped := hworked.setPort ((PortSt.loops_frame ..).trans (PortSt.boundary_frame _))
  have hlocked : FramesAt _ locked := hlooped.each (fun _ _ hv => hv.ringUnlock.ite hv)
  have hrested : FramesAt _ rested := hlocked.slotEnter.slotRested.txRested
  have hfollowed : FramesAt _ followed :=
    (hrested.portFollow.of_kept (State.seatRetry_kept (.refl _ _) rfl)).seatCheck
  exact (congrArg PortSt.frame (State.setPort_port_same ..)).trans (congrArg (· + 1) (hfollowed p))

/-- R321: the request of the host waits for the converter. -/
theorem exec_adcRequest {s : State} {p : Port} {v : W32} (hs : s.served = true) (hr : s.isReady = true) (hi : fld v.toNat 5 0 < 40) :
    ∃ t, exec (.adcRequest p v) s = .next t ∧ (t.port p).reqIn = fld v.toNat 5 0 ∧ (t.port p).reqGain = fld v.toNat 9 8
      ∧ (t.port p).reqImm = bitAt v.toNat 10 ∧ (t.port p).reqPend = true ∧ Only [.ports] s t := by
  have hc : (s.served && s.isReady) = true := by rw [hs, hr]; rfl
  simp only [exec, execAdcRequest, s.when_true _ hc, State.adcRequest, if_pos hi]
  refine ⟨_, rfl, ?_⟩
  rw [State.setPort_port_same]
  exact ⟨rfl, rfl, rfl, rfl, (State.setPort_kept (.refl _ s) rfl).only⟩

/-! ## Positions and lanes (R324, R325) -/

namespace PortSt

@[simp] theorem setPos_pos_same (r : PortSt) (rx : Bool) (g : Pos) (v : GState) : (r.setPos rx g v).pos rx g = v := by
  simp only [pos, setPos, tget_updWith_same, tget_upd_same]

theorem setPos_pos_other (r : PortSt) (rx : Bool) {g h : Pos} (v : GState) (e : g ≠ h) : (r.setPos rx g v).pos rx h = r.pos rx h := by
  simp only [pos, setPos, tget_updWith_same, tget_upd_other _ _ e]

@[simp] theorem setLane_lmap_same (r : PortSt) (rx : Bool) (l : Lane) (g : Pos) :
    tget (tget (r.setLane rx l g).lmap (dirIdx rx)) l = g := by
  simp only [setLane, tget_updWith_same, tget_upd_same]

end PortSt

/-- R324, R391: a position goes into FAULT, and its attempts are counted from then. -/
theorem State.setFault_port (s : State) (p : Port) (rx : Bool) (g : Pos) :
    (s.setFault p rx g).port p = { (s.port p).setPos rx g .fault with
      tried := updWith (s.port p).tried (dirIdx rx) (fun t => upd t g (0, s.now)) } := by
  rw [State.setFault, State.log_port, State.setPort_port_same, State.setPos, State.setPort_port_same]
  rfl

/-- R326: a receive position that its lane has left goes into FAULT on every cause but a slot and a retrain. -/
theorem State.leavePos_of_fault {s : State} {p : Port} {g : Pos} {cause : Nat} (hpend : (tget (s.port p).trk g).pend = false)
    (h0 : cause ≠ 0) (h3 : cause ≠ 3) : s.leavePos p true g cause = s.setFault p true g := by
  simp [State.leavePos, hpend, h0, h3]

/-- R325: a receive lane rides its spare, and the position it left is in FAULT. -/
theorem State.moveDone_rx {s : State} {p : Port} {m : LaneMove} (h : (s.port p).rxMoves = [m])
    (hpend : (tget (s.port p).trk m.frm).pend = false) (h0 : m.cause ≠ 0) (h3 : m.cause ≠ 3) (hne : m.frm ≠ m.dst) :
    tget (tget ((s.moveDone p true m).port p).lmap 1) m.lane = m.dst ∧ (s.moveDone p true m).pos p true m.dst = .active
      ∧ (s.moveDone p true m).pos p true m.frm = .fault ∧ ((s.moveDone p true m).port p).rxMoves = []
      ∧ ((s.moveDone p true m).port p).cMoves = satAdd (s.port p).cMoves 1 0xFFFF := by
  simp only [State.moveDone]
  rw [State.leavePos_of_fault (by rw [State.setPort_port_same]; exact hpend) h0 h3]
  simp only [State.pos, State.setFault_port, State.setPort_port_same]
  refine ⟨PortSt.setLane_lmap_same _ true _ _, ?_, PortSt.setPos_pos_same .., ?_, rfl⟩
  · exact (PortSt.setPos_pos_other _ _ _ hne).trans (PortSt.setPos_pos_same ..)
  · show (s.port p).rxMoves.filter _ = []
    rw [h]
    simp

/-- R325: the switch of a receive lane onto its spare, at the first frame at which the spare is WARM. -/
theorem exec_laneMoveSwitch_rx {s : State} {p : Port} {m : LaneMove} (h : (s.port p).rxMoves = [m])
    (hn : reached ((s.port p).rxFrame s.now) m.n = true) (hw : (s.port p).pos true m.dst = .warm) (h0 : m.cause ≠ 0) (h3 : m.cause ≠ 3)
    (hpend : (tget (s.port p).trk m.frm).pend = false) (hne : m.frm ≠ m.dst) :
    ∃ t, exec (.laneMoveSwitch p true) s = .next t ∧ tget (tget (t.port p).lmap 1) m.lane = m.dst ∧ t.pos p true m.dst = .active
      ∧ t.pos p true m.frm = .fault ∧ (t.port p).rxMoves = [] ∧ (t.port p).cMoves = satAdd (s.port p).cMoves 1 0xFFFF := by
  have hfind : (s.port p).rxMoves.find? (fun m => reached ((s.port p).rxFrame s.now) m.n) = some m := by
    rw [h]
    exact List.find?_cons_of_pos (a := m) hn
  refine ⟨s.moveDone p true m, ?_, State.moveDone_rx h hpend h0 h3 hne⟩
  simp only [exec, execLaneMoveSwitch, hfind, hw, if_true]

/-! ## Training headers (R323) -/

/-- R323: one good header of the position's own GRID reports the peer; it takes 8 to align the position. -/
theorem exec_frameAligned_of_one {s : State} {p : Port} {g : Pos} {h : List Byte} (h3 : 3 ≤ (s.port p).state)
    (h7 : (s.port p).state < 7) (hok : hdrOk h = true) (hg : hdrField h 36 32 = g.val) :
    ∃ t, exec (.frameAligned p g [h]) s = .next t ∧ (t.port p).peer = some (hdrField h 44 40, hdrField h 39 37) ∧ Only [.ports] s t := by
  have hc : (decide (3 ≤ (s.port p).state) && decide ((s.port p).state < 7)) = true := by
    rw [decide_eq_true h3, decide_eq_true h7]; rfl
  have hgood : [h].filter hdrOk = [h] := by rw [List.filter_singleton, hok]; rfl
  simp only [exec, execFrameAligned, s.when_true _ hc, hgood, List.getLast?_singleton, List.any_cons, List.any_nil, hg, ne_eq,
    not_true_eq_false, decide_false, Bool.or_self, Bool.false_eq_true, if_false, List.length_singleton,
    show decide (8 ≤ 1) = false from rfl, Bool.false_and]
  refine ⟨_, rfl, ?_, (State.setPort_kept (.refl _ s) rfl).only⟩
  rw [State.setPort_port_same]

/-! ## Trackers and retrains (R328 to R330) -/

/-- R328: a double step is counted, and fewer than three of them make no retrain due. -/
theorem exec_trackerDoubleStep {s : State} {p : Port} {g : Pos} (ha : s.pos p true g = .active)
    (hl : (tget (s.port p).trk g).dsRec.length < 2) :
    ∃ t, exec (.trackerDoubleStep p g) s = .next t
      ∧ (tget (t.port p).trk g).double = satAdd (tget (s.port p).trk g).double 1 0xFFFF
      ∧ (tget (t.port p).trk g).dsRec = (tget (s.port p).trk g).dsRec ++ [s.time] ∧ Only [.ports] s t := by
  have hlen : ¬ 3 ≤ ((tget (s.port p).trk g).dsRec ++ [s.time]).length := by
    rw [List.length_append, List.length_singleton]; omega
  have hc : (s.pos p true g == .active || s.pos p true g == .warm) = true := by rw [ha]; rfl
  simp only [exec, execTrackerDoubleStep, s.when_true _ hc, decide_eq_false hlen, if_neg hlen, Bool.false_and, Bool.not_false,
    if_true]
  refine ⟨_, rfl, ?_⟩
  rw [State.setPort_port_same, tget_updWith_same]
  exact ⟨rfl, rfl, (State.setPort_kept (.refl _ s) rfl).only⟩

/-- R329: a retrain that is not done in 500 µs leaves the position in FAULT. -/
theorem exec_positionRetrainTimeout {s : State} {p : Port} {g : Pos} {a : Nat} (hr : s.pos p true g = .retrain)
    (ha : (tget (s.port p).trk g).since = some a) (hlate : a + usCyc 500 ≤ s.now) :
    ∃ t, exec (.positionRetrainTimeout p g) s = .next t ∧ t.pos p true g = .fault ∧ (tget (t.port p).trk g).since = none := by
  have hc : (s.pos p true g == .retrain && s.past a (usCyc 500)) = true := by rw [hr, State.past_of_le hlate]; rfl
  simp only [exec, execPositionRetrainTimeout, ha, s.when_true _ hc]
  refine ⟨_, rfl, ?_⟩
  rw [State.pos, State.setFault_port, State.setPort_port_same]
  exact ⟨PortSt.setPos_pos_same .., congrArg TrackSt.since (tget_updWith_same ..)⟩

/-- R330: a direction retrains as a whole, and the port is in RETRAIN. -/
theorem State.dirRetrain_state {s : State} {p : Port} (h : (s.link p).slot = none) (rx : Bool) :
    ((s.dirRetrain p rx).port p).state = 5 := by
  rw [State.dirRetrain, State.slotBack_of_no_slot h, State.linkRetrain_port_of_no_slot (by rw [State.setPort_link, h]),
    State.setPort_port_same]
  cases rx <;> rfl

/-- R330: a move of the transmitter waits for a spare, and no position is WARM. -/
theorem exec_directionRetrain_tx {s : State} {p : Port} {m : LaneMove} (h4 : (s.port p).state = 4) (hm : m ∈ (s.port p).txMoves)
    (hwait : m.dst = m.frm) (hwarm : (s.port p).inState false .warm = []) (hslot : (s.link p).slot = none) :
    ∃ t, exec (.directionRetrain p false) s = .next t ∧ (t.port p).state = 5 := by
  have hneed : (s.port p).txMoves.any (fun m => m.dst == m.frm) = true := List.any_eq_true.mpr ⟨m, hm, beq_iff_eq.mpr hwait⟩
  refine ⟨s.dirRetrain p false, ?_, State.dirRetrain_state hslot false⟩
  simp only [exec, execDirectionRetrain, h4, hneed, hwarm, hslot]
  exact congrArg _ (s.when_true _ rfl)

/-! ## The link PLL (R331) -/

/-- R324: without light a port does not train. -/
theorem State.portTry_of_dark {s : State} {p : Port} (h : (s.port p).txLight = false) : s.portTry p = s :=
  if_neg (fun ⟨_, _, _, hl⟩ => Bool.false_ne_true (h.symm.trans hl))

/-- R331: the first lock of an enabled port. -/
theorem exec_linkPllLocked {s : State} {p : Port} (h1 : (s.port p).state = 1) (hpll : (s.port p).pll = false)
    (hlost : (s.port p).lost = false) (hdark : (s.port p).txLight = false) :
    ∃ t, exec (.linkPllLocked p) s = .next t ∧ (t.port p).pll = true ∧ (t.port p).state = 2 ∧ (t.port p).txBase = s.now
      ∧ Only [.ports] s t := by
  have hc : (decide ((s.port p).state = 1) && ! (s.port p).pll && ! (s.port p).lost) = true := by rw [h1, hpll, hlost]; rfl
  simp only [exec, execLinkPllLocked, s.when_true _ hc]
  rw [State.portTry_of_dark (by rw [State.setPort_port_same]; exact hdark)]
  refine ⟨_, rfl, ?_⟩
  rw [State.setPort_port_same]
  exact ⟨rfl, rfl, rfl, (State.setPort_kept (.refl _ s) rfl).only⟩

/-- R331: a port whose PLL loses lock while its link is down: its positions are OFF, and its rings stay in their modes. -/
theorem exec_linkPllLockLost_of_down {s : State} {p : Port} (hpll : (s.port p).pll = true) (hdown : (s.link p).st = .down)
    (hslot : (s.link p).slot = none) :
    ∃ t, exec (.linkPllLockLost p) s = .next t ∧ (t.port p).pll = false ∧ (t.port p).state = 1 ∧ (t.port p).lost = true
      ∧ (∀ (rx : Bool) (g : Pos), t.pos p rx g = .off) ∧ ∀ k, (t.ring p k).mode = (s.ring p k).mode := by
  simp only [exec, execLinkPllLockLost, s.when_true _ hpll, State.portDark, State.slotBack_of_no_slot hslot, State.setLink_link_same,
    State.setPort_link, hdown]
  refine ⟨_, rfl, ?_⟩
  simp only [State.pos, State.ring, State.setLink_port, State.setPort_port_same, true_and]
  refine ⟨fun rx g => ?_, fun _ => rfl⟩
  simp only [PortSt.pos, tget_rep]

/-- R331: what the end of an attempt to relock does, by its number and by whether the PLL locked. -/
theorem exec_linkPllRelockDone {s : State} {p : Port} (h1 : (s.port p).state = 1) (hpll : (s.port p).pll = false)
    (hlost : (s.port p).lost = true) (hdark : (s.port p).txLight = false) :
    (∃ t, exec (.linkPllRelockDone p true) s = .next t ∧ (t.port p).pll = true ∧ (t.port p).state = 2 ∧ (t.port p).lost = false)
    ∧ ((s.port p).tries + 1 < 3 → ∃ t, exec (.linkPllRelockDone p false) s = .next t ∧ (t.port p).tries = (s.port p).tries + 1
        ∧ (t.port p).state = 1)
    ∧ (3 ≤ (s.port p).tries + 1 → ∃ t, exec (.linkPllRelockDone p false) s = .next t ∧ (t.port p).state = 7
        ∧ (t.link p).st = .failed) := by
  have hc : (decide ((s.port p).state = 1) && ! (s.port p).pll && (s.port p).lost) = true := by rw [h1, hpll, hlost]; rfl
  simp only [exec, execLinkPllRelockDone, s.when_true _ hc, State.setPort_port_same, if_true, Bool.false_eq_true, if_false]
  refine ⟨?_, fun hn => ?_, fun hn => ?_⟩
  · rw [State.portTry_of_dark (by simp only [State.setPort_port_same]; exact hdark)]
    refine ⟨_, rfl, ?_⟩
    rw [State.setPort_port_same]
    exact ⟨rfl, rfl, rfl⟩
  · rw [if_neg (by omega)]
    refine ⟨_, rfl, ?_⟩
    rw [State.setPort_port_same]
    exact ⟨rfl, h1⟩
  · rw [if_pos hn]
    refine ⟨_, rfl, ?_, ?_⟩
    · rw [State.log_port, State.linkLeave_port_keeps _ _ PortSt.state (fun _ _ => rfl) (fun _ _ => rfl), State.setPort_port_same]
    · rw [State.log_link, State.linkLeave_st]

/-- Settles O42: a clause for each command, by its rule above. -/
theorem opticsPort : Obligations.OpticsPort := by
  unfold Obligations.OpticsPort
  exact ⟨fun _ _ _ => exec_ringFrame, fun _ _ _ => exec_adcRequest, fun _ _ _ => exec_laneMoveSwitch_rx,
    fun _ _ _ _ => exec_frameAligned_of_one, fun _ _ _ => exec_trackerDoubleStep, fun _ _ _ _ => exec_positionRetrainTimeout,
    fun _ _ _ => exec_directionRetrain_tx, fun _ _ => exec_linkPllLocked, fun _ _ => exec_linkPllLockLost_of_down,
    fun _ _ => exec_linkPllRelockDone⟩

/-! ## States that meet the hypotheses of O42 -/

/-- After reset, but for port 0. -/
def onePort (f : PortSt → PortSt) : State := State.reset.setPort 0 f

@[simp] theorem onePort_port (f : PortSt → PortSt) : (onePort f).port 0 = f PortSt.reset :=
  (State.setPort_port_same ..).trans (congrArg f (State.reset_port 0))

@[simp] theorem onePort_link (f : PortSt → PortSt) (p : Port) : (onePort f).link p = LinkSt.reset := State.reset_link p

/-- A device that is READY, with its system clock. -/
def readyState : State :=
  { State.reset with
    col := { Col.reset with por := false }
    start := { StartSt.reset with phase := .ready, hostIf := true, sysLock := true, resetHeld := false } }

/-- A loop frame of a dark port. -/
theorem ringFrame_readyState : ∃ t, exec (.ringFrame 0 []) readyState = .next t ∧ (t.port 0).frame = 1 := by
  obtain ⟨t, ht, hf⟩ := exec_ringFrame (s := readyState) (p := 0) (codes := []) rfl rfl
  exact ⟨t, ht, hf.trans (congrArg (fun r => PortSt.frame r + 1) (State.reset_port 0))⟩

/-- A request of laser tap B, input 37, at gain 2. -/
theorem adcRequest_readyState : ∃ t, exec (.adcRequest 0 0x225) readyState = .next t ∧ (t.port 0).reqIn = 37 ∧ (t.port 0).reqGain = 2 := by
  obtain ⟨t, ht, hin, hgain, -⟩ := exec_adcRequest (s := readyState) (p := 0) (v := 0x225) rfl rfl (by decide)
  exact ⟨t, ht, hin, hgain⟩

/-- Lane 3 is to leave position 0 for the spare, position 17, on the cause of an unlocked ring. -/
def moveToSpare : LaneMove := { lane := 3, frm := 0, dst := 17, cause := 2, n := 0, acked := true }

/-- The spare is WARM at the switch frame itself. -/
def warmSpare : State := onePort (fun r => { r.setPos true 17 .warm with rxMoves := [moveToSpare] })

theorem laneMoveSwitch_warmSpare : ∃ t, exec (.laneMoveSwitch 0 true) warmSpare = .next t
    ∧ tget (tget (t.port 0).lmap 1) 3 = 17 ∧ t.pos 0 true 0 = .fault := by
  have h : warmSpare.port 0 = { PortSt.reset.setPos true 17 .warm with rxMoves := [moveToSpare] } := onePort_port _
  obtain ⟨t, ht, hlane, -, hfault, -⟩ := exec_laneMoveSwitch_rx (s := warmSpare) (p := 0) (m := moveToSpare) (by rw [h])
    (by rw [h]; decide) (by rw [h]; exact PortSt.setPos_pos_same ..) (by decide) (by decide)
    (by rw [h]; exact congrArg TrackSt.pend (tget_rep TrackSt.reset 0)) (by decide)
  exact ⟨t, ht, hlane, hfault⟩

/-- R323: a training header of GRID 4 from port 2 of device 9, and its CRC-32C. -/
def headerOfNine : List Byte :=
  leBytes 4 0x5C3A96E1 ++ leBytes 4 (4 + 2 * 32 + 9 * 256) ++ leBytes 4 0 ++ leBytes 4 3684173211

theorem hdrOk_headerOfNine : hdrOk headerOfNine = true := by
  simp [hdrOk, headerOfNine, leBytes, leAt, leNat, crc32c, crcByte, crcBit]

/-- A port in training. -/
theorem frameAligned_onePort : ∃ t, exec (.frameAligned 0 4 [headerOfNine]) (onePort (fun r => { r with state := 3 })) = .next t
    ∧ (t.port 0).peer = some (9, 2) := by
  obtain ⟨t, ht, hpeer, -⟩ := exec_frameAligned_of_one (p := 0) (g := 4) (h := headerOfNine)
    (s := onePort (fun r => { r with state := 3 })) (by rw [onePort_port]) (by rw [onePort_port]; decide)
    hdrOk_headerOfNine (by decide)
  exact ⟨t, ht, hpeer⟩

/-- Position 5 is ACTIVE and has one double step on record. -/
def oneDoubleStep : State :=
  onePort (fun r => { r.setPos true 5 .active with trk := rep 18 { TrackSt.reset with double := 1, dsRec := [0] } })

theorem trackerDoubleStep_oneDoubleStep : ∃ t, exec (.trackerDoubleStep 0 5) oneDoubleStep = .next t
    ∧ (tget (t.port 0).trk 5).double = 2 ∧ (tget (t.port 0).trk 5).dsRec = [0, 0] := by
  have h : oneDoubleStep.port 0
      = { PortSt.reset.setPos true 5 .active with trk := rep 18 { TrackSt.reset with double := 1, dsRec := [0] } } := onePort_port _
  obtain ⟨t, ht, hdouble, hrec, -⟩ := exec_trackerDoubleStep (s := oneDoubleStep) (p := 0) (g := 5)
    (by rw [State.pos, h]; exact PortSt.setPos_pos_same ..) (by rw [h, tget_rep]; decide)
  rw [h, tget_rep] at hdouble hrec
  exact ⟨t, ht, hdouble, hrec⟩

/-- A position whose retrain began at reset, 500 µs later. -/
def lateRetrain : State :=
  { onePort (fun r => { r.setPos true 5 .retrain with trk := rep 18 { TrackSt.reset with since := some 0 } }) with
    col := { Col.reset with cyc := 12500 } }

theorem positionRetrainTimeout_lateRetrain : ∃ t, exec (.positionRetrainTimeout 0 5) lateRetrain = .next t ∧ t.pos 0 true 5 = .fault := by
  have h : lateRetrain.port 0 = { PortSt.reset.setPos true 5 .retrain with trk := rep 18 { TrackSt.reset with since := some 0 } } :=
    onePort_port _
  obtain ⟨t, ht, hfault, -⟩ := exec_positionRetrainTimeout (s := lateRetrain) (p := 0) (g := 5) (a := 0)
    (by rw [State.pos, h]; exact PortSt.setPos_pos_same ..) (by rw [h]; exact congrArg TrackSt.since (tget_rep ..)) (by decide)
  exact ⟨t, ht, hfault⟩

/-- Lane 3 is to leave position 0, and there is no spare. -/
theorem directionRetrain_onePort : ∃ t,
    exec (.directionRetrain 0 false) (onePort (fun r => { r with state := 4, txMoves := [{ moveToSpare with dst := 0 }] })) = .next t
      ∧ (t.port 0).state = 5 :=
  exec_directionRetrain_tx (p := 0) (m := { moveToSpare with dst := 0 }) (by rw [onePort_port])
    (by rw [onePort_port]; exact List.mem_singleton_self _) rfl (by rw [onePort_port]; decide) (by rw [onePort_link]; rfl)

/-- The first lock, and its loss with the link DOWN. -/
theorem linkPllLocked_onePort : ∃ t, exec (.linkPllLocked 0) (onePort (fun r => { r with state := 1 })) = .next t
    ∧ (t.port 0).pll = true := by
  obtain ⟨t, ht, hpll, -⟩ := exec_linkPllLocked (s := onePort (fun r => { r with state := 1 })) (p := 0) (by rw [onePort_port])
    (by rw [onePort_port]; rfl) (by rw [onePort_port]; rfl) (by rw [onePort_port]; rfl)
  exact ⟨t, ht, hpll⟩

theorem linkPllLockLost_onePort : ∃ t, exec (.linkPllLockLost 0) (onePort (fun r => { r with state := 2, pll := true })) = .next t
    ∧ (t.port 0).pll = false ∧ (t.port 0).lost = true := by
  obtain ⟨t, ht, hpll, -, hlost, -⟩ := exec_linkPllLockLost_of_down (s := onePort (fun r => { r with state := 2, pll := true })) (p := 0)
    (by rw [onePort_port]) (by rw [onePort_link]; rfl) (by rw [onePort_link]; rfl)
  exact ⟨t, ht, hpll, hlost⟩

/-- The third attempt fails: the port and its link are FAILED. -/
theorem linkPllRelockDone_onePort : ∃ t,
    exec (.linkPllRelockDone 0 false) (onePort (fun r => { r with state := 1, lost := true, tries := 2 })) = .next t
      ∧ (t.port 0).state = 7 ∧ (t.link 0).st = .failed := by
  have h := onePort_port (fun r => { r with state := 1, lost := true, tries := 2 })
  obtain ⟨-, -, hfail⟩ := exec_linkPllRelockDone (p := 0) (by rw [h]) (by rw [h]; rfl) (by rw [h]) (by rw [h]; rfl)
  exact hfail (by rw [h])

end Sys2Proof.Machine

/-! # The link layer

O40 and O41: flits, bringing a link up, and what the two ends of a link agree on. A command of this layer changes the one link it names
and, by its messages, the transmit side of that link: `LinkSt.rest` is a link without that side, so that one equation says what
sending, acknowledging and counting credits leave alone. -/

namespace Sys2Proof.Machine

/-! ## The transmit side of a link (R336, R339, R341, R342) -/

/-- A link apart from its transmit side (what waits, what is unacknowledged, the credits) and its counts of corrected symbols. -/
def LinkSt.rest (l : LinkSt) : LinkSt :=
  { l with txq := [], replay := [], txSeq := 0, cred := rep 8 0, seen := rep 8 0, sentAt := 0, resent := 0, fecCe := 0
           fecWin := rep 16 (0, 0) }

namespace LinkSt

/-- Two links that agree apart from the transmit side agree in what does not read that side. -/
theorem eq_of_rest {γ : Type} {a b : LinkSt} (g : LinkSt → γ) (h : a.rest = b.rest) (hg : ∀ l, g l.rest = g l := by exact fun _ => rfl) :
    g a = g b := by
  rw [← hg a, h, hg b]

theorem sendOne_rest {l l' : LinkSt} {now : Nat} {f : Flit} (h : l.sendOne now = some (f, l')) : l'.rest = l.rest := by
  simp only [sendOne] at h
  split at h
  · cases h
  · split at h
    · cases h
      rfl
    · cases h

@[simp] theorem ackTo_rest (l : LinkSt) (ack now : Nat) : (l.ackTo ack now).rest = l.rest := by
  unfold ackTo
  split
  · rfl
  · extract_lets n
    split <;> rfl

theorem credit_rest (l : LinkSt) (i : Fin 8) (freed : Nat) : (l.credit i freed).rest = l.rest := rfl

theorem credits_rest (l : LinkSt) (freed : List Nat) (is : List (Fin 8)) :
    (is.foldl (fun l i => l.credit i (freed.getD i.val 0)) l).rest = l.rest :=
  List.foldlRecOn (motive := fun x : LinkSt => x.rest = l.rest) _ _ rfl (fun x hx i _ => (x.credit_rest i _).trans hx)

/-- R339: an ACK that leaves a flit unacknowledged: the flits up to it leave the buffer, and the next has been sent once. -/
theorem ackTo_of_some {l : LinkSt} {f : Flit} {r : List Flit} {ack now n : Nat} (h : l.replay = f :: r)
    (hn : (ack + 65536 - f.seq + 1) % 65536 = n) (h1 : 1 ≤ n) (hr : n ≤ r.length) :
    l.ackTo ack now = { l with replay := (f :: r).drop n, resent := 1, sentAt := now } := by
  have hcover : ¬ (n = 0 ∨ (f :: r).length < n) := by rw [List.length_cons]; omega
  unfold ackTo
  rw [h]
  simp only [hn, if_neg hcover]

end LinkSt

namespace State

/-- What an update of a link keeps of it. -/
theorem setLink_link_keeps {γ : Type} (s : State) (p : Port) (g : LinkSt → γ) {f : LinkSt → LinkSt}
    (h : ∀ l, g (f l) = g l := by exact fun _ => rfl) : g ((s.setLink p f).link p) = g (s.link p) :=
  (congrArg g (s.setLink_link_same p f)).trans (h _)

/-- What leaves a port changes nothing of its link but the transmit side. -/
theorem pump_rest (s : State) (p : Port) (n : Nat) : ((s.pump p n).link p).rest = (s.link p).rest := by
  induction n generalizing s with
  | zero => rfl
  | succ n ih =>
    unfold pump
    split
    · next f l h =>
      have hl : ((s.setLink p (fun _ => l)).link p).rest = (s.link p).rest :=
        (congrArg LinkSt.rest (s.setLink_link_same p _)).trans (LinkSt.sendOne_rest h)
      refine (ih _).trans ?_
      split <;> exact hl
    · rfl

/-- R336: symbols that no lane has corrected report no position. -/
theorem fecSeen_nil_rest (s : State) (p : Port) : ((s.fecSeen p []).link p).rest = (s.link p).rest := by
  refine State.each_inv (P := fun v => (v.link p).rest = (s.link p).rest) rfl (fun v i _ hv => ?_)
  extract_lets n l w w' u
  have hu : (u.link p).rest = (s.link p).rest := (v.setLink_link_keeps p LinkSt.rest).trans hv
  have hn : n = 0 := rfl
  rwa [if_neg (by omega)]

/-! ## Sending again (R339, R340) -/

/-- R339: what is unacknowledged is sent again; before the eighth sending of the oldest flit the link goes on. -/
theorem replayAll_of_some {s : State} {p : Port} {f : Flit} {l : List Flit} (h : (s.link p).replay = f :: l)
    (h8 : (s.link p).resent + 1 < 8) :
    s.replayAll p = s.setLink p (fun l => { l with replays := satAdd l.replays 1 0xFFFF, resent := l.resent + 1, sentAt := s.now }) := by
  simp only [replayAll, h, List.isEmpty_cons, Bool.false_eq_true, if_false, if_neg (Nat.not_le.mpr h8)]

/-! ## A link that leaves service (R344) -/

theorem linkRetrain_of_not_up {s : State} {p : Port} (h : (s.link p).st ≠ .up) : s.linkRetrain p = s := if_neg h

@[simp] theorem mbxDone_link (s : State) st res hint q : (s.mbxDone st res hint).link q = s.link q :=
  (State.mbxDone_kept (.refl butLinks _) rfl).link_eq rfl q

section
variable {γ : Type} (s : State) (p : Port) (g : LinkSt → γ)

/-- R394: a rollback changes the slot of its link, and nothing else of the link. -/
theorem slotBack_link_keeps (hslot : ∀ l x e, g { l with slot := x, slotEnd := e } = g l) (c : Nat) :
    g ((s.slotBack p c).link p) = g (s.link p) := by
  unfold slotBack
  split
  · next x _ =>
    split
    · rfl
    · split
      · exact s.setLink_link_keeps p g (f := fun l => { l with slot := none, slotEnd := s.now }) (fun _ => hslot ..)
      · extract_lets u v w
        have hu : g (u.link p) = g (s.link p) := s.setLink_link_keeps p g (fun l => hslot l _ l.slotEnd)
        have hrest : Kept butLinks u (w.calCount p 1) :=
          State.calCount_kept (State.setRing_kept (State.setPort_kept (.refl _ _) rfl) rfl) rfl
        rw [log_link, hrest.link_eq rfl, hu]
  · rfl

/-- R350: the end of a swap changes nothing else of the link. -/
theorem swapFail_link_keeps (hswap : ∀ l w, g { l with swap := w } = g l) (down : Bool) :
    g ((s.swapFail p down).link p) = g (s.link p) := by
  have hfail := s.setLink_link_keeps p g (f := fun l => { l with swap := .none }) (fun _ => hswap _ _)
  have hanswer (h : Bool) (t : State) (ht : g (t.link p) = g (s.link p)) :
      g ((if h then t.mbxDone (stRefused 0xE) else t).link p) = g (s.link p) := by
    cases h
    · exact ht
    · exact (congrArg g (mbxDone_link ..)).trans ht
  unfold swapFail
  split
  · split
    · exact hanswer _ _ hfail
    · rfl
  · exact hanswer _ _ hfail
  · rfl

/-- R344: a link that leaves service changes its slot, its swap and what names its state, and nothing else of the link. -/
theorem linkLeave_link_keeps (hslot : ∀ l x e, g { l with slot := x, slotEnd := e } = g l) (hswap : ∀ l w, g { l with swap := w } = g l)
    (hleave : ∀ l st a, g { l with st := st, csyncOk := false, nakAt := none, resent := 0, outAt := a } = g l) (st : LinkState) :
    g ((s.linkLeave p st).link p) = g (s.link p) :=
  (setLink_link_keeps _ p g (fun _ => hleave _ _ _)).trans ((swapFail_link_keeps _ p g hswap _).trans (slotBack_link_keeps s p g hslot 2))

end

theorem linkLeave_csyncOk (s : State) (p : Port) (st : LinkState) : ((s.linkLeave p st).link p).csyncOk = false := by
  rw [linkLeave, setLink_link_same]

/-- R344: an UP link that retrains: it is counted, its locks stay, and its handshake begins. -/
theorem linkRetrain_link_of_up {s : State} {p : Port} (h : (s.link p).st = .up) :
    ((s.linkRetrain p).link p).st = .retrain ∧ ((s.linkRetrain p).link p).locked = (s.link p).locked
      ∧ ((s.linkRetrain p).link p).csyncOk = false ∧ ((s.linkRetrain p).link p).retrains = satAdd (s.link p).retrains 1 0xFFFF := by
  have hst := s.linkLeave_st p .retrain
  have hcsync := s.linkLeave_csyncOk p .retrain
  have hlocked := s.linkLeave_link_keeps p LinkSt.locked (fun _ _ _ => rfl) (fun _ _ => rfl) (fun _ _ _ => rfl) .retrain
  have hretrains := s.linkLeave_link_keeps p LinkSt.retrains (fun _ _ _ => rfl) (fun _ _ => rfl) (fun _ _ _ => rfl) .retrain
  simp only [linkRetrain, if_pos h]
  split
  · simp only [sendCsync, sendFlit, setLink_link_same, log_link]
    exact ⟨hst, hlocked, hcsync, congrArg (satAdd · 1 0xFFFF) hretrains⟩
  · simp only [setLink_link_same, log_link]
    exact ⟨hst, hlocked, hcsync, congrArg (satAdd · 1 0xFFFF) hretrains⟩

/-- R357: what a link gives up, and the rest of it. -/
theorem linkGiveUp_link (s : State) (p : Port) :
    (s.linkGiveUp p).link p = { s.link p with replay := [], txq := [], rxPart := [], held := true } := by
  unfold linkGiveUp
  extract_lets l replies u v
  have hv : Kept butLinks u v := Kept.each (.refl _ _) (fun _ _ h => State.discarded_kept h rfl)
  refine (Kept.link_eq (L := butLinks) (s := u) (Kept.each hv (fun w r hw => ?_)) rfl p).trans (s.setLink_link_same p _)
  split
  · exact State.sendDone_kept (State.countTimeout_kept hw rfl) rfl
  · exact State.sendDone_kept hw rfl

/-! ## SYNC (R344, R345) -/

theorem syncCheck_of_no_csync {s : State} {p : Port} (h : (s.link p).csyncOk = false) : s.syncCheck p = s := by
  simp only [syncCheck, h, Bool.and_false, Bool.false_and, Bool.false_eq_true, if_false]

theorem syncCheck_of_no_hello {s : State} {p : Port} (h : (s.link p).helloOk = false) : s.syncCheck p = s := by
  simp only [syncCheck, h, Bool.and_false, Bool.false_and, Bool.false_eq_true, if_false]

/-- R344, R345: the last part of a bring-up: the link is UP, and the end with the lower serial leads. -/
theorem syncCheck_rest_of_sync {s : State} {p : Port} (hst : (s.link p).st = .sync) (h4 : (s.port p).state = 4)
    (hhello : (s.link p).helloOk = true) (hcsync : (s.link p).csyncOk = true) (hlocked : (s.link p).locked.toList.all id = true) :
    ((s.syncCheck p).link p).rest = ({ s.link p with st := .up, lead := decide (s.col.serial < (s.link p).peerSerial), bringUp := false
                                                     mis := 0, outAt := none, held := false, nakAt := none } : LinkSt).rest := by
  have hc : (((s.link p).st == .sync || (s.link p).st == .retrain || (s.link p).st == .miswired) && (s.port p).state == 4
      && (s.link p).helloOk && (s.link p).csyncOk && (s.link p).locked.toList.all id) = true := by
    rw [hst, h4, hhello, hcsync, hlocked]; rfl
  simp only [syncCheck, if_pos hc]
  rw [pump_rest, setLink_link_same, hst, if_neg (by decide)]
  rfl

/-- R343: a CSYNC in SYNC: its ACK and its credits count, and it may complete the bring-up. -/
theorem gotCsync_of_sync {s : State} {p : Port} {ack : Nat} {freed : List Nat} (h : (s.link p).st = .sync) :
    ∃ u : State, s.gotCsync p ack freed = u.syncCheck p ∧ (u.link p).rest = ({ s.link p with csyncOk := true, nakAt := none } : LinkSt).rest
      ∧ u.port p = s.port p ∧ u.col = s.col := by
  have hstay : s.linkRetrain p = s := linkRetrain_of_not_up (by rw [h]; decide)
  unfold gotCsync
  rw [hstay]
  extract_lets v l u
  refine ⟨u, if_pos (.inl h), ?_, rfl, rfl⟩
  rw [show u.link p = _ from v.setLink_link_same p _]
  have hcredits := (LinkSt.credits_rest ((s.link p).ackTo ack s.now) freed (List.finRange 8)).trans (LinkSt.ackTo_rest ..)
  exact congrArg (fun r : LinkSt => { r with csyncOk := true, nakAt := none }) hcredits

/-- R351: a DATA flit that is not the last of its message waits for the others. -/
theorem takeData_link_of_more {γ : Type} (s : State) (p : Port) (g : LinkSt → γ) {f : Flit} (h : f.last = false)
    (hg : ∀ l r, g { l with rxPart := r } = g l := by exact fun _ _ => rfl) : g ((s.takeData p f).link p) = g (s.link p) := by
  unfold takeData
  extract_lets cls key l same old bytes pz rest u
  rw [if_neg (by rw [h, Bool.false_and]; exact Bool.false_ne_true)]
  exact s.setLink_link_keeps p g (fun _ => hg _ _)

/-- R339: with no NAK outstanding one is sent, with the last sequence accepted. -/
theorem askAgain_of_none {s : State} {p : Port} (h : (s.link p).nakAt = none) :
    s.askAgain p = (s.sendFlit p 0x102 [(s.link p).ackSeq]).setLink p (fun l => { l with nakAt := some s.now }) :=
  if_neg (by rw [h]; exact Bool.false_ne_true)

/-- R339: what a NAK does to its link. -/
theorem askAgain_link_of_none {s : State} {p : Port} (h : (s.link p).nakAt = none) :
    (s.askAgain p).link p
      = { s.link p with nakAt := some s.now, sent := (0x102, [(s.link p).ackSeq]) :: (s.link p).sent.take 31 } := by
  rw [askAgain_of_none h, setLink_link_same, sendFlit, setLink_link_same]

/-- R336, R339: a failed flit is counted and, the handshake being done, asked for again. -/
theorem askAgain_of_failed {s : State} {p : Port} (hcsync : (s.link p).csyncOk = true) (hnak : (s.link p).nakAt = none) :
    let u := (s.setLink p (fun l => { l with fecUe := satAdd l.fecUe 1 0xFFFF })).setLink p
      (fun l => { l with crcErr := satAdd l.crcErr 1 0xFFFF })
    let t := if (u.link p).csyncOk then u.askAgain p else u
    (t.link p).crcErr = satAdd (s.link p).crcErr 1 0xFFFF ∧ (t.link p).fecUe = satAdd (s.link p).fecUe 1 0xFFFF
      ∧ (t.link p).nakAt = some s.now ∧ (t.link p).sent.head? = some (0x102, [(s.link p).ackSeq])
      ∧ (t.link p).rxSeq = (s.link p).rxSeq := by
  intro u t
  have hu : u.link p = { s.link p with fecUe := satAdd (s.link p).fecUe 1 0xFFFF, crcErr := satAdd (s.link p).crcErr 1 0xFFFF } := by
    simp only [u, setLink_link_same]
  have ht : t = u.askAgain p := if_pos (by rw [hu]; exact hcsync)
  rw [ht, askAgain_link_of_none (by rw [hu]; exact hnak), hu]
  exact ⟨rfl, rfl, rfl, rfl, rfl⟩

end State

/-! ## Flits (R336 to R339) -/

/-- R336, R339: a flit whose code word fails is counted, and the flit after the last one accepted is asked for again. -/
theorem exec_flitReceive_of_failed {s : State} {p : Port} {flit : List Byte} (hup : (s.link p).st = .up)
    (hcsync : (s.link p).csyncOk = true) (hnak : (s.link p).nakAt = none) :
    ∃ t, exec (.flitReceive p flit false []) s = .next t ∧ (t.link p).crcErr = satAdd (s.link p).crcErr 1 0xFFFF
      ∧ (t.link p).fecUe = satAdd (s.link p).fecUe 1 0xFFFF ∧ (t.link p).nakAt = some s.now
      ∧ (t.link p).sent.head? = some (0x102, [(s.link p).ackSeq]) ∧ (t.link p).rxSeq = (s.link p).rxSeq := by
  have hc : ((s.link p).st != .down && (s.link p).st != .failed) = true := by rw [hup]; rfl
  have hnow : (s.fecSeen p []).now = s.now := (State.fecSeen_kept (.refl (slicesBut [.col]) s) rfl).now_eq rfl
  have hrest := s.fecSeen_nil_rest p
  have hseq := LinkSt.eq_of_rest LinkSt.rxSeq hrest
  obtain ⟨htcrc, htfec, htnak, htsent, htseq⟩ := State.askAgain_of_failed ((LinkSt.eq_of_rest LinkSt.csyncOk hrest).trans hcsync)
    ((LinkSt.eq_of_rest LinkSt.nakAt hrest).trans hnak)
  refine ⟨_, congrArg Host.Outcome.next (s.when_true _ hc), ?_⟩
  simp only [Bool.false_eq_true, if_false, Bool.not_false, Bool.true_or, if_true]
  rw [LinkSt.ackSeq, hseq] at htsent
  exact ⟨htcrc.trans (congrArg (satAdd · 1 0xFFFF) (LinkSt.eq_of_rest LinkSt.crcErr hrest)),
    htfec.trans (congrArg (satAdd · 1 0xFFFF) (LinkSt.eq_of_rest LinkSt.fecUe hrest)), htnak.trans (congrArg some hnow), htsent,
    htseq.trans hseq⟩

/-- R338, R339, R351: a DATA flit in sequence is taken, and ends the wait for it. -/
theorem exec_flitReceive_of_next {s : State} {p : Port} {flit : List Byte} (hup : (s.link p).st = .up)
    (hcsync : (s.link p).csyncOk = true) (hgood : flitBad flit = false) (hty : leAt flit 0 1 = 1)
    (hseq : leAt flit 2 2 = (s.link p).rxSeq) (hmore : bitAt (leAt flit 1 1) 3 = false) :
    ∃ t, exec (.flitReceive p flit true []) s = .next t ∧ (t.link p).rxSeq = ((s.link p).rxSeq + 1) % 65536 ∧ (t.link p).nakAt = none
      ∧ (t.link p).crcErr = (s.link p).crcErr := by
  have hc : ((s.link p).st != .down && (s.link p).st != .failed) = true := by rw [hup]; rfl
  refine ⟨_, congrArg Host.Outcome.next (s.when_true _ hc), ?_⟩
  extract_lets v u w ty vcf ack crd x y seq l f z
  have hread : u = v := if_pos rfl
  have hu : (u.link p).rest = (s.link p).rest := by rw [hread]; exact s.fecSeen_nil_rest p
  have hx : (x.link p).rest = (u.link p).rest := by
    refine u.setLink_link_keeps p LinkSt.rest (fun l => ?_)
    dsimp only
    split
    · exact (LinkSt.credit_rest ..).trans (LinkSt.ackTo_rest ..)
    · exact LinkSt.ackTo_rest ..
  have hy : (y.link p).rest = (s.link p).rest := (x.pump_rest p _).trans (hx.trans hu)
  have hopen : ¬ (! (u.link p).csyncOk) = true := by
    rw [show (u.link p).csyncOk = true from (LinkSt.eq_of_rest LinkSt.csyncOk hu).trans hcsync]; exact Bool.false_ne_true
  have hnext : seq = l.rxSeq := hseq.trans (LinkSt.eq_of_rest LinkSt.rxSeq hy).symm
  have hty3 : ¬ ty = 3 := by rw [show ty = 1 from hty]; decide
  have hty2 : ¬ ty = 2 := by rw [show ty = 1 from hty]; decide
  rw [if_neg (by rw [hgood]; exact Bool.false_ne_true), if_neg hty3, if_neg hopen, if_neg hty2, if_pos (show ty = 1 from hty),
    if_pos hnext]
  refine ⟨(z.takeData_link_of_more p LinkSt.rxSeq hmore).trans ?_, (z.takeData_link_of_more p LinkSt.nakAt hmore).trans ?_,
    (z.takeData_link_of_more p LinkSt.crcErr hmore).trans ?_⟩
  · exact (congrArg LinkSt.rxSeq (y.setLink_link_same p _)).trans (congrArg (fun n => (n + 1) % 65536) hseq)
  · exact congrArg LinkSt.nakAt (y.setLink_link_same p _)
  · exact (y.setLink_link_keeps p LinkSt.crcErr).trans (LinkSt.eq_of_rest LinkSt.crcErr hy)

/-! ## NAK and the replay timeout (R339) -/

/-- R339: a NAK that leaves a flit unacknowledged: its ACK counts, and the rest is sent again. -/
theorem exec_nakReceive {s : State} {p : Port} {ack n : Nat} {f : Flit} {l : List Flit} (hup : (s.link p).st = .up)
    (hreplay : (s.link p).replay = f :: l) (hn : (ack + 65536 - f.seq + 1) % 65536 = n) (h1 : 1 ≤ n) (hl : n ≤ l.length) :
    ∃ t, exec (.nakReceive p ack) s = .next t ∧ (t.link p).replay = (f :: l).drop n ∧ (t.link p).resent = 2
      ∧ (t.link p).replays = satAdd (s.link p).replays 1 0xFFFF ∧ (t.link p).sentAt = s.now := by
  obtain ⟨g, r, hdrop⟩ : ∃ g r, (f :: l).drop n = g :: r :=
    List.exists_cons_of_length_pos (by rw [List.length_drop, List.length_cons]; omega)
  have hacked : (s.setLink p (fun l => l.ackTo ack s.now)).link p
      = { s.link p with replay := (f :: l).drop n, resent := 1, sentAt := s.now } :=
    (s.setLink_link_same p _).trans (LinkSt.ackTo_of_some hreplay hn h1 hl)
  refine ⟨_, congrArg Host.Outcome.next (if_pos hup), ?_⟩
  rw [State.replayAll_of_some (f := g) (l := r) (by rw [hacked]; exact hdrop) (by rw [hacked]; show 1 + 1 < 8; decide),
    State.setLink_link_same, hacked]
  exact ⟨rfl, rfl, rfl, rfl⟩

/-- R339: the oldest unacknowledged flit has waited REPLAY_TMO. -/
theorem exec_replayTimeout {s : State} {p : Port} {f : Flit} {l : List Flit} (hup : (s.link p).st = .up)
    (hnak : (s.link p).nakAt = none) (hreplay : (s.link p).replay = f :: l) (hlate : (s.link p).sentAt + s.replayTmo p ≤ s.now)
    (h8 : (s.link p).resent + 1 < 8) :
    ∃ t, exec (.replayTimeout p) s = .next t ∧ (t.link p).replay = f :: l ∧ (t.link p).resent = (s.link p).resent + 1
      ∧ (t.link p).replays = satAdd (s.link p).replays 1 0xFFFF ∧ (t.link p).sentAt = s.now := by
  have hc : ((s.link p).st == .up) = true := by rw [hup]; rfl
  refine ⟨s.replayAll p, ?_, ?_⟩
  · simp only [exec, execReplayTimeout, s.when_true _ hc, hnak, State.past_of_le hlate, if_true]
  · rw [State.replayAll_of_some hreplay h8, State.setLink_link_same]
    exact ⟨hreplay, rfl, rfl, rfl⟩

/-! ## Bringing a link up (R336, R343 to R345) -/

/-- R343, R344: the peer's CSYNC is the last part of a bring-up whose HELLO is accepted and whose lanes are locked. -/
theorem exec_csync {s : State} {p : Port} {ack : Nat} {freed : List Nat} (hsync : (s.link p).st = .sync) (h4 : (s.port p).state = 4)
    (hhello : (s.link p).helloOk = true) (hlocked : (s.link p).locked.toList.all id = true) :
    ∃ t, exec (.csync p ack freed) s = .next t ∧ (t.link p).st = .up ∧ (t.link p).lead = decide (s.col.serial < (s.link p).peerSerial)
      ∧ (t.link p).csyncOk = true ∧ (t.link p).outAt = none := by
  obtain ⟨u, hgot, hu, hport, hcol⟩ := State.gotCsync_of_sync (ack := ack) (freed := freed) hsync
  have hup := State.syncCheck_rest_of_sync ((LinkSt.eq_of_rest LinkSt.st hu).trans hsync) (by rw [hport, h4])
    ((LinkSt.eq_of_rest LinkSt.helloOk hu).trans hhello) (LinkSt.eq_of_rest LinkSt.csyncOk hu)
    ((LinkSt.eq_of_rest (fun l => l.locked.toList.all id) hu).trans hlocked)
  have hlead := LinkSt.eq_of_rest LinkSt.lead hup
  have hserial := LinkSt.eq_of_rest LinkSt.peerSerial hu
  refine ⟨_, congrArg Host.Outcome.next hgot, LinkSt.eq_of_rest LinkSt.st hup, ?_, ?_, LinkSt.eq_of_rest LinkSt.outAt hup⟩
  · rw [hlead, hcol, hserial]
  · exact (LinkSt.eq_of_rest LinkSt.csyncOk hup).trans (LinkSt.eq_of_rest LinkSt.csyncOk hu)

/-- R345: the peer's HELLO as the structure expects it, before its CSYNC. -/
theorem exec_hello_of_match {s : State} {p : Port} {h : HelloMsg} (hsync : (s.link p).st = .sync) (hcsync : (s.link p).csyncOk = false)
    (hmis : s.helloMis p h = 0) :
    ∃ t, exec (.hello p h) s = .next t ∧ (t.link p).helloOk = true ∧ (t.link p).peerDev = h.devIndex
      ∧ (t.link p).peerPort = h.port.val ∧ (t.link p).peerSerial = h.serial ∧ (t.link p).mis = 0 ∧ (t.link p).st = .sync := by
  refine ⟨s.gotHello p h, rfl, ?_⟩
  simp only [State.gotHello, hsync, true_or, if_true, hmis]
  rw [State.syncCheck_of_no_csync (by simp only [State.setLink_link_same]; exact hcsync)]
  simp only [State.setLink_link_same, true_and]

/-- R345: a HELLO that does not match. -/
theorem exec_hello_of_mismatch {s : State} {p : Port} {h : HelloMsg} (hsync : (s.link p).st = .sync) (hmis : s.helloMis p h ≠ 0) :
    ∃ t, exec (.hello p h) s = .next t ∧ (t.link p).st = .miswired ∧ (t.link p).mis = s.helloMis p h ∧ (t.link p).helloOk = false := by
  refine ⟨s.gotHello p h, rfl, ?_⟩
  simp only [State.gotHello, hsync, true_or, if_true, if_neg hmis, State.log_link, State.setLink_link_same, true_and]

/-- R336: a lane locks while the link still waits for HELLO. -/
theorem exec_laneLocked {s : State} {p : Port} {l : Lane} (h4 : (s.port p).state = 4) (hhello : (s.link p).helloOk = false) :
    ∃ t, exec (.laneLocked p l) s = .next t ∧ tget (t.link p).locked l = true
      ∧ ∀ k, k ≠ l → tget (t.link p).locked k = tget (s.link p).locked k := by
  refine ⟨_, congrArg Host.Outcome.next (s.when_true _ (decide_eq_true h4)), ?_⟩
  rw [State.syncCheck_of_no_hello (by rw [State.setLink_link_same]; exact hhello), State.setLink_link_same]
  exact ⟨tget_upd_same .., fun k hk => tget_upd_other _ _ hk.symm⟩

/-! ## A link out of service (R344, R357) -/

/-- R336, R344: a lane of an UP link loses its lock. -/
theorem exec_laneLockLost {s : State} {p : Port} {l : Lane} (hup : (s.link p).st = .up) :
    ∃ t, exec (.laneLockLost p l) s = .next t ∧ (t.link p).st = .retrain ∧ tget (t.link p).locked l = false ∧ (t.link p).csyncOk = false
      ∧ (t.link p).retrains = satAdd (s.link p).retrains 1 0xFFFF := by
  have hu : (s.setLink p (fun x => { x with locked := upd x.locked l false })).link p
      = { s.link p with locked := upd (s.link p).locked l false } := s.setLink_link_same p _
  obtain ⟨hst, hlocked, hcsync, hretrains⟩ := State.linkRetrain_link_of_up (by rw [hu]; exact hup)
  refine ⟨_, rfl, hst, ?_, hcsync, ?_⟩
  · rw [hlocked, hu]
    exact tget_upd_same ..
  · rw [hretrains, hu]

/-- R357: a link in SYNC that has been out of service for LINK_HOLD_MS. -/
theorem exec_linkHoldExpiry {s : State} {p : Port} {a : Nat} (hsync : (s.link p).st = .sync) (hout : (s.link p).outAt = some a)
    (hheld : (s.link p).held = false) (hlate : a + msCyc s.linkHoldMs ≤ s.now) :
    ∃ t, exec (.linkHoldExpiry p) s = .next t ∧ (t.link p).replay = [] ∧ (t.link p).txq = [] ∧ (t.link p).rxPart = []
      ∧ (t.link p).held = true := by
  have hc : ((s.link p).st != .up && ! (s.link p).held && s.past a (msCyc s.linkHoldMs)) = true := by
    rw [hsync, hheld, State.past_of_le hlate]; rfl
  have hkeep : ¬ (s.link p).st = .retrain := by rw [hsync]; decide
  simp only [exec, execLinkHoldExpiry, hout, s.when_true _ hc, if_neg hkeep]
  refine ⟨_, rfl, ?_⟩
  rw [State.log_link, State.linkGiveUp_link]
  exact ⟨rfl, rfl, rfl, rfl⟩

/-- Settles O40: a clause for each command, by its rule above. -/
theorem linkFlits : Obligations.LinkFlits := by
  unfold Obligations.LinkFlits
  exact ⟨fun _ _ _ => exec_flitReceive_of_failed, fun _ _ _ => exec_flitReceive_of_next, fun _ _ _ _ _ _ => exec_nakReceive,
    fun _ _ _ _ => exec_replayTimeout, fun _ _ _ _ => exec_csync, fun _ _ _ => exec_hello_of_match,
    fun _ _ _ => exec_hello_of_mismatch, fun _ _ _ => exec_laneLocked, fun _ _ _ => exec_laneLockLost,
    fun _ _ _ => exec_linkHoldExpiry⟩

/-! ## Operations of the agreements: grants of a swap, moves to a spare (R325, R326, R350) -/

namespace State

@[simp] theorem sendCtl_port (s : State) p n l vc q : (s.sendCtl p n l vc).port q = s.port q :=
  (State.sendCtl_kept (.refl butPorts _) rfl).port_eq rfl q
@[simp] theorem sendCtl_now (s : State) p n l vc : (s.sendCtl p n l vc).now = s.now :=
  (State.sendCtl_kept (.refl [.sends, .links] _) rfl).now_eq rfl

theorem each_singleton {α : Type} (s : State) (a : α) (f : State → α → State) : s.each [a] f = f s a := rfl

@[simp] theorem setPort_now (s : State) p f : (s.setPort p f).now = s.now := rfl

/-- R350: the grant of a swap, at the end that sends it. -/
theorem sendGrant_swap (s : State) (p : Port) (byHost lead : Bool) : ((s.sendGrant p byHost lead).link p).swap =
    .granted byHost (((s.port p).txFrame s.now + 96) % 2 ^ 32) (s.now + cdiv (96 * 64) 35) lead := by
  unfold sendGrant
  extract_lets fs serial u
  rw [setLink_link_same, show u.now = s.now from sendCtl_now ..]

/-- R325, R326: a lane that no move has taken moves to the spare, 96 frames ahead. -/
theorem startMove_txMoves_of_spare {s : State} {p : Port} {frm b : Pos} {lane : Lane} {cause : Nat} (hm : (s.port p).txMoves = [])
    (hlane : (s.port p).laneAt false frm = some lane) (hb : (s.port p).spare = some b) :
    ((s.startMove p frm cause).port p).txMoves = [
      { lane := lane, frm := frm, dst := b, cause := cause, acked := false, n := ((s.port p).txFrame s.now + 96) % 2 ^ 32 }] := by
  have hn : (s.port p).nextSwitch s.now = ((s.port p).txFrame s.now + 96) % 2 ^ 32 := by rw [PortSt.nextSwitch, hm]; rfl
  simp only [startMove, hlane, hm, List.any_nil, Bool.false_eq_true, if_false, hb, sendCtl_port, setPort_port_same, setPort_now, hn,
    List.filter_nil, List.nil_append]

end State

/-! ## Role swaps (R350) -/

/-- R350: a request that crosses none is granted, and the ends exchange their roles. -/
theorem exec_swapReq {s : State} {p : Port} (hup : (s.link p).st = .up) (hswap : (s.link p).swap = .none) :
    ∃ t, exec (.swapReq p) s = .next t ∧ (t.link p).swap =
      .granted false (((s.port p).txFrame s.now + 96) % 2 ^ 32) (s.now + cdiv (96 * 64) 35) (! (s.link p).lead) := by
  refine ⟨s.sendGrant p false (! (s.link p).lead), ?_, s.sendGrant_swap ..⟩
  simp only [exec, execSwapReq, State.gotSwapReq, hup, hswap, ne_eq, not_true_eq_false, if_false]

/-- R350: the grant of a request that was not crossed; the serial in it names the end that leads. -/
theorem exec_swapGrant {s : State} {p : Port} {h : Bool} {fs serial : Nat} (hswap : (s.link p).swap = .asked h false) :
    ∃ t, exec (.swapGrant p fs serial) s = .next t ∧ (t.link p).swap =
      .granted h fs (s.now + cyclesTo ((s.port p).rxFrame s.now) fs) (decide (serial = s.col.serial)) := by
  simp only [exec, execSwapGrant, State.gotSwapGrant, hswap, Bool.and_false, Bool.false_eq_true, if_false, Bool.not_false, Bool.and_true]
  exact ⟨_, rfl, congrArg LinkSt.swap (s.setLink_link_same p _)⟩

/-- R350: without an outage to withdraw. -/
theorem State.withdraw_of_no_slot {s : State} {p : Port} (h : (s.link p).slot = none) : s.withdraw p = s := by
  simp only [State.withdraw, h]

/-- R350: at F_S an end takes its role. -/
theorem exec_roleSwapFrame {s : State} {p : Port} {fs at_ : Nat} {lead : Bool} (hup : (s.link p).st = .up)
    (hswap : (s.link p).swap = .granted false fs at_ lead) (hat : at_ ≤ s.now) (hslot : (s.link p).slot = none) :
    ∃ t, exec (.roleSwapFrame p) s = .next t ∧ (t.link p).lead = lead ∧ (t.link p).swap = .none ∧ Only [.links] s t := by
  have hc : (decide (at_ ≤ s.now) && (s.link p).st == .up) = true := by rw [decide_eq_true hat, hup]; rfl
  refine ⟨s.setLink p (fun l => { l with lead := lead, swap := .none }), ?_, ?_, ?_, (State.setLink_kept (.refl _ s) rfl).only⟩
  · simp only [exec, execRoleSwapFrame, hswap, s.when_true _ hc, State.withdraw_of_no_slot hslot, ite_self, Bool.false_eq_true, if_false]
  · rw [State.setLink_link_same]
  · rw [State.setLink_link_same]

/-! ## Lane moves (R325, R349) -/

/-- R349: MOVE is taken in place of an earlier move of the lane. -/
theorem exec_laneMoveMessage {s : State} {p : Port} {lane : Lane} {frm dst : Pos} {cause n : Nat} (hup : (s.link p).st = .up)
    (hslot : (s.link p).slot = none) :
    ∃ t, exec (.laneMoveMessage p lane frm dst cause n) s = .next t ∧ (t.port p).rxMoves = (s.port p).rxMoves.filter (fun x => x.lane ≠ lane)
      ++ [{ lane := lane, frm := frm, dst := dst, cause := cause, n := n, acked := true }] := by
  simp only [exec, execLaneMoveMessage, State.gotMove, if_pos hup, hslot]
  refine ⟨_, rfl, ?_⟩
  rw [State.sendCtl_port, State.setPort_port_same]

/-- R349: MOVE_ACK of the only move, which has a spare. -/
theorem exec_moveAck {s : State} {p : Port} {m : LaneMove} (hm : (s.port p).txMoves = [m]) (hne : m.dst ≠ m.frm) :
    ∃ t, exec (.moveAck p m.lane m.n) s = .next t ∧ (t.port p).txMoves = [{ m with acked := true }] ∧ Only [.ports] s t := by
  have hc : (s.port p).txMoves.any (fun x => x.lane == m.lane) = true := by simp [hm]
  refine ⟨s.gotMoveAck p m.n, congrArg Host.Outcome.next (s.when_true _ hc), ?_, (State.setPort_kept (.refl _ s) rfl).only⟩
  rw [State.gotMoveAck, State.setPort_port_same, hm]
  simp only [List.map_cons, List.map_nil, ne_eq, hne, not_false_eq_true, and_self, if_true]

/-- R349: MOVE_CANCEL of a move under way. -/
theorem exec_moveCancel {s : State} {p : Port} {m : LaneMove} (hm : m ∈ (s.port p).rxMoves) :
    ∃ t, exec (.moveCancel p m.lane m.n) s = .next t ∧ (t.port p).rxMoves = (s.port p).rxMoves.filter (fun x => x.n ≠ m.n)
      ∧ Only [.ports] s t := by
  have hc : (s.port p).rxMoves.any (fun x => x.lane == m.lane) = true := List.any_eq_true.mpr ⟨m, hm, beq_self_eq_true _⟩
  refine ⟨s.gotMoveCancel p m.n, congrArg Host.Outcome.next (s.when_true _ hc), ?_, (State.setPort_kept (.refl _ s) rfl).only⟩
  rw [State.gotMoveCancel, State.setPort_port_same]

/-- R326: a cause takes a transmit position with a lane out of service, and no slot runs on the link. -/
theorem State.posFault_tx_of_active {s : State} {p : Port} {g : Pos} {cause : Nat} (hslot : (s.link p).slot = none)
    (ha : s.pos p false g = .active) : s.posFault p false g cause = s.startMove p g cause := by
  simp only [State.posFault, hslot, ha, Bool.and_self, Bool.false_eq_true, if_false]

/-- R326, R349: MOVE_REQ for a fault. -/
theorem exec_moveReq {s : State} {p : Port} {lane : Lane} {frm b : Pos} {cause : Nat} (hup : (s.link p).st = .up)
    (hslot : (s.link p).slot = none) (hcause : cause ≠ 0) (ha : s.pos p false frm = .active)
    (hlane : (s.port p).laneAt false frm = some lane) (hm : (s.port p).txMoves = []) (hb : (s.port p).spare = some b) :
    ∃ t, exec (.moveReq p frm cause) s = .next t ∧ (t.port p).txMoves = [
      { lane := lane, frm := frm, dst := b, cause := cause, acked := false
        n := ((s.port p).txFrame s.now + 96) % 2 ^ 32 }] := by
  refine ⟨s.startMove p frm cause, ?_, State.startMove_txMoves_of_spare hm hlane hb⟩
  simp only [exec, execMoveReq, State.gotMoveReq, hup, ne_eq, not_true_eq_false, if_false, if_neg hcause,
    State.posFault_tx_of_active hslot ha]

/-- R349: 8 frames before N the move is not acknowledged: it is cancelled, and the lane is moved anew. -/
theorem exec_moveAckDeadline {s : State} {p : Port} {m : LaneMove} {b : Pos} (hm : (s.port p).txMoves = [m]) (hack : m.acked = false)
    (hne : m.dst ≠ m.frm) (hlate : reached ((s.port p).txFrame s.now) ((m.n + 2 ^ 32 - 8) % 2 ^ 32) = true)
    (hlane : (s.port p).laneAt false m.frm = some m.lane) (hb : ({ s.port p with txMoves := [] } : PortSt).spare = some b) :
    ∃ t, exec (.moveAckDeadline p) s = .next t ∧ (t.port p).txMoves = [
      { lane := m.lane, frm := m.frm, dst := b, cause := m.cause, acked := false
        n := ((s.port p).txFrame s.now + 96) % 2 ^ 32 }] := by
  let u := (s.sendCtl p 0x04 [(8, 4, m.n)]).setPort p (fun r => { r with txMoves := r.txMoves.filter (fun x => x.lane ≠ m.lane) })
  have hport : u.port p = { s.port p with txMoves := [] } := by simp [u, hm]
  have hnow : u.now = s.now := by simp [u]
  refine ⟨u.startMove p m.frm m.cause, ?_, ?_⟩
  · have hdue : (! m.acked && m.dst ≠ m.frm && reached ((s.port p).txFrame s.now) ((m.n + 2 ^ 32 - 8) % 2 ^ 32)) = true := by
      rw [hack, decide_eq_true hne, hlate]; rfl
    simp only [exec, execMoveAckDeadline, hm, List.filter_singleton, hdue, cond_true, State.each_singleton, u]
  · have hmove := State.startMove_txMoves_of_spare (s := u) (p := p) (frm := m.frm) (cause := m.cause) (by rw [hport])
      (by rw [hport]; exact hlane) (by rw [hport]; exact hb)
    rw [hmove, hport, hnow]
    rfl

/-! ## Calibration slots (R349, R392) -/

/-- R392: a slot that the lead announces, with no move on the port. -/
theorem exec_calAnnounce {s : State} {p : Port} {dir : Bool} {pos : Pos} {frame : Nat} (hup : (s.link p).st = .up)
    (hfollow : (s.link p).lead = false) (hslot : (s.link p).slot = none) (htx : (s.port p).txMoves = []) (hrx : (s.port p).rxMoves = []) :
    ∃ t, exec (.calAnnounce p dir pos frame) s = .next t ∧ (t.link p).slot = some
      { leadTx := ! dir, pos := pos, frame := frame, own := false
        at_ := s.now + cyclesTo ((s.port p).dirFrame (! dir) s.now) frame, stage := 0
        saved := (0, 0, 0, .off), committed := false, backAt := 0 }
      ∧ Only [.links] s t := by
  simp only [exec, execCalAnnounce, State.gotCalAnnounce, hup, hfollow, hslot, htx, hrx, ite_self, List.any_nil, Option.isNone_none,
    and_self, if_true]
  exact ⟨_, rfl, congrArg LinkSt.slot (s.setLink_link_same p _), (State.setLink_kept (.refl _ s) rfl).only⟩

/-- Settles O41: a clause for each command, by its rule above. -/
theorem linkAgreements : Obligations.LinkAgreements := by
  unfold Obligations.LinkAgreements
  exact ⟨fun _ _ => exec_swapReq, fun _ _ _ _ _ => exec_swapGrant, fun _ _ _ _ _ => exec_roleSwapFrame,
    fun _ _ _ _ _ _ _ => exec_laneMoveMessage, fun _ _ _ => exec_moveAck, fun _ _ _ => exec_moveCancel,
    fun _ _ _ _ _ _ => exec_moveReq, fun _ _ _ _ => exec_moveAckDeadline, fun _ _ _ _ _ => exec_calAnnounce⟩

/-! ## States that meet the hypotheses of O40 and O41 -/

/-- After reset, but for port 0 and its link, at crystal cycle `n`. -/
def oneEnd (n : Nat) (f : PortSt → PortSt) (g : LinkSt → LinkSt) : State :=
  { (onePort f).setLink 0 g with col := { Col.reset with cyc := n } }

@[simp] theorem oneEnd_port (n : Nat) (f : PortSt → PortSt) (g : LinkSt → LinkSt) : (oneEnd n f g).port 0 = f PortSt.reset := onePort_port f
@[simp] theorem oneEnd_link (n : Nat) (f : PortSt → PortSt) (g : LinkSt → LinkSt) : (oneEnd n f g).link 0 = g LinkSt.reset :=
  (State.setLink_link_same ..).trans (congrArg g (onePort_link f 0))

/-- An UP link that has done its handshake. -/
def upLink (l : LinkSt) : LinkSt := { l with st := .up, csyncOk := true }

/-- The first DATA flit of a message that goes on: SEQ 0, on VC 0, with an empty payload and its CRC-32C. -/
def firstFlit : List Byte := leBytes 12 0x01 ++ List.replicate 240 0 ++ leBytes 4 1942027060

theorem flitBad_firstFlit : flitBad firstFlit = false := by decide +kernel

/-- R339: the first flit fails, and the NAK names the sequence before 0. -/
theorem flitReceive_failed : ∃ t, exec (.flitReceive 0 firstFlit false []) (oneEnd 0 id upLink) = .next t
    ∧ (t.link 0).crcErr = 1 ∧ (t.link 0).sent.head? = some (0x102, [65535]) := by
  obtain ⟨t, ht, hcrc, -, -, hsent, -⟩ := exec_flitReceive_of_failed (s := oneEnd 0 id upLink) (p := 0) (flit := firstFlit)
    (by rw [oneEnd_link]; rfl) (by rw [oneEnd_link]; rfl) (by rw [oneEnd_link]; rfl)
  rw [oneEnd_link] at hcrc hsent
  exact ⟨t, ht, hcrc, hsent⟩

theorem flitReceive_firstFlit : ∃ t, exec (.flitReceive 0 firstFlit true []) (oneEnd 0 id upLink) = .next t ∧ (t.link 0).rxSeq = 1 := by
  obtain ⟨t, ht, hseq, -⟩ := exec_flitReceive_of_next (s := oneEnd 0 id upLink) (p := 0) (by rw [oneEnd_link]; rfl)
    (by rw [oneEnd_link]; rfl) flitBad_firstFlit (by decide) (by rw [oneEnd_link]; decide) (by decide)
  rw [oneEnd_link] at hseq
  exact ⟨t, ht, hseq⟩

/-- A flit that waits for its acknowledgement. -/
def sentFlit (n : Nat) : Flit :=
  { seq := n, vc := 0, first := true, last := true, dl := false, poison := false, porg := 0, srcd := 0, spart := 0, payload := []
    req := none }

/-- Two flits are unacknowledged, each sent once. -/
def twoSent (l : LinkSt) : LinkSt := { l with st := .up, replay := [sentFlit 0, sentFlit 1], resent := 1 }

theorem nakReceive_twoSent : ∃ t, exec (.nakReceive 0 0) (oneEnd 0 id twoSent) = .next t
    ∧ (t.link 0).replay = [sentFlit 1] ∧ (t.link 0).replays = 1 := by
  obtain ⟨t, ht, hreplay, -, hreplays, -⟩ := exec_nakReceive (s := oneEnd 0 id twoSent) (p := 0) (ack := 0) (n := 1) (f := sentFlit 0)
    (l := [sentFlit 1]) (by rw [oneEnd_link]; rfl) (by rw [oneEnd_link]; rfl) (by decide) (by decide) (by decide)
  rw [oneEnd_link] at hreplays
  exact ⟨t, ht, hreplay, hreplays⟩

/-- REPLAY_TMO of 1 m of fibre is 51 crystal cycles. -/
theorem replayTimeout_twoSent : ∃ t, exec (.replayTimeout 0) (oneEnd 51 id twoSent) = .next t
    ∧ (t.link 0).replay = [sentFlit 0, sentFlit 1] ∧ (t.link 0).resent = 2 := by
  obtain ⟨t, ht, hreplay, hresent, -⟩ := exec_replayTimeout (s := oneEnd 51 id twoSent) (p := 0) (f := sentFlit 0) (l := [sentFlit 1])
    (by rw [oneEnd_link]; rfl) (by rw [oneEnd_link]; rfl) (by rw [oneEnd_link]; rfl) (by rw [oneEnd_link]; decide)
    (by rw [oneEnd_link]; decide)
  rw [oneEnd_link] at hresent
  exact ⟨t, ht, hreplay, hresent⟩

/-- A port that is physically UP. -/
def upPort (r : PortSt) : PortSt := { r with state := 4 }

/-- A link in SYNC that waits for CSYNC alone; the peer's serial is the greater. -/
def awaitsCsync (l : LinkSt) : LinkSt := { l with st := .sync, helloOk := true, locked := rep 16 true, peerSerial := 7 }

theorem csync_awaitsCsync : ∃ t, exec (.csync 0 65535 [0, 0, 0, 0, 0, 0, 0, 0]) (oneEnd 0 upPort awaitsCsync) = .next t
    ∧ (t.link 0).st = .up ∧ (t.link 0).lead = true := by
  obtain ⟨t, ht, hst, hlead, -⟩ := exec_csync (s := oneEnd 0 upPort awaitsCsync) (p := 0) (ack := 65535)
    (freed := [0, 0, 0, 0, 0, 0, 0, 0]) (by rw [oneEnd_link]; rfl) (by rw [oneEnd_port]; rfl) (by rw [oneEnd_link]; rfl)
    (by rw [oneEnd_link]; decide)
  rw [oneEnd_link] at hlead
  exact ⟨t, ht, hst, hlead⟩

/-- A link in SYNC. -/
def inSync (l : LinkSt) : LinkSt := { l with st := .sync }

/-- Device 3 of 4 sends from its port 2. -/
def helloOfThree : HelloMsg := { devIndex := 3, port := 2, devCount := 4, topo := 1, torusW := 0, serial := 7 }

/-- The structure of a device of 4 names port 2 of device 3 for its port 0, whose training headers agree. -/
def wiredToThree : State :=
  { oneEnd 0 (fun r => { r with peer := some (3, 2) }) inSync with
    str := { Structure.blank with
      dev := { Structure.blank.dev with devCount := 4, topo := 1, torusW := 0 }
      links := upd (rep 8 none) 0 (some { expDev := 3, expPort := 2, fibreM := 10 }) } }

theorem hello_wiredToThree : ∃ t, exec (.hello 0 helloOfThree) wiredToThree = .next t ∧ (t.link 0).helloOk = true
    ∧ (t.link 0).peerDev = 3 := by
  have hlink : wiredToThree.link 0 = inSync LinkSt.reset := oneEnd_link 0 _ inSync
  have hport : wiredToThree.port 0 = { PortSt.reset with peer := some (3, 2) } := oneEnd_port 0 _ inSync
  obtain ⟨t, ht, hok, hdev, -⟩ := exec_hello_of_match (s := wiredToThree) (p := 0) (h := helloOfThree) (by rw [hlink]; rfl)
    (by rw [hlink]; rfl) (by simp only [State.helloMis, hport]; decide)
  exact ⟨t, ht, hok, hdev⟩

/-- R345: the structure of a new device names no peer for the port. -/
theorem hello_unwired : ∃ t, exec (.hello 0 helloOfThree) (oneEnd 0 id inSync) = .next t ∧ (t.link 0).st = .miswired
    ∧ (t.link 0).mis = 1 := by
  have hmis : (oneEnd 0 id inSync).helloMis 0 helloOfThree = 1 := rfl
  obtain ⟨t, ht, hst, hm, -⟩ := exec_hello_of_mismatch (s := oneEnd 0 id inSync) (p := 0) (h := helloOfThree) (by rw [oneEnd_link]; rfl)
    (by rw [hmis]; decide)
  exact ⟨t, ht, hst, hm.trans hmis⟩

theorem laneLocked_inSync : ∃ t, exec (.laneLocked 0 5) (oneEnd 0 upPort inSync) = .next t
    ∧ tget (t.link 0).locked 5 = true ∧ tget (t.link 0).locked 4 = false := by
  obtain ⟨t, ht, hsame, hother⟩ := exec_laneLocked (s := oneEnd 0 upPort inSync) (p := 0) (l := 5) (by rw [oneEnd_port]; rfl)
    (by rw [oneEnd_link]; rfl)
  refine ⟨t, ht, hsame, (hother 4 (by decide)).trans ?_⟩
  rw [oneEnd_link]
  exact tget_rep ..

theorem laneLockLost_upLink : ∃ t, exec (.laneLockLost 0 5) (oneEnd 0 upPort upLink) = .next t
    ∧ (t.link 0).st = .retrain ∧ (t.link 0).retrains = 1 := by
  obtain ⟨t, ht, hst, -, -, hretrains⟩ := exec_laneLockLost (s := oneEnd 0 upPort upLink) (p := 0) (l := 5) (by rw [oneEnd_link]; rfl)
  rw [oneEnd_link] at hretrains
  exact ⟨t, ht, hst, hretrains⟩

/-- A link out of service since reset, 50 ms later, with a flit that waits. -/
theorem linkHoldExpiry_inSync : ∃ t,
    exec (.linkHoldExpiry 0) (oneEnd 1250000 id (fun l => { l with st := .sync, outAt := some 0, txq := [sentFlit 0] })) = .next t
      ∧ (t.link 0).txq = [] ∧ (t.link 0).held = true := by
  obtain ⟨t, ht, -, htxq, -, hheld⟩ := exec_linkHoldExpiry (p := 0) (a := 0)
    (s := oneEnd 1250000 id (fun l => { l with st := .sync, outAt := some 0, txq := [sentFlit 0] })) (by rw [oneEnd_link])
    (by rw [oneEnd_link]) (by rw [oneEnd_link]; rfl) (by decide)
  exact ⟨t, ht, htxq, hheld⟩

/-- R350: at frame 0 the follow end is to lead from frame 96. -/
theorem swapReq_upLink : ∃ t, exec (.swapReq 0) (oneEnd 0 id upLink) = .next t ∧ (t.link 0).swap = .granted false 96 176 true := by
  obtain ⟨t, ht, hswap⟩ := exec_swapReq (s := oneEnd 0 id upLink) (p := 0) (by rw [oneEnd_link]; rfl) (by rw [oneEnd_link]; rfl)
  rw [oneEnd_link, oneEnd_port] at hswap
  exact ⟨t, ht, hswap⟩

theorem swapGrant_asked : ∃ t, exec (.swapGrant 0 96 7) (oneEnd 0 id (fun l => { l with swap := .asked true false })) = .next t
    ∧ (t.link 0).swap = .granted true 96 176 false := by
  obtain ⟨t, ht, hswap⟩ := exec_swapGrant (s := oneEnd 0 id (fun l => { l with swap := .asked true false })) (p := 0) (h := true)
    (fs := 96) (serial := 7) (by rw [oneEnd_link])
  rw [oneEnd_port] at hswap
  exact ⟨t, ht, hswap⟩

theorem roleSwapFrame_granted : ∃ t,
    exec (.roleSwapFrame 0) (oneEnd 176 id (fun l => { l with st := .up, swap := .granted false 96 176 true })) = .next t
      ∧ (t.link 0).lead = true := by
  obtain ⟨t, ht, hlead, -⟩ := exec_roleSwapFrame (p := 0) (fs := 96) (at_ := 176) (lead := true)
    (s := oneEnd 176 id (fun l => { l with st := .up, swap := .granted false 96 176 true })) (by rw [oneEnd_link]) (by rw [oneEnd_link])
    (by decide) (by rw [oneEnd_link]; rfl)
  exact ⟨t, ht, hlead⟩

/-- A MOVE of lane 3 replaces the one under way. -/
theorem laneMoveMessage_replaces : ∃ t,
    exec (.laneMoveMessage 0 3 0 16 2 96) (oneEnd 0 (fun r => { r with rxMoves := [moveToSpare] }) upLink) = .next t
      ∧ (t.port 0).rxMoves = [{ moveToSpare with dst := 16, n := 96 }] := by
  obtain ⟨t, ht, hmoves⟩ := exec_laneMoveMessage (s := oneEnd 0 (fun r => { r with rxMoves := [moveToSpare] }) upLink) (p := 0)
    (lane := 3) (frm := 0) (dst := 16) (cause := 2) (n := 96) (by rw [oneEnd_link]; rfl) (by rw [oneEnd_link]; rfl)
  rw [oneEnd_port] at hmoves
  exact ⟨t, ht, hmoves⟩

theorem moveAck_onePort : ∃ t,
    exec (.moveAck 0 3 0) (onePort (fun r => { r with txMoves := [{ moveToSpare with acked := false }] })) = .next t
      ∧ (t.port 0).txMoves = [moveToSpare] := by
  obtain ⟨t, ht, hmoves, -⟩ := exec_moveAck (s := onePort (fun r => { r with txMoves := [{ moveToSpare with acked := false }] })) (p := 0)
    (m := { moveToSpare with acked := false }) (by rw [onePort_port]) (by decide)
  exact ⟨t, ht, hmoves⟩

theorem moveCancel_onePort : ∃ t, exec (.moveCancel 0 3 0) (onePort (fun r => { r with rxMoves := [moveToSpare] })) = .next t
    ∧ (t.port 0).rxMoves = [] := by
  obtain ⟨t, ht, hmoves, -⟩ := exec_moveCancel (s := onePort (fun r => { r with rxMoves := [moveToSpare] })) (p := 0) (m := moveToSpare)
    (by rw [onePort_port]; exact List.mem_singleton_self _)
  rw [onePort_port] at hmoves
  exact ⟨t, ht, hmoves⟩

/-- Position 0 of the transmit direction carries lane 0, and position 17 is the spare. -/
def laneAndSpare (r : PortSt) : PortSt := (r.setPos false 0 .active).setPos false 17 .warm

theorem moveReq_laneAndSpare : ∃ t, exec (.moveReq 0 0 2) (oneEnd 0 laneAndSpare upLink) = .next t
    ∧ (t.port 0).txMoves = [{ lane := 0, frm := 0, dst := 17, cause := 2, n := 96, acked := false }] := by
  obtain ⟨t, ht, hmoves⟩ := exec_moveReq (s := oneEnd 0 laneAndSpare upLink) (p := 0) (lane := 0) (frm := 0) (b := 17) (cause := 2)
    (by rw [oneEnd_link]; rfl) (by rw [oneEnd_link]; rfl) (by decide) (by rw [State.pos, oneEnd_port]; decide)
    (by rw [oneEnd_port]; decide) (by rw [oneEnd_port]; rfl) (by rw [oneEnd_port]; decide)
  rw [oneEnd_port] at hmoves
  exact ⟨t, ht, hmoves⟩

/-- At frame 88 the move of lane 0 at frame 96 has no acknowledgement; the spare that it was to take is the only one. -/
theorem moveAckDeadline_laneAndSpare : ∃ t,
    exec (.moveAckDeadline 0) (oneEnd 161 (fun r => { laneAndSpare r with
      txMoves := [{ lane := 0, frm := 0, dst := 17, cause := 2, n := 96, acked := false }] }) upLink) = .next t
      ∧ (t.port 0).txMoves = [{ lane := 0, frm := 0, dst := 17, cause := 2, n := 184, acked := false }] := by
  obtain ⟨t, ht, hmoves⟩ := exec_moveAckDeadline (p := 0) (m := { lane := 0, frm := 0, dst := 17, cause := 2, n := 96, acked := false })
    (b := 17) (s := oneEnd 161 (fun r => { laneAndSpare r with
      txMoves := [{ lane := 0, frm := 0, dst := 17, cause := 2, n := 96, acked := false }] }) upLink)
    (by rw [oneEnd_port]) rfl (by decide) (by rw [oneEnd_port]; decide) (by rw [oneEnd_port]; decide) (by rw [oneEnd_port]; decide)
  rw [oneEnd_port] at hmoves
  exact ⟨t, ht, hmoves⟩

theorem calAnnounce_upLink : ∃ t, exec (.calAnnounce 0 true 4 13672) (oneEnd 0 id upLink) = .next t
    ∧ (t.link 0).slot.map (fun x => (x.pos, x.frame, x.at_)) = some (4, 13672, 25001) := by
  obtain ⟨t, ht, hslot, -⟩ := exec_calAnnounce (s := oneEnd 0 id upLink) (p := 0) (dir := true) (pos := 4) (frame := 13672)
    (by rw [oneEnd_link]; rfl) (by rw [oneEnd_link]; rfl) (by rw [oneEnd_link]; rfl) (by rw [oneEnd_port]; rfl) (by rw [oneEnd_port]; rfl)
  rw [oneEnd_port] at hslot
  refine ⟨t, ht, ?_⟩
  rw [hslot]
  rfl

end Sys2Proof.Machine

/-! # The laser cartridge and its interlocks

O27, O28 and O30: what holds the drivers of the lasers off, how its latches clear, and what becomes of one laser. The commands pass over
the lasers one by one and leave the rest of the block alone: `LaserBlk.rest` is the block without the drivers and their warm-up, so that
one equation says what going dark, warming up and settling keep. -/

namespace Sys2Proof.Machine

/-- A change of the laser block apart from the EEPROM's bytes changes that slice alone. -/
theorem laserBlk_kept (s : State) (l : LaserBlk) (h : l.eeprom = s.laser.eeprom) :
    Kept [.laser] s { s with laser := l } :=
  Kept.set_laser (Kept.refl _ s) rfl (.same h)

/-! ## One laser (R371, R374, R375) -/

namespace State

@[simp] theorem setLaser_las_same (s : State) (n : Fin 20) (f : LaserSt → LaserSt) : (s.setLaser n f).las n = f (s.las n) :=
  tget_updWith_same _ _ _

theorem setLaser_las_other (s : State) {n m : Fin 20} (f : LaserSt → LaserSt) (h : n ≠ m) : (s.setLaser n f).las m = s.las m :=
  tget_updWith_other _ _ h

/-- R371: a laser takes a state and a bias; its flags stay. -/
theorem laserTo_las_same (s : State) (n : Fin 20) (st : LaserState) (b : Nat) :
    ∃ a c, (s.laserTo n st b).las n = { s.las n with st := st, bias := b, litAt := a, litCyc := c } :=
  ⟨_, _, s.setLaser_las_same n _⟩

@[simp] theorem laserTo_st (s : State) (n : Fin 20) (st : LaserState) (b : Nat) : ((s.laserTo n st b).las n).st = st :=
  congrArg LaserSt.st (s.setLaser_las_same n _)

theorem laserTo_las_other (s : State) {n m : Fin 20} (st : LaserState) (b : Nat) (h : n ≠ m) : (s.laserTo n st b).las m = s.las m :=
  s.setLaser_las_other _ h

/-- What a pass over the lasers does to one of them is what the visit of that laser does. -/
theorem each_las {f : State → Fin 20 → State} {n : Fin 20} (hf : ∀ v a, Kept [.laser] v (f v a))
    (other : ∀ v a, a ≠ n → (f v a).las n = v.las n) (s : State) :
    ∃ v, v.las n = s.las n ∧ (s.each allLasers f).las n = (f v n).las n := by
  obtain ⟨v, -, hv, hn⟩ := State.each_visit (get := fun v => v.las n) (List.nodup_finRange 20) (List.mem_finRange n) hf other s
  exact ⟨v, hv, hn⟩

end State

/-- A state of a driver without light: OFF, out of service, or a spare never lit. -/
def LaserState.unlit (x : LaserState) : Prop := x = .off ∨ x = .out ∨ x = .cold

/-! ## The block apart from its drivers -/

/-- The block apart from the drivers and their warm-up. -/
def LaserBlk.rest (l : LaserBlk) : LaserBlk := { l with lasers := rep 20 (LaserSt.reset 0), warmAt := none, settled := false }

/-- Two blocks that agree apart from the drivers agree in what does not read them. -/
theorem LaserBlk.eq_of_rest {γ : Type} {a b : LaserBlk} (g : LaserBlk → γ) (h : a.rest = b.rest) (hg : ∀ l, g l.rest = g l) :
    g a = g b := by
  rw [← hg a, h, hg b]

/-- Two blocks that agree apart from the drivers have the same trips, interlocks and authentication. -/
theorem LaserBlk.interlocks_of_rest {a b : LaserBlk} (h : a.rest = b.rest) :
    a.intlkLow = b.intlkLow ∧ a.latchOpen = b.latchOpen ∧ a.auth = b.auth ∧ a.trip = b.trip ∧ a.intlk = b.intlk :=
  ⟨LaserBlk.eq_of_rest LaserBlk.intlkLow h (fun _ => rfl), LaserBlk.eq_of_rest LaserBlk.latchOpen h (fun _ => rfl),
    LaserBlk.eq_of_rest LaserBlk.auth h (fun _ => rfl), LaserBlk.eq_of_rest LaserBlk.trip h (fun _ => rfl),
    LaserBlk.eq_of_rest LaserBlk.intlk h (fun _ => rfl)⟩

namespace State

theorem laserTo_rest (s : State) (n : Fin 20) (st : LaserState) (b : Nat) : (s.laserTo n st b).laser.rest = s.laser.rest := rfl

theorem each_rest {f : State → Fin 20 → State} (hf : ∀ v a, (f v a).laser.rest = v.laser.rest) (s : State) (l : List (Fin 20)) :
    (s.each l f).laser.rest = s.laser.rest :=
  State.each_inv (P := fun v => v.laser.rest = s.laser.rest) rfl (fun v a _ hv => (hf v a).trans hv)

/-! ## Dark drivers (R376, R377) -/

/-- R377: the pass of `lasersDark` over the drivers. -/
def driversOff (s : State) : State :=
  s.each allLasers (fun s n =>
    let x := s.las n
    if x.st = .out ∨ x.st = .cold then s else s.laserTo n .off 0)

theorem lasersDark_eq (s : State) : s.lasersDark = { s.driversOff with
    laser := { s.driversOff.laser with warmAt := none, settled := false }, col := { s.driversOff.col with idleHeld := false } } := by
  unfold lasersDark driversOff
  rfl

theorem driversOff_rest (s : State) : s.driversOff.laser.rest = s.laser.rest := by
  refine each_rest (fun v n => ?_) s allLasers
  dsimp only
  split
  · rfl
  · exact v.laserTo_rest ..

theorem driversOff_las (s : State) (n : Fin 20) : (s.driversOff.las n).st.unlit := by
  obtain ⟨v, -, hn⟩ := each_las (n := n)
    (f := fun v n => if (v.las n).st = .out ∨ (v.las n).st = .cold then v else v.laserTo n .off 0)
    (fun v a => Kept.ite (fun _ => Kept.refl _ _) (fun _ => State.laserTo_kept (Kept.refl _ _) rfl))
    (fun v a h => by split; exacts [rfl, v.laserTo_las_other _ _ h]) s
  have hoff : s.driversOff.las n = _ := hn
  rw [hoff]
  split
  · exact Or.inr ‹_›
  · exact Or.inl (v.laserTo_st ..)

theorem lasersDark_rest (s : State) : s.lasersDark.laser.rest = s.laser.rest := by
  refine Eq.trans ?_ s.driversOff_rest
  rw [lasersDark_eq]
  generalize s.driversOff = u
  rfl

/-- R377: no driver is lit. -/
theorem lasersDark_las (s : State) (n : Fin 20) : (s.lasersDark.las n).st.unlit := by
  have h := driversOff_las s n
  rw [lasersDark_eq]
  generalize s.driversOff = u at h
  exact h

@[simp] theorem alertNow_las (s : State) (n : Fin 20) : s.alertNow.las n = s.las n := rfl

theorem log_laser (s : State) c b e d p st a x : (s.log c b e d p st a x).laser = s.laser :=
  (State.log_kept (Kept.refl (slicesBut [.laser]) s) rfl).laser_eq rfl

/-- R376: a latch that sets records its time, and leaves the rest of the block but the drivers. -/
theorem latchSet_rest (s : State) (f : LaserBlk → LaserBlk) :
    (s.latchSet f).laser.rest = ({ f s.laser with tripTime := s.time } : LaserBlk).rest := by
  unfold latchSet
  dsimp only
  generalize hu : State.log _ _ _ _ _ = u
  have hl : u.laser = { f s.laser with tripTime := s.time } := by rw [← hu, log_laser]
  exact (lasersDark_rest u).trans (congrArg LaserBlk.rest hl)

theorem latchSet_las (s : State) (f : LaserBlk → LaserBlk) (n : Fin 20) : ((s.latchSet f).las n).st.unlit := by
  unfold latchSet
  rw [alertNow_las]
  exact lasersDark_las _ n

/-- R376: any one of the conditions closes the gate. -/
theorem gateOpen_of_held {s : State} (h : s.laser.trip = true ∨ s.laser.intlkLow = true ∨ s.laser.latchOpen = true) :
    s.gateOpen = false := by
  rcases h with h | h | h <;> simp [gateOpen, h]

end State

/-! ## Trips and interlocks (R376, R377) -/

/-- R23, R376, R377: TRIP_N is asserted. -/
theorem exec_tripNAssert {s : State} (hpor : s.col.por = false) :
    ∃ t, exec .tripNAssert s = .next t ∧ t.pins.tripN = false ∧ t.laser.trip = true ∧ t.laser.tripTime = s.time ∧ t.gateOpen = false
      ∧ ∀ n, (t.las n).st.unlit := by
  have hc : (! s.col.por) = true := by rw [hpor]; rfl
  have hrest : s.tripAssert.laser.rest = ({ s.laser with trip := true, tripTime := s.time } : LaserBlk).rest := State.latchSet_rest ..
  have htrip : s.tripAssert.laser.trip = true := LaserBlk.eq_of_rest LaserBlk.trip hrest (fun _ => rfl)
  refine ⟨s.tripAssert, ?_, ?_, htrip, LaserBlk.eq_of_rest LaserBlk.tripTime hrest (fun _ => rfl), State.gateOpen_of_held (.inl htrip),
    State.latchSet_las _ _⟩
  · simp only [exec, execTripNAssert, s.when_true _ hc]
  · rw [State.tripAssert_pins]

/-- R378: TRIP_N is released. -/
theorem exec_tripNRelease {s : State} (hpor : s.col.por = false) (htn : s.pins.tripN = false) :
    ∃ t, exec .tripNRelease s = .next t ∧ t.pins.tripN = true ∧ t.pins.tripRel = some s.now ∧ Only [.pins] s t := by
  have hc : (! s.col.por && ! s.pins.tripN) = true := by simp [hpor, htn]
  simp only [exec, execTripNRelease, s.when_true _ hc]
  exact ⟨_, rfl, rfl, rfl, (Kept.set_pins (Kept.refl _ s) rfl).only⟩

/-- R376, R377, log 47: INTLK_N falls: its level holds the drivers off, and its latch sets while CTG_VDD is on. -/
theorem exec_intlkFall {s : State} (hpor : s.col.por = false) (hlow : s.laser.intlkLow = false) :
    ∃ t, exec .intlkFall s = .next t ∧ t.laser.intlkLow = true ∧ t.laser.auth = 0 ∧ t.laser.trip = s.laser.trip
      ∧ t.laser.intlk = (s.laser.intlk || s.laser.vddOn) ∧ t.gateOpen = false ∧ ∀ n, (t.las n).st.unlit := by
  have hc : (! s.col.por && ! s.laser.intlkLow) = true := by simp [hpor, hlow]
  simp only [exec, execIntlkFall, s.when_true _ hc]
  generalize hu : State.unseat _ = u
  have hul : u.laser = { s.laser with intlkLow := true, seatedAt := none, auth := 0, ctgState := 0 } := hu ▸ rfl
  have hon : u.laser.vddOn = s.laser.vddOn := by rw [hul]
  split
  case isTrue hv =>
    obtain ⟨hlow', -, hauth, htrip, hint⟩ := LaserBlk.interlocks_of_rest (u.latchSet_rest (fun l => { l with intlk := true }))
    have hl : (u.latchSet (fun l => { l with intlk := true })).laser.intlkLow = true := by rw [hlow', hul]
    refine ⟨_, rfl, hl, by rw [hauth, hul], by rw [htrip, hul], hint.trans ?_, State.gateOpen_of_held (.inr (.inl hl)),
      State.latchSet_las _ _⟩
    rw [← hon, hv, Bool.or_true]
  case isFalse hv =>
    obtain ⟨hlow', -, hauth, htrip, hint⟩ := LaserBlk.interlocks_of_rest u.lasersDark_rest
    have hl : u.lasersDark.laser.intlkLow = true := by rw [hlow', hul]
    refine ⟨_, rfl, hl, by rw [hauth, hul], by rw [htrip, hul], hint.trans ?_, State.gateOpen_of_held (.inr (.inl hl)),
      State.lasersDark_las _⟩
    rw [← hon, Bool.eq_false_iff.mpr hv, Bool.or_false, hul]

/-- R376, R378: INTLK_N rises: nothing relights. -/
theorem exec_intlkNRise {s : State} (hpor : s.col.por = false) (hlow : s.laser.intlkLow = true) :
    ∃ t, exec .intlkNRise s = .next t ∧ t.laser.intlkLow = false ∧ t.laser.intlkRel = s.now
      ∧ t.laser.seatedAt = (if s.laser.latchOpen then none else some s.now) ∧ t.laser.lasers = s.laser.lasers ∧ Only [.laser] s t := by
  have hc : (! s.col.por && s.laser.intlkLow) = true := by simp [hpor, hlow]
  simp only [exec, execIntlkNRise, s.when_true _ hc]
  exact ⟨_, rfl, rfl, rfl, by simp only [State.seatNow, Bool.false_or], rfl, (State.seatNow_kept (laserBlk_kept s _ (by rfl)) rfl).only⟩

/-- R376, R377, log 47: the latch of the cartridge opens. -/
theorem exec_latchOpen {s : State} (hpor : s.col.por = false) :
    ∃ t, exec .latchOpen s = .next t ∧ t.laser.latchOpen = true ∧ t.laser.auth = 0 ∧ t.laser.trip = s.laser.trip
      ∧ t.laser.intlk = s.laser.intlk ∧ t.gateOpen = false ∧ ∀ n, (t.las n).st.unlit := by
  have hc : (! s.col.por) = true := by rw [hpor]; rfl
  simp only [exec, execLatchOpen, s.when_true _ hc]
  generalize hu : State.unseat _ = u
  have hul : u.laser = { s.laser with latchOpen := true, seatedAt := none, auth := 0, ctgState := 0 } := hu ▸ rfl
  obtain ⟨-, hopen', hauth, htrip, hint⟩ := LaserBlk.interlocks_of_rest u.lasersDark_rest
  have hopen : u.lasersDark.laser.latchOpen = true := by rw [hopen', hul]
  exact ⟨_, rfl, hopen, by rw [hauth, hul], by rw [htrip, hul], by rw [hint, hul], State.gateOpen_of_held (.inr (.inr hopen)),
    State.lasersDark_las _⟩

/-- R370, R376: CTG_LATCH has been low for 100 ms: nothing relights. -/
theorem exec_latchClosed {s : State} (hpor : s.col.por = false) (hopen : s.laser.latchOpen = true) :
    ∃ t, exec .latchClosed s = .next t ∧ t.laser.latchOpen = false
      ∧ t.laser.seatedAt = (if s.laser.intlkLow then none else some (max s.laser.intlkRel (s.now - msCyc 100)))
      ∧ t.laser.lasers = s.laser.lasers ∧ Only [.laser] s t := by
  have hc : (! s.col.por && s.laser.latchOpen) = true := by simp [hpor, hopen]
  simp only [exec, execLatchClosed, s.when_true _ hc]
  exact ⟨_, rfl, rfl, by simp only [State.seatNow, Bool.or_false], rfl, (State.seatNow_kept (laserBlk_kept s _ (by rfl)) rfl).only⟩

/-- Settles O27: a clause for each command, by its rule above. -/
theorem tripsAndInterlocks : Obligations.TripsAndInterlocks := by
  unfold Obligations.TripsAndInterlocks
  exact ⟨fun _ => exec_tripNAssert, fun _ => exec_tripNRelease, fun _ => exec_intlkFall, fun _ => exec_intlkNRise,
    fun _ => exec_latchOpen, fun _ => exec_latchClosed⟩

/-! ## The clear sequence (R378) -/

namespace State

/-- R375: a warm-up lights lasers; the rest of the block stays. -/
theorem warmUp_rest (s : State) : s.warmUp.laser.rest = s.laser.rest := by
  unfold warmUp
  split
  · dsimp only
    generalize hu : State.each _ _ _ = u
    have hrest : u.laser.rest = s.laser.rest := by
      rw [← hu]
      refine each_rest (fun v n => ?_) s allLasers
      split <;> rfl
    split
    · exact hrest
    · exact hrest
  · rfl

/-- R378: what set the TRIP latch has been gone for 1 ms. -/
def tripGone (s : State) : Bool := s.pins.tripN && (match s.pins.tripRel with | some r => s.past r (msCyc 1) | none => true)

/-- R378: what set the INTLK latch has been gone for 1 ms. -/
def intlkGone (s : State) : Bool := ! s.laser.intlkLow && s.past s.laser.intlkRel (msCyc 1)

theorem tripGone_of {s : State} (hpin : s.pins.tripN = true) (hrel : ∀ r, s.pins.tripRel = some r → r + msCyc 1 ≤ s.now) :
    s.tripGone = true := by
  unfold tripGone
  rw [hpin, Bool.true_and]
  split
  · exact State.past_of_le (hrel _ ‹_›)
  · rfl

theorem intlkGone_of {s : State} (hlow : s.laser.intlkLow = false) (hrel : s.laser.intlkRel + msCyc 1 ≤ s.now) : s.intlkGone = true := by
  unfold intlkGone
  rw [hlow, State.past_of_le hrel]
  rfl

/-- R378: the second write of the sequence clears each latch it names whose cause is gone, and records one that may not clear. -/
theorem tripClrWrite_second {s : State} {v a : Nat} (harm : s.laser.armed = some a) (hkey : fld v 31 16 = 0x5AFE)
    (hin : s.now ≤ a + msCyc 1) (hbits : fld v 1 0 ≠ 0) :
    (s.tripClrWrite v).laser.armed = none
      ∧ (s.tripClrWrite v).laser.trip = (s.laser.trip && ! (bitAt v 0 && s.tripGone))
      ∧ (s.tripClrWrite v).laser.intlk = (s.laser.intlk && ! (bitAt v 1 && s.intlkGone))
      ∧ (s.tripClrWrite v).laser.clrRefused = (s.laser.clrRefused
          || ((bitAt v 0 && s.laser.trip && ! s.tripGone) || (bitAt v 1 && s.laser.intlk && ! s.intlkGone))) := by
  have hc : fld v 31 16 = 0x5AFE ∧ s.now < a + msCyc 1 + 1 ∧ fld v 1 0 ≠ 0 := ⟨hkey, by omega, hbits⟩
  simp only [tripClrWrite, harm, if_pos hc]
  generalize hu : State.alertNow _ = u
  have hw : (if (! u.laser.trip && ! u.laser.intlk && u.isReady && ! u.laser.settled) = true then u.warmUp else u).laser.rest
      = u.laser.rest := by
    split
    · exact u.warmUp_rest
    · rfl
  rw [LaserBlk.eq_of_rest LaserBlk.armed hw (fun _ => rfl), LaserBlk.eq_of_rest LaserBlk.trip hw (fun _ => rfl),
    LaserBlk.eq_of_rest LaserBlk.intlk hw (fun _ => rfl), LaserBlk.eq_of_rest LaserBlk.clrRefused hw (fun _ => rfl), ← hu]
  exact ⟨rfl, rfl, rfl, rfl⟩

end State

/-- A command word that names one of its two lowest bits names something. -/
theorem fld_low_ne_zero {v : Nat} (h : bitAt v 0 = true ∨ bitAt v 1 = true) : fld v 1 0 ≠ 0 := by
  simp only [bitAt, beq_iff_eq] at h
  simp only [fld]
  omega

/-- R378: the first write of the sequence arms it. -/
theorem exec_tripClearArm {s : State} {v : W32} (hsv : s.served = true) (harm : s.laser.armed = none)
    (hkey : fld v.toNat 31 16 = 0xC1EA) (hbits : fld v.toNat 1 0 = 0) :
    ∃ t, exec (.tripClearArm v) s = .next t ∧ t.laser.armed = some s.now ∧ t.laser.trip = s.laser.trip ∧ t.laser.intlk = s.laser.intlk
      ∧ Only [.laser] s t := by
  simp only [exec, execTripClearArm, s.when_true _ hsv, State.tripClrWrite, harm, hkey, hbits, and_self, if_true]
  exact ⟨_, rfl, rfl, rfl, rfl, (laserBlk_kept s _ (by rfl)).only⟩

/-- R378: a first write with another key breaks the sequence. -/
theorem exec_tripClearArm_broken {s : State} {v : W32} (hsv : s.served = true) (harm : s.laser.armed = none)
    (hkey : fld v.toNat 31 16 ≠ 0xC1EA) :
    ∃ t, exec (.tripClearArm v) s = .next t ∧ t.laser.armed = none ∧ t.laser.seqErr = true ∧ t.laser.trip = s.laser.trip
      ∧ t.laser.intlk = s.laser.intlk ∧ Only [.laser] s t := by
  simp only [exec, execTripClearArm, s.when_true _ hsv, State.tripClrWrite, harm, hkey, false_and, if_false]
  exact ⟨_, rfl, rfl, rfl, rfl, rfl, (laserBlk_kept s _ (by rfl)).only⟩

/-- R378: TRIP clears once TRIP_N has been released for 1 ms. -/
theorem exec_tripClear_trip {s : State} {v : W32} {a : Nat} (hsv : s.served = true) (harm : s.laser.armed = some a)
    (hkey : fld v.toNat 31 16 = 0x5AFE) (hin : s.now ≤ a + msCyc 1) (hbit : bitAt v.toNat 0 = true) (hpin : s.pins.tripN = true)
    (hrel : ∀ r, s.pins.tripRel = some r → r + msCyc 1 ≤ s.now) :
    ∃ t, exec (.tripClear v) s = .next t ∧ t.laser.trip = false ∧ t.laser.armed = none := by
  obtain ⟨hdone, htrip, -, -⟩ := State.tripClrWrite_second harm hkey hin (fld_low_ne_zero (.inl hbit))
  simp only [exec, execTripClear, s.when_true _ hsv]
  refine ⟨_, rfl, ?_, hdone⟩
  rw [htrip, hbit, State.tripGone_of hpin hrel, Bool.and_self, Bool.not_true, Bool.and_false]

/-- R378: TRIP stays while TRIP_N is asserted, and the refusal is recorded. -/
theorem exec_tripClear_refused {s : State} {v : W32} {a : Nat} (hsv : s.served = true) (harm : s.laser.armed = some a)
    (hkey : fld v.toNat 31 16 = 0x5AFE) (hin : s.now ≤ a + msCyc 1) (hbit : bitAt v.toNat 0 = true) (htr : s.laser.trip = true)
    (hpin : s.pins.tripN = false) :
    ∃ t, exec (.tripClear v) s = .next t ∧ t.laser.trip = true ∧ t.laser.clrRefused = true ∧ t.laser.armed = none := by
  obtain ⟨hdone, htrip, -, href⟩ := State.tripClrWrite_second harm hkey hin (fld_low_ne_zero (.inl hbit))
  have hgone : s.tripGone = false := by rw [State.tripGone, hpin, Bool.false_and]
  simp only [exec, execTripClear, s.when_true _ hsv]
  refine ⟨_, rfl, ?_, ?_, hdone⟩
  · rw [htrip, htr, hgone, Bool.and_false, Bool.not_false, Bool.and_self]
  · simp [href, htr, hgone, hbit]

/-- R378: INTLK clears once INTLK_N has been high for 1 ms. -/
theorem exec_tripClear_intlk {s : State} {v : W32} {a : Nat} (hsv : s.served = true) (harm : s.laser.armed = some a)
    (hkey : fld v.toNat 31 16 = 0x5AFE) (hin : s.now ≤ a + msCyc 1) (hbit : bitAt v.toNat 1 = true) (hlow : s.laser.intlkLow = false)
    (hrel : s.laser.intlkRel + msCyc 1 ≤ s.now) :
    ∃ t, exec (.tripClear v) s = .next t ∧ t.laser.intlk = false ∧ t.laser.armed = none := by
  obtain ⟨hdone, -, hint, -⟩ := State.tripClrWrite_second harm hkey hin (fld_low_ne_zero (.inr hbit))
  simp only [exec, execTripClear, s.when_true _ hsv]
  refine ⟨_, rfl, ?_, hdone⟩
  rw [hint, hbit, State.intlkGone_of hlow hrel, Bool.and_self, Bool.not_true, Bool.and_false]

/-- R378: a sequence not completed within 1 ms is broken. -/
theorem exec_tripClearSeqExpiry {s : State} {a : Nat} (harm : s.laser.armed = some a) (ha : a + msCyc 1 ≤ s.now) :
    ∃ t, exec .tripClearSeqExpiry s = .next t ∧ t.laser.armed = none ∧ t.laser.seqErr = true ∧ t.laser.trip = s.laser.trip
      ∧ t.laser.intlk = s.laser.intlk ∧ Only [.laser] s t := by
  simp only [exec, execTripClearSeqExpiry, harm, s.when_true _ (State.past_of_le ha)]
  exact ⟨_, rfl, rfl, rfl, rfl, rfl, (laserBlk_kept s _ (by rfl)).only⟩

/-- Settles O28: a clause for each write of the sequence, and one for its expiry, by its rule above. -/
theorem tripClearSequence : Obligations.TripClearSequence := by
  unfold Obligations.TripClearSequence
  exact ⟨fun _ _ => exec_tripClearArm, fun _ _ => exec_tripClearArm_broken, fun _ _ _ => exec_tripClear_trip,
    fun _ _ _ => exec_tripClear_refused, fun _ _ _ => exec_tripClear_intlk, fun _ _ => exec_tripClearSeqExpiry⟩

/-! ## Drivers, warm-up, spares (R374, R375, R379) -/

namespace State

theorem laserTo_keeps_others (s : State) (n : Fin 20) (st : LaserState) (b : Nat) : ∀ m, m ≠ n → (s.laserTo n st b).las m = s.las m :=
  fun _ h => s.laserTo_las_other st b (Ne.symm h)

theorem setLaser_keeps_others (s : State) (n : Fin 20) (f : LaserSt → LaserSt) : ∀ m, m ≠ n → (s.setLaser n f).las m = s.las m :=
  fun _ h => s.setLaser_las_other f (Ne.symm h)

theorem laserTo_only (s : State) (n : Fin 20) (st : LaserState) (b : Nat) : Kept [.laser] s (s.laserTo n st b) :=
  State.laserTo_kept (Kept.refl _ s) rfl

theorem las_congr {s u : State} (h : u.laser = s.laser) (n : Fin 20) : u.las n = s.las n := by rw [State.las, h, State.las]

/-- R375: a laser on its way to RUN takes the state given. -/
theorem warmTo_las (s : State) (st : LaserState) {n : Fin 20} (h : (s.las n).st = .idle ∨ (s.las n).st = .ramp) :
    ((s.warmTo st).las n).st = st := by
  obtain ⟨v, hv, hn⟩ := each_las (n := n)
    (f := fun v n => if (v.las n).st = .idle ∨ (v.las n).st = .ramp then v.laserTo n st (v.runOf n) else v)
    (fun v a => Kept.ite (fun _ => v.laserTo_only ..) (fun _ => Kept.refl _ _))
    (fun v a ha => by split; exacts [v.laserTo_las_other _ _ ha, rfl]) s
  have hlas : (s.warmTo st).las n = _ := hn
  rw [hlas, if_pos (by rw [hv]; exact h), laserTo_st]

theorem fullStart_laser (s : State) (m : Nat) (b : Bool) : (s.fullStart m b).laser = s.laser :=
  (State.fullStart_kept (Kept.refl (slicesBut [.laser]) s) rfl).laser_eq rfl

theorem startAcq_laser (s : State) (p : Port) (rx : Bool) (g : Pos) (b : Bool) : (s.startAcq p rx g b).laser = s.laser :=
  (State.startAcq_kept (Kept.refl (slicesBut [.laser]) s) rfl).laser_eq rfl

theorem laserLost_laser (s : State) (g : Pos) : (s.laserLost g).laser = s.laser :=
  (State.laserLost_kept (Kept.refl (slicesBut [.laser]) s) rfl).laser_eq rfl

/-- R365: a spare that is tuned is laser 18 or 19; no primary changes. -/
theorem tuneSpare_las_of_primary (s : State) (g : Pos) {n : Fin 20} (h : n.val < 18) : (s.tuneSpare g).las n = s.las n := by
  have hne : spareFor g ≠ n := by
    unfold spareFor
    split <;> (rintro rfl; revert h; decide)
  unfold tuneSpare
  dsimp only
  split
  · exact (setLaser_las_other _ _ hne).trans (laserTo_las_other _ _ _ hne)
  · rfl

theorem tuneSpare_recDue (s : State) (g : Pos) : (s.tuneSpare g).laser.recDue = s.laser.recDue := by
  unfold tuneSpare
  dsimp only
  split <;> rfl

/-- R379: a laser out of service is OUT, and a usage record is due. -/
theorem laserOut_las (s : State) (n : Fin 20) : ((s.laserOut n).las n).st = .out ∧ (s.laserOut n).laser.recDue = true := by
  unfold laserOut
  dsimp only
  generalize hl : State.log _ _ _ _ _ = l
  have hst : (l.las n).st = .out := by rw [← hl, las_congr (log_laser ..), laserTo_st]
  generalize hu : State.setLaser _ n _ = u
  have hu' : (u.las n).st = .out ∧ u.laser.recDue = true := by
    rw [← hu]
    exact ⟨(congrArg LaserSt.st (setLaser_las_same ..)).trans hst, rfl⟩
  split
  case isTrue hlt =>
    rw [tuneSpare_las_of_primary _ _ hlt, tuneSpare_recDue, las_congr (laserLost_laser ..), laserLost_laser]
    exact hu'
  case isFalse =>
    split
    · rw [las_congr (laserLost_laser ..), laserLost_laser]
      exact hu'
    · exact hu'

end State

/-- R374: a driver fault switches its own driver off and sets its flag. -/
theorem exec_driverFault {s : State} {n : Fin 20} {k : DriverFaultKind} (hlit : (s.las n).st.lit = true) (hout : (s.las n).st ≠ .out) :
    ∃ t, exec (.driverFault n k) s = .next t ∧ (t.las n).st = .off ∧ (t.las n).bias = 0
      ∧ (k = .overcurrent → (t.las n).oc = true ∧ (t.las n).ocAt = some s.now ∧ (t.las n).ocPrev = (s.las n).ocAt)
      ∧ (k = .open_ → (t.las n).open_ = true) ∧ (k = .short → (t.las n).short = true) ∧ ∀ m, m ≠ n → t.las m = s.las m := by
  have hc : ((s.las n).st.lit && (s.las n).st != .out) = true := by simp [hlit, hout]
  simp only [exec, execDriverFault, s.when_true _ hc]
  obtain ⟨a, c, hoff⟩ := s.laserTo_las_same n .off 0
  generalize hu : State.setLaser _ n _ = u
  have hn : u.las n = _ := hu ▸ State.setLaser_las_same ..
  have ho : ∀ m, m ≠ n → u.las m = s.las m := hu ▸ fun m h =>
    (State.setLaser_keeps_others _ n _ m h).trans (s.laserTo_keeps_others n _ _ m h)
  rw [hoff] at hn
  refine ⟨_, rfl, ?_⟩
  show (u.las n).st = .off ∧ (u.las n).bias = 0 ∧ (k = .overcurrent → (u.las n).oc = true ∧ (u.las n).ocAt = some s.now
    ∧ (u.las n).ocPrev = (s.las n).ocAt) ∧ (k = .open_ → (u.las n).open_ = true) ∧ (k = .short → (u.las n).short = true)
    ∧ ∀ m, m ≠ n → u.las m = s.las m
  rw [hn]
  cases k <;> simpa using ho

/-- R379: 100 ms after an overcurrent flag it is cleared and the driver restarted. -/
theorem exec_overcurrentRetry {s : State} {n : Fin 20} {a : Nat} (hat : (s.las n).ocAt = some a) (hoc : (s.las n).oc = true)
    (hout : (s.las n).st ≠ .out) (ha : a + msCyc 100 ≤ s.now) :
    ∃ t, exec (.overcurrentRetry n) s = .next t ∧ (t.las n).oc = false ∧ (∀ m, m ≠ n → t.las m = s.las m) ∧ Only [.laser] s t := by
  have hc : ((s.las n).oc && (s.las n).st != .out && s.past a (msCyc 100)) = true := by simp [hoc, hout, State.past_of_le ha]
  simp only [exec, execOvercurrentRetry, hat, s.when_true _ hc]
  generalize hu : State.setLaser s n _ = u
  have hn : (u.las n).oc = false := by rw [← hu, State.setLaser_las_same]
  have ho : ∀ m, m ≠ n → u.las m = s.las m := hu ▸ s.setLaser_keeps_others n _
  have hk : Kept [.laser] s u := hu ▸ State.setLaser_kept (Kept.refl _ s) rfl
  have hto : ∀ st b, ((u.laserTo n st b).las n).oc = false ∧ (∀ m, m ≠ n → (u.laserTo n st b).las m = s.las m)
      ∧ Only [.laser] s (u.laserTo n st b) := fun st b => by
    obtain ⟨a, c, h⟩ := u.laserTo_las_same n st b
    exact ⟨by rw [h]; exact hn, fun m hm => (u.laserTo_keeps_others n st b m hm).trans (ho m hm), (hk.trans (u.laserTo_only n st b)).only⟩
  refine ⟨_, rfl, ?_⟩
  split
  · split
    · exact hto ..
    · split
      · exact hto ..
      · exact ⟨hn, ho, hk.only⟩
  · exact ⟨hn, ho, hk.only⟩

/-- R375: the lasers of a warm-up that settled are in RUN. -/
theorem exec_laserWarmupSettled {s : State} {a : Nat} (hw : s.laser.warmAt = some a) :
    ∃ t, exec (.laserWarmupSettled true) s = .next t ∧ t.laser.settled = true ∧ t.laser.warmAt = none
      ∧ ∀ n, (s.las n).st = .idle ∨ (s.las n).st = .ramp → (t.las n).st = .run := by
  simp only [exec, execLaserWarmupSettled, hw, if_true]
  generalize hv : State.warmTo s .run = v
  have hrun : ∀ n, (s.las n).st = .idle ∨ (s.las n).st = .ramp → (v.las n).st = .run := fun n h => hv ▸ s.warmTo_las .run h
  have done : ∀ t : State, t.laser = { v.laser with warmAt := none, settled := true } → t.laser.settled = true ∧ t.laser.warmAt = none
      ∧ ∀ n, (s.las n).st = .idle ∨ (s.las n).st = .ramp → (t.las n).st = .run := fun t h =>
    ⟨by rw [h], by rw [h], fun n hn => by rw [State.las, h]; exact hrun n hn⟩
  refine ⟨_, rfl, done _ ?_⟩
  split
  · split
    · rfl
    · exact State.fullStart_laser ..
  · split
    · exact State.fullStart_laser ..
    · rfl

/-- R375: a warm-up not settled after 5 s has failed: its lasers stay at idle bias. -/
theorem exec_laserWarmupSettled_failed {s : State} {a : Nat} (hw : s.laser.warmAt = some a) (ha : a + sCyc 5 ≤ s.now) :
    ∃ t, exec (.laserWarmupSettled false) s = .next t ∧ t.laser.warmAt = none ∧ (∀ n, (s.las n).st = .ramp → (t.las n).st = .idle)
      ∧ (s.starting = true → t.start.optDown = true) := by
  simp only [exec, execLaserWarmupSettled, hw, s.when_true _ (State.past_of_le ha), Bool.false_eq_true, if_false]
  generalize hu : State.each s allLasers _ = u
  have hidle : ∀ n, (s.las n).st = .ramp → (u.las n).st = .idle := fun n h => by
    obtain ⟨v, hv, hn⟩ := State.each_las (n := n)
      (f := fun v n => if (v.las n).st = .ramp then v.laserTo n .idle (v.idleCode n) else v)
      (fun v a => Kept.ite (fun _ => v.laserTo_only ..) (fun _ => Kept.refl _ _))
      (fun v a ha => by split; exacts [v.laserTo_las_other _ _ ha, rfl]) s
    have hlas : u.las n = _ := hu ▸ hn
    rw [hlas, if_pos (by rw [hv]; exact h), State.laserTo_st]
  have hst : u.start = s.start := by
    rw [← hu]
    exact (Kept.each (Kept.refl [.laser] s) (fun v n hv => by
      split; exacts [hv.trans (v.laserTo_only ..), hv])).start_eq rfl
  have hstarting : ∀ l : LaserBlk, ({ u with laser := l } : State).starting = s.starting := fun l => by
    unfold State.starting
    rw [← hst]
  rw [hstarting]
  split
  · exact ⟨_, rfl, rfl, hidle, fun _ => rfl⟩
  · exact ⟨_, rfl, rfl, hidle, fun h => absurd h ‹_›⟩

/-- R379: a laser with an open or short flag, or whose rings read below half their target, is OUT. -/
theorem exec_laserOut {s : State} {n : Fin 20} (hfw : s.fwRuns = true) (hst : (s.las n).st ≠ .out)
    (hwhy : (s.las n).open_ = true ∨ (s.las n).short = true ∨ s.lowRatio n = true) :
    ∃ t, exec (.laserOut n) s = .next t ∧ (t.las n).st = .out ∧ t.laser.recDue = true := by
  have hc : ∀ b, (s.fwRuns && (s.las n).st != .out && (b || (s.las n).open_ || (s.las n).short || s.lowRatio n)) = true := fun b => by
    rcases hwhy with h | h | h <;> simp [hfw, hst, h]
  simp only [exec, execLaserOut, s.when_true _ (hc _)]
  exact ⟨_, rfl, s.laserOut_las n⟩

/-- R379: 2 s after its tuning began a spare is in RUN. -/
theorem exec_spareTuned {s : State} {n : Fin 20} {a : Nat} (hlit : (s.las n).litAt = some a) (hst : (s.las n).st = .tuning)
    (ha : a + sCyc 2 ≤ s.now) :
    ∃ t, exec (.spareTuned n) s = .next t ∧ (t.las n).st = .run ∧ ∀ m, m ≠ n → t.las m = s.las m := by
  have hc : ((s.las n).st == .tuning && s.past a (sCyc 2)) = true := by simp [hst, State.past_of_le ha]
  simp only [exec, execSpareTuned, hlit, s.when_true _ hc]
  have done : ∀ t : State, t.laser = (s.laserTo n .run (s.las n).bias).laser → (t.las n).st = .run ∧ ∀ m, m ≠ n → t.las m = s.las m :=
    fun t h => ⟨by rw [State.las_congr h, State.laserTo_st], fun m hm => (State.las_congr h m).trans (s.laserTo_keeps_others n _ _ m hm)⟩
  refine ⟨_, rfl, done _ ?_⟩
  split
  · refine State.each_inv (P := fun v => v.laser = (s.laserTo n .run (s.las n).bias).laser) rfl (fun v p _ hv => ?_)
    split
    · exact (State.startAcq_laser ..).trans hv
    · exact hv
  · rfl

/-- Settles O30: a clause for each command, two for the two ends of a warm-up, by its rule above. -/
theorem driversAndSpares : Obligations.DriversAndSpares := by
  unfold Obligations.DriversAndSpares
  exact ⟨fun _ _ _ => exec_driverFault, fun _ _ _ => exec_overcurrentRetry, fun _ _ => exec_laserWarmupSettled,
    fun _ _ => exec_laserWarmupSettled_failed, fun _ _ => exec_laserOut, fun _ _ _ => exec_spareTuned⟩

/-! ## States that meet the hypotheses of O27, O28 and O30 -/

theorem tripNAssert_readyState : ∃ t, exec .tripNAssert readyState = .next t ∧ t.laser.trip = true ∧ t.gateOpen = false := by
  obtain ⟨t, ht, -, htrip, -, hgate, -⟩ := exec_tripNAssert (s := readyState) rfl
  exact ⟨t, ht, htrip, hgate⟩

/-- A READY device with the cartridge's supply on; INTLK_N has been high since reset. -/
def supplied : State := { readyState with laser := { LaserBlk.reset with intlkLow := false, vddOn := true } }

theorem intlkFall_supplied : ∃ t, exec .intlkFall supplied = .next t ∧ t.laser.intlk = true ∧ t.laser.auth = 0 := by
  obtain ⟨t, ht, -, hauth, -, hint, -⟩ := exec_intlkFall (s := supplied) rfl rfl
  exact ⟨t, ht, hint, hauth⟩

/-- A tripped READY device at crystal cycle `n`, the clear sequence armed at cycle 0; TRIP_N is at the level given. -/
def trippedAt (n : Nat) (pin : Bool) : State :=
  { readyState with
    col := { Col.reset with por := false, cyc := n }
    pins := { Pins.reset with tripN := pin }
    laser := { LaserBlk.reset with trip := true, armed := some 0 } }

/-- The last cycle of the millisecond still clears. -/
theorem tripClear_trippedAt : ∃ t, exec (.tripClear 0x5AFE0001) (trippedAt 25000 true) = .next t ∧ t.laser.trip = false := by
  obtain ⟨t, ht, htrip, -⟩ := exec_tripClear_trip (s := trippedAt 25000 true) (v := 0x5AFE0001) (a := 0) rfl rfl (by decide) (by decide)
    (by decide) rfl (fun r h => by cases h)
  exact ⟨t, ht, htrip⟩

theorem tripClear_refused_trippedAt : ∃ t, exec (.tripClear 0x5AFE0001) (trippedAt 0 false) = .next t
    ∧ t.laser.trip = true ∧ t.laser.clrRefused = true := by
  obtain ⟨t, ht, htrip, href, -⟩ := exec_tripClear_refused (s := trippedAt 0 false) (v := 0x5AFE0001) (a := 0) rfl rfl (by decide)
    (by decide) (by decide) rfl rfl
  exact ⟨t, ht, htrip, href⟩

theorem tripClearSeqExpiry_trippedAt : ∃ t, exec .tripClearSeqExpiry (trippedAt 25000 true) = .next t
    ∧ t.laser.seqErr = true ∧ t.laser.trip = true := by
  obtain ⟨t, ht, -, herr, htrip, -⟩ := exec_tripClearSeqExpiry (s := trippedAt 25000 true) (a := 0) rfl (by decide)
  exact ⟨t, ht, herr, htrip⟩

/-- A READY device at crystal cycle `n`, whose laser 3 is as given. -/
def oneLaser (n : Nat) (f : LaserSt → LaserSt) : State :=
  { readyState.setLaser 3 f with col := { Col.reset with por := false, cyc := n } }

@[simp] theorem oneLaser_las (n : Nat) (f : LaserSt → LaserSt) : (oneLaser n f).las 3 = f (LaserSt.reset 3) :=
  (State.setLaser_las_same ..).trans (congrArg f (State.reset_las 3))

theorem driverFault_oneLaser : ∃ t, exec (.driverFault 3 .short) (oneLaser 0 (fun x => { x with st := .run })) = .next t
    ∧ (t.las 3).st = .off ∧ (t.las 3).short = true := by
  obtain ⟨t, ht, hst, -, -, -, hshort, -⟩ := exec_driverFault (s := oneLaser 0 (fun x => { x with st := .run })) (n := 3) (k := .short)
    (by rw [oneLaser_las]; rfl) (by rw [oneLaser_las]; decide)
  exact ⟨t, ht, hst, hshort rfl⟩

theorem overcurrentRetry_oneLaser : ∃ t,
    exec (.overcurrentRetry 3) (oneLaser 2500000 (fun x => { x with oc := true, ocAt := some 0 })) = .next t ∧ (t.las 3).oc = false := by
  obtain ⟨t, ht, hoc, -⟩ := exec_overcurrentRetry (s := oneLaser 2500000 (fun x => { x with oc := true, ocAt := some 0 })) (n := 3) (a := 0)
    (by rw [oneLaser_las]) (by rw [oneLaser_las]) (by rw [oneLaser_las]; decide) (by decide)
  exact ⟨t, ht, hoc⟩

theorem laserOut_oneLaser : ∃ t, exec (.laserOut 3) (oneLaser 0 (fun x => { x with open_ := true })) = .next t
    ∧ (t.las 3).st = .out ∧ t.laser.recDue = true :=
  exec_laserOut (n := 3) rfl (by rw [oneLaser_las]; decide) (.inl (by rw [oneLaser_las]))

end Sys2Proof.Machine

/-! # Temperatures and the limit

O31 and O32. A reading passes through four steps: it becomes its sensor's latest, it is weighed against the thresholds, its rate may
begin a shutdown, and the alert follows. `State.weighed` is the second step, so that the commands that end in one step say what the
others keep. -/

namespace Sys2Proof.Machine

namespace State

/-- A change of the thermal block changes that slice alone. -/
theorem thm_kept (s : State) (m : ThmSt) : Kept [.thm] s { s with thm := m } := Kept.set_thm (Kept.refl _ s) rfl

theorem log_thm (s : State) c b e d p st a x : (s.log c b e d p st a x).thm = s.thm :=
  (State.log_kept (Kept.refl [.pfMsix, .irqs, .ras] s) rfl).thm_eq rfl

theorem lasersDark_thm (s : State) : s.lasersDark.thm = s.thm :=
  (State.lasersDark_kept (Kept.refl [.col, .laser] s) rfl).thm_eq rfl

/-- R417: a lapse asserts the alert. -/
theorem alertCause_of_lapse {s : State} (h : s.thm.lapse = true) : s.alertCause = true := by simp [alertCause, h]

/-- R410: in a lapse the limit goes to 4 or less. -/
theorem limGoal_of_lapse {s : State} (h : s.thm.lapse = true) : s.limGoal ≤ 4 := by
  simp only [limGoal, limLapse, h, if_true]
  omega

/-! ## A reading becomes its sensor's latest (R407, R408) -/

/-- R407: the answer to the host's request leaves the sensors and what decides on their readings. -/
theorem hostReading_thm (s : State) (n : Nat) (x : Int) (b : Bool) :
    (s.hostReading n x b).thm.sens = s.thm.sens ∧ (s.hostReading n x b).thm.limT = s.thm.limT
      ∧ (s.hostReading n x b).thm.fallAt = s.thm.fallAt ∧ (s.hostReading n x b).thm.throttleC = s.thm.throttleC := by
  unfold hostReading
  split
  · exact ⟨rfl, rfl, rfl, rfl⟩
  · exact ⟨rfl, rfl, rfl, rfl⟩

/-- The first step of a reading: the host's request is answered, and the sensor keeps the reading. -/
def taken (s : State) (i : Fin 113) (x : Int) (b : Bool) : State := (s.hostReading i.val x b).keepReading i x b

theorem taken_kept (s : State) (i : Fin 113) (x : Int) (b : Bool) : Kept [.thm] s (s.taken i x b) :=
  State.keepReading_kept (State.hostReading_kept (Kept.refl _ s) rfl) rfl

theorem taken_sens_other (s : State) {i j : Fin 113} (x : Int) (b : Bool) (h : j ≠ i) : (s.taken i x b).sens j = s.sens j := by
  refine (tget_updWith_other _ _ (Ne.symm h)).trans ?_
  rw [(hostReading_thm ..).1, sens]

theorem taken_sens_fault (s : State) (i : Fin 113) (x : Int) : (s.taken i x true).sens i = { s.sens i with fault := true, prev := none } := by
  refine (tget_updWith_same _ _ _).trans ?_
  rw [(hostReading_thm ..).1]
  rfl

theorem hostReading_now (s : State) (n : Nat) (x : Int) (b : Bool) : (s.hostReading n x b).now = s.now :=
  (State.hostReading_kept (Kept.refl [.thm] s) rfl).now_eq rfl

/-- R408: a reading after a FAULT, or the first, has no rate history. -/
theorem taken_sens_first (s : State) {i : Fin 113} (x : Int) (h : (s.sens i).last = none ∨ (s.sens i).fault = true) :
    (s.taken i x false).sens i = { last := some (x, s.now), fault := false, prev := none } := by
  refine (tget_updWith_same _ _ _).trans ?_
  rw [(hostReading_thm ..).1, hostReading_now]
  show SensSt.mk (some (x, s.now)) false (if (s.sens i).fault then none else (s.sens i).last) = _
  rcases h with h | h <;> simp [h]

theorem taken_thm (s : State) (i : Fin 113) (x : Int) (b : Bool) : (s.taken i x b).thm.limT = s.thm.limT
    ∧ (s.taken i x b).thm.fallAt = s.thm.fallAt ∧ (s.taken i x b).thm.throttleC = s.thm.throttleC :=
  (hostReading_thm s i.val x b).2

/-! ## A reading is weighed (R284, R366, R409, R412) -/

/-- A reading becomes its stack's or the cartridge's temperature; a hot cartridge goes dark. -/
def measured (s : State) (sel : Fin 113) (temp : Int) : State :=
  let s := s.stackReading sel.val temp
  if sel.val = 104 then
    let s := { s with laser := { s.laser with temp := temp } }
    if 70 * 16 < temp then s.lasersDark else s
  else s

/-- The second step of a reading that is no FAULT: the temperatures of others, the throttle, and the end of a lapse. -/
def weighed (s : State) (sel : Fin 113) (temp : Int) : State :=
  let s := s.measured sel temp
  let s := if s.start.phase = .safe then s else
    let s := s.throttle sel temp
    s.restoreTimer
  if s.thm.lapse ∧ ! (List.range 64).any s.overdue then { s with thm := { s.thm with lapse := false } } else s

/-- R407, R413, R414: what a reading does, step by step. -/
theorem reading_eq {s : State} {i : Fin 113} {x : Int} {b : Bool} (hreset : s.start.resetHeld = false) (hpor : s.col.por = false)
    (hhold : s.start.thermHold = false) (hun : s.unread i = false) :
    s.reading i x b =
      let b := b || (decide (105 ≤ i.val) && (s.stack (stackNo (i.val - 105))).sr)
      if b then (s.taken i x b).alertNow
      else
        let s := (s.taken i x b).weighed i x
        let (num, den) := (s.sens i).rate
        let k := if isRo i.val then shutKind x num den else 0
        (if k ≠ 0 ∧ (s.live ∨ s.start.stop.isSome) then s.shutdown i.val x num den k else s).alertNow := by
  have hc : ¬ (s.start.resetHeld ∨ s.col.por ∨ s.start.thermHold ∨ s.unread i) := by simp [hreset, hpor, hhold, hun]
  unfold reading weighed measured taken
  rw [if_neg hc]

theorem throttle_sens (s : State) (i : Fin 113) (x : Int) : (s.throttle i x).thm.sens = s.thm.sens := by
  unfold throttle
  extract_lets
  split <;> rfl

/-- R412, step 1: at its threshold a ring oscillator lowers L_T by one step. -/
theorem throttle_of_hot {s : State} {i : Fin 113} {x : Int} (hro : i.val < 96) (hhot : (s.thm.throttleC : Int) * 16 ≤ x)
    (hlim : 0 < s.thm.limT) (hfall : s.thm.fallAt = none) :
    s.throttle i x = { s with thm := { s.thm with limT := s.thm.limT - 1, fallAt := some s.now, stackFall := false } } := by
  have hstk : isStackSens i.val = false := decide_eq_false (by omega)
  unfold throttle
  simp [isJunction, isRo, hstk, hro, hhot, hlim, hfall]

/-- R284, R366: a temperature reaches neither the thermal block nor the start, and a device that ran still runs. -/
theorem measured_same (s : State) (i : Fin 113) (x : Int) : (s.measured i x).thm = s.thm ∧ (s.measured i x).start = s.start
    ∧ (s.measured i x).col.por = s.col.por ∧ (s.measured i x).now = s.now := by
  have hstk : Kept [.dram] s (s.stackReading i.val x) := State.stackReading_kept (Kept.refl _ s) rfl
  unfold measured
  generalize s.stackReading i.val x = u at hstk
  have hthm := hstk.thm_eq rfl
  have hstart := hstk.start_eq rfl
  have hpor : u.col.por = s.col.por := congrArg Col.por (hstk.col_eq rfl)
  have hnow := hstk.now_eq rfl
  dsimp only
  split
  · split
    · rw [lasersDark_thm, lasersDark_start, now, lasersDark_col]
      exact ⟨hthm, hstart, hpor, hnow⟩
    · exact ⟨hthm, hstart, hpor, hnow⟩
  · exact ⟨hthm, hstart, hpor, hnow⟩

/-- The throttle and the restore timer change the thermal block alone, and no sensor in it. -/
theorem throttled_kept (s : State) (i : Fin 113) (x : Int) :
    Kept [.thm] s (s.throttle i x).restoreTimer ∧ (s.throttle i x).restoreTimer.thm.sens = s.thm.sens :=
  ⟨State.restoreTimer_kept (State.throttle_kept (Kept.refl _ s) rfl) rfl, throttle_sens s i x⟩

/-- R408: weighing a reading changes no sensor's latest, and the device goes on as it did. -/
theorem weighed_same (s : State) (i : Fin 113) (x : Int) :
    (s.weighed i x).thm.sens = s.thm.sens ∧ (s.weighed i x).start = s.start ∧ (s.weighed i x).live = s.live := by
  obtain ⟨hthm, hstart, hpor, -⟩ := s.measured_same i x
  unfold weighed
  generalize s.measured i x = v at hthm hstart hpor
  have hv : ∀ w, Kept [.thm] v w → w.start = s.start ∧ w.live = s.live := fun w h => by
    have hw : w.start = s.start := (h.start_eq rfl).trans hstart
    exact ⟨hw, by rw [live, live, hw, h.col_eq rfl, hpor]⟩
  have hw : ∃ w, (if v.start.phase = .safe then v else (v.throttle i x).restoreTimer) = w ∧ Kept [.thm] v w ∧ w.thm.sens = s.thm.sens := by
    obtain ⟨hk, hs⟩ := v.throttled_kept i x
    split
    · exact ⟨v, rfl, Kept.refl _ v, by rw [hthm]⟩
    · exact ⟨_, rfl, hk, by rw [hs, hthm]⟩
  obtain ⟨w, hw, hk, hs⟩ := hw
  dsimp only
  rw [hw]
  split
  · exact ⟨hs, hv _ (hk.trans (w.thm_kept _))⟩
  · exact ⟨hs, hv _ hk⟩

/-- R412: outside a safe start, a ring oscillator at its threshold lowers L_T by one step. -/
theorem weighed_of_hot {s : State} {i : Fin 113} {x : Int} (hsafe : s.start.phase ≠ .safe) (hro : i.val < 96)
    (hhot : (s.thm.throttleC : Int) * 16 ≤ x) (hlim : 0 < s.thm.limT) (hfall : s.thm.fallAt = none) :
    (s.weighed i x).thm.limT = s.thm.limT - 1 ∧ (s.weighed i x).thm.fallAt = some s.now := by
  obtain ⟨hthm, hstart, -, hnow⟩ := s.measured_same i x
  unfold weighed
  generalize s.measured i x = v at hthm hstart hnow
  rw [← hstart] at hsafe
  rw [← hthm] at hhot hlim hfall ⊢
  rw [← hnow]
  dsimp only
  rw [if_neg hsafe, throttle_of_hot hro hhot hlim hfall]
  split <;> exact ⟨rfl, rfl⟩

/-! ## A first reading, and a shutdown (R413, R414) -/

/-- R413: a reading without rate history shuts down at 118 °C alone. -/
theorem shutKind_of_no_rate (x : Int) : shutKind x 0 1 = if 1888 ≤ x then 1 else 0 := by simp [shutKind]

theorem alertNow_sens (s : State) (i : Fin 113) : s.alertNow.sens i = s.sens i := rfl

/-- R408, R413: a first reading, or one after a FAULT, that is cooler than 118 °C or no ring oscillator's, is kept and weighed. -/
theorem reading_of_first {s : State} {i : Fin 113} {x : Int} (hreset : s.start.resetHeld = false) (hpor : s.col.por = false)
    (hhold : s.start.thermHold = false) (hun : s.unread i = false) (hsr : 105 ≤ i.val → (s.stack (stackNo (i.val - 105))).sr = false)
    (hfirst : (s.sens i).last = none ∨ (s.sens i).fault = true) :
    s.reading i x false =
      let w := (s.taken i x false).weighed i x
      (if (i.val < 96 ∧ 1888 ≤ x) ∧ (w.live ∨ w.start.stop.isSome) then w.shutdown i.val x 0 1 1 else w).alertNow := by
  have hok : (false || (decide (105 ≤ i.val) && (s.stack (stackNo (i.val - 105))).sr)) = false := by
    by_cases h : 105 ≤ i.val
    · simp [hsr h]
    · simp [h]
  have hrate : (((s.taken i x false).weighed i x).sens i).rate = (0, 1) := by
    rw [sens, (weighed_same ..).1, ← sens, taken_sens_first s x hfirst]
    rfl
  rw [reading_eq hreset hpor hhold hun]
  dsimp only
  rw [hok, hrate]
  dsimp only
  rw [shutKind_of_no_rate]
  by_cases hro : i.val < 96 <;> by_cases hx : 1888 ≤ x <;> simp [isRo, hro, hx]

/-- R414: a shutdown of kind 1 in a running device records what caused it and begins the orderly stop of cause 8. -/
theorem shutdown_of_live {s : State} {n : Nat} {x num : Int} {den : Nat} (hl : s.live = true) :
    (s.shutdown n x num den 1).start.cause = 8 ∧ (s.shutdown n x num den 1).start.stop = some .thermal
      ∧ (s.shutdown n x num den 1).start.phase = .failed ∧ (s.shutdown n x num den 1).thm.shKind = 1
      ∧ (s.shutdown n x num den 1).thm.shSel = n ∧ (s.shutdown n x num den 1).thm.shTemp = x := by
  unfold shutdown
  dsimp only
  generalize hu : State.log _ _ _ _ _ = u
  have hlu : u.live = true := by rw [← hu, log_live]; exact hl
  have hstop : u.start.stop = none := by
    rw [← hu, log_start]
    exact ((live_iff s).mp hl).2.2.1
  have hcause : u.start.cause = 8 := by rw [← hu, log_start]; rfl
  have hthm : u.thm.shKind = 1 ∧ u.thm.shSel = n ∧ u.thm.shTemp = x := by
    rw [← hu, log_thm]
    exact ⟨rfl, rfl, rfl⟩
  have hkept : (u.orderlyStop .thermal).thm = u.thm := (State.orderlyStop_kept (Kept.refl (slicesBut [.thm]) u) rfl).thm_eq rfl
  rw [if_neg (by decide), hstop, if_neg (by decide), orderlyStop_start hlu, hkept]
  exact ⟨hcause, rfl, rfl, hthm⟩

end State

/-! ## Lapses and readings -/

/-- R409, R417: a sensor overdue begins a lapse. -/
theorem exec_thermalLapse {s : State} {n : Nat} (hdue : s.overdue n = true) (hno : s.thm.lapse = false) (hstop : s.start.stop = none) :
    ∃ t, exec (.thermalLapse n) s = .next t ∧ t.thm.lapse = true ∧ t.thm.alert = true
      ∧ t.thm.cLapses = min (s.thm.cLapses + 1) 0xFFFF ∧ t.limGoal ≤ 4 ∧ t.thm.sens = s.thm.sens := by
  have hc : (s.overdue n && ! s.thm.lapse && s.start.stop.isNone) = true := by simp [hdue, hno, hstop]
  simp only [exec, execThermalLapse, s.when_true _ hc]
  generalize hu : State.log _ _ _ _ _ = u
  have hthm : u.thm = { s.thm with lapse := true, cLapses := satAdd s.thm.cLapses 1 0xFFFF } := by rw [← hu, State.log_thm]
  have hlapse : u.thm.lapse = true := by rw [hthm]
  have hsat : satAdd s.thm.cLapses 1 0xFFFF = min (s.thm.cLapses + 1) 0xFFFF := by unfold satAdd; split <;> omega
  refine ⟨_, rfl, hlapse, State.alertCause_of_lapse hlapse, ?_, State.limGoal_of_lapse hlapse, ?_⟩
  · show u.thm.cLapses = _
    rw [hthm, ← hsat]
  · show u.thm.sens = _
    rw [hthm]

/-- R408: a FAULT keeps the sensor's last reading. -/
theorem exec_sensorReading_fault {s : State} {r : Reading} (hreset : s.start.resetHeld = false) (hpor : s.col.por = false)
    (hhold : s.start.thermHold = false) (hun : s.unread r.sel = false) (hfault : r.fault = true) :
    ∃ t, exec (.sensorReading r) s = .next t ∧ (s.sens r.sel).last = (t.sens r.sel).last ∧ (t.sens r.sel).fault = true
      ∧ (∀ i, i ≠ r.sel → t.sens i = s.sens i) ∧ t.thm.limT = s.thm.limT := by
  simp only [exec, execSensorReading]
  rw [State.reading_eq hreset hpor hhold hun, hfault]
  refine ⟨_, rfl, ?_, ?_, fun i hi => s.taken_sens_other _ _ hi, (s.taken_thm ..).1⟩
  · exact (congrArg SensSt.last (s.taken_sens_fault ..)).symm
  · exact congrArg SensSt.fault (s.taken_sens_fault ..)

/-- R408: a reading becomes its sensor's latest. -/
theorem exec_sensorReading_kept {s : State} {r : Reading} (hreset : s.start.resetHeld = false) (hpor : s.col.por = false)
    (hhold : s.start.thermHold = false) (hun : s.unread r.sel = false) (hfault : r.fault = false)
    (hsr : 105 ≤ r.sel.val → (s.stack (stackNo (r.sel.val - 105))).sr = false) (hcool : 96 ≤ r.sel.val ∨ r.temp < 1888)
    (hfirst : (s.sens r.sel).last = none ∨ (s.sens r.sel).fault = true) :
    ∃ t, exec (.sensorReading r) s = .next t ∧ (t.sens r.sel).last = some (r.temp, s.now) ∧ (t.sens r.sel).fault = false
      ∧ ∀ i, i ≠ r.sel → t.sens i = s.sens i := by
  simp only [exec, execSensorReading, hfault]
  rw [State.reading_of_first hreset hpor hhold hun hsr hfirst]
  dsimp only
  rw [if_neg (by omega)]
  have hsens : ∀ i, ((s.taken r.sel r.temp false).weighed r.sel r.temp).alertNow.sens i = (s.taken r.sel r.temp false).sens i := fun i => by
    rw [State.alertNow_sens, State.sens, (State.weighed_same ..).1, ← State.sens]
  refine ⟨_, rfl, ?_, ?_, fun i hi => (hsens i).trans (s.taken_sens_other _ _ hi)⟩
  · rw [hsens, s.taken_sens_first r.temp hfirst]
  · rw [hsens, s.taken_sens_first r.temp hfirst]

/-- R412: a ring oscillator at its threshold lowers L_T by one step. -/
theorem exec_sensorReading_throttle {s : State} {r : Reading} (hreset : s.start.resetHeld = false) (hpor : s.col.por = false)
    (hhold : s.start.thermHold = false) (hsafe : s.start.phase ≠ .safe) (hfault : r.fault = false) (hro : r.sel.val < 96)
    (hhot : (s.thm.throttleC : Int) * 16 ≤ r.temp) (hcool : r.temp < 1888)
    (hfirst : (s.sens r.sel).last = none ∨ (s.sens r.sel).fault = true) (hlim : 0 < s.thm.limT) (hfall : s.thm.fallAt = none) :
    ∃ t, exec (.sensorReading r) s = .next t ∧ t.thm.limT = s.thm.limT - 1 ∧ t.thm.fallAt = some s.now := by
  have hun : s.unread r.sel = false := by simp [State.unread, hsafe]
  simp only [exec, execSensorReading, hfault]
  rw [State.reading_of_first hreset hpor hhold hun (by omega) hfirst]
  dsimp only
  rw [if_neg (by omega)]
  obtain ⟨htl, htf, htc⟩ := s.taken_thm r.sel r.temp false
  have hk := s.taken_kept r.sel r.temp false
  obtain ⟨h1, h2⟩ := State.weighed_of_hot (s := s.taken r.sel r.temp false) (i := r.sel) (x := r.temp) (by rw [hk.start_eq rfl]; exact hsafe) hro
    (by rw [htc]; exact hhot) (by rw [htl]; exact hlim) (by rw [htf]; exact hfall)
  exact ⟨_, rfl, by rw [← htl]; exact h1, by rw [← hk.now_eq rfl]; exact h2⟩

/-- R413, R414: a ring oscillator at 118 °C begins the shutdown. -/
theorem exec_sensorReading_shutdown {s : State} {r : Reading} (hl : s.live = true) (hun : s.unread r.sel = false)
    (hfault : r.fault = false) (hro : r.sel.val < 96) (hhot : 1888 ≤ r.temp)
    (hfirst : (s.sens r.sel).last = none ∨ (s.sens r.sel).fault = true) :
    ∃ t, exec (.sensorReading r) s = .next t ∧ t.start.cause = 8 ∧ t.start.stop = some .thermal ∧ t.start.phase = .failed
      ∧ t.thm.shKind = 1 ∧ t.thm.shSel = r.sel.val ∧ t.thm.shTemp = r.temp := by
  obtain ⟨hpor, hreset, -, -, hhold, -⟩ := s.live_iff.mp hl
  have hk := s.taken_kept r.sel r.temp false
  have hlw : ((s.taken r.sel r.temp false).weighed r.sel r.temp).live = true := by
    rw [(State.weighed_same ..).2.2, State.live, hk.start_eq rfl, hk.col_eq rfl]
    exact hl
  simp only [exec, execSensorReading, hfault]
  rw [State.reading_of_first hreset hpor hhold hun (by omega) hfirst]
  dsimp only
  rw [if_pos ⟨⟨hro, hhot⟩, .inl hlw⟩]
  exact ⟨_, rfl, State.shutdown_of_live hlw⟩

/-- Settles O31: a clause for a lapse, and one for each kind of reading, by its rule above. -/
theorem readingsLapsesShutdown : Obligations.ReadingsLapsesShutdown := by
  unfold Obligations.ReadingsLapsesShutdown
  exact ⟨fun _ _ => exec_thermalLapse, fun _ _ => exec_sensorReading_fault, fun _ _ => exec_sensorReading_kept,
    fun _ _ => exec_sensorReading_throttle, fun _ _ => exec_sensorReading_shutdown⟩

/-! ## The limit (R407, R410 to R412) -/

namespace State

theorem setLedger_ledger_same (s : State) (k : Stack) (f : LedgerSt → LedgerSt) : (s.setLedger k f).ledger k = f (s.ledger k) :=
  tget_updWith_same _ _ _

theorem setLedger_ledger_other (s : State) {k j : Stack} (f : LedgerSt → LedgerSt) (h : k ≠ j) : (s.setLedger k f).ledger j = s.ledger j :=
  tget_updWith_other _ _ h

/-- R122: the allowances are no part of a ledger. -/
theorem allowances_ledger (s : State) (k j : Stack) : (s.allowances k).ledger j = s.ledger j :=
  State.each_inv (P := fun v => v.ledger j = s.ledger j) rfl (fun _ _ _ hv => hv)

/-- R261, R262: what is given back leaves every target. -/
theorem settleLedger_target (s : State) (k j : Stack) : ((s.settleLedger k).ledger j).target = (s.ledger j).target := by
  unfold settleLedger
  by_cases e : k = j
  · subst e
    rw [setLedger_ledger_same]
    rfl
  · rw [setLedger_ledger_other _ _ e]

/-- R410: the target of a stack, and what follows from it. -/
def retarget (s : State) (k : Stack) (n : Nat) : State :=
  ((s.setLedger k (fun g => { g with target := n })).settleLedger k).allowances k

theorem retarget_kept (s : State) (k : Stack) (n : Nat) : Kept [.spur] s (s.retarget k n) :=
  State.allowances_kept (State.settleLedger_kept (State.setLedger_kept (Kept.refl _ s) rfl) rfl) rfl

theorem retarget_target_same (s : State) (k : Stack) (n : Nat) : ((s.retarget k n).ledger k).target = n := by
  rw [retarget, allowances_ledger, settleLedger_target, setLedger_ledger_same]

theorem retarget_target_other (s : State) {k j : Stack} (n : Nat) (h : k ≠ j) : ((s.retarget k n).ledger j).target = (s.ledger j).target := by
  rw [retarget, allowances_ledger, settleLedger_target, setLedger_ledger_other _ _ h]

/-- R410: L is the limit given, and every quad's cap with it. -/
def recap (s : State) (l : Nat) : State :=
  ({ s with thm := { s.thm with lim := l } } : State).each allQuads (fun s q => s.setCq q (fun c => { c with cap := l }))

theorem setLimit_eq (s : State) (l : Nat) : s.setLimit l = (s.recap l).each allStacks (fun s k => s.retarget k (2 * l)) := by
  unfold setLimit recap retarget
  rfl

theorem recap_pass (s : State) (l : Nat) : Kept [.crest] { s with thm := { s.thm with lim := l } } (s.recap l) :=
  Kept.each (Kept.refl _ _) (fun _ _ hw => hw.trans (State.setCq_kept (Kept.refl _ _) rfl))

theorem recap_cap (s : State) (l : Nat) (q : Quad) : ((s.recap l).cq q).cap = l :=
  State.each_establishes (L := [.crest]) (P := fun w => (w.cq q).cap = l) (fun w _ => State.setCq_kept (Kept.refl _ w) rfl)
    (fun w _ => by rw [State.setCq_cq_same]) (fun w a ha hw => by rw [State.setCq_cq_other _ _ ha]; exact hw) (List.mem_finRange q)

/-- R410: L is the limit given, and with it every quad's cap and every stack's target. -/
theorem setLimit_limits (s : State) (l : Nat) : (s.setLimit l).thm = { s.thm with lim := l } ∧ (∀ q, ((s.setLimit l).cq q).cap = l)
    ∧ (∀ k, ((s.setLimit l).ledger k).target = 2 * l) ∧ Kept [.crest, .spur, .thm] s (s.setLimit l) := by
  have hpass : Kept [.spur] (s.recap l) (s.setLimit l) := by
    rw [setLimit_eq]
    exact Kept.each (Kept.refl _ _) (fun w k hw => hw.trans (w.retarget_kept k _))
  refine ⟨(hpass.thm_eq rfl).trans ((s.recap_pass l).thm_eq rfl), fun q => ?_, fun k => ?_, State.setLimit_kept (Kept.refl _ s) rfl⟩
  · rw [cq, hpass.crest_eq rfl, ← cq, recap_cap]
  · rw [setLimit_eq]
    exact State.each_establishes (L := [.spur]) (P := fun w => (w.ledger k).target = 2 * l) (fun w a => w.retarget_kept a _)
      (fun w _ => w.retarget_target_same k _) (fun w a ha hw => (w.retarget_target_other _ ha).trans hw) (List.mem_finRange k)

/-- R411: the time of a step and the alert change neither caps nor targets. -/
theorem stamped_limits {s u : State} {l : Nat} (m : ThmSt) (hcap : ∀ q, (u.cq q).cap = l) (htok : ∀ k, (u.ledger k).target = 2 * l)
    (hk : Kept [.crest, .spur, .thm] s u) : (∀ q, (({ u with thm := m } : State).cq q).cap = l)
      ∧ (∀ k, (({ u with thm := m } : State).ledger k).target = 2 * l) ∧ Kept [.crest, .spur, .thm] s { u with thm := m } :=
  ⟨hcap, htok, hk.trans (Kept.set_thm (Kept.refl _ u) rfl)⟩

/-- R411: the limit rises by one step, and the time of the step is kept. -/
def raiseLimit (s : State) : State :=
  let s := s.setLimit (s.thm.lim + 1)
  { s with thm := { s.thm with upAt := some s.now, cUp := satAdd s.thm.cUp 1 0xFFFF } }

theorem raiseLimit_thm (s : State) : s.raiseLimit.thm =
    { s.thm with lim := s.thm.lim + 1, upAt := some s.now, cUp := satAdd s.thm.cUp 1 0xFFFF } := by
  obtain ⟨hthm, -, -, hk⟩ := s.setLimit_limits (s.thm.lim + 1)
  unfold raiseLimit
  dsimp only
  rw [hthm, hk.now_eq rfl]

theorem raiseLimit_limits (s : State) : (∀ q, (s.raiseLimit.cq q).cap = s.thm.lim + 1)
    ∧ (∀ k, (s.raiseLimit.ledger k).target = 2 * (s.thm.lim + 1)) ∧ Kept [.crest, .spur, .thm] s s.raiseLimit := by
  obtain ⟨-, hcap, htok, hk⟩ := s.setLimit_limits (s.thm.lim + 1)
  exact stamped_limits _ hcap htok hk

/-- R411: neither L_T nor its timer waits on the limit. -/
theorem when_raiseLimit_thm (s : State) (b : Bool) :
    (s.when b raiseLimit).thm.limT = s.thm.limT ∧ (s.when b raiseLimit).thm.restore = s.thm.restore := by
  cases b with
  | false => exact ⟨rfl, rfl⟩
  | true =>
    rw [s.when_true _ rfl, raiseLimit_thm]
    exact ⟨rfl, rfl⟩

theorem alertNow_cq (s : State) (q : Quad) : s.alertNow.cq q = s.cq q := rfl
theorem alertNow_ledger (s : State) (k : Stack) : s.alertNow.ledger k = s.ledger k := rfl
theorem alertNow_steps (s : State) : s.alertNow.thm.lim = s.thm.lim ∧ s.alertNow.thm.upAt = s.thm.upAt ∧ s.alertNow.thm.limT = s.thm.limT
    ∧ s.alertNow.thm.restore = s.thm.restore := ⟨rfl, rfl, rfl, rfl⟩

/-- R411, R412: LIMIT_STEP_UP: a step of the restore timer, one of the limit when it is due, and the alert. -/
theorem execLimitStepUp_eq (s : State) : execLimitStepUp s = .next (State.alertNow (s.restoreStep.when
    (decide (s.restoreStep.thm.lim < s.restoreStep.limGoal)
      && (match s.restoreStep.thm.upAt with | some t => s.restoreStep.past t (msCyc 10) | none => true)) raiseLimit)) := rfl

end State

/-- R407: a request names its sensor and waits. -/
theorem exec_thmRequest {s : State} {v : W32} (hsv : s.served = true) (hsel : fld v.toNat 6 0 ≤ 112) :
    ∃ t, exec (.thmRequest v) s = .next t ∧ t.thm.reqSel = fld v.toNat 6 0 ∧ t.thm.busy = true ∧ t.thm.resValid = false ∧ Only [.thm] s t := by
  simp only [exec, execThmRequest, s.when_true _ hsv, State.thmReqWrite, if_pos hsel]
  exact ⟨_, rfl, rfl, rfl, rfl, (s.thm_kept _).only⟩

/-- R411: at most once in 50 µs the limit falls by one step. -/
theorem exec_limitStepDown {s : State} (hlow : s.limGoal < s.thm.lim) (hdue : ∀ a, s.thm.downAt = some a → a + usCyc 50 ≤ s.now) :
    ∃ t, exec .limitStepDown s = .next t ∧ t.thm.lim = s.thm.lim - 1 ∧ t.thm.downAt = some s.now
      ∧ (∀ q, (t.cq q).cap = s.thm.lim - 1) ∧ (∀ k, (t.ledger k).target = 2 * (s.thm.lim - 1)) ∧ Only [.crest, .spur, .thm] s t := by
  obtain ⟨hthm, hcap, htok, hk⟩ := s.setLimit_limits (s.thm.lim - 1)
  simp only [exec, execLimitStepDown]
  rw [s.when_true]
  case h => split <;> simp [State.past_of_le, *]
  obtain ⟨hcap', htok', hk'⟩ := State.stamped_limits _ hcap htok hk
  refine ⟨_, rfl, ?_, ?_, hcap', htok', hk'.only⟩
  · exact congrArg ThmSt.lim hthm
  · exact congrArg some (hk.now_eq rfl)

/-- R412, step 3: no restore timer runs. -/
theorem State.restoreStep_of_none {s : State} (h : s.thm.restore = none) : s.restoreStep = s := by rw [restoreStep, h]

/-- R411: at most once in 10 ms the limit rises by one step. -/
theorem exec_limitStepUp {s : State} (hno : s.thm.restore = none) (hlow : s.thm.lim < s.limGoal)
    (hdue : ∀ a, s.thm.upAt = some a → a + msCyc 10 ≤ s.now) :
    ∃ t, exec .limitStepUp s = .next t ∧ t.thm.lim = s.thm.lim + 1 ∧ t.thm.upAt = some s.now
      ∧ (∀ q, (t.cq q).cap = s.thm.lim + 1) ∧ (∀ k, (t.ledger k).target = 2 * (s.thm.lim + 1)) ∧ Only [.crest, .spur, .thm] s t := by
  have hc : (decide (s.thm.lim < s.limGoal) && (match s.thm.upAt with | some t => s.past t (msCyc 10) | none => true)) = true := by
    split <;> simp [State.past_of_le, *]
  obtain ⟨hcap, htok, hk⟩ := s.raiseLimit_limits
  obtain ⟨hl, hu, -, -⟩ := s.raiseLimit.alertNow_steps
  have ht : exec .limitStepUp s = .next s.raiseLimit.alertNow := by
    rw [exec, State.execLimitStepUp_eq, State.restoreStep_of_none hno, s.when_true _ hc]
  refine ⟨_, ht, ?_, ?_, fun q => ?_, fun k => ?_, (hk.trans (State.alertNow_kept (Kept.refl _ _) rfl)).only⟩
  · rw [hl, State.raiseLimit_thm]
  · rw [hu, State.raiseLimit_thm]
  · rw [State.alertNow_cq, hcap]
  · rw [State.alertNow_ledger, htok]

/-- R412, step 3: when the restore timer reaches 10 ms, L_T rises by one step. -/
theorem exec_limitStepUp_restore {s : State} {a : Nat} (hrun : s.thm.restore = some a) (ha : a + msCyc 10 ≤ s.now) (hlim : s.thm.limT < 16) :
    ∃ t, exec .limitStepUp s = .next t ∧ t.thm.limT = s.thm.limT + 1 ∧ t.thm.restore = some s.now := by
  have hstep : s.restoreStep = { s with thm := { s.thm with limT := s.thm.limT + 1, restore := some s.now } } := by
    rw [State.restoreStep, hrun]
    exact if_pos ⟨State.past_of_le ha, hlim⟩
  have hstepped : s.restoreStep.thm.limT = s.thm.limT + 1 ∧ s.restoreStep.thm.restore = some s.now := by
    rw [hstep]
    exact ⟨rfl, rfl⟩
  refine ⟨_, by rw [exec, State.execLimitStepUp_eq], ?_⟩
  obtain ⟨-, -, hlim', hrun'⟩ := State.alertNow_steps (s.restoreStep.when _ State.raiseLimit)
  obtain ⟨hlim'', hrun''⟩ := s.restoreStep.when_raiseLimit_thm _
  exact ⟨hlim'.trans (hlim''.trans hstepped.1), hrun'.trans (hrun''.trans hstepped.2)⟩

/-- Settles O32: a clause for each command, two for a step up, by its rule above. -/
theorem thermalRequestAndLimit : Obligations.ThermalRequestAndLimit := by
  unfold Obligations.ThermalRequestAndLimit
  exact ⟨fun _ _ => exec_thmRequest, fun _ => exec_limitStepDown, fun _ => exec_limitStepUp, fun _ _ => exec_limitStepUp_restore⟩

end Sys2Proof.Machine

/-! # Device-fatal errors

O33. The causes of R429 come down to two ends: the orderly stop of `State.deviceFatal`, or, when the system PLL is lost, the cut at
once of `State.cutNow`. -/

namespace Sys2Proof.Machine

namespace State

/-- R63, R430: what follows a device-fatal stop keeps its cause and its phase. -/
theorem stopEnd_fatal (s : State) : (s.stopEnd .fatal).start.cause = s.start.cause ∧ (s.stopEnd .fatal).start.phase = s.start.phase := by
  unfold stopEnd
  dsimp only
  split <;> exact ⟨rfl, rfl⟩

/-- R416, R430: a device-fatal cut keeps the cause recorded, and every domain loses its state. -/
theorem cutNow_fatal (s : State) : (s.cutNow .fatal).start.cause = s.start.cause ∧ (s.cutNow .fatal).start.phase = .failed
    ∧ (s.cutNow .fatal).start.stop = none ∧ (s.cutNow .fatal).committed = false ∧ (s.cutNow .fatal).items = [] := by
  obtain ⟨v, hstart, -, hv⟩ := s.cutNow_eq .fatal
  obtain ⟨hcause, hphase⟩ := State.stopEnd_fatal ((v.cut false).setPhase StopCause.fatal.phase)
  have hk : Kept [.col, .start, .thm] _ (((v.cut false).setPhase StopCause.fatal.phase).stopEnd .fatal) :=
    State.stopEnd_kept (Kept.refl _ _) rfl
  obtain ⟨hcommitted, hitems, -⟩ := v.cut_empty false
  rw [hv]
  refine ⟨?_, hphase, State.stopEnd_stop _ _, (hk.committed_eq rfl).trans hcommitted, (hk.items_eq rfl).trans hitems⟩
  rw [hcause, State.setPhase_start, State.cut_false_start, hstart]

theorem deviceFatal_lockLoss (s : State) : s.deviceFatal.lockLoss = s.lockLoss :=
  (State.deviceFatal_kept (Kept.refl (slicesBut [.lockLoss]) s) rfl).lockLoss_eq rfl

/-- R430: the orderly stop says nothing of the Traverse PLL. -/
theorem deviceFatal_trvLock {s : State} (h : s.live = true) : s.deviceFatal.start.trvLock = s.start.trvLock := by
  have hl : (s.setCause 5).live = true := h
  rw [deviceFatal, if_pos h, orderlyStop_start hl]
  rfl

/-- R429: the watchdog in a running device that is ready. -/
theorem watchdogFatal_start {s : State} (hl : s.live = true) (hready : s.isReady = true) :
    s.watchdogFatal.start.cause = 5 ∧ s.watchdogFatal.start.stop = some .fatal ∧ s.watchdogFatal.start.phase = .failed := by
  rw [watchdogFatal, if_pos hready]
  exact State.deviceFatal_start ((State.log_live ..).trans hl)

end State

/-- R430: the loss of the system PLL. -/
theorem exec_deviceFatal_sysPll {s : State} (hlock : s.start.sysLock = true) :
    ∃ t, exec (.deviceFatal .sysPll) s = .next t ∧ t.start.cause = 5 ∧ t.start.phase = .failed ∧ t.start.stop = none
      ∧ t.committed = false ∧ t.items = [] := by
  simp only [exec, execDeviceFatal, State.sysPllLost, if_pos hlock]
  exact ⟨_, rfl, State.cutNow_fatal _⟩

/-- R429, R430: the loss of the Traverse PLL in a running device. -/
theorem exec_deviceFatal_trvPll {s : State} (hlock : s.start.trvLock = true) (hl : s.live = true) :
    ∃ t, exec (.deviceFatal .trvPll) s = .next t ∧ t.start.cause = 5 ∧ t.start.stop = some .fatal ∧ t.start.phase = .failed
      ∧ t.start.trvLock = false ∧ t.lockLoss = min (s.lockLoss + 1) 255 := by
  simp only [exec, execDeviceFatal, s.when_true _ hlock]
  generalize hu : State.log _ _ _ _ _ = u
  have hlu : u.live = true := by rw [← hu, State.log_live]; exact hl
  have hloss : u.lockLoss = min (s.lockLoss + 1) 255 := by rw [← hu, State.log_lockLoss, State.countLock_lockLoss]
  have hlv : ({ u with start := { u.start with trvLock := false } } : State).live = true := hlu
  obtain ⟨hcause, hstop, hphase⟩ := State.deviceFatal_start hlv
  exact ⟨_, rfl, hcause, hstop, hphase, State.deviceFatal_trvLock hlv, (State.deviceFatal_lockLoss _).trans hloss⟩

/-- R429, R430: an uncorrectable error of the management processor in a running device. -/
theorem exec_deviceFatal_mgmtUe {s : State} (hl : s.live = true) (hsafe : s.start.phase ≠ .safe) :
    ∃ t, exec (.deviceFatal .mgmtUe) s = .next t ∧ t.start.cause = 5 ∧ t.start.stop = some .fatal ∧ t.start.phase = .failed := by
  have hc : (s.live && s.start.phase != .safe) = true := by simp [hl, hsafe]
  simp only [exec, execDeviceFatal, s.when_true _ hc]
  exact ⟨_, rfl, State.deviceFatal_start ((State.log_live ..).trans hl)⟩

/-- Settles O33: a clause for each cause, and one for the watchdog's own command, by its rule above. -/
theorem deviceFatalStops : Obligations.DeviceFatalStops := by
  unfold Obligations.DeviceFatalStops
  exact ⟨fun _ => exec_deviceFatal_sysPll, fun _ => exec_deviceFatal_trvPll, fun _ => exec_deviceFatal_mgmtUe,
    fun _ hl hready => ⟨_, rfl, State.watchdogFatal_start hl hready⟩, fun _ hl hready => ⟨_, rfl, State.watchdogFatal_start hl hready⟩⟩

/-! ## States that meet the hypotheses of O31, O32 and O33 -/

/-- A READY device at crystal cycle `n`, with the thermal block given. -/
def warmDevice (n : Nat) (m : ThmSt) : State := { readyState with col := { Col.reset with por := false, cyc := n }, thm := m }

/-- No sensor has a reading after reset. -/
@[simp] theorem warmDevice_sens (n : Nat) (i : Fin 113) : (warmDevice n ThmSt.reset).sens i = { last := none, fault := false, prev := none } :=
  tget_rep _ i

theorem live_warmDevice (n : Nat) (m : ThmSt) : (warmDevice n m).live = true := rfl

/-- 100 °C is the threshold of the ring oscillators after reset: L_T falls from 16 to 15. -/
theorem sensorReading_warmDevice : ∃ t, exec (.sensorReading { sel := 7, temp := 1600, fault := false }) (warmDevice 9 ThmSt.reset) = .next t
    ∧ t.thm.limT = 15 ∧ t.thm.fallAt = some 9 := by
  obtain ⟨t, ht, hlim, hfall⟩ := exec_sensorReading_throttle (s := warmDevice 9 ThmSt.reset) (r := { sel := 7, temp := 1600, fault := false })
    rfl rfl rfl (by decide) rfl (by decide) (by decide) (by decide) (.inl (by rw [warmDevice_sens])) (by decide) rfl
  exact ⟨t, ht, hlim, hfall⟩

/-- 118 °C on ring oscillator 7. -/
theorem sensorReading_shutdown_warmDevice :
    ∃ t, exec (.sensorReading { sel := 7, temp := 1888, fault := false }) (warmDevice 9 ThmSt.reset) = .next t
      ∧ t.start.cause = 8 ∧ t.thm.shSel = 7 := by
  obtain ⟨t, ht, hcause, -, -, -, hsel, -⟩ := exec_sensorReading_shutdown (s := warmDevice 9 ThmSt.reset)
    (r := { sel := 7, temp := 1888, fault := false }) (live_warmDevice ..) rfl rfl (by decide) (by decide)
    (.inl (by rw [warmDevice_sens]))
  exact ⟨t, ht, hcause, hsel⟩

theorem limitStepDown_warmDevice :
    ∃ t, exec .limitStepDown (warmDevice 9 { ThmSt.reset with hostLimit := 8 }) = .next t ∧ t.thm.lim = 15 ∧ (t.cq 3).cap = 15 := by
  obtain ⟨t, ht, hlim, -, hcap, -⟩ := exec_limitStepDown (s := warmDevice 9 { ThmSt.reset with hostLimit := 8 }) (by decide)
    (fun a h => by cases h)
  exact ⟨t, ht, hlim, hcap 3⟩

theorem limitStepUp_warmDevice :
    ∃ t, exec .limitStepUp (warmDevice 9 { ThmSt.reset with lim := 15 }) = .next t ∧ t.thm.lim = 16 ∧ (t.ledger 3).target = 32 := by
  obtain ⟨t, ht, hlim, -, -, htok, -⟩ := exec_limitStepUp (s := warmDevice 9 { ThmSt.reset with lim := 15 }) rfl (by decide)
    (fun a h => by cases h)
  exact ⟨t, ht, hlim, htok 3⟩

/-- The restore timer has run for 10 ms. -/
theorem limitStepUp_restore_warmDevice :
    ∃ t, exec .limitStepUp (warmDevice 250000 { ThmSt.reset with limT := 15, restore := some 0 }) = .next t ∧ t.thm.limT = 16 := by
  obtain ⟨t, ht, hlim, -⟩ := exec_limitStepUp_restore (s := warmDevice 250000 { ThmSt.reset with limT := 15, restore := some 0 }) (a := 0)
    rfl (by decide) (by decide)
  exact ⟨t, ht, hlim⟩

theorem deviceFatal_sysPll_readyState : ∃ t, exec (.deviceFatal .sysPll) readyState = .next t ∧ t.start.cause = 5 ∧ t.start.stop = none := by
  obtain ⟨t, ht, hcause, -, hstop, -⟩ := exec_deviceFatal_sysPll (s := readyState) rfl
  exact ⟨t, ht, hcause, hstop⟩

theorem deviceFatal_mgmtUe_readyState : ∃ t, exec (.deviceFatal .mgmtUe) readyState = .next t ∧ t.start.stop = some .fatal := by
  obtain ⟨t, ht, -, hstop, -⟩ := exec_deviceFatal_mgmtUe (s := readyState) rfl (by decide)
  exact ⟨t, ht, hstop⟩

end Sys2Proof.Machine

/-! # Calibration

O44 and O43. A slot of a link is rolled back by one operation, `State.slotBack`, whoever asks for it: its rule is stated once for a slot
that runs. A full calibration begins on each port of its mask, and the visits of the others leave that port's run alone. -/

namespace Sys2Proof.Machine

/-! ## Rings, sweeps and slots (R391 to R395) -/

/-- R385: a ring that enters a mode is in it. -/
theorem RingSt.enter_mode (r : RingSt) (m : RingMode) : (r.enter m).mode = m := by
  unfold enter
  split
  · assumption
  · rfl

theorem PortSt.setRing_ring_same (r : PortSt) (k : Fin 36) (f : RingSt → RingSt) : (r.setRing k f).ring k = f (r.ring k) :=
  tget_updWith_same _ _ _

namespace State

theorem setRing_ring_same (s : State) (p : Port) (k : Fin 36) (f : RingSt → RingSt) : (s.setRing p k f).ring p k = f (s.ring p k) := by
  rw [ring, setRing, setPort_port_same, PortSt.setRing_ring_same, ring]

/-- R391: without another acquisition at its port, one that begins is the only one, and its ring holds. -/
theorem startAcq_of_idle {s : State} {p : Port} (h : (s.port p).acq = []) (rx : Bool) (g : Pos) (slot : Bool) :
    ((s.startAcq p rx g slot).ring p (ringOf rx g)).mode = .hold
      ∧ ((s.startAcq p rx g slot).port p).acq.map (fun a => (a.rx, a.pos, a.idx, a.slot)) = [(rx, g, 0, slot)] := by
  unfold startAcq
  extract_lets k u a
  have hring : (u.ring p k).mode = .hold := by rw [setRing_ring_same, RingSt.enter_mode]
  have hacq : (u.port p).acq = [] := (congrArg PortSt.acq (setPort_port_same s p _)).trans h
  rw [ring, setPort_port_same]
  refine ⟨hring, ?_⟩
  show ((u.port p).acq.filter (fun x => ! x.is a) ++ [a]).map (fun a => (a.rx, a.pos, a.idx, a.slot)) = _
  rw [hacq]
  rfl

/-- R393: a message of the link leaves its slot. -/
theorem sendCtl_slot (s : State) (p : Port) n l vc : ((s.sendCtl p n l vc).link p).slot = (s.link p).slot := by
  unfold sendCtl enqueue
  extract_lets
  refine (LinkSt.eq_of_rest LinkSt.slot (pump_rest ..) (fun _ => rfl)).trans ?_
  rw [setLink_link_same, setLink_link_same]

/-- R394: a slot that runs and is not rolling back: it rolls back, its ring to the values saved. -/
theorem slotBack_of_running {s : State} {p : Port} {x : SlotSt} (hx : (s.link p).slot = some x) (h0 : x.stage ≠ 0) (h4 : x.stage ≠ 4)
    (c : Nat) : ((s.slotBack p c).link p).slot = some { x with stage := 4, backAt := s.now }
      ∧ ((s.slotBack p c).ring p x.ring).mode = .track ∧ ((s.slotBack p c).ring p x.ring).u = x.saved.1
      ∧ ((s.slotBack p c).ring p x.ring).bias = x.saved.2.1 := by
  simp only [slotBack, hx, if_neg h0, if_neg h4]
  generalize hu : State.setPort _ p _ = u
  have hslot : (u.link p).slot = some { x with stage := 4, backAt := s.now } := by rw [← hu, setPort_link, setLink_link_same]
  have hring : ∀ f, ((u.setRing p x.ring f).calCount p 1).ring p x.ring = f (u.ring p x.ring) := fun f => u.setRing_ring_same p x.ring f
  refine ⟨(congrArg LinkSt.slot (log_link ..)).trans hslot, ?_⟩
  rw [ring, log_port, ← ring, hring]
  exact ⟨RingSt.enter_mode .., rfl, rfl⟩

/-- R394: an abort tells the peer, and rolls the slot back. -/
theorem slotAbort_of_running {s : State} {p : Port} {x : SlotSt} (hx : (s.link p).slot = some x) (h0 : x.stage ≠ 0) (h4 : x.stage ≠ 4)
    (c : Nat) : ((s.slotAbort p c).link p).slot = some { x with stage := 4, backAt := s.now }
      ∧ ((s.slotAbort p c).ring p x.ring).mode = .track ∧ ((s.slotAbort p c).ring p x.ring).u = x.saved.1 := by
  simp only [slotAbort, hx]
  generalize hu : State.sendCtl _ _ _ _ _ = u
  have hslot : (u.link p).slot = some x := by rw [← hu, sendCtl_slot, hx]
  have hnow : u.now = s.now := by rw [← hu, sendCtl_now]
  obtain ⟨hback, hmode, hcode, -⟩ := slotBack_of_running hslot h0 h4 c
  exact ⟨hback.trans (by rw [hnow]), hmode, hcode⟩

/-- R391, R395: a transmit position is WARM, and no move waits for it. -/
theorem becomeWarm_of_no_move {s : State} {p : Port} (h : (s.port p).txMoves = []) (g : Pos) :
    s.becomeWarm p false g = s.setPos p false g .warm := by
  have hm : ((s.setPos p false g .warm).port p).txMoves = [] := (congrArg PortSt.txMoves (setPort_port_same s p _)).trans h
  simp only [becomeWarm, hm, Bool.false_eq_true, if_false]
  rfl

end State

/-! ## Calibration slots (R392 to R395) -/

/-- R392: the lead announces a slot for the position of the oldest ring. -/
theorem exec_calSlotStart {s : State} {p : Port} {rx : Bool} {g : Pos} (hup : (s.link p).st = .up) (hlead : (s.link p).lead = true)
    (hen : s.cal.bgEn = true) (hno : (s.link p).slot = none) (hgap : (s.link p).slotEnd + msCyc s.cal.gapMs ≤ s.now)
    (hstop : s.start.stop = none) (hcal : (s.port p).cal = none) (hold : (s.port p).oldest = some (rx, g)) (hpos : s.pos p rx g ≠ .active) :
    ∃ t, exec (.calSlotStart p) s = .next t ∧ (t.link p).slot = some
      { leadTx := ! rx, pos := g, frame := ((s.port p).dirFrame rx s.now + 13672) % 2 ^ 32, own := true
        at_ := s.now + cdiv (13672 * 64) 35, stage := 0, saved := (0, 0, 0, .off), committed := false, backAt := 0 } := by
  have hc : ((s.link p).st == .up && (s.link p).lead && s.cal.bgEn && (s.link p).slot.isNone
      && s.past (s.link p).slotEnd (msCyc s.cal.gapMs) && s.start.stop.isNone && (s.port p).cal.isNone) = true := by
    simp [hup, hlead, hen, hno, State.past_of_le hgap, hstop, hcal]
  simp only [exec, execCalSlotStart, s.when_true _ hc, hold]
  generalize hu : State.setLink s p _ = u
  have hport : u.port p = s.port p := by rw [← hu]; rfl
  have hidle : ∀ l, ((u.sendCtl p 0x06 l).pos p rx g == .active) = false := fun l => by
    rw [State.pos, State.sendCtl_port, hport, ← State.pos]
    exact beq_eq_false_iff_ne.mpr hpos
  simp only [hidle, Bool.false_eq_true, if_false]
  refine ⟨_, rfl, ?_⟩
  rw [State.sendCtl_slot, ← hu, State.setLink_link_same]

/-- R393: the receiver sweeps its ring. -/
theorem exec_calRxStart {s : State} {p : Port} {x : SlotSt} (hx : (s.link p).slot = some x) (htx : x.tx = false) (h2 : x.stage = 2)
    (hacq : (s.port p).acq = []) :
    ∃ t, exec (.calRxStart p) s = .next t ∧ (t.ring p (rxRing x.pos)).mode = .hold
      ∧ (t.port p).acq.map (fun a => (a.rx, a.pos, a.idx, a.slot)) = [(true, x.pos, 0, true)] ∧ Only [.ports] s t := by
  have hgot : s.gotRxStart p = s.startAcq p true x.pos true := by
    simp only [State.gotRxStart, hx]
    exact if_pos ⟨htx, h2⟩
  obtain ⟨hmode, hone⟩ := State.startAcq_of_idle hacq true x.pos true
  simp only [exec, execCalRxStart, hgot]
  exact ⟨_, rfl, hmode, hone, (State.startAcq_kept (Kept.refl _ s) rfl).only⟩

/-- R395: the receiver is done: the slot ends, and its position is WARM. -/
theorem exec_calRxDone {s : State} {p : Port} {x : SlotSt} (hx : (s.link p).slot = some x) (htx : x.tx = true) (h3 : x.stage = 3)
    (hmoves : (s.port p).txMoves = []) :
    ∃ t, exec (.calRxDone p 0) s = .next t ∧ (t.link p).slot = none ∧ (t.link p).slotEnd = s.now ∧ t.pos p false x.pos = .warm
      ∧ (t.ring p x.ring).rtime = s.time := by
  have hgot : s.gotRxDone p 0 = (((s.ringDone p x.ring).slotOver p).becomeWarm p false x.pos).calCount p 0 := by
    simp only [State.gotRxDone, hx, if_true]
    rw [if_pos ⟨htx, h3⟩]
  simp only [exec, execCalRxDone, hgot]
  generalize hu : (s.ringDone p x.ring).slotOver p = u
  have hlink : (u.link p).slot = none ∧ (u.link p).slotEnd = s.now := by
    rw [← hu, State.slotOver, State.setPort_link, State.setLink_link_same]
    exact ⟨rfl, rfl⟩
  have hport : u.port p = { (s.port p).setRing x.ring (fun y => { y with rtime := s.time }) with
      acq := (s.port p).acq.filter (fun a => ! a.slot) } := by
    rw [← hu, State.slotOver, State.setPort_port_same, State.setLink_port, State.ringDone, State.setRing, State.setPort_port_same]
    rfl
  have hm : (u.port p).txMoves = [] := by rw [hport]; exact hmoves
  have hring : (u.ring p x.ring).rtime = s.time := by
    rw [State.ring, hport]
    exact congrArg RingSt.rtime (PortSt.setRing_ring_same ..)
  rw [State.becomeWarm_of_no_move hm]
  refine ⟨_, rfl, hlink.1, hlink.2, ?_, ?_⟩
  · show ((u.setPort p _).port p).pos false x.pos = .warm
    rw [State.setPort_port_same]
    exact PortSt.setPos_pos_same ..
  · show (((u.setPort p _).port p).ring x.ring).rtime = s.time
    rw [State.setPort_port_same]
    exact hring

/-- R394, R395: the receiver failed: the slot rolls back. -/
theorem exec_calRxDone_failed {s : State} {p : Port} {x : SlotSt} {result : Nat} (hx : (s.link p).slot = some x) (htx : x.tx = true)
    (h3 : x.stage = 3) (hres : result ≠ 0) :
    ∃ t, exec (.calRxDone p result) s = .next t ∧ (t.link p).slot = some { x with stage := 4, backAt := s.now }
      ∧ (t.ring p x.ring).mode = .track ∧ (t.ring p x.ring).u = x.saved.1 ∧ (t.ring p x.ring).bias = x.saved.2.1 := by
  have hgot : s.gotRxDone p result = s.slotBack p 2 := by
    simp only [State.gotRxDone, hx]
    rw [if_pos ⟨htx, h3⟩, if_neg hres]
  simp only [exec, execCalRxDone, hgot]
  exact ⟨_, rfl, State.slotBack_of_running hx (by omega) (by omega) 2⟩

/-- R394: the peer aborts the slot. -/
theorem exec_calAbort {s : State} {p : Port} {x : SlotSt} {cause : Nat} (hx : (s.link p).slot = some x) (h0 : x.stage ≠ 0)
    (h4 : x.stage ≠ 4) :
    ∃ t, exec (.calAbort p cause) s = .next t ∧ (t.link p).slot = some { x with stage := 4, backAt := s.now }
      ∧ (t.ring p x.ring).mode = .track ∧ (t.ring p x.ring).u = x.saved.1 ∧ (t.ring p x.ring).bias = x.saved.2.1 :=
  ⟨_, rfl, State.slotBack_of_running hx h0 h4 cause⟩

/-- R394: a slot that has not ended by its limit is aborted by the end that announced it. -/
theorem exec_slotLimitExpiry {s : State} {p : Port} {x : SlotSt} (hx : (s.link p).slot = some x) (hown : x.own = true) (h0 : x.stage ≠ 0)
    (h4 : x.stage < 4) (hlate : x.at_ + msCyc s.cal.limitMs ≤ s.now) :
    ∃ t, exec (.slotLimitExpiry p) s = .next t ∧ (t.link p).slot = some { x with stage := 4, backAt := s.now }
      ∧ (t.ring p x.ring).mode = .track ∧ (t.ring p x.ring).u = x.saved.1 := by
  have hc : (x.own && decide (x.stage < 4) && s.past x.at_ (msCyc s.cal.limitMs)) = true := by
    simp [hown, h4, State.past_of_le hlate]
  have hx' : ((s.calCount p 2).link p).slot = some x := hx
  simp only [exec, execSlotLimitExpiry, hx, s.when_true _ hc]
  exact ⟨_, rfl, State.slotAbort_of_running hx' h0 (by omega) 0⟩

/-- R394: a position not WARM within 5 ms of the rollback is in FAULT. -/
theorem exec_rollbackTimeout {s : State} {p : Port} {x : SlotSt} (hx : (s.link p).slot = some x) (h4 : x.stage = 4)
    (hlate : x.backAt + msCyc 5 ≤ s.now) :
    ∃ t, exec (.rollbackTimeout p) s = .next t ∧ (t.link p).slot = none ∧ t.pos p (! x.tx) x.pos = .fault := by
  have hc : (decide (x.stage = 4) && s.past x.backAt (msCyc 5)) = true := by simp [h4, State.past_of_le hlate]
  simp only [exec, execRollbackTimeout, hx, s.when_true _ hc]
  refine ⟨_, rfl, ?_, ?_⟩
  · rw [State.setFault, State.log_link, State.setPort_link, State.setPos, State.setPort_link, State.slotOver, State.setPort_link,
      State.setLink_link_same]
  · rw [State.pos, State.setFault_port]
    exact PortSt.setPos_pos_same ..

/-- Settles O44: a clause for each command, two for the two results of the receiver, by its rule above. -/
theorem calibrationSlots : Obligations.CalibrationSlots := by
  unfold Obligations.CalibrationSlots
  exact ⟨fun _ _ _ _ => exec_calSlotStart, fun _ _ _ => exec_calRxStart, fun _ _ _ => exec_calRxDone,
    fun _ _ _ _ => exec_calRxDone_failed, fun _ _ _ _ => exec_calAbort, fun _ _ _ => exec_slotLimitExpiry,
    fun _ _ _ => exec_rollbackTimeout⟩

/-! ## The reply of a request in execution (R162, R163) -/

theorem FieldsFit.pair {f g : Nat × List Byte} (hf : 8 ≤ f.1 ∧ f.1 + f.2.length ≤ 63) (hg : 8 ≤ g.1 ∧ g.1 + g.2.length ≤ 63)
    (h : FieldsApart f g) : FieldsFit [f, g] := by
  refine ⟨fun x hx => ?_, List.pairwise_pair.mpr h⟩
  rcases List.mem_cons.mp hx with rfl | hx
  · exact hf
  · exact List.mem_singleton.mp hx ▸ hg

/-- R162: the request in execution is done, and none waits: its reply is all that happens. -/
theorem State.mbxDone_eq {u : State} {req : List Byte} {b : Nat} (hb : u.mbx.busy = some (req, b)) (he : u.mbx.reqHead = u.mbx.reqTail)
    (st : Status) (res : List (Nat × List Byte)) (hint : Nat) :
    u.mbxDone st res hint = ({ u with mbx := { u.mbx with busy := none } } : State).mbxReply req st res hint := by
  simp only [mbxDone, hb]
  refine State.mbxUnknown_of_empty ?_ 256
  rw [State.mbxReply_mbx]
  exact he

/-- R162, R163: the answer to the request in execution, when none waits, is its reply. -/
theorem State.mbxDone_answered {s u : State} {req : List Byte} {b : Nat} (hc : Canon u) (hm : u.mbx = s.mbx)
    (hb : s.mbx.busy = some (req, b)) (he : s.mbx.reqHead = s.mbx.reqTail) {res : List (Nat × List Byte)} (hr : FieldsFit res)
    (st : Status) (hint : Nat) : Answered s (u.mbxDone st res hint) req st res := by
  have hdone := State.mbxDone_eq (u := u) (by rw [hm]; exact hb) (by rw [hm]; exact he) st res hint
  have hmbx : (u.mbxDone st res hint).mbx = { s.mbx with
      busy := none, rspTail := (s.mbx.rspTail + 1) % s.mbxSize
      phase := if (s.mbx.rspTail + 1) % s.mbxSize = 0 then ! s.mbx.phase else s.mbx.phase } := by
    have hsize : s.mbxSize = u.mbxSize := by rw [State.mbxSize, State.mbxSize, hm]
    rw [hdone, State.mbxReply_mbx, hsize, ← hm]
    rfl
  have hmem : (u.mbxDone st res hint).hostMem
      = spWrite u.hostMem (s.mbx.rspBase + 64 * s.mbx.rspTail) (replyBytes req st res hint s.mbx.phase) := by
    rw [hdone, State.mbxReply_hostMem, ← hm]
  have hlen : (replyBytes req st res hint s.mbx.phase).length = 64 := replyBytes_length hr
  refine ⟨by rw [hmbx]; exact he, by rw [hmbx], by rw [hmbx], ?_, fun f hf => ?_⟩
  · rw [State.hostRead, hmem, ← replyBytes_head hr (hint := hint) (phase := s.mbx.phase)]
    exact spRead_spWrite_inside (o := 0) hc.hostMem (by omega)
  · obtain ⟨-, hend⟩ := hr.inside f hf
    rw [State.hostRead, hmem, spRead_spWrite_inside hc.hostMem (by omega), replyBytes_field hr hf]

/-! ## A full calibration begins (R386, R390) -/

namespace State

theorem log_cal (s : State) c b e d p st a x : (s.log c b e d p st a x).cal = s.cal :=
  (State.log_kept (Kept.refl [.pfMsix, .irqs, .ras] s) rfl).cal_eq rfl

/-- R394: a rollback is counted, and no full calibration changes. -/
theorem slotBack_full (s : State) (p : Port) (c : Nat) : (s.slotBack p c).cal.full = s.cal.full := by
  unfold slotBack
  split
  · split
    · rfl
    · split
      · rfl
      · rw [log_cal]
        rfl
  · rfl

theorem slotAbort_full (s : State) (p : Port) (c : Nat) : (s.slotAbort p c).cal.full = s.cal.full := by
  unfold slotAbort
  split
  · rw [slotBack_full, (State.sendCtl_kept (Kept.refl [.sends, .links] s) rfl).cal_eq rfl]
  · rfl

theorem slotAbort_cal (s : State) (p : Port) (c : Nat) (q : Port) : ((s.slotAbort p c).port q).cal = (s.port q).cal := by
  unfold slotAbort
  split
  · rw [slotBack_port_keeps _ p PortSt.cal (fun _ _ => rfl) (fun _ _ => rfl), sendCtl_port]
  · rfl

theorem portDark_full (s : State) (p : Port) (n : Nat) : (s.portDark p n).cal.full = s.cal.full := s.slotBack_full p 2

theorem portDark_cal (s : State) (p : Port) (n : Nat) (q : Port) : ((s.portDark p n).port q).cal = (s.port q).cal := by
  unfold portDark
  dsimp only
  rw [setPort_port_keeps _ p PortSt.cal rfl q, setLink_port, slotBack_port_keeps _ p PortSt.cal (fun _ _ => rfl) (fun _ _ => rfl)]

theorem linkDown_full (s : State) (p : Port) : (s.linkDown p).cal.full = s.cal.full := by
  unfold linkDown
  split
  · rfl
  · show ((s.slotBack p 2).swapFail p _).cal.full = _
    rw [(State.swapFail_kept (Kept.refl [.mbx, .pfMsix, .irqs, .links, .hostMem] _) rfl).cal_eq rfl, slotBack_full]

theorem linkDown_cal (s : State) (p q : Port) : ((s.linkDown p).port q).cal = (s.port q).cal := by
  unfold linkDown
  split
  · rfl
  · exact linkLeave_port_keeps s p PortSt.cal (fun _ _ => rfl) (fun _ _ => rfl) .down q

/-- The parts of the state that a full calibration's beginning may change. -/
def fullParts : List Slice := slicesBut [.col, .start, .laser]

/-- R390: a port leaves service before its full calibration begins. -/
def portCleared (s : State) (p : Port) : State :=
  let s := match (s.link p).slot with | some _ => s.slotAbort p 1 | none => s
  let r := s.port p
  let s := s.portDark p (if r.state = 0 ∨ r.state = 1 ∨ r.state = 7 then r.state else 2)
  if (s.link p).st = .down ∨ (s.link p).st = .failed then s else (s.linkDown p).linkGiveUp p

theorem fullStart_eq (s : State) (mask : Nat) (byReq : Bool) : s.fullStart mask byReq =
    State.each { s with cal := { s.cal with full := some (mask, byReq, s.now), portsOk := 0, portsFail := 0 } }
      (allPorts.filter (fun p => bitAt mask p.val)) (fun s p => (s.portCleared p).calBegin p) := by
  unfold fullStart portCleared
  rfl

/-- R390: leaving service begins and ends no full calibration. -/
theorem portCleared_keeps (s : State) (p : Port) : Kept fullParts s (s.portCleared p) ∧ (s.portCleared p).cal.full = s.cal.full
    ∧ ∀ q, ((s.portCleared p).port q).cal = (s.port q).cal := by
  unfold portCleared
  extract_lets a r d
  have ha : Kept fullParts s a ∧ a.cal.full = s.cal.full ∧ ∀ q, (a.port q).cal = (s.port q).cal := by
    unfold a
    split
    · exact ⟨State.slotAbort_kept (Kept.refl _ s) rfl, s.slotAbort_full p 1, s.slotAbort_cal p 1⟩
    · exact ⟨Kept.refl _ s, rfl, fun _ => rfl⟩
  obtain ⟨hka, hfa, hca⟩ := ha
  have hkd : Kept fullParts s d := State.portDark_kept hka rfl
  have hfd : d.cal.full = s.cal.full := (a.portDark_full p _).trans hfa
  have hcd : ∀ q, (d.port q).cal = (s.port q).cal := fun q => (a.portDark_cal p _ q).trans (hca q)
  split
  · exact ⟨hkd, hfd, hcd⟩
  · have hk : Kept (slicesBut [.ports, .cal]) (d.linkDown p) ((d.linkDown p).linkGiveUp p) := State.linkGiveUp_kept (Kept.refl _ _) rfl
    exact ⟨State.linkGiveUp_kept (State.linkDown_kept hkd rfl) rfl, by rw [hk.cal_eq rfl, linkDown_full, hfd],
      fun q => by rw [hk.port_eq rfl, linkDown_cal, hcd]⟩

/-- R386: the run of a port that begins is at step 1. -/
theorem calBegin_cal (s : State) (p : Port) : ∃ c, ((s.calBegin p).port p).cal = some c ∧ c.step = 1 ∧ c.since = s.now :=
  ⟨_, congrArg PortSt.cal (setPort_port_same ..), rfl, rfl⟩

theorem calBegin_cal_other (s : State) {p q : Port} (h : p ≠ q) : ((s.calBegin p).port q).cal = (s.port q).cal :=
  congrArg PortSt.cal (setPort_port_other _ _ h)

/-- R390: a full calibration is on record with its mask and the time it began, and runs at step 1 on each port of the mask. -/
theorem fullStart_runs (s : State) (mask : Nat) (byReq : Bool) : (s.fullStart mask byReq).cal.full = some (mask, byReq, s.now)
    ∧ ∀ p : Port, bitAt mask p.val = true → ∃ c, ((s.fullStart mask byReq).port p).cal = some c ∧ c.step = 1 ∧ c.since = s.now := by
  have hvisit : ∀ (v : State) (a : Port), Kept fullParts v ((v.portCleared a).calBegin a) := fun v a =>
    State.calBegin_kept (v.portCleared_keeps a).1 rfl
  rw [fullStart_eq]
  generalize hu : ({ s with cal := { s.cal with full := some (mask, byReq, s.now), portsOk := 0, portsFail := 0 } } : State) = u
  have hfull : u.cal.full = some (mask, byReq, s.now) := by rw [← hu]
  have hnow : u.now = s.now := by rw [← hu]; rfl
  refine ⟨?_, fun p hp => ?_⟩
  · exact State.each_inv (P := fun v => v.cal.full = some (mask, byReq, s.now)) hfull
      (fun v a _ hv => (v.portCleared_keeps a).2.1.trans hv)
  · refine State.each_establishes (L := fullParts)
      (P := fun v => ∃ c, (v.port p).cal = some c ∧ c.step = 1 ∧ c.since = s.now) hvisit (fun v hv => ?_) (fun v a ha hv => ?_)
      (List.mem_filter.mpr ⟨List.mem_finRange p, hp⟩)
    · obtain ⟨c, hc, hstep, hsince⟩ := (v.portCleared p).calBegin_cal p
      exact ⟨c, hc, hstep, by rw [hsince, ((v.portCleared_keeps p).1).now_eq rfl, hv.now_eq rfl, hnow]⟩
    · obtain ⟨-, -, hkeep⟩ := v.portCleared_keeps a
      rw [calBegin_cal_other _ ha, hkeep]
      exact hv

theorem allRun_congr {s u : State} (h : u.laser = s.laser) : u.allRun = s.allRun := by
  simp only [allRun, usable, covers, las, h]

/-- R402: a full calibration goes on while a port is in it. -/
theorem fullCheck_of_running {s : State} {p : Port} {c : CalRun} (h : (s.port p).cal = some c) : s.fullCheck = s := by
  have hany : allPorts.any (fun p => (s.port p).cal.isSome) = true :=
    List.any_eq_true.mpr ⟨p, List.mem_finRange p, by rw [h]; rfl⟩
  unfold fullCheck
  split
  · exact if_pos hany
  · rfl

end State

/-- R390: a CAL_FULL begins a full calibration on the ports of its mask. -/
theorem exec_calFull {s : State} {req : List Byte} {p : Port} (h : Asked s 0x200 req) (hready : s.isReady = true)
    (hno : s.cal.full = none) (hrun : s.allRun = true) (hp : bitAt (leAt req 8 1) p.val = true) :
    ∃ t c, exec .calFull s = .next t ∧ t.cal.full = some (leAt req 8 1, true, s.now)
      ∧ (t.port p).cal = some c ∧ c.step = 1 ∧ c.since = s.now := by
  have hready' : ¬ (! s.isReady) = true := by simp [hready]
  have hno' : ¬ s.cal.full.isSome = true := by simp [hno]
  have hall : ((s.mbxStart req).fullStart (leAt req 8 1) true).allRun = true := by
    rw [State.allRun_congr (State.fullStart_laser ..)]
    exact hrun
  obtain ⟨hfull, hports⟩ := (s.mbxStart req).fullStart_runs (leAt req 8 1) true
  obtain ⟨c, hc, hstep, hsince⟩ := hports p hp
  refine ⟨_, c, ?_, hfull, hc, hstep, hsince⟩
  rw [exec, execCalFull, h.onRequest, if_neg hready', if_neg hno']
  dsimp only
  rw [if_pos hall, State.fullCheck_of_running hc]

namespace State

/-- R402: a port that leaves its calibration keeps the rest of itself. -/
theorem calLeave_port (s : State) (p : Port) (ok : Bool) : (s.calLeave p ok).port p = { s.port p with cal := none } := by
  unfold calLeave
  dsimp only
  rw [(State.fullCheck_kept (Kept.refl [.start, .mbx, .pfMsix, .irqs, .cal, .hostMem] _) rfl).port_eq rfl]
  exact setPort_port_same ..

/-- R389: a calibration that fails leaves every ring of its port OFF. -/
theorem calFail_port (s : State) (p : Port) :
    (s.calFail p).port p = { s.port p with cal := none, rings := vmap (fun x => RingSt.enter x .off) (s.port p).rings } := by
  unfold calFail
  dsimp only
  rw [calLeave_port, (State.sweepFailed_kept (Kept.refl [.pfMsix, .irqs, .ras, .cal] _) rfl).port_eq rfl, setPort_port_same]

end State

/-- R389: a step past its limit ends the calibration of its port with every ring OFF. -/
theorem exec_calStepLimit {s : State} {p : Port} {c : CalRun} (hcal : (s.port p).cal = some c) (hlate : c.since + calLimit c.step ≤ s.now) :
    ∃ t, exec (.calStepLimit p) s = .next t ∧ (t.port p).cal = none ∧ ∀ k, (t.ring p k).mode = .off := by
  simp only [exec, execCalStepLimit, hcal, s.when_true _ (State.past_of_le hlate)]
  refine ⟨_, rfl, by rw [State.calFail_port], fun k => ?_⟩
  rw [State.ring, State.calFail_port]
  show (tget (vmap (fun x => RingSt.enter x .off) (s.port p).rings) k).mode = .off
  rw [tget_vmap, RingSt.enter_mode]

namespace State

/-- R402: a port that has not ended its calibration is failed: it leaves it with every ring OFF. -/
def portStopped (r : PortSt) : PortSt := { r with cal := none, rings := vmap (fun x => x.enter .off) r.rings }

/-- R402: the ports not done are failed at once. -/
def portsStopped (u : State) (l : List Port) : State := u.each l (fun v q => v.setPort q portStopped)

theorem portsStopped_kept (u : State) (l : List Port) : Kept [.ports] u (u.portsStopped l) :=
  Kept.each (Kept.refl _ u) (fun _ _ hw => State.setPort_kept hw rfl)

theorem portsStopped_cal {s u : State} (h : ∀ p, u.port p = s.port p) (p : Port) :
    ((u.portsStopped (allPorts.filter (fun p => (s.port p).cal.isSome))).port p).cal = none := by
  have hnd : (allPorts.filter (fun p => (s.port p).cal.isSome)).Nodup := (List.nodup_finRange 8).filter _
  have heach : (u.portsStopped (allPorts.filter (fun p => (s.port p).cal.isSome))).port p = _ :=
    State.each_at (get := fun v q => v.port q) (G := fun _ r => portStopped r) (I := fun _ => True)
      hnd trivial (fun _ _ _ => trivial) (fun v a _ => v.setPort_port_same a _) (fun v a b _ e => v.setPort_port_other _ e) p
  rw [heach]
  split
  · rfl
  · next hout =>
    rw [h]
    by_contra hsome
    exact hout (List.mem_filter.mpr ⟨List.mem_finRange p, Option.isSome_iff_ne_none.mpr hsome⟩)

/-- R402: what ends a full calibration at its limit, before its reply. -/
def fullStopped (s : State) : State :=
  let left := allPorts.filter (fun p => (s.port p).cal.isSome)
  ({ s with cal := { s.cal with full := none, portsFail := left.foldl (fun (m : Nat) (p : Port) => m ||| 2 ^ p.val) s.cal.portsFail } }
    : State).portsStopped left

theorem fullStopped_cal (s : State) : s.fullStopped.cal.full = none ∧ s.fullStopped.cal.portsOk = s.cal.portsOk := by
  unfold fullStopped
  extract_lets left
  rw [(portsStopped_kept _ left).cal_eq rfl]
  exact ⟨rfl, rfl⟩

theorem fullStopped_port_cal (s : State) (p : Port) : (s.fullStopped.port p).cal = none := portsStopped_cal (fun _ => rfl) p

theorem fullStopped_kept (s : State) : Kept [.ports, .cal] s s.fullStopped :=
  Kept.each (Kept.set_cal (Kept.refl _ s) rfl) (fun _ _ hw => State.setPort_kept hw rfl)

theorem execCalFullTimeout_of_late {s : State} {m a : Nat} (hfull : s.cal.full = some (m, true, a)) (hlate : a + sCyc 6 ≤ s.now) :
    execCalFullTimeout s = .next (s.fullStopped.mbxDone (stTimeout 7)
      [(8, leBytes 1 s.fullStopped.cal.portsOk), (9, leBytes 1 s.fullStopped.cal.portsFail)]) := by
  simp only [execCalFullTimeout, hfull, s.when_true _ (State.past_of_le hlate)]
  unfold fullStopped portsStopped portStopped
  rfl

end State

/-- R402: a calibration past 6 s is answered TIMEOUT, SUB 7. -/
theorem exec_calFullTimeout {s : State} {req : List Byte} {m a b : Nat} (hcanon : Canon s) (hfull : s.cal.full = some (m, true, a))
    (hlate : a + sCyc 6 ≤ s.now) (hbusy : s.mbx.busy = some (req, b)) (hempty : s.mbx.reqHead = s.mbx.reqTail) :
    ∃ t, exec .calFullTimeout s = .next t
      ∧ Answered s t req (stTimeout 7) [(8, leBytes 1 t.cal.portsOk), (9, leBytes 1 t.cal.portsFail)]
      ∧ t.cal.full = none ∧ t.cal.portsOk = s.cal.portsOk ∧ ∀ p, (t.port p).cal = none := by
  obtain ⟨hnone, hok⟩ := s.fullStopped_cal
  have hkept := s.fullStopped_kept
  obtain ⟨hcanon', -⟩ := hkept.mem hcanon
  have hfit : FieldsFit [(8, leBytes 1 s.fullStopped.cal.portsOk), (9, leBytes 1 s.fullStopped.cal.portsFail)] :=
    FieldsFit.pair (by simp) (by simp) (by simp [FieldsApart])
  have hans := State.mbxDone_answered hcanon' (hkept.mbx_eq rfl) hbusy hempty hfit (stTimeout 7) 0
  have hk : Kept [.mbx, .pfMsix, .irqs, .hostMem] s.fullStopped (s.fullStopped.mbxDone (stTimeout 7)
      [(8, leBytes 1 s.fullStopped.cal.portsOk), (9, leBytes 1 s.fullStopped.cal.portsFail)]) := State.mbxDone_kept (Kept.refl _ _) rfl
  have hcal := hk.cal_eq rfl
  refine ⟨_, (State.execCalFullTimeout_of_late hfull hlate : _), ?_, ?_, ?_, fun p => ?_⟩
  · rw [hcal]
    exact hans
  · rw [hcal, hnone]
  · rw [hcal, hok]
  · rw [hk.port_eq rfl, State.fullStopped_port_cal]

/-! ## Attempts on a position in FAULT (R391) -/

namespace State

/-- R391: what an attempt that falls due does at one ring of a position. -/
def retry (s : State) (p : Port) (g : Pos) (rx : Bool) : State :=
  let t := tget (tget (s.port p).tried (dirIdx rx)) g
  let busy := (s.port p).acq.any (fun a => a.rx == rx && a.pos == g)
  if s.pos p rx g == .fault && ! busy && s.past t.2 (retryAfter t.1) && s.start.sysLock then
    let s := s.setPort p (fun r => { r with tried := updWith r.tried (dirIdx rx) (fun v => upd v g (t.1 + 1, s.now)) })
    s.startAcq p rx g false
  else s

theorem each_pair {α : Type} (s : State) (a b : α) (f : State → α → State) : s.each [a, b] f = f (f s a) b := rfl

theorem execAcquisitionRetry_eq (s : State) (p : Port) (g : Pos) :
    execAcquisitionRetry p g s = .next (s.each [false, true] (fun v rx => v.retry p g rx)) := by
  unfold execAcquisitionRetry retry
  rfl

theorem retry_of_not_fault {s : State} {p : Port} {g : Pos} {rx : Bool} (h : s.pos p rx g ≠ .fault) : s.retry p g rx = s := by
  unfold retry
  dsimp only
  rw [if_neg (by simp [h])]

theorem startAcq_pos (s : State) (p : Port) (rx : Bool) (g : Pos) (b : Bool) (d : Bool) (h : Pos) :
    (s.startAcq p rx g b).pos p d h = s.pos p d h := by
  unfold startAcq setRing
  dsimp only
  rw [pos, setPort_port_same, setPort_port_same]
  rfl

theorem startAcq_tried (s : State) (p : Port) (rx : Bool) (g : Pos) (b : Bool) :
    ((s.startAcq p rx g b).port p).tried = (s.port p).tried := by
  unfold startAcq setRing
  dsimp only
  rw [setPort_port_same, setPort_port_same]
  rfl

section
variable {s : State} {p : Port} {g : Pos} {rx : Bool}

/-- R391: an attempt that is due is counted, and the ring is swept. -/
theorem retry_of_due (hpos : s.pos p rx g = .fault) (hacq : (s.port p).acq = [])
    (hdue : (tget (tget (s.port p).tried (dirIdx rx)) g).2 + retryAfter (tget (tget (s.port p).tried (dirIdx rx)) g).1 ≤ s.now)
    (hlock : s.start.sysLock = true) :
    tget (tget ((s.retry p g rx).port p).tried (dirIdx rx)) g = ((tget (tget (s.port p).tried (dirIdx rx)) g).1 + 1, s.now)
      ∧ ((s.retry p g rx).ring p (ringOf rx g)).mode = .hold
      ∧ ((s.retry p g rx).port p).acq.map (fun a => (a.rx, a.pos, a.idx, a.slot)) = [(rx, g, 0, false)]
      ∧ ∀ d h, (s.retry p g rx).pos p d h = s.pos p d h := by
  unfold retry
  extract_lets t busy u
  have hbusy : busy = false := by
    unfold busy
    rw [hacq]
    rfl
  have hc : (s.pos p rx g == .fault && ! busy && s.past t.2 (retryAfter t.1) && s.start.sysLock) = true := by
    simp [hpos, hbusy, hlock, t, State.past_of_le hdue]
  rw [if_pos hc]
  have hport : u.port p = { s.port p with tried := updWith (s.port p).tried (dirIdx rx) (fun v => upd v g (t.1 + 1, s.now)) } := by
    unfold u
    rw [setPort_port_same]
  have hidle : (u.port p).acq = [] := by rw [hport]; exact hacq
  obtain ⟨hmode, hone⟩ := startAcq_of_idle hidle rx g false
  refine ⟨?_, hmode, hone, fun d h => ?_⟩
  · rw [startAcq_tried, hport]
    show tget (tget (updWith _ _ _) _) g = _
    rw [tget_updWith_same, tget_upd_same]
  · rw [startAcq_pos, pos, hport]
    rfl

end

end State

/-- R391: a position in FAULT is swept again when its attempt falls due. -/
theorem exec_acquisitionRetry {s : State} {p : Port} {rx : Bool} {g : Pos} (hpos : s.pos p rx g = .fault)
    (hother : s.pos p (! rx) g ≠ .fault) (hacq : (s.port p).acq = [])
    (hdue : (tget (tget (s.port p).tried (dirIdx rx)) g).2 + retryAfter (tget (tget (s.port p).tried (dirIdx rx)) g).1 ≤ s.now)
    (hlock : s.start.sysLock = true) :
    ∃ t, exec (.acquisitionRetry p g) s = .next t
      ∧ tget (tget (t.port p).tried (dirIdx rx)) g = ((tget (tget (s.port p).tried (dirIdx rx)) g).1 + 1, s.now)
      ∧ (t.ring p (ringOf rx g)).mode = .hold ∧ (t.port p).acq.map (fun a => (a.rx, a.pos, a.idx, a.slot)) = [(rx, g, 0, false)] := by
  obtain ⟨htried, hmode, hone, hkeep⟩ := State.retry_of_due hpos hacq hdue hlock
  have hrun : (s.retry p g false).retry p g true = s.retry p g rx := by
    cases rx with
    | false => exact State.retry_of_not_fault (by rw [hkeep]; exact hother)
    | true => rw [State.retry_of_not_fault (rx := false) hother]
  refine ⟨_, ?_, htried, hmode, hone⟩
  rw [exec, State.execAcquisitionRetry_eq, State.each_pair, hrun]

/-! ## Snapshots (R397, R399) -/

/-- R397: every 60 s while a port is UP a snapshot is captured. -/
theorem exec_snapshotCapture {s : State} {p : Port} (hup : (s.port p).state = 4) (hdue : s.cal.capAt + sCyc 60 ≤ s.now)
    (hfree : s.calBusy = false) :
    ∃ t, exec .snapshotCapture s = .next t ∧ t.cal.sealed = true ∧ t.cal.snap = s.snapBytes 1 ∧ t.cal.snapTime = s.time
      ∧ t.cal.capAt = s.now ∧ Only [.cal] s t := by
  have hany : allPorts.any (fun p => decide ((s.port p).state = 4)) = true :=
    List.any_eq_true.mpr ⟨p, List.mem_finRange p, decide_eq_true hup⟩
  have hc : (allPorts.any (fun p => decide ((s.port p).state = 4)) && s.past s.cal.capAt (sCyc 60)) = true := by
    rw [hany, State.past_of_le hdue]
    rfl
  have hfree' : ¬ s.calBusy = true := by simp [hfree]
  simp only [exec, execSnapshotCapture, s.when_true _ hc, State.capture, if_neg hfree']
  exact ⟨_, rfl, rfl, rfl, rfl, rfl, (Kept.set_cal (Kept.refl _ s) rfl).only⟩

/-- R399: a sealed snapshot is written to its flash slot. -/
theorem exec_snapshotFlashWrite {s : State} (hbusy : s.cal.flashBusy = true) (hstop : s.start.stop = none) (hsealed : s.cal.sealed = true) :
    ∃ t, exec (.snapshotFlashWrite true) s = .next t ∧ t.cal.flashBusy = false ∧ t.cal.flashAt = s.now
      ∧ t.flash = ((s.flashErase s.flashTarget 0x10000).flashProgram s.flashTarget s.cal.snap).flash ∧ Only [.cal, .flash] s t := by
  have hc : (s.cal.flashBusy && s.start.stop.isNone && s.cal.sealed) = true := by simp [hbusy, hstop, hsealed]
  have herase : Kept [.cal, .flash] s (s.flashErase s.flashTarget 0x10000) := State.flashErase_kept (Kept.refl _ s) rfl
  simp only [exec, execSnapshotFlashWrite, s.when_true _ hc, if_true]
  exact ⟨_, rfl, rfl, rfl, rfl, (State.flashProgram_kept (Kept.set_cal herase rfl) rfl).only⟩

/-- Settles O43: a clause for each command, by its rule above. -/
theorem fullCalibration : Obligations.FullCalibration := by
  unfold Obligations.FullCalibration
  exact ⟨fun _ _ _ => exec_calFull, fun _ _ _ => exec_calStepLimit, fun _ _ _ _ _ => exec_calFullTimeout,
    fun _ _ _ _ => exec_acquisitionRetry, fun _ _ => exec_snapshotCapture, fun _ => exec_snapshotFlashWrite⟩

/-! ## States that meet the hypotheses of O43 and O44 -/

/-- A slot of transmit position 3 at the stage given, which this end announced; the saved code is 1,280 and the saved bias 5. -/
def slotAt (stage : Nat) : SlotSt :=
  { leadTx := true, pos := 3, frame := 0, own := true, at_ := 0, stage := stage, saved := (1280, 5, 9, .track), committed := false
    backAt := 0 }

/-- An UP link with such a slot. -/
def linkInSlot (stage : Nat) (l : LinkSt) : LinkSt := { upLink l with slot := some (slotAt stage) }

/-- Two transmit positions are WARM. -/
def twoWarm (r : PortSt) : PortSt := (r.setPos false 5 .warm).setPos false 3 .warm

/-- The lead announces a slot for the lower of two rings of one age. -/
theorem calSlotStart_oneEnd : ∃ t, exec (.calSlotStart 0) (oneEnd 50000000 twoWarm (fun l => { upLink l with lead := true })) = .next t
    ∧ ((t.link 0).slot.map (fun x => (x.pos, x.stage))) = some (3, 0) := by
  obtain ⟨t, ht, hslot⟩ := exec_calSlotStart (p := 0) (rx := false) (g := 3)
    (s := oneEnd 50000000 twoWarm (fun l => { upLink l with lead := true }))
    (by rw [oneEnd_link]; rfl) (by rw [oneEnd_link]) rfl (by rw [oneEnd_link]; rfl) (by rw [oneEnd_link]; decide) rfl
    (by rw [oneEnd_port]; rfl) (by rw [oneEnd_port]; decide) (by rw [State.pos, oneEnd_port, twoWarm, PortSt.setPos_pos_same]; decide)
  exact ⟨t, ht, by rw [hslot]; rfl⟩

theorem calRxDone_inSlot : ∃ t, exec (.calRxDone 0 0) (oneEnd 9 id (linkInSlot 3)) = .next t
    ∧ (t.link 0).slotEnd = 9 ∧ t.pos 0 false 3 = .warm := by
  obtain ⟨t, ht, -, hend, hwarm, -⟩ := exec_calRxDone (s := oneEnd 9 id (linkInSlot 3)) (p := 0) (x := slotAt 3) (by rw [oneEnd_link]; rfl) rfl
    rfl (by rw [oneEnd_port]; rfl)
  exact ⟨t, ht, hend, hwarm⟩

theorem calAbort_inSlot : ∃ t, exec (.calAbort 0 1) (oneEnd 9 id (linkInSlot 2)) = .next t ∧ (t.ring 0 3).u = 1280 ∧ (t.ring 0 3).bias = 5 := by
  obtain ⟨t, ht, -, -, hcode, hbias⟩ := exec_calAbort (s := oneEnd 9 id (linkInSlot 2)) (p := 0) (x := slotAt 2) (cause := 1)
    (by rw [oneEnd_link]; rfl) (by decide) (by decide)
  exact ⟨t, ht, hcode, hbias⟩

/-- SLOT_LIMIT_MS is 100 after reset. -/
theorem slotLimitExpiry_inSlot : ∃ t, exec (.slotLimitExpiry 0) (oneEnd 2500000 id (linkInSlot 2)) = .next t ∧ (t.ring 0 3).mode = .track := by
  obtain ⟨t, ht, -, hmode, -⟩ := exec_slotLimitExpiry (s := oneEnd 2500000 id (linkInSlot 2)) (p := 0) (x := slotAt 2)
    (by rw [oneEnd_link]; rfl) rfl (by decide) (by decide) (by decide)
  exact ⟨t, ht, hmode⟩

theorem rollbackTimeout_inSlot : ∃ t, exec (.rollbackTimeout 0) (oneEnd 125000 id (linkInSlot 4)) = .next t ∧ t.pos 0 false 3 = .fault := by
  obtain ⟨t, ht, -, hpos⟩ := exec_rollbackTimeout (s := oneEnd 125000 id (linkInSlot 4)) (p := 0) (x := slotAt 4) (by rw [oneEnd_link]; rfl) rfl
    (by decide)
  exact ⟨t, ht, hpos⟩

/-- Step 1 of a full calibration, begun at reset; its limit is 10 ms. -/
def firstStep (r : PortSt) : PortSt :=
  { r with cal := some { step := 1, since := 0, set := 0, idx := 0, samples := [], dips := rep 18 none, okF4 := rep 18 false, before := []
                         coup := [], lastT := none, ph := 0, phAt := 0 } }

theorem calStepLimit_firstStep : ∃ t, exec (.calStepLimit 0) (oneEnd 250000 firstStep id) = .next t ∧ (t.ring 0 7).mode = .off := by
  obtain ⟨t, ht, -, hoff⟩ := exec_calStepLimit (s := oneEnd 250000 firstStep id) (p := 0) (by rw [oneEnd_port]; rfl) (by decide)
  exact ⟨t, ht, hoff 7⟩

/-- A request of the mailbox in execution for 6 s; the other ports are done. -/
def lateCalFull : State :=
  { State.reset with
    col := { Col.reset with cyc := 150000000 }
    mbx := { MbxSt.reset with busy := some ([], 0) }
    cal := { CalSt.reset with full := some (255, true, 0), portsOk := 254 } }

theorem calFullTimeout_lateCalFull : ∃ t, exec .calFullTimeout lateCalFull = .next t ∧ t.mbx.busy = none ∧ t.cal.portsOk = 254 := by
  obtain ⟨t, ht, hans, -, hok, -⟩ := exec_calFullTimeout (s := lateCalFull) (req := []) (b := 0) { resetIsCanonical with } rfl (by decide) rfl rfl
  exact ⟨t, ht, hans.busy, hok⟩

/-- Receive position 3 is in FAULT since reset; a second later its first attempt falls due. -/
def faultedPort : State :=
  { onePort (fun r => r.setPos true 3 .fault) with
    col := { Col.reset with cyc := 25000000 }
    start := { StartSt.reset with sysLock := true } }

theorem faultedPort_port : faultedPort.port 0 = PortSt.reset.setPos true 3 .fault := onePort_port _

theorem acquisitionRetry_faultedPort : ∃ t, exec (.acquisitionRetry 0 3) faultedPort = .next t ∧ (t.ring 0 21).mode = .hold := by
  have h := faultedPort_port
  obtain ⟨t, ht, -, hmode, -⟩ := exec_acquisitionRetry (s := faultedPort) (p := 0) (rx := true) (g := 3)
    (by rw [State.pos, h]; exact PortSt.setPos_pos_same ..) (by rw [State.pos, h]; decide) (by rw [h]; rfl) (by rw [h]; decide) rfl
  exact ⟨t, ht, hmode⟩

theorem snapshotCapture_oneEnd : ∃ t, exec .snapshotCapture (oneEnd 1500000000 upPort id) = .next t ∧ t.cal.sealed = true := by
  obtain ⟨t, ht, hsealed, -⟩ := exec_snapshotCapture (s := oneEnd 1500000000 upPort id) (p := 0) (by rw [oneEnd_port]; rfl) (by decide)
    (by decide)
  exact ⟨t, ht, hsealed⟩

theorem snapshotFlashWrite_sealed : ∃ t, exec (.snapshotFlashWrite true)
    ({ State.reset with cal := { CalSt.reset with sealed := true, flashBusy := true } } : State) = .next t ∧ t.cal.flashBusy = false := by
  obtain ⟨t, ht, hdone, -⟩ := exec_snapshotFlashWrite
    (s := { State.reset with cal := { CalSt.reset with sealed := true, flashBusy := true } }) rfl rfl rfl
  exact ⟨t, ht, hdone⟩

end Sys2Proof.Machine
